-- ==== Sys2Proof/Word.lean ====
section
/-! DEFINITION. The words of the device: a register is 32 bits unless it is marked 64 (R9), memory is bytes, a tally
is 128 bits (R81). `Sparse` is the one shape of every large store of the model: key and value pairs, keys rising. -/

namespace Sys2Proof

/-- A byte of a memory. -/
abbrev Byte := BitVec 8

/-- A 32-bit register (R9). -/
abbrev Word := BitVec 32

/-- A 64-bit register or a 64-bit word of a store (R9, R310). -/
abbrev DWord := BitVec 64

/-- A tally's value bits (R81). -/
abbrev Tally := BitVec 128

/-- A store listed by key; what an unlisted key holds is said where the store is used. -/
abbrev Sparse (α : Type) := List (Nat × α)

end Sys2Proof
end

