-- ==== Sys2Proof/Syntax.lean ====
section
/-! DEFINITION. The commands the block takes: one constructor of `Instr` for each row of spec/opcode_table.json, with
the row's operands. A value that a measurement, a far party or a disturbance of the hardware supplies is an operand. -/

namespace Sys2Proof

/-- The four order sources (R684); a peer carries its physical device ID. -/
inductive Source where
  | keeper | bmc | host
  | peer (dev : Byte)
  deriving DecidableEq, Repr

/-- One flit of a packet as a tile port or a sender sees it: header lane, payload and POISON (R228, R231). -/
structure PFlit where
  lane : BitVec 128
  pay : BitVec 512
  poison : Bool
  deriving DecidableEq, Repr

/-- A whole mesh packet; the first flit is the head flit, whose lane is the packet header (R241). -/
structure MeshPkt where
  flits : List PFlit
  esc : Bool
  deriving DecidableEq, Repr

/-- One flit on a link: the 23-bit control word, the header lane and the payload lane (R228, R231). -/
structure Flit where
  ctl : BitVec 23
  lane : BitVec 128
  pay : BitVec 512
  deriving DecidableEq, Repr

/-- What an input link of a router carries in one cycle: a flit with a credit return (R228), or a beat of a seam bridge, whose control
wires hold one (R283, R284). A credit return is VALID, VC and ESC as in bits [15:12] of a beat. -/
inductive LinkIn where
  | flit (f : Flit) (credit : BitVec 4)
  | beat (data : BitVec 256) (ctl : BitVec 16)
  deriving DecidableEq, Repr

/-- A row that a DMA write brings to an operand store, with the comb cycle at whose end it lands (R160, R161). -/
structure OpsRow where
  data : List Byte
  cyc : Nat
  deriving DecidableEq, Repr

/-- A stored or carried 64-bit word with its 8 check bits (R310, R341). -/
structure RowWord where
  data : DWord
  chk : Byte
  deriving DecidableEq, Repr

/-- A disturbance of stored bits that a read meets: byte address in the store and the bits that flip. -/
structure Flip where
  addr : Nat
  bits : Byte
  deriving DecidableEq, Repr

/-- A disturbance of an M tile during a pass (what R138 to R144, R128 and R162 are there to catch). -/
inductive Upset where
  | blockSum (feature plane block col : Nat) (delta : Int)
  | planeElem (plane row col : Nat) (code : BitVec 16)
  | parity (feature plane : Nat)
  | scaleDup (feature plane block col : Nat)
  | store (flip : Flip)
  deriving DecidableEq, Repr

/-- A draft distribution or target distribution of speculative verification: token IDs and probabilities (R192). -/
abbrev Dist := List (Nat × Word)

/-- The operation of an SFN with the operands its parameter row holds (R175, R176; the row's layout is open, log 10).
`ids` are the token IDs of the vector's elements, so that a tile may order its share of the vocabulary or merge the lists of
several tiles (R189); `words`, `dest` and `flow` are the steer words of the draft groups and where they go (R193). -/
inductive SOp where
  | add (y : List Word) | sub (y : List Word) | mul (y : List Word)
  | fma (y z : List Word)
  | div (y : List Word) | recip
  | sqrt | rsqrt
  | exp | exp2 | ln | log2 | sin | cos | tanh | sigmoid | erf | geluErf | geluTanh | silu
  | max (y : List Word) | min (y : List Word) | compare (y : List Word)
  | softmax (first : Bool) (m l : Word) (o ob : List Word)
  | rmsNorm (g : List Word) (eps : Word)
  | layerNorm (g b : List Word) (eps : Word)
  | rotary (fr : List Word) (pos : Nat)
  | topk (ids : List Word) (k pos stream : Nat)
  | sample (ids : List Word) (tau : Word) (k : Nat) (p : Word) (seed : BitVec 128) (pos stream : Nat)
  | verify (ids : List Word) (seed : BitVec 128) (pos stream : Nat) (drafts : List Nat) (q p : List Dist)
      (tau : Word) (k : Nat) (topP : Word) (words : List DWord) (dest : BitVec 16) (flow : Nat)
  | requant (target : Nat)
  deriving DecidableEq, Repr

/-- What an S operation produces: FP32 values or codes, the POISON bit, and token IDs (R174, R195). -/
structure SOut where
  vals : List Word
  poison : Bool
  toks : List Nat
  deriving DecidableEq, Repr

/-- What a neighbour tells at identity exchange (R577). -/
structure Ident where
  serial : DWord
  dev : Byte
  idValid : Bool
  port : Nat
  isSwitch : Bool
  timeTc : Bool
  deriving DecidableEq, Repr

/-- Lane order found in step 4 of training (R576). -/
inductive LaneOrder where
  | straight | reversed
  | other (lanes : Word)
  deriving DecidableEq, Repr

/-- What the training of one Treath port finds (R576). Bit n of a mask is physical lane n. -/
structure TrainInfo where
  short : Byte
  opened : Byte
  eqFail : Byte
  polInv : Byte
  order : LaneOrder
  fecLock : Bool
  nbr : Option Ident
  deriving DecidableEq, Repr

/-- A result record of a slice step or of a sampled token (R612). -/
structure ResRec where
  stream : Nat
  pos : Nat
  token : Nat
  lp : Word
  deriving DecidableEq, Repr

/-- An intake record carried in COMMIT: its 64 bytes and the token IDs of an APPEND (R613). -/
structure CarriedRec where
  bytes : List Byte
  toks : List Word
  deriving DecidableEq, Repr

/-- The outcome of a record, to be reported at the next commit point (R436). `dest` is none where the status block of the
stream's own entry carries it; a failed OPEN has its own STATUS_ADDR there, or 0 where none is to be written (R437). -/
structure Report where
  stream : Nat
  oseq : Nat
  result : Nat
  dest : Option Nat
  deriving DecidableEq, Repr

/-- What COMMIT carries (R613). `time` is the lead's count of the commit point, `prefill` the chunks of the step, `reports` the outcomes
that the commit point reports, `rebuild` says that a rebuild step commits (R623): with them every device makes the same change (R454, R455, R610, log 39). -/
structure CommitBody where
  results : List ResRec
  records : List CarriedRec
  switches : List (List Byte)
  remap : List (Nat × BitVec 16)
  hasStep : Bool
  time : Nat
  prefill : List (Nat × Nat)
  reports : List Report
  rebuild : Bool
  deriving DecidableEq, Repr

/-- An event that keeps a share of a step from committing (R612, R776): the page that logged it, its code, the detail that a repeat must
share, and the streams to which R100, R191 or R550 narrows it. -/
structure ShareEvent where
  page : Nat
  code : Nat
  det : Nat
  streams : List Nat
  deriving DecidableEq, Repr

/-- The eight messages of the slice protocol (R611); `sender` is a logical ID. -/
inductive SliceMsg where
  | ready (step : Word) (sender : Nat) (recs : List ResRec)
  | notReady (step : Word) (sender : Nat) (code : BitVec 16)
  | commit (step : Word) (sender : Nat) (body : CommitBody)
  | abort (step : Word) (sender : Nat)
  | done (step : Word) (sender : Nat)
  | statusQ (sender : Nat)
  | statusR (sender : Nat) (lastStep : Word)
  | beat (sender : Nat)
  deriving DecidableEq, Repr

/-- The body of a Treath packet by class (R584, R585). The answers to identity and neighbour queries carry the data of R577
and RTE_NBR0–15, whose place in the packet the spec does not give (R627, log 37). -/
inductive TBody where
  | link (credits : DWord)
  | mesh (p : MeshPkt)
  | time (rootSerial : DWord) (hops : Nat)
  | slice (head : BitVec 512) (m : SliceMsg)
  | maint (head : BitVec 512)
  | identAnswer (tag : BitVec 16) (id : Ident)
  | nbrAnswer (tag : BitVec 16) (words : List Word)
  deriving DecidableEq, Repr

/-- A Treath packet as it reaches a port: header, body and whether CRC and FEC held (R583, R586). -/
structure TPkt where
  hdr : BitVec 128
  body : TBody
  good : Bool
  deriving DecidableEq, Repr

/-- What the start test, the flash and the training find between the start instant and READY (R816 to R827). -/
structure StartEnv where
  bootFail : List (Nat × Nat × Nat)
  flashLost : Bool
  bistFail : List Nat
  karFail : List Nat
  routerFail : List Nat
  seamFail : List (Nat × Nat)
  fmax : Sparse Nat
  hbmFail : List Nat
  hbmLanes : Sparse Nat
  ports : List TrainInfo
  nonce : BitVec 128
  msTest : Nat
  msTrain : Nat
  deriving DecidableEq, Repr

/-- The readings of one 1 ms power interval (R730, R731): currents of the 56 domains in 10 mA, the three input
voltages in mV, rail voltages and delivered edges of the 24 combs, and tile-cycles occupied per comb and launch. -/
structure PowerReading where
  cur : List Nat
  vStby : Nat
  vCore : Nat
  vAux : Nat
  combMv : List Nat
  edges : List Nat
  occ : List (Nat × Nat × Nat)
  deriving DecidableEq, Repr

/-- An open-drain output pin (R891, R899). -/
inductive OutPin where
  | thermtrip | alert
  deriving DecidableEq, Repr

/-- The state of a pin's PLDM sensor (R899). -/
inductive PinSensor where
  | normal | shortLow | shortHigh
  deriving DecidableEq, Repr

/-- The commands: one constructor per row of the opcode table, in the table's order. `site` is 120 x comb + physical
index (R865), `cyc` a comb cycle of the site's comb. -/
inductive Instr where
  -- control pages (chapter 12)
  | registerWrite (src : Source) (page off width : Nat) (val : DWord) (poisoned : Bool)
  | rcRead (src : Source) (page off : Nat)
  | latchedRead (src : Source) (page off : Nat)
  | pageCommit (src : Source) (page : Nat) (check : Bool) (seq : BitVec 16)
  | pageDiscard (src : Source) (page : Nat)
  | pageClaim (src : Source) (page : Nat)
  | pageRelease (src : Source) (page : Nat)
  -- M tiles (chapter 3)
  | pass (site : Nat) (w0 : DWord) (rec : BitVec 128) (cyc : Nat) (upsets : List Upset)
  | groupEmit (site cyc : Nat) (hit : Option (Nat × Tally))
  | weightPacketIntake (site : Nat) (pkt : MeshPkt) (cyc : Nat)
  | load (site : Nat) (w0 rec : DWord)
  | planeLoadStart (site cyc : Nat)
  | planeLoadDone (site cyc : Nat)
  | wfill (site : Nat) (w0 ofs : DWord) (cyc : Nat)
  | opsDmaWrite (site row : Nat) (data : OpsRow) (src : BitVec 16)
  -- S tiles (chapter 4)
  | sfn (site : Nat) (w0 w1 : DWord) (op : SOp) (flips : List Flip)
  | shadowCompare (site : Nat) (out : SOut)
  | arbiterVerdict (site : Nat) (out : SOut)
  | shadowStall (site : Nat)
  -- W tiles (chapter 4)
  | steerWordArrive (site : Nat) (hdr : BitVec 128) (w : DWord) (poison : Bool) (cyc : Nat)
  | wagDataArrive (site : Nat) (pkt : MeshPkt) (cyc : Nat)
  | steerOrphan (site input cyc : Nat)
  -- mesh (chapter 5)
  | flitReceive (site port : Nat) (word : LinkIn) (cyc : Nat)
  | linkSilence (site port : Nat)
  | combineWindowExpire (site slot cyc : Nat)
  | sinkChunkReceive (site : Nat) (pkt : MeshPkt)
  | sealFlow (site : Nat) (dest : BitVec 16) (flow : BitVec 12)
  | deadlockSuspect (comb : Nat)
  -- B tiles (chapter 6)
  | scheduledRead (site port row : Nat) (pair : Bool) (cyc : Nat) (flips : List Flip)
  | scheduledWrite (site port row : Nat) (words : List RowWord) (cyc : Nat)
  | bRead (site : Nat) (head : BitVec 512) (hdr : BitVec 128) (poison : Bool) (cyc : Nat)
  | bWrite (site : Nat) (pkt : MeshPkt) (cyc : Nat)
  | partnerRead (site port : Nat) (head : BitVec 512) (hdr : BitVec 128) (poison : Bool) (cyc : Nat)
  | partnerWrite (site port : Nat) (pkt : MeshPkt) (cyc : Nat)
  | areadRowPresent (site cyc : Nat) (flips : List Flip)
  | holdAdmit (site cyc : Nat)
  | dmaWindowTimeout (site cyc : Nat)
  | bScrubRead (site cyc : Nat) (flips : List Flip)
  | bScrubWriteback (site cyc : Nat)
  -- micro-programs (chapter 7)
  | win (site : Nat) (w0 : DWord) (cyc : Nat)
  | fill (site : Nat) (w0 ofs : DWord) (cyc : Nat)
  | spill (site : Nat) (w0 ofs : DWord) (cyc : Nat)
  | send (site : Nat) (w0 w1 : DWord) (cyc : Nat)
  | wait (site : Nat) (w0 : DWord)
  | waitRelease (site : Nat)
  | nop (site : Nat)
  | endCode (site : Nat)
  | fillDone (site ctr cyc : Nat)
  | writeAckReceive (site : Nat) (rflow : BitVec 12) (stat : BitVec 2)
  | instanceComplete (site cyc : Nat)
  | templateRelease (launch tmpl : Nat)
  | forage (site : Nat)
  | gangStart (comb pool : Nat)
  -- launches and epochs (chapter 7)
  | launch
  | switchRecord
  | switchShadowLoad
  | combEpochSwitch (comb cyc : Nat)
  | epochDrainTimeout (comb cyc : Nat)
  -- Keeper mailbox (chapter 15)
  | imageInstall (src : Source) (mb : Nat)
  | imageRemove (src : Source) (mb : Nat)
  | imageQuery (src : Source) (mb : Nat)
  | treathRetrain (src : Source) (mb : Nat) (ports : List TrainInfo)
  | policySet (src : Source) (mb : Nat)
  | fwUpdate (src : Source) (mb : Nat)
  | fwUpdateDone
  | floorCommit (src : Source) (mb : Nat)
  | licenceInstall (src : Source) (mb : Nat)
  | ownerKeySet (src : Source) (mb : Nat)
  | lcsRequest (src : Source) (mb : Nat)
  -- intake and records (chapter 8)
  | intakeWrite (off : Nat) (data : List Byte) (poisoned : Bool)
  | intakePartial (stream : Nat)
  | appendFetchDone (stream : Nat) (toks : List Word)
  | openRec (stream : Nat)
  | appendRec (stream : Nat)
  | generateRec (stream : Nat)
  | pauseRec (stream : Nat)
  | resumeRec (stream : Nat)
  | forkRec (stream : Nat)
  | closeRec (stream : Nat)
  | queryRec (stream : Nat)
  -- steps and Meridian (chapters 8, 9, 14)
  | stepCommit
  | decisionTick
  | stepRecord
  | lqTailWrite (src : Source) (val : Word)
  | stepReissue
  | almanacSlotClose
  -- HBM (chapter 10)
  | hbmRead (stack : Nat) (head : BitVec 512) (hdr : BitVec 128) (flips : List Flip) (stackUe : List Nat)
  | hbmWrite (stack : Nat) (pkt : MeshPkt) (flips : List Flip)
  | hbmScrubRead (stack : Nat) (flips : List Flip) (stackUe : Bool)
  | hbmSoftRepair (src : Source) (stack : Nat) (cmd : DWord) (noSpare : Bool) (flips : List Flip)
  | hbmHardRepair (src : Source) (stack : Nat) (cmd : DWord) (noSpare : Bool)
  | hbmStackLost (stack : Nat)
  | hbmHot (stack temp : Nat)
  | bar4Read (off len : Nat)
  | bar4Write (off : Nat) (data : List Byte) (poisoned : Bool)
  | bar4Resize (log2 : Nat)
  -- Treath and slices (chapter 11)
  | treathPacketReceive (port : Nat) (pkt : TPkt)
  | linkKeepalive (port : Nat)
  | trlPortDown (port cause : Nat)
  | trlRetrain (src : Source) (port : Nat) (info : TrainInfo)
  | timeExchange (port : Nat) (t1 t2 t3 t4 : DWord) (resid1 resid2 : DWord)
  | timeHoldover
  | sliceShareReady (step : Word) (cannot : Option ShareEvent)
  | readyMsg (step : Word) (sender : Nat) (recs : List ResRec)
  | notReadyMsg (step : Word) (sender : Nat) (code : BitVec 16)
  | commitMsg (step : Word) (sender : Nat) (body : CommitBody)
  | abortMsg (step : Word) (sender : Nat)
  | doneMsg (step : Word) (sender : Nat)
  | statusQ (sender : Nat)
  | statusR (sender : Nat) (lastStep : Word)
  | beatMsg (sender : Nat)
  | sliceBeatTimer
  | sliceCommitTimeout (step : Word)
  | sliceMemberLost (logical : Nat)
  | sliceLeadChange
  | maintRead (port : Nat) (pkt : TPkt)
  | maintWrite (port : Nat) (pkt : TPkt)
  | maintResponse (port : Nat) (pkt : TPkt)
  | identityQuery (port : Nat) (pkt : TPkt)
  | neighbourQuery (port : Nat) (pkt : TPkt)
  -- host and management ports (chapters 12, 15)
  | functionLevelReset
  | hotReset
  | pciLinkDown
  | hostWritesRelease
  | pciAerUncorr (status : Word)
  | msixUnmask (vector : Option Nat)
  | evtBatch
  | bmcPageRead (page off : Nat)
  | bmcPageWrite (page off : Nat) (val : Word)
  | i3cEntdaa (addr : BitVec 7)
  | sensorUpdate (alertLevel tripLevel : Bool)
  | spdmGetCertificate (slot ofs len : Nat)
  | spdmChallenge (slot : Nat) (nonce : BitVec 256)
  | spdmGetMeasurements (index : Nat) (signed : Bool) (nonce : BitVec 256)
  | slhDsaSignature (selector : Nat)
  | slhDsaCertChain
  | requestUpdate
  | passComponentTable (comps : List Nat)
  | updateComponent (comp size : Nat)
  | requestFirmwareData (ofs : Nat) (data : List Byte)
  | transferComplete (ok : Bool)
  | verifyComplete
  | applyComplete
  | activateFirmware (selfContained : Bool)
  | getStatus
  | cancelUpdate
  -- clocks, power, thermal (chapter 13)
  | combTarget
  | localChangeSwitch (comb : Nat)
  | syncFallSwitch
  | syncRiseSwitch
  | clkLockFail (comb : Nat)
  | clkRefLost (ref : Nat)
  | stretchStart (comb : Nat) (codes : List Nat)
  | stretchEnd (comb : Nat) (codes : List Nat) (skipped : Nat)
  | gnomonLoop (comb : Nat) (stretched : Bool) (minMargin powerW : Nat)
  | tempSample (comb : Nat) (sensors : List Nat)
  | thermalLoop (frame : Nat)
  | thermalTrip (comb sensor temp : Nat)
  | combIsolated (comb : Nat) (undervolt : Bool)
  | senseFallback (comb : Nat) (opened : Bool)
  | powerInterval (r : PowerReading)
  | pwrBrake
  | brakeRelease
  | ledgerClear (src : Source)
  -- faults, recovery, start and test (chapters 14, 15, 17)
  | minderRestart (frame : Nat)
  | minderLost (frame : Nat)
  | keeperWatchdog
  | keeperFenceOrder (site : Nat)
  | karComplete (site : Nat) (passed : Bool)
  | reinstateStage (site : Nat)
  | routerProbeTimeout (site : Nat)
  | standbyInRange
  | standbyLost
  | startInstant (env : StartEnv)
  | perstAssert
  | resetAssert
  | fieldRotation (sites : List Nat)
  | fieldTestDone (site : Nat) (passed : Bool)
  | scanEnable (src : Source) (ctl : Word)
  | defectAppendFlush
  | inputRangeCut (vCore vAux : Nat)
  | pinShort (pin : OutPin) (level : Bool)
  | seamWireFail (bridge wire : Nat)
  | busMasterEnableClear
  | hostReadCompletionTimeout (stream : Nat)
  | hbmFullRateReturn (stack temp : Nat)
  deriving DecidableEq, Repr

end Sys2Proof
end

