-- ==== Sys2Proof/Config.lean ====
section
/-! DEFINITION. What the spec leaves open or names by another standard, as constants without a body: no proof can see
their values, so a claim holds whatever they are. Each is named in the assumption log. -/

namespace Sys2Proof.Config

/-- The value of a draw from the free counter: a value the spec leaves open (log 6). -/
opaque freeValue : Nat → Nat

/-- The 64 bytes that a unit of an HBM set holds after a mode change left its content undefined: draw, unit (R537, log 22). -/
opaque hbmFree : Nat → Nat → BitVec 512

/-- The row of a stack that holds a unit: the stack's geometry, which the spec does not give (R553, log 25). -/
opaque hbmRow : Nat → Nat

/-- Which FP32 value within its accuracy bound a primitive of the S tiles returns: primitive, operand bits (R96, R176, log 28). -/
opaque sPrim : Nat → Nat → Nat

/-- The log-probability that a verification reports for a token that it accepts or resamples: one for each stream seed, position and
token, so that a replay reports the same (R4, R192, log 32). -/
opaque draftLp : Nat → Nat → Nat → Nat

/-- The tally that an S tile stores for an FP32 value at an anchor (R107, log 30): a conversion the manual does not give. -/
opaque toTally : Nat → Int → Nat

/-- The weight word that the feeder reads from the tally store or beyond the store: site, word (R129, log 94). -/
opaque opsFree : Nat → Nat → BitVec 64

/-- The quotient that the stage-time law takes for a dividend over zero: no stack in service, or no M tile in RUN (R506, log 87). -/
opaque divZero : Nat → Nat

/-- VF(N) of a comb in millivolts, the table fused at manufacture (R713, log 15). -/
opaque vf : Nat → Nat → Nat

/-- The root of the spanning tree that the Keeper takes for the escape order, as a bit of the grid: from the routers and links out of
service (R250, log 24). -/
opaque escRoot : List Nat → List (Nat × Nat) → Nat

/-- Whether a stream at index i of a step's columns depends on a tally: task ID, output feature, column, i (R100, log 16). The
program's data flow decides it. -/
opaque tallyFeeds : Nat → Nat → Nat → Nat → Bool

/-- The stream whose KV an access of a task to an address of the pool concerns, among the streams that it could be: task ID, address
(R462, log 112). The program's layout decides it. -/
opaque kvStream : Nat → Nat → Nat

/-- Both signatures of an object verify under a slot: object bytes, its slot (R814, log 17). -/
opaque verifies : List (BitVec 8) → Nat → Bool

/-- The fuse hash of a vendor slot (R814, log 17). -/
opaque fuseHash : Nat → BitVec 384

/-- The component object that the maker wrote into a bank: bank, component (R812, log 18). -/
opaque makerObj : Nat → Nat → List (BitVec 8)

/-- SHA-384 of a byte string (FIPS 180-4, which the spec names; log 17). -/
opaque sha384 : List (BitVec 8) → BitVec 384

/-- An RSASSA-PSS signature by the identity key over a byte string (R850; log 17). -/
opaque rsaSign : List (BitVec 8) → List (BitVec 8)

/-- An SLH-DSA signature by the identity key over a byte string (R851; log 17). -/
opaque slhSign : List (BitVec 8) → List (BitVec 8)

/-- The certificate chain of an SPDM slot, and of the SLH-DSA key, written in MAKER (R849; log 17). -/
opaque certChain : Nat → List (BitVec 8)

/-- The measurement of the RoT ROM (R852; log 17). -/
opaque romHash : BitVec 384

/-- Walgaolo's PCI-SIG vendor ID (R646, log 18): the spec names it and does not give its number. -/
opaque vendorId : BitVec 16

/-- The module's serial number, fused in MAKER (R857, R832; log 18). -/
opaque serial : BitVec 64

end Sys2Proof.Config
end

