-- ==== Sys2Proof/Machine/Sparse.lean ====
section
/-! DEFINITION. The operations of the canonical store form: a list of key and value pairs whose keys rise strictly and
in which no entry equals what an unlisted key holds. Equal stores are equal lists. -/

namespace Sys2Proof.Machine

/-- The entry listed at a key, if there is one. -/
def sfind {α : Type} : Sparse α → Nat → Option α
  | [], _ => none
  | (k, v) :: t, n => if n = k then some v else sfind t n

/-- What a store holds at a key: the listed entry, else the default of that key. -/
def sget {α : Type} (d : Nat → α) (m : Sparse α) (n : Nat) : α := (sfind m n).getD (d n)

/-- The store without an entry at a key. -/
def serase {α : Type} : Sparse α → Nat → Sparse α
  | [], _ => []
  | (k, v) :: t, n => if n = k then t else if n < k then (k, v) :: t else (k, v) :: serase t n

/-- The store with an entry at a key, in its place in the rising order. -/
def sput {α : Type} : Sparse α → Nat → α → Sparse α
  | [], n, x => [(n, x)]
  | (k, v) :: t, n, x => if n = k then (k, x) :: t else if n < k then (n, x) :: (k, v) :: t else (k, v) :: sput t n x

/-- The store with a value at a key: an entry, or no entry where the value is the default of that key. -/
def sset {α : Type} [DecidableEq α] (d : Nat → α) (m : Sparse α) (n : Nat) (x : α) : Sparse α :=
  if x = d n then serase m n else sput m n x

/-- The store with the value at a key changed by a function. -/
def supd {α : Type} [DecidableEq α] (d : Nat → α) (m : Sparse α) (n : Nat) (f : α → α) : Sparse α :=
  sset d m n (f (sget d m n))

/-- Every key of a list is above a bound and the keys rise strictly. -/
def srising {α : Type} : Sparse α → Bool
  | [] => true
  | (k, _) :: t => (match t with
    | [] => true
    | (k', _) :: _ => decide (k < k')) && srising t

/-- The canonical form: rising keys, and no entry equal to the default of its key. -/
def swf {α : Type} [DecidableEq α] (d : Nat → α) (m : Sparse α) : Bool :=
  srising m && m.all fun e => decide (e.2 ≠ d e.1)

/-- Consecutive values written from a key upwards. -/
def ssetMany {α : Type} [DecidableEq α] (d : Nat → α) (m : Sparse α) (n : Nat) : List α → Sparse α
  | [] => m
  | x :: xs => ssetMany d (sset d m n x) (n + 1) xs

/-- The values at `len` consecutive keys. -/
def sgetMany {α : Type} (d : Nat → α) (m : Sparse α) (n : Nat) : Nat → List α
  | 0 => []
  | len + 1 => sget d m n :: sgetMany d m (n + 1) len

end Sys2Proof.Machine
end

