-- ==== Sys2Proof/Machine/Bits.lean ====
section
/-! DEFINITION. Bit fields, byte order and counts. Bit 0 is the least significant bit (R9); multi-byte values in memory
and in packets are little-endian. -/

namespace Sys2Proof.Machine

/-- Bits `hi` down to `lo` of a number (R9: written high:low). -/
def bits (v hi lo : Nat) : Nat := v / 2 ^ lo % 2 ^ (hi + 1 - lo)

/-- Bit `i` of a number, as 0 or 1. -/
def bitN (v i : Nat) : Nat := v / 2 ^ i % 2

/-- Bit `i` of a number is set. -/
def bit (v i : Nat) : Bool := v / 2 ^ i % 2 == 1

/-- A number with bits `hi` down to `lo` replaced. -/
def putBits (v hi lo x : Nat) : Nat :=
  v / 2 ^ (hi + 1) * 2 ^ (hi + 1) + x % 2 ^ (hi + 1 - lo) * 2 ^ lo + v % 2 ^ lo

/-- 1 where a condition holds. -/
def b2n (b : Bool) : Nat := if b then 1 else 0

/-- A number as a 32-bit word, wrapping. -/
def w32 (n : Nat) : Word := BitVec.ofNat 32 n

/-- The `n` bytes of a number, least significant first. -/
def leBytes : Nat → Nat → List Byte
  | 0, _ => []
  | n + 1, v => BitVec.ofNat 8 v :: leBytes n (v / 256)

/-- The number that bytes spell, least significant first. -/
def leNat : List Byte → Nat
  | [] => 0
  | b :: t => b.toNat + 256 * leNat t

/-- The number that `n` bytes spell from offset `o` of a list; a byte beyond the end is 0. -/
def leAt (bs : List Byte) (o n : Nat) : Nat := leNat ((bs.drop o).take n)

/-- A list cut or filled with `x` to a length. -/
def fit {α : Type} (x : α) : Nat → List α → List α
  | 0, _ => []
  | n + 1, [] => x :: fit x n []
  | n + 1, a :: t => a :: fit x n t

/-- Add one to a 32-bit count that saturates (the RC counters of the pages). -/
def satInc (n : Nat) : Nat := if n ≥ 0xFFFFFFFF then 0xFFFFFFFF else n + 1

/-- Add to a count that saturates at `m`. -/
def satAdd (m n k : Nat) : Nat := if n + k ≥ m then m else n + k

/-- A list cut into pieces of `n` elements, `fuel` pieces at most. -/
def chunks {α : Type} (n : Nat) : Nat → List α → List (List α)
  | 0, _ => []
  | fuel + 1, l => if l.isEmpty then [] else l.take n :: chunks n fuel (l.drop n)

/-- Round up to a multiple of `m`. -/
def roundUp (n m : Nat) : Nat := (n + m - 1) / m * m

/-- A number is a power of two. -/
def isPow2 (n : Nat) : Bool := n != 0 && n == 2 ^ n.log2

/-- The number of set bits among the lowest `w`. -/
def popCount : Nat → Nat → Nat
  | 0, _ => 0
  | w + 1, v => v % 2 + popCount w (v / 2)

/-- The set bits among the lowest `w`, lowest first. -/
def setBits (w v : Nat) : List Nat := (List.range w).filter (bit v)

/-- The two's complement value of an `n`-bit number. -/
def signed (n v : Nat) : Int := if v % 2 ^ n < 2 ^ (n - 1) then (v % 2 ^ n : Nat) else (v % 2 ^ n : Nat) - (2 ^ n : Int)

/-- An integer wrapped to `n` bits. -/
def wrapN (n : Nat) (i : Int) : Nat := (i % (2 ^ n : Int)).toNat

/-- The least element of a list by a rank, the earliest among equals. -/
def leastBy {α : Type} (f : α → Nat) : List α → Option α
  | [] => none
  | a :: t => match leastBy f t with
    | none => some a
    | some b => if f a ≤ f b then some a else some b

/-- The greatest value of a list, 0 for none. -/
def maxNat (l : List Nat) : Nat := l.foldl max 0

/-- The least value of a list, `d` for none. -/
def minNat (d : Nat) : List Nat → Nat
  | [] => d
  | a :: t => t.foldl min a

/-- The sum of a list. -/
def sumNat (l : List Nat) : Nat := l.foldl (· + ·) 0

/-- The element at a place of a list, or a default. -/
def nth {α : Type} (d : α) : List α → Nat → α
  | [], _ => d
  | a :: _, 0 => a
  | _ :: t, n + 1 => nth d t n

/-- The list with one place replaced (unchanged beyond its end). -/
def setNth {α : Type} : List α → Nat → α → List α
  | [], _, _ => []
  | _ :: t, 0, x => x :: t
  | a :: t, n + 1, x => a :: setNth t n x

/-- Keep the last `n` elements. -/
def lastN {α : Type} (n : Nat) (l : List α) : List α := l.drop (l.length - n)

end Sys2Proof.Machine
end

