-- ==== Sys2Proof/Machine/RegMap.lean ====
section
/-! DEFINITION. The page map of BAR0 and the registers of every page class: offset range, access code, width and reset
value, from the register tables of the home chapters (R864 to R876). -/

namespace Sys2Proof.Machine

/-- The access codes of R12. -/
inductive Acc where
  | ro | rw | st | w1c | w1s | rc
  deriving DecidableEq, Repr

/-- One row of a register table: first and last word offset, access, 64-bit mark, reset value of each register. -/
structure RegRow where
  lo : Nat
  hi : Nat
  acc : Acc
  wide : Bool
  reset : Nat
  deriving DecidableEq, Repr

/-- The tile kinds (R24). -/
inductive Kind where
  | m | b | s | w
  deriving DecidableEq, Repr

/-- The page classes of R873; `res` is a reserved page (R871) and `msix` the MSI-X structures (R649). -/
inductive PClass where
  | mtl | buf | sfu | wag | msh | seam | cmb | frm | hbm | hbmDev | trl | rte | pci | int | kvs | mrd | mrdCls
  | alm | ldg | pwr | clk | thm | kpr | lcs | bst | dfm | dfmDev | res | msix
  deriving DecidableEq, Repr

/-- The kind of tile at physical index p of every comb (R24, R28). -/
def kindOf (p : Nat) : Kind :=
  let col := p % 12
  if p / 12 = 4 then (if col % 3 = 1 then .w else .s)
  else if p / 12 = 9 then
    (if col = 9 then .s else if col = 10 then .w else if col = 1 ∨ col = 4 ∨ col = 7 then .b else .m)
  else if col % 3 = 1 then .b else .m

/-- The page class of a tile kind (R865). -/
def Kind.cls : Kind → PClass
  | .m => .mtl
  | .b => .buf
  | .s => .sfu
  | .w => .wag

/-- The kind code of a unit reference (R780). -/
def Kind.code : Kind → Nat
  | .m => 0
  | .b => 1
  | .s => 2
  | .w => 3

/-- The class of a physical page of BAR0 (R864 to R870). An alias page (6,144 to 8,735) has the class of its kind. -/
def pageClass (p : Nat) : PClass :=
  if p < 2880 then (kindOf (p % 120)).cls
  else if p < 3072 then .res
  else if p < 5952 then .msh
  else if p < 6144 then .res
  else if p < 8736 then (kindOf ((p - 6144) % 108)).cls
  else if p < 9216 then .res
  else if p < 9240 then .cmb
  else if p < 9246 then .frm
  else if p < 9248 then .res
  else if p < 9404 then .seam
  else if p < 9408 then .res
  else if p < 9420 then .hbm
  else if p = 9420 then .hbmDev
  else if p < 9424 then .res
  else if p < 9440 then .trl
  else if p = 9440 then .rte
  else if p = 9441 then .pci
  else if p = 9442 then .int
  else if p = 9443 then .kvs
  else if p = 9444 then .mrd
  else if p < 9447 then .mrdCls
  else if p = 9447 then .alm
  else if p = 9448 then .ldg
  else if p = 9449 then .pwr
  else if p = 9450 then .clk
  else if p = 9451 then .thm
  else if p < 9456 then .kpr
  else if p = 9456 then .lcs
  else if p = 9457 then .bst
  else if p < 9464 then .res
  else if p < 9488 then .dfm
  else if p = 9488 then .dfmDev
  else if p < 32759 then .res
  else .msix

/-- An alias page (R867). -/
def isAlias (p : Nat) : Bool := decide (6144 ≤ p ∧ p < 8736)

/-- The class code of PG_IDENT (R873). -/
def PClass.code : PClass → Nat
  | .mtl => 0x01 | .buf => 0x02 | .sfu => 0x03 | .wag => 0x04 | .msh => 0x05 | .seam => 0x06 | .cmb => 0x07
  | .frm => 0x08 | .hbm => 0x09 | .hbmDev => 0x09 | .trl => 0x0A | .rte => 0x0B | .pci => 0x0C | .int => 0x0D
  | .kvs => 0x0E | .mrd => 0x0F | .mrdCls => 0x0F | .alm => 0x10 | .ldg => 0x11 | .pwr => 0x12 | .clk => 0x13
  | .thm => 0x14 | .kpr => 0x15 | .lcs => 0x16 | .bst => 0x17 | .dfm => 0x18 | .dfmDev => 0x18 | .res => 0 | .msix => 0

/-- PG_CAPS of each class (R873). -/
def PClass.caps : PClass → Nat
  | .mtl => 0x39 | .buf => 0x39 | .sfu => 0x30 | .wag => 0x39 | .msh => 0x39 | .seam => 0x34 | .cmb => 0x37
  | .frm => 0x24 | .hbm => 0x31 | .hbmDev => 0x11 | .trl => 0x31 | .rte => 0x11 | .pci => 0x11 | .int => 0x11
  | .kvs => 0x11 | .mrd => 0x11 | .mrdCls => 0x01 | .alm => 0x11 | .ldg => 0x01 | .pwr => 0x13 | .clk => 0x13
  | .thm => 0x13 | .kpr => 0 | .lcs => 0x14 | .bst => 0x17 | .dfm => 0x0D | .dfmDev => 0x05 | .res => 0 | .msix => 0

/-- KIND of PG_IDENT on the class's own pages (R873). -/
def PClass.kind : PClass → Nat
  | .mtl | .buf | .sfu | .wag | .msh | .seam | .cmb | .frm | .hbm | .trl => 0
  | .res | .msix => 0
  | _ => 2

/-- INSTANCE of PG_IDENT (R872). -/
def pageInstance (p : Nat) : Nat :=
  if p < 2880 then p
  else if p < 5952 then p - 3072
  else if p < 8736 then p - 6144
  else match pageClass p with
    | .cmb => p - 9216
    | .frm => p - 9240
    | .seam => p - 9248
    | .hbm | .hbmDev => p - 9408
    | .trl => p - 9424
    | .mrd | .mrdCls => p - 9444
    | .kpr => p - 9452
    | .dfm | .dfmDev => p - 9464
    | _ => 0

/-- R164. -/
def rowsMtl : List RegRow :=
  [⟨0x040, 0x040, .ro, false, 0x0⟩,
   ⟨0x044, 0x044, .w1c, false, 0x0⟩,
   ⟨0x048, 0x048, .ro, false, 0x0⟩,
   ⟨0x04C, 0x04C, .ro, false, 0x0⟩,
   ⟨0x050, 0x050, .ro, false, 0x0⟩,
   ⟨0x054, 0x054, .rc, false, 0x0⟩,
   ⟨0x058, 0x058, .rc, false, 0x0⟩,
   ⟨0x05C, 0x05C, .rc, false, 0x0⟩,
   ⟨0x060, 0x06C, .ro, false, 0x0⟩,
   ⟨0x070, 0x074, .ro, false, 0x0⟩,
   ⟨0x078, 0x078, .ro, false, 0x0⟩,
   ⟨0x100, 0x100, .st, false, 0x0⟩,
   ⟨0x104, 0x104, .st, false, 0x0⟩,
   ⟨0x108, 0x108, .st, false, 0x0⟩,
   ⟨0x10C, 0x10C, .st, false, 0x11111100⟩,
   ⟨0x110, 0x110, .st, false, 0x0⟩,
   ⟨0x114, 0x114, .st, false, 0x1⟩,
   ⟨0x118, 0x118, .st, false, 0x0⟩,
   ⟨0x11C, 0x11C, .st, false, 0x0⟩]

/-- R353. -/
def rowsBuf : List RegRow :=
  [⟨0x040, 0x040, .ro, false, 0x400⟩,
   ⟨0x044, 0x044, .w1c, false, 0x0⟩,
   ⟨0x048, 0x048, .ro, false, 0x0⟩,
   ⟨0x04C, 0x04C, .rc, false, 0x0⟩,
   ⟨0x050, 0x050, .ro, false, 0x0⟩,
   ⟨0x054, 0x054, .ro, false, 0x0⟩,
   ⟨0x058, 0x058, .ro, false, 0x0⟩,
   ⟨0x05C, 0x05C, .rc, false, 0x0⟩,
   ⟨0x060, 0x060, .rc, false, 0x0⟩,
   ⟨0x064, 0x064, .st, false, 0x400⟩,
   ⟨0x070, 0x080, .st, false, 0xFFFFFFFF⟩,
   ⟨0x100, 0x17C, .ro, false, 0x0⟩,
   ⟨0x180, 0x1FC, .st, false, 0x0⟩]

/-- R216. -/
def rowsSfu : List RegRow :=
  [⟨0x040, 0x040, .ro, false, 0x0⟩,
   ⟨0x044, 0x044, .w1c, false, 0x0⟩,
   ⟨0x048, 0x048, .ro, false, 0x0⟩,
   ⟨0x04C, 0x04C, .ro, false, 0x0⟩,
   ⟨0x050, 0x050, .rc, false, 0x0⟩,
   ⟨0x054, 0x054, .rc, false, 0x0⟩,
   ⟨0x058, 0x058, .ro, false, 0x0⟩,
   ⟨0x05C, 0x05C, .ro, false, 0x0⟩,
   ⟨0x060, 0x060, .ro, false, 0x0⟩,
   ⟨0x064, 0x064, .rc, false, 0x0⟩]

/-- R220. -/
def rowsWag : List RegRow :=
  [⟨0x040, 0x040, .ro, false, 0x0⟩,
   ⟨0x044, 0x044, .w1c, false, 0x0⟩,
   ⟨0x048, 0x048, .ro, false, 0x0⟩,
   ⟨0x04C, 0x04C, .ro, false, 0x0⟩,
   ⟨0x050, 0x050, .rc, false, 0x0⟩,
   ⟨0x054, 0x054, .rc, false, 0x0⟩,
   ⟨0x058, 0x058, .ro, false, 0x0⟩,
   ⟨0x060, 0x09C, .ro, false, 0x0⟩,
   ⟨0x100, 0x13C, .st, false, 0x0⟩,
   ⟨0x140, 0x17C, .st, false, 0x0⟩]

/-- R297. -/
def rowsMsh : List RegRow :=
  [⟨0x040, 0x040, .ro, false, 0x0⟩,
   ⟨0x044, 0x044, .w1c, false, 0x0⟩,
   ⟨0x048, 0x048, .st, false, 0x0⟩,
   ⟨0x04C, 0x04C, .st, false, 0x10⟩,
   ⟨0x050, 0x050, .rc, false, 0x0⟩,
   ⟨0x054, 0x054, .rc, false, 0x0⟩,
   ⟨0x058, 0x058, .rc, false, 0x0⟩,
   ⟨0x05C, 0x05C, .rc, false, 0x0⟩,
   ⟨0x060, 0x064, .ro, true, 0x0⟩,
   ⟨0x068, 0x068, .ro, false, 0x0⟩,
   ⟨0x06C, 0x06C, .rc, false, 0x0⟩,
   ⟨0x070, 0x080, .ro, false, 0x0⟩,
   ⟨0x100, 0x1D4, .st, false, 0x39F839F8⟩,
   ⟨0x1D8, 0x2C4, .st, false, 0x39F839F8⟩,
   ⟨0x2C8, 0x2F4, .st, false, 0x39F839F8⟩,
   ⟨0x2F8, 0x30C, .st, false, 0x39F839F8⟩,
   ⟨0x318, 0x338, .st, false, 0x39F839F8⟩,
   ⟨0x400, 0x5FC, .st, false, 0x0⟩,
   ⟨0x600, 0x7FC, .st, true, 0x0⟩]

/-- R305. -/
def rowsSeam : List RegRow :=
  [⟨0x040, 0x040, .ro, false, 0x100000⟩,
   ⟨0x044, 0x044, .w1c, false, 0x0⟩,
   ⟨0x048, 0x048, .rc, false, 0x0⟩,
   ⟨0x04C, 0x04C, .ro, false, 0x0⟩,
   ⟨0x050, 0x05C, .ro, false, 0x0⟩,
   ⟨0x060, 0x0A0, .ro, false, 0x0⟩]

/-- R750. -/
def rowsCmb : List RegRow :=
  [⟨0x040, 0x040, .ro, false, 0x42420000⟩,
   ⟨0x044, 0x044, .w1c, false, 0x0⟩,
   ⟨0x048, 0x048, .st, false, 0x90⟩,
   ⟨0x04C, 0x04C, .ro, false, 0x0⟩,
   ⟨0x050, 0x050, .st, false, 0x0⟩,
   ⟨0x054, 0x054, .st, false, 0x1808⟩,
   ⟨0x058, 0x058, .ro, false, 0x0⟩,
   ⟨0x05C, 0x05C, .ro, false, 0x0⟩,
   ⟨0x060, 0x060, .rc, false, 0x0⟩,
   ⟨0x064, 0x064, .ro, false, 0x0⟩,
   ⟨0x068, 0x068, .ro, false, 0x0⟩,
   ⟨0x070, 0x07C, .ro, false, 0x0⟩,
   ⟨0x080, 0x08C, .ro, false, 0x0⟩]

/-- R567. -/
def rowsHbm : List RegRow :=
  [⟨0x040, 0x040, .ro, false, 0x0⟩,
   ⟨0x044, 0x044, .w1c, false, 0x0⟩,
   ⟨0x048, 0x048, .rc, false, 0x0⟩,
   ⟨0x04C, 0x04C, .st, false, 0x18⟩,
   ⟨0x050, 0x054, .ro, true, 0x0⟩,
   ⟨0x058, 0x05C, .rw, true, 0x0⟩,
   ⟨0x060, 0x060, .ro, false, 0x0⟩,
   ⟨0x064, 0x064, .st, false, 0x4⟩,
   ⟨0x068, 0x068, .ro, false, 0x0⟩,
   ⟨0x070, 0x074, .ro, true, 0x0⟩,
   ⟨0x078, 0x07C, .ro, true, 0x0⟩]

/-- R572. -/
def rowsHbmDev : List RegRow :=
  [⟨0x040, 0x040, .ro, false, 0x0⟩,
   ⟨0x044, 0x044, .w1c, false, 0x0⟩,
   ⟨0x048, 0x04C, .ro, true, 0x0⟩,
   ⟨0x050, 0x054, .ro, true, 0x0⟩,
   ⟨0x058, 0x058, .st, false, 0x0⟩,
   ⟨0x05C, 0x05C, .st, false, 0x0⟩,
   ⟨0x060, 0x064, .st, true, 0x0⟩,
   ⟨0x068, 0x068, .rc, false, 0x0⟩,
   ⟨0x070, 0x074, .ro, true, 0x0⟩]

/-- R629. -/
def rowsTrl : List RegRow :=
  [⟨0x040, 0x040, .ro, false, 0x0⟩,
   ⟨0x044, 0x044, .w1c, false, 0x0⟩,
   ⟨0x048, 0x048, .rw, false, 0x0⟩,
   ⟨0x04C, 0x04C, .ro, false, 0x0⟩,
   ⟨0x050, 0x054, .ro, true, 0x0⟩,
   ⟨0x058, 0x058, .ro, false, 0x0⟩,
   ⟨0x05C, 0x05C, .rc, false, 0x0⟩,
   ⟨0x060, 0x060, .rc, false, 0x0⟩,
   ⟨0x064, 0x064, .rc, false, 0x0⟩,
   ⟨0x068, 0x068, .rc, false, 0x0⟩,
   ⟨0x06C, 0x06C, .ro, false, 0x0⟩,
   ⟨0x070, 0x074, .st, true, 0x0⟩,
   ⟨0x078, 0x07C, .ro, true, 0x0⟩,
   ⟨0x080, 0x084, .ro, true, 0x0⟩,
   ⟨0x100, 0x17C, .st, true, 0x0⟩]

/-- R635. -/
def rowsRte : List RegRow :=
  [⟨0x040, 0x040, .ro, false, 0x0⟩,
   ⟨0x044, 0x044, .w1c, false, 0x0⟩,
   ⟨0x048, 0x048, .st, false, 0x80000000⟩,
   ⟨0x04C, 0x04C, .st, false, 0x0⟩,
   ⟨0x050, 0x050, .st, false, 0x7D0⟩,
   ⟨0x054, 0x054, .st, false, 0x0⟩,
   ⟨0x058, 0x058, .ro, false, 0x0⟩,
   ⟨0x060, 0x060, .ro, false, 0x0⟩,
   ⟨0x068, 0x06C, .st, true, 0x0⟩,
   ⟨0x070, 0x070, .st, false, 0x0⟩,
   ⟨0x074, 0x074, .ro, false, 0x0⟩,
   ⟨0x078, 0x078, .ro, false, 0x0⟩,
   ⟨0x080, 0x0BC, .ro, false, 0x0⟩,
   ⟨0x0C0, 0x0CC, .st, false, 0x0⟩,
   ⟨0x200, 0x3FC, .st, false, 0x0⟩,
   ⟨0x400, 0x7FC, .st, false, 0x0⟩]

/-- R692. -/
def rowsPci : List RegRow :=
  [⟨0x040, 0x040, .ro, false, 0x0⟩,
   ⟨0x044, 0x044, .w1c, false, 0x0⟩,
   ⟨0x048, 0x048, .st, false, 0x0⟩,
   ⟨0x050, 0x054, .st, true, 0x0⟩,
   ⟨0x058, 0x058, .st, false, 0x400⟩,
   ⟨0x05C, 0x05C, .rw, false, 0x0⟩,
   ⟨0x060, 0x060, .ro, false, 0x0⟩,
   ⟨0x064, 0x064, .rc, false, 0x0⟩,
   ⟨0x068, 0x06C, .st, true, 0x0⟩,
   ⟨0x070, 0x070, .rc, false, 0x0⟩,
   ⟨0x074, 0x074, .rc, false, 0x0⟩,
   ⟨0x078, 0x078, .ro, false, 0x4⟩]

/-- R471. -/
def rowsInt : List RegRow :=
  [⟨0x040, 0x040, .ro, false, 0x0⟩,
   ⟨0x044, 0x044, .w1c, false, 0x0⟩,
   ⟨0x048, 0x048, .st, false, 0x0⟩,
   ⟨0x04C, 0x04C, .st, false, 0x0⟩,
   ⟨0x050, 0x054, .ro, true, 0x0⟩,
   ⟨0x058, 0x05C, .st, true, 0x0⟩,
   ⟨0x060, 0x060, .st, false, 0x0⟩,
   ⟨0x064, 0x064, .st, false, 0x3E8⟩,
   ⟨0x068, 0x068, .ro, false, 0x0⟩,
   ⟨0x06C, 0x06C, .rc, false, 0x0⟩,
   ⟨0x070, 0x070, .rc, false, 0x0⟩,
   ⟨0x074, 0x074, .rc, false, 0x0⟩,
   ⟨0x078, 0x078, .ro, false, 0x0⟩,
   ⟨0x080, 0x084, .ro, true, 0x0⟩]

/-- R476. -/
def rowsKvs : List RegRow :=
  [⟨0x040, 0x040, .ro, false, 0x0⟩,
   ⟨0x044, 0x044, .w1c, false, 0x0⟩,
   ⟨0x048, 0x04C, .st, true, 0x0⟩,
   ⟨0x050, 0x050, .st, false, 0x0⟩,
   ⟨0x054, 0x054, .st, false, 0x0⟩,
   ⟨0x058, 0x058, .ro, false, 0x0⟩,
   ⟨0x05C, 0x05C, .st, false, 0x0⟩,
   ⟨0x060, 0x060, .ro, false, 0x0⟩,
   ⟨0x064, 0x064, .rc, false, 0x0⟩,
   ⟨0x068, 0x068, .rc, false, 0x0⟩,
   ⟨0x06C, 0x06C, .rc, false, 0x0⟩,
   ⟨0x070, 0x074, .st, true, 0x0⟩,
   ⟨0x078, 0x078, .st, false, 0x0⟩,
   ⟨0x07C, 0x07C, .ro, false, 0x0⟩,
   ⟨0x080, 0x0DC, .st, false, 0x0⟩,
   ⟨0x0E0, 0x0E0, .rc, false, 0x0⟩]

/-- R521. -/
def rowsMrd : List RegRow :=
  [⟨0x040, 0x040, .ro, false, 0x80800000⟩,
   ⟨0x044, 0x044, .w1c, false, 0x0⟩,
   ⟨0x048, 0x048, .st, false, 0x86000000⟩,
   ⟨0x04C, 0x04C, .st, false, 0xC8⟩,
   ⟨0x050, 0x050, .st, false, 0xFA0⟩,
   ⟨0x054, 0x054, .st, false, 0x0⟩,
   ⟨0x058, 0x05C, .st, true, 0x0⟩,
   ⟨0x060, 0x060, .st, false, 0x0⟩,
   ⟨0x064, 0x064, .st, false, 0x384⟩,
   ⟨0x068, 0x068, .st, false, 0x20000100⟩,
   ⟨0x06C, 0x06C, .st, false, 0x80010000⟩,
   ⟨0x070, 0x070, .st, false, 0xC80032⟩,
   ⟨0x074, 0x074, .st, false, 0x0⟩,
   ⟨0x078, 0x07C, .st, true, 0x0⟩,
   ⟨0x080, 0x080, .st, false, 0x10⟩,
   ⟨0x084, 0x084, .rw, false, 0x0⟩,
   ⟨0x088, 0x088, .ro, false, 0x0⟩,
   ⟨0x090, 0x094, .st, true, 0x0⟩,
   ⟨0x098, 0x098, .st, false, 0x1⟩,
   ⟨0x09C, 0x09C, .ro, false, 0x0⟩,
   ⟨0x0A0, 0x0A4, .ro, true, 0x0⟩,
   ⟨0x0A8, 0x0AC, .st, true, 0x0⟩,
   ⟨0x0B0, 0x0B4, .st, true, 0x0⟩,
   ⟨0x0B8, 0x0B8, .ro, false, 0x0⟩,
   ⟨0x0C0, 0x13C, .ro, false, 0x1000100⟩]

/-- R528. -/
def rowsAlm : List RegRow :=
  [⟨0x040, 0x040, .ro, false, 0x0⟩,
   ⟨0x044, 0x044, .w1c, false, 0x0⟩,
   ⟨0x048, 0x048, .st, false, 0x80000000⟩,
   ⟨0x050, 0x054, .ro, true, 0x0⟩,
   ⟨0x058, 0x058, .ro, false, 0x2800000⟩,
   ⟨0x05C, 0x05C, .ro, false, 0x0⟩,
   ⟨0x060, 0x064, .ro, true, 0x0⟩]

/-- R764. -/
def rowsLdg : List RegRow :=
  [⟨0x040, 0x040, .ro, false, 0x0⟩,
   ⟨0x048, 0x048, .st, false, 0xC0000000⟩,
   ⟨0x04C, 0x04C, .w1s, false, 0x0⟩,
   ⟨0x050, 0x054, .ro, true, 0x0⟩,
   ⟨0x058, 0x058, .ro, false, 0x12000⟩,
   ⟨0x060, 0x064, .ro, true, 0x0⟩]

/-- R756. -/
def rowsPwr : List RegRow :=
  [⟨0x040, 0x040, .ro, false, 0x0⟩,
   ⟨0x044, 0x044, .w1c, false, 0x0⟩,
   ⟨0x048, 0x048, .st, false, 0xE10⟩,
   ⟨0x04C, 0x04C, .st, false, 0x32⟩,
   ⟨0x050, 0x050, .ro, false, 0x0⟩,
   ⟨0x054, 0x054, .ro, false, 0x0⟩,
   ⟨0x058, 0x058, .ro, false, 0x0⟩,
   ⟨0x05C, 0x05C, .ro, false, 0x0⟩,
   ⟨0x060, 0x060, .ro, false, 0x0⟩,
   ⟨0x064, 0x064, .ro, false, 0x0⟩,
   ⟨0x100, 0x1DC, .ro, false, 0x0⟩]

/-- R746. -/
def rowsClk : List RegRow :=
  [⟨0x040, 0x040, .ro, false, 0x0⟩,
   ⟨0x044, 0x044, .w1c, false, 0x0⟩,
   ⟨0x048, 0x048, .st, false, 0x849042⟩,
   ⟨0x04C, 0x04C, .st, false, 0x90⟩,
   ⟨0x050, 0x054, .ro, true, 0x0⟩,
   ⟨0x058, 0x05C, .ro, true, 0x0⟩,
   ⟨0x060, 0x060, .ro, false, 0x0⟩,
   ⟨0x064, 0x064, .rc, false, 0x0⟩,
   ⟨0x068, 0x068, .ro, false, 0x0⟩]

/-- R760. -/
def rowsThm : List RegRow :=
  [⟨0x040, 0x040, .ro, false, 0x0⟩,
   ⟨0x044, 0x044, .w1c, false, 0x0⟩,
   ⟨0x048, 0x048, .st, false, 0x5F⟩,
   ⟨0x04C, 0x04C, .ro, false, 0x0⟩,
   ⟨0x050, 0x050, .ro, false, 0x0⟩,
   ⟨0x054, 0x054, .ro, false, 0x0⟩]

/-- R853. -/
def rowsKpr : List RegRow :=
  [⟨0x040, 0x040, .ro, false, 0x0⟩,
   ⟨0x044, 0x044, .rw, false, 0x0⟩,
   ⟨0x048, 0x048, .rw, false, 0x0⟩,
   ⟨0x050, 0x06C, .rw, true, 0x0⟩,
   ⟨0x070, 0x07C, .ro, true, 0x0⟩]

/-- R857. -/
def rowsLcs : List RegRow :=
  [⟨0x040, 0x040, .ro, false, 0x0⟩,
   ⟨0x044, 0x044, .w1c, false, 0x0⟩,
   ⟨0x048, 0x04C, .ro, true, 0x0⟩,
   ⟨0x050, 0x05C, .ro, false, 0x0⟩,
   ⟨0x060, 0x060, .ro, false, 0x0⟩,
   ⟨0x064, 0x064, .ro, false, 0x0⟩,
   ⟨0x068, 0x068, .ro, false, 0x0⟩,
   ⟨0x070, 0x09C, .ro, false, 0x0⟩]

/-- R859. -/
def rowsBst : List RegRow :=
  [⟨0x040, 0x040, .ro, false, 0x0⟩,
   ⟨0x044, 0x044, .w1c, false, 0x0⟩,
   ⟨0x048, 0x048, .st, false, 0x18⟩,
   ⟨0x04C, 0x04C, .ro, false, 0x0⟩,
   ⟨0x050, 0x050, .ro, false, 0x0⟩,
   ⟨0x054, 0x054, .rc, false, 0x0⟩,
   ⟨0x058, 0x058, .rc, false, 0x0⟩,
   ⟨0x05C, 0x05C, .ro, false, 0x0⟩,
   ⟨0x060, 0x060, .rw, false, 0x0⟩]

/-- R58. -/
def rowsDfm : List RegRow :=
  [⟨0x040, 0x040, .ro, false, 0x0⟩,
   ⟨0x044, 0x044, .ro, false, 0x0⟩,
   ⟨0x048, 0x048, .ro, false, 0x0⟩,
   ⟨0x050, 0x05C, .ro, false, 0x0⟩,
   ⟨0x100, 0x2AC, .st, false, 0x0⟩]

/-- R64, R803. -/
def rowsDfmDev : List RegRow :=
  [⟨0x040, 0x044, .ro, true, 0x0⟩,
   ⟨0x048, 0x048, .ro, false, 0x0⟩,
   ⟨0x04C, 0x04C, .ro, false, 0x90000⟩,
   ⟨0x050, 0x050, .ro, false, 0x0⟩,
   ⟨0x060, 0x060, .ro, false, 0x10000000⟩,
   ⟨0x064, 0x064, .ro, false, 0x0⟩,
   ⟨0x068, 0x068, .st, false, 0xE0180004⟩,
   ⟨0x06C, 0x06C, .rc, false, 0x0⟩,
   ⟨0x070, 0x074, .ro, true, 0x0⟩,
   ⟨0x078, 0x078, .rc, false, 0x0⟩]

/-- R526: six registers per class at 0x400 + 32 × (n mod 32). -/
def rowsMrdCls : List RegRow :=
  (List.range 32).flatMap fun n =>
    [⟨0x400 + 32 * n, 0x410 + 32 * n, .st, false, 0⟩, ⟨0x414 + 32 * n, 0x414 + 32 * n, .st, false, 1⟩]

/-- The block registers of a class (R876); FRM_ pages hold none. -/
def PClass.rows : PClass → List RegRow
  | .mtl => rowsMtl | .buf => rowsBuf | .sfu => rowsSfu | .wag => rowsWag | .msh => rowsMsh | .seam => rowsSeam
  | .cmb => rowsCmb | .frm => [] | .hbm => rowsHbm | .hbmDev => rowsHbmDev | .trl => rowsTrl | .rte => rowsRte
  | .pci => rowsPci | .int => rowsInt | .kvs => rowsKvs | .mrd => rowsMrd | .mrdCls => rowsMrdCls | .alm => rowsAlm
  | .ldg => rowsLdg | .pwr => rowsPwr | .clk => rowsClk | .thm => rowsThm | .kpr => rowsKpr | .lcs => rowsLcs
  | .bst => rowsBst | .dfm => rowsDfm | .dfmDev => rowsDfmDev | .res => [] | .msix => []

/-- The row that holds a block offset, if any (R876). -/
def regRow (p off : Nat) : Option RegRow :=
  (pageClass p).rows.find? fun r => decide (r.lo ≤ off) && decide (off ≤ r.hi)

/-- The reset value of the 32-bit word at a block offset; the high word of a 64-bit register resets to 0. A vector
control word of the MSI-X table resets to masked (PRESUMED, the PCI Express layout that R649 names, log 14). -/
def regReset (p off : Nat) : Word :=
  if 32759 ≤ p ∧ p < 32767 then (if off % 16 = 12 then 1 else 0)
  else match regRow p off with
    | some r => if r.wide ∧ (off - r.lo) % 8 = 4 then 0 else w32 r.reset
    | none => 0

/-- The limit registers (R688): PWR_CAP, CLK_CEIL, CMB_CEIL, THM_LIMIT and BST_FIELD_CFG. -/
def isLimit (p off : Nat) : Bool :=
  match pageClass p with
  | .pwr | .cmb | .thm | .bst => off == 0x048
  | .clk => off == 0x04C
  | _ => false

/-- The page has a fault register at 0x044 (PG_CAPS.FAULT, R673). -/
def hasFault (p : Nat) : Bool := bit (pageClass p).caps 4 && (pageClass p != .frm)

/-! Page numbers of units (R864 to R870). -/
def pgRouter (site : Nat) : Nat := 3072 + site
def pgCmb (c : Nat) : Nat := 9216 + c
def pgFrm (f : Nat) : Nat := 9240 + f
def pgSeam (n : Nat) : Nat := 9248 + n
def pgHbm (n : Nat) : Nat := 9408 + n
def pgHbmDev : Nat := 9420
def pgTrl (n : Nat) : Nat := 9424 + n
def pgRte : Nat := 9440
def pgPci : Nat := 9441
def pgInt : Nat := 9442
def pgKvs : Nat := 9443
def pgMrd : Nat := 9444
def pgAlm : Nat := 9447
def pgLdg : Nat := 9448
def pgPwr : Nat := 9449
def pgClk : Nat := 9450
def pgThm : Nat := 9451
def pgKpr (n : Nat) : Nat := 9452 + n
def pgLcs : Nat := 9456
def pgBst : Nat := 9457
def pgDfm (c : Nat) : Nat := 9464 + c
def pgDfmDev : Nat := 9488

/-- The home of a register word: its BAR0 byte offset. -/
def regKey (p off : Nat) : Nat := p * 0x1000 + off

/-- A word of an MSH_ page that the Keeper writes: MSH_CFG and the route tables (R249 to R254, R300). -/
def isKeeperWord (p off : Nat) : Bool :=
  decide (3072 ≤ p) && decide (p < 5952) && (off == 0x048 || (decide (0x100 ≤ off) && decide (off ≤ 0x338)))

/-- What an unlisted register word stands for: the reset value, and at a Keeper's word of an MSH_ page all ones, which no
commit applies (R303) and which says that the Keeper's own word is in force. -/
def regDflt (k : Nat) : Word :=
  if isKeeperWord (k / 0x1000) (k % 0x1000) then 0xFFFFFFFF else regReset (k / 0x1000) (k % 0x1000)

end Sys2Proof.Machine
end

