-- ==== Sys2Proof/Machine/State.lean ====
section
/-! DEFINITION. The state of the module: plain data only. Registers live in `regs` under their BAR0 byte offset; state
that the rules describe by its content (tiles, steps, streams, page lists, links) is typed, and the registers that
report it are computed when they are read. Every large store is a `Sparse` list in canonical form. -/

namespace Sys2Proof.Machine

/-! ### Stops -/

/-- The reasons a command stops with a fault. -/
inductive Fault where
  /-- Raised by every command that names a page, site, comb, frame, stack, port or mailbox the device does not have
  (R2, R864, R870). Safe: the device has no such unit, so nothing is hidden. -/
  | noSuchUnit
  deriving DecidableEq, Repr

/-- The reasons a command is refused. -/
inductive Refusal where
  /-- Raised by the arm of a command that has no meaning yet. Safe: nothing can be proved of it. -/
  | notModelled (mnemonic : String)
  deriving DecidableEq, Repr

/-! ### Orders, pages, events -/

/-- What PG_COMMIT returns to one source (R681). -/
structure OrderRes where
  src : Source
  seq : Nat
  code : Nat
  deriving DecidableEq, Repr

/-- The common header of a page as its order point keeps it (R671 to R691). `own` is none on an unowned page; `who` is the
source code of the last accepted commit, `slotsOnly` says that the pending one applies only that source's limit slots,
`slotDirty` holds the source codes with a staged limit slot. -/
structure PageSt where
  own : Option Source
  seq : Nat
  pending : Bool
  who : Nat
  slotsOnly : Bool
  slotDirty : List Nat
  dirty : Nat
  mask : Word
  last : Word
  results : List OrderRes
  deriving DecidableEq, Repr

/-- One committed or staged limit slot set: Keeper, BMC, host, peer (R688). -/
structure Slots4 where
  keeper : Word
  bmc : Word
  host : Word
  peer : Word
  deriving DecidableEq, Repr

/-- An event record (R660, R800). -/
structure EvRec where
  time : Nat
  page : Nat
  code : Nat
  a0 : Nat
  a1 : Nat
  a2 : Nat
  a3 : Nat
  deriving DecidableEq, Repr

/-- The event log: retained while EN is 0, waiting for a batch, and the BMC's message queue (R660 to R668). -/
structure Events where
  retained : List EvRec
  retLost : Nat
  batch : List EvRec
  overflow : Nat
  bmc : List EvRec
  bmcLost : Nat
  deriving DecidableEq, Repr

/-- What the device sends, in order (log 5). -/
inductive Out where
  | hostWrite (addr : Nat) (data : List Byte)
  | msix (vector : Nat)
  | readData (src : Source) (page off : Nat) (val : DWord)
  | bar4Data (data : List Byte) (poisoned : Bool)
  | aer (status : Word)
  | flit (site port : Nat) (f : Flit) (credit : BitVec 4)
  | beat (site port : Nat) (data : BitVec 256) (ctl : BitVec 16)
  | mesh (site : Nat) (p : MeshPkt)
  | deliver (site : Nat) (p : MeshPkt)
  | attach (att : Nat) (p : MeshPkt)
  | treath (port : Nat) (hdr : BitVec 128) (body : TBody)
  | bmcResp (bytes : List Byte)
  | mctpError
  | bmcIrq
  | pldm (cmd : Nat) (bytes : List Byte)
  | spdm (cmd : Nat) (bytes : List Byte)
  | idle (site cycles : Nat)
  | row (site port : Nat) (words : List RowWord) (at_ : Nat) (poison : Nat)
  | steer (site out : Nat) (p : MeshPkt) (cyc : Nat)
  | sval (site : Nat) (o : SOut)
  | hostRead (addr len stream : Nat)
  deriving DecidableEq, Repr

/-! ### Device -/

/-- Device states with their codes' order (R795, R804). -/
inductive DevState where
  | off | standby | booting | testing | training | ready | degraded | failed
  deriving DecidableEq, Repr

/-- STATE of DFM_DEV_STATE (R804). -/
def DevState.code : DevState → Nat
  | .off => 0 | .standby => 1 | .booting => 2 | .testing => 3
  | .training => 4 | .ready => 5 | .degraded => 6 | .failed => 7

/-- Device-wide state: the device state and its causes (R804), the chronometer (R701) and whether the start instant has passed,
whether the Keeper runs, minders lost, restarting and restarted (R767, R768; masks by frame), reference clocks lost (R702), pins and supplies as the board drives
them (R880, R891), the trip latch with its record and whether the Keeper has still to log it (R744, R763), the watchdog's
record (R769), and the moves of R795 that the Keeper logs when it starts. -/
structure Dev where
  st : DevState
  chrono : Nat
  running : Bool
  keeper : Bool
  fail : Nat
  minderLost : Nat
  minderDown : Nat
  minderRestarts : List (Nat × Nat)
  refs : Nat
  servedOnce : Bool
  tripLatched : Bool
  wdog : Option Nat
  tripLast : Word
  tripNew : Bool
  perst : Bool
  resetN : Bool
  brakeIn : Bool
  thermtrip : Bool
  inRange : Bool
  bootLog : List (Nat × Nat)
  deriving DecidableEq, Repr

/-! ### Die -/

/-- Tile states (R779). -/
inductive TileState where
  | off | run | benched | fenced | quarantine | hole | parked
  deriving DecidableEq, Repr

/-- STATE of PG_STATE (R674). -/
def TileState.code : TileState → Nat
  | .off => 0 | .run => 1 | .benched => 2 | .fenced => 3 | .quarantine => 4 | .hole => 5 | .parked => 6

/-- Why a tile is BENCHED. -/
inductive BenchBy where
  | licence | fmax | strike | retired | spare
  deriving DecidableEq, Repr

/-- A physical tile: its state, the state held before parking, the bench reasons, the logical index it served when it
left RUN (R785), and whether its present stay in QUARANTINE is an in-field rotation (R828). -/
structure TileSt where
  st : TileState
  before : TileState
  bench : List BenchBy
  home : Option Nat
  rotating : Bool
  deriving DecidableEq, Repr

/-- A unit of the defect list (R825). -/
inductive Defect where
  | tile (site : Nat)
  | router (site : Nat)
  | wire (bridge wire : Nat)
  | hbmRow (stack row : Nat)
  | combCeil (comb code : Nat)
  deriving DecidableEq, Repr

/-- A logical site whose stand-in is in its known-answer run (R783). -/
structure StandIn where
  comb : Nat
  logical : Nat
  spare : Nat
  deriving DecidableEq, Repr

/-- What one copy of the distance table was written from (R45 to R50). -/
structure DistSnap where
  gen : Nat
  chrono : Nat
  remap : Sparse Word
  holes : List Nat
  slow : List Nat
  off : List Nat
  seamOff : List Nat
  links : List (Nat × Nat)
  deriving DecidableEq, Repr

/-- The die: tiles, excluded routers, substitution in progress, defect list in force, strikes with their times, links the
Keeper took out, the distance table's two copies, what the routing tables of the epoch, of the next and of the one before were built
from (R252), and whether the remap tables of this start are built (R35). -/
structure Die where
  tiles : Sparse TileSt
  holes : List Nat
  standIns : List StandIn
  remapWait : List (Nat × Nat × Word)
  reinst : List (Nat × Nat)
  reinstStaged : List (Nat × Nat)
  defects : List Defect
  strikes : List (Nat × Nat)
  seamOff : List Nat
  linkOff : List (Nat × Nat)
  distOld : DistSnap
  distNew : DistSnap
  routes : DistSnap
  routesNext : DistSnap
  routesPrev : DistSnap
  routeLinks : List (Nat × Nat)
  routeLinksNext : List (Nat × Nat)
  routeLinksPrev : List (Nat × Nat)
  built : Bool
  deriving DecidableEq, Repr

/-! ### Programs and launches -/

/-- A task template (R399). -/
structure Template where
  kind : Nat
  flags : Nat
  home : Nat
  gsize : Nat
  code : Nat
  pstride : Nat
  amax : Nat
  inst : Nat
  elig : Nat
  dep0 : Nat
  dep1 : Nat
  deriving DecidableEq, Repr

/-- A GRAPH record (R367). -/
structure Graph where
  id : Nat
  nbucket : Nat
  steal : Nat
  mirror : Nat
  first : Nat
  deriving DecidableEq, Repr

/-- A BUCKET record (R367). -/
structure Bucket where
  d0 : Nat
  d1 : Nat
  first : Nat
  count : Nat
  contrib : Nat
  deriving DecidableEq, Repr

/-- The facts of an installed image (R365 to R367); combs are placement combs. -/
structure Image where
  size : Nat
  crc : Nat
  footprint : Nat
  formats : Nat
  fallback : Nat
  ngraph : Nat
  pages : List (Nat × DWord)
  mcast : List (Nat × Nat × List Nat)
  sinks : List (Nat × Nat × Nat × DWord)
  micro : List (Nat × List DWord)
  tasks : List Template
  graphs : List Graph
  buckets : List Bucket
  queues : List (Nat × DWord)
  data : List (Nat × Nat × Nat × Nat × List Byte)
  deriving DecidableEq, Repr

/-- Slot states (R362). -/
inductive SlotSt where
  | empty | installed | active | unplaced
  deriving DecidableEq, Repr

/-- A program slot: state, image address, facts, comb map from placement to physical combs, the map that the next switch to the slot
brings (R362, R370, R371). -/
structure Slot where
  st : SlotSt
  addr : Nat
  img : Option Image
  map : List Nat
  next : List Nat
  deriving DecidableEq, Repr

/-- A switch record (R385); `ok` says that its KIND, MODE and reserved bytes are as R385 has them. -/
structure SwitchRec where
  ok : Bool
  slot : Nat
  flush : Bool
  limit : Nat
  done : Nat
  deriving DecidableEq, Repr

/-- The switch being made (R379): record, shadow copies written, time of step 2, combs that have switched, router pages whose commit was
refused (R254). -/
structure Switching where
  sw : SwitchRec
  loaded : Bool
  since : Nat
  combs : List Nat
  left : List Nat
  deriving DecidableEq, Repr

/-- A launch record (R384) with the step it belongs to, its role in the step (R500), and the nanojoules that its abandoned
runs already took (R738). -/
structure LRec where
  raw : List Byte
  step : Nat
  role : Nat
  nj : Nat
  deriving DecidableEq, Repr

/-- A record waiting at task dispatch. -/
inductive DispRec where
  | launch (l : LRec)
  | switch (r : SwitchRec)
  deriving DecidableEq, Repr

/-- The run of one template in a launch (R399 to R403). -/
structure TmplRun where
  idx : Nat
  first : Nat
  total : Nat
  done : Nat
  released : Bool
  deriving DecidableEq, Repr

/-- A launch taken by task dispatch (R384, R397, R402); `energy` is its Ledger share so far in nanojoules. -/
structure Launch where
  id : Nat
  step : Nat
  role : Nat
  slot : Nat
  graph : Nat
  bucket : Nat
  d0 : Nat
  d1 : Nat
  ptrs : List Nat
  anchors : List Nat
  cmask : Nat
  rmask : Nat
  map : Nat
  done : Nat
  job : Nat
  first : Nat
  tasks : Nat
  tmpls : List TmplRun
  reds : List (Nat × Bool)
  start : Nat
  started : Bool
  finished : Bool
  energy : Nat
  deriving DecidableEq, Repr

/-- A task instance (R401, R402). -/
structure Inst where
  launch : Nat
  tmpl : Nat
  j : Nat
  task : Nat
  comb : Nat
  deriving DecidableEq, Repr

/-- A FILL, SPILL or WFILL under way (R376): its number, counter, first row, address, the 64-byte units of the range still to come or
still to be acknowledged, whether the units go to the hold queue (1), the operand store (2) or nowhere (0), the step that it belongs
to, and whether its instance is gone, so that it counts on no counter (R463). -/
structure Xfer where
  id : Nat
  ctr : Nat
  kind : Nat
  addr : Nat
  row : Nat
  left : Nat
  step : Option Nat
  gone : Bool
  deriving DecidableEq, Repr

/-- What a tile runs: its instance, the eight completion counters (R376), the WAIT it stands at (R377), whether END has
executed, and the transfers under way. -/
structure TileRun where
  inst : Option Inst
  ctr : List Nat
  wait : Option (Nat × Nat)
  ended : Bool
  pend : List Xfer
  deriving DecidableEq, Repr

/-- Programs: slots, epochs, switches, task dispatch, pools (chapter 7); `flushed` are the combs whose last switch was FLUSH, `once` the
events already logged for a task: launch, task, code; `armed` are the reductions that a launch of this epoch has re-armed (R404); `pre` is a queued
switch whose shadow copies are already written, `code` and `codeNext` the two copies of each comb's code store (R379). -/
structure Prog where
  slots : Sparse Slot
  switches : Nat
  cur : Option Switching
  ahead : List SwitchRec
  dq : List DispRec
  launches : List Launch
  nextLaunch : Nat
  nextTask : List (Nat × Nat)
  pools : Sparse (List Inst)
  runs : Sparse TileRun
  nextXfer : Nat
  halted : List Nat
  flushed : List Nat
  once : List (Nat × Nat × Nat)
  armed : List Nat
  pre : Option Switching
  code : Sparse (List DWord)
  codeNext : Sparse (List DWord)
  deriving DecidableEq, Repr

/-! ### Streams, steps, Meridian -/

/-- A Stream Table entry (R421). -/
structure Stream where
  st : Nat
  cls : Nat
  oseq : Nat
  job : Nat
  ring16 : Bool
  spec : Bool
  emittedGen : Bool
  notify : Bool
  seed : BitVec 128
  ringBase : Nat
  ringEntries : Nat
  vector : Nat
  countAddr : Nat
  statusAddr : Nat
  emitted : Nat
  seqLen : Nat
  prompt : Nat
  kvRoot : Nat
  budget : Nat
  temp : Nat
  topp : Nat
  topk : Nat
  fault : Nat
  stop0 : Nat
  stop1 : Nat
  stage : Nat
  lastEmit : Nat
  reqStart : Nat
  gen : Nat
  deriving DecidableEq, Repr

/-- A record that the intake unit has accepted (R433): its bytes, its fetched token IDs, its staging blocks and reserved
list blocks; `fetched` says that a prompt fetch is complete or was not needed, `failed` that it failed (R652). -/
structure Pend where
  raw : List Byte
  toks : List Word
  stage : List Nat
  blocks : List Nat
  fetched : Bool
  failed : Bool
  deriving DecidableEq, Repr

/-- One APPEND's positions that are not prefilled yet: total and remaining count, the staging blocks it still holds,
and the address of a MEDIA tensor (R441, R442). -/
structure Seg where
  total : Nat
  left : Nat
  blocks : List Nat
  media : Option Nat
  deriving DecidableEq, Repr

/-- An assembly buffer of the intake unit (R430). -/
structure Asm where
  stream : Nat
  bytes : Sparse Byte
  since : Nat
  deriving DecidableEq, Repr

/-- The intake unit and the Stream Table (chapter 8). `reports` holds the outcomes to be reported at the next commit
point; `lastRep` the last reported OSEQ and RESULT; `round` the step whose commit point is being
handled, `deferred` the host writes a lead holds until every DONE and `late` the step completion records that follow them (R503, R613), `samples` what Almanac records then, by
round: a stream's entry before the writes, its tokens, the count of the commit point (R484, R613):
round, address, bytes; `stamp` the lead's count of the commit point that a COMMIT brings (R610). -/
structure Intake where
  table : Sparse Stream
  init : Bool
  expect : Sparse Nat
  pend : Sparse (List Pend)
  last : Sparse (List Byte)
  asm : List Asm
  staged : Sparse (List Seg)
  stageUsed : List Nat
  reports : List Report
  lastRep : Sparse (Nat × Nat)
  round : Nat
  deferred : List (Nat × Out)
  late : List (Nat × Nat × List Byte)
  samples : List (Nat × Stream × Nat × Nat)
  stamp : Option Nat
  deriving DecidableEq, Repr

/-- A cached KV segment (R466, R467): page, segment, comb, B-site ordinal, segment slot, the number of its cache write,
last use. It is valid once that write has landed. -/
structure KvSeg where
  page : Nat
  seg : Nat
  comb : Nat
  tile : Nat
  slot : Nat
  id : Nat
  used : Nat
  deriving DecidableEq, Repr

/-- The KV store (chapter 8): page lists and their list blocks (root first) by stream, REFS by page, pages and blocks
reserved, the low-water latches, the cache. -/
structure Kv where
  lists : Sparse (List Nat)
  blocks : Sparse (List Nat)
  refs : Sparse Nat
  resvPages : List Nat
  resvBlocks : List Nat
  draining : List Nat
  poolLow : Bool
  listLow : Bool
  cache : List KvSeg
  tickUse : Nat
  deriving DecidableEq, Repr

/-- An event that forbids a commit (R776): page, code, arguments, and the named detail that a repeat must share. -/
structure Forbid where
  page : Nat
  code : Nat
  a0 : Nat
  a1 : Nat
  a2 : Nat
  det : Nat
  deriving DecidableEq, Repr

/-- A step in flight or awaiting reissue (chapters 8, 9, 14). `cow` lists the copies of R462: stream, list index, page,
copy; `newPages` the reserved pages of each stream; `taints` the tallies poisoned by OVF or NONFINITE in this attempt: task, feature, column, code. -/
structure StepRec where
  num : Nat
  decode : List (Nat × Nat)
  prefill : List (Nat × Nat)
  spec : Bool
  cohorts : Nat
  sprint : Bool
  tag : Nat
  done : Nat
  dropped : Nat
  ts : Nat
  start : Nat
  attempts : Nat
  forbids : List Forbid
  past : List (List Forbid)
  recs : List LRec
  results : List ResRec
  newPages : List (Nat × List Nat)
  newBlocks : List (Nat × List Nat)
  cow : List (Nat × Nat × Nat × Nat)
  copied : List Nat
  seals : List (Nat × Nat)
  shadows : Nat
  rebuild : Bool
  faulted : List (Nat × Nat)
  taints : List (Nat × Nat × Nat × Nat)
  deriving DecidableEq, Repr

/-- Almanac (R484 to R493): counts of the open slot, the last ten slots, sixty seconds and sixty minutes; a count's key
is class x 2,048 plus the bucket, 512 plus the first-token bucket, 1,024 tokens, 1,025 ITL misses, 1,026 FTB misses. -/
structure Almanac where
  cur : Sparse Nat
  slots : List (Sparse Nat)
  secs : List (Sparse Nat)
  mins : List (Sparse Nat)
  inSec : Nat
  inMin : Nat
  gen : Nat
  lastEnd : Nat
  closed : Nat
  deriving DecidableEq, Repr

/-- Meridian (chapter 9) and the steps. -/
structure Meridian where
  guards : Sparse Nat
  shedCap : Nat
  tsLast : Nat
  lastStart : Nat
  startedOnce : Bool
  configured : Bool
  mode : Nat
  hSvc : Nat
  lastSeq : Nat
  next : Nat
  steps : List StepRec
  abandoned : List StepRec
  faulting : List (Nat × Nat)
  deriving DecidableEq, Repr

/-! ### HBM -/

/-- Stack states (R568). -/
inductive StackState where
  | out | training | run
  deriving DecidableEq, Repr

/-- One HBM stack and its controller (chapter 10); `rows` counts corrected reads per row of the scrub pass, `soft` the
rows soft-repaired since start, `hard` the stack addresses of hard repairs pending. -/
structure Stack where
  st : StackState
  inMap : Bool
  temp : Nat
  lanes : Nat
  reduced : Bool
  rows : Sparse Nat
  soft : List Nat
  hard : List Nat
  softDone : Nat
  deriving DecidableEq, Repr

/-- A remote HBM request that a destination port serves (R600): port, entry index, the stored fields, the slice of the request,
and the units of a read still to be answered. -/
structure RemoteEntry where
  port : Nat
  tag : Nat
  srcDev : Nat
  reply : Nat
  rflow : Nat
  origTag : Nat
  slice : Nat
  left : Nat
  deriving DecidableEq, Repr

/-- The HBM subsystem: the stacks, the poisoned units of computed Keeper-area structures, the sets whose content a mode
change left undefined (with the index of their free value) and the units written there since (R537), the units (stack × 2^30 + SADDR / 64)
that their stack's on-die ECC has reported and nothing has written since (R547, log 110). -/
structure Hbm where
  stk : Sparse Stack
  kpoison : List Nat
  undef : Sparse Nat
  rewritten : List Nat
  onDie : List Nat
  deriving DecidableEq, Repr

/-- The byte memories (log 2): M operand stores and S stores by site, B tiles by site, HBM units. -/
structure Mem where
  ops : Sparse Byte
  sst : Sparse Byte
  buf : Sparse Byte
  hbm : Sparse Byte
  deriving DecidableEq, Repr

/-! ### Host port -/

/-- The PCI Express port: link state (rate, lanes and the low bits of PCI_STATUS), the subsystem IDs as read at start, Bus Master Enable, held writes in
order (R656), pending MSI-X vectors and the function mask (R657), refused BAR0 accesses since the last log (R650). -/
structure HostPort where
  linkUp : Bool
  linkBits : Word
  subIds : Word
  bme : Bool
  held : List Out
  msixPend : List Nat
  funcMask : Bool
  refused : Nat
  refusedAt : Nat
  refusedOff : Nat
  aer : Word
  deriving DecidableEq, Repr

/-! ### Clocks and power -/

/-- Comb states (R750). -/
inductive CombState where
  | off | run | parked
  deriving DecidableEq, Repr

/-- A comb's clock, supply and thermal state (chapter 13): nominal and target code, active ADPLL, a local change under
way (code, source), the loops' codes, the minder's counters, the window's lowest margin, the 1 ms intervals it has stayed
cool, since when it is cool enough to leave PARKED (0 not), hot samples in a row, why it is parked (0 not, 1 heat,
2 minder lost) and whether it is on its way there, rail figures, and the STEADY_DEPART causes in force (R722). -/
structure Comb where
  st : CombState
  nom : Nat
  tgt : Nat
  adpll : Nat
  localCh : Option (Nat × Nat)
  thermN : Nat
  gnomN : Nat
  vtrim : Nat
  calm : Nat
  shortfall : Nat
  stretching : Bool
  throttled : Bool
  marginMin : Nat
  coolIv : Nat
  cool : Nat
  hot : Nat
  temp : Nat
  parkCause : Nat
  parking : Bool
  railW : Nat
  vmeas : Nat
  sense : Bool
  departed : List Nat
  deriving DecidableEq, Repr

/-- A synchronised change (R707): T, its moves (comb, code, source), whether the falling combs have switched, the combs whose
ADPLL did not lock, whether it carries a Sprint grant. -/
structure SyncChange where
  at_ : Nat
  moves : List (Nat × Nat × Nat)
  fell : Bool
  failed : List Nat
  grant : Bool
  deriving DecidableEq, Repr

/-- The clock system and the cap loop: `sprint_held` of R698, the SPRINT and REASON fields of R747, the brake, cap_n, intervals
above 1.1 × cap and below cap − CAP_HYST (R733), the pending change, a merged request with its source and count (R708), and
the pages whose commit waits, each with the combs whose change it waits for (R712). -/
structure Clk where
  held : Bool
  sprint : Nat
  reason : Nat
  brake : Bool
  capN : Nat
  overIv : Nat
  underIv : Nat
  sync : Option SyncChange
  again : Option (Nat × Nat)
  waiting : List (Nat × List Nat)
  deriving DecidableEq, Repr

/-- The Ledger's counts as its region shows them since the last interval end (R739). -/
structure LedgerPub where
  job : Sparse Nat
  occ : Sparse Nat
  cls : Sparse Nat
  toks : Sparse Nat
  idle : Nat
  overhead : Nat
  uncl : Nat
  device : Nat
  deriving DecidableEq, Repr

/-- A launch that has completed since the last interval end: job, energy so far, shares by class, none where the energy is unclassed
(R738). The interval under way still gives it energy. -/
structure EndedLaunch where
  id : Nat
  job : Nat
  nj : Nat
  shares : List (Nat × Nat)
  deriving DecidableEq, Repr

/-- The Ledger (R737 to R739): nanojoules by job and class, occupied tile-cycles by job, committed tokens by class; the launches that
completed since the last interval end. -/
structure Ledger where
  job : Sparse Nat
  occ : Sparse Nat
  cls : Sparse Nat
  toks : Sparse Nat
  idle : Nat
  overhead : Nat
  uncl : Nat
  device : Nat
  gen : Nat
  intervals : Nat
  lastEnd : Nat
  ended : List EndedLaunch
  pub : LedgerPub
  deriving DecidableEq, Repr

/-! ### M tiles (chapter 3) -/

/-- A plane (R76, R114, R115, R137): element codes by row slot and column (0x10000 for a poisoned element, 0x20000 for a masked
position), scales by block and column (0x100 for a poisoned one), checksum-column elements with their exactness. -/
structure MPlane where
  codes : List (List Nat)
  scales : List (List Nat)
  acs : List (Int × Bool)
  deriving DecidableEq, Repr

/-- A plane set (R113, R114): format, layout class (0 one MAC, 1 two MACs, 2 fused pair), planes, complete, poisoned. -/
structure PlaneSet where
  fmt : Nat
  cls : Nat
  planes : List MPlane
  ready : Bool
  poison : Bool
  deriving DecidableEq, Repr

/-- A plane load record waiting or in flight (R118): its number on the tile, the passes given before it, and whether a record
discarded since has poisoned its set. -/
structure MLoad where
  rec_ : DWord
  cm : Bool
  rm : Bool
  cmask : Nat
  rmask : Nat
  d0 : Nat
  d1 : Nat
  task : Nat
  step : Option Nat
  idx : Nat
  passes : Nat
  started : Bool
  bad : Bool
  deriving DecidableEq, Repr

/-- A weight vector (R121, R122): element codes and scales; 0 as it came, 1 a zero vector for a gap, 2 poisoned; the beats of its
packet that hold it whole, and those that its issue frees (R127). -/
structure MVec where
  codes : List Nat
  scales : List Nat
  kind : Nat
  need : Nat
  frees : Nat
  deriving DecidableEq, Repr

/-- A column's tally as it forms: value, TSTAT, residue (R85, R145). -/
structure Tal where
  val : Int
  ts : Nat
  res : Nat
  deriving DecidableEq, Repr

/-- A group in the tally store (R136): reduction ID, root, task, step, slot, first feature, tallies by feature and column, its pass's
number and its own within the pass, and the first cycle of its emission. -/
structure TGroup where
  red : Nat
  root : Nat
  task : Nat
  step : Option Nat
  slot : Nat
  first : Nat
  feats : List (List Tal)
  pass : Nat
  num : Nat
  due : Nat
  deriving DecidableEq, Repr

/-- What the checks of a pass find (R149, R150), by the comb cycle of the result: CHECK 0 to 4 with column, block and the word of
MTL_CS_LAST; 8 TALLY_NONFINITE and 9 TALLY_OVF of feature `word`; 10 `word` comparisons skipped (R143). With the group, the
pass's number, its task, launch and step. -/
structure CFail where
  cyc : Nat
  check : Nat
  col : Nat
  block : Nat
  word : Nat
  group : Nat
  pass : Nat
  task : Nat
  launch : Option Nat
  step : Option Nat
  deriving DecidableEq, Repr

/-- A packet of the intake queue (R123, R127): the cycle of its head flit, the head's payload, its beats, whether it is poisoned, the
beats that have come, and those that issued vectors have freed. -/
structure WPkt where
  at_ : Nat
  head : BitVec 512
  beats : List (BitVec 256)
  poison : Bool
  came : Nat
  used : Nat
  deriving DecidableEq, Repr

/-- A pass that waits or is in flight (R130): its launch and step, its number on the tile, the loads given before it, the vectors waiting
of the packet being taken, vectors issued in all, whether its LAST packet has come, the next issue slot, the group being formed with its
checksum row (R139) and column sums (R140), and the poison of gaps (R125). -/
structure MPass where
  rec_ : BitVec 128
  root : Nat
  task : Nat
  launch : Option Nat
  step : Option Nat
  cmask : Nat
  idx : Nat
  loads : Nat
  upsets : List Upset
  vecs : List MVec
  issued : Nat
  taken : Nat
  last : Bool
  clk : Nat
  cur : List Tal
  feats : List (List Tal)
  wcs : List (List Int)
  sums : List (List (List Int))
  seek : Bool
  gapSeen : Bool
  gapGroup : Option Nat
  geom : Bool
  deriving DecidableEq, Repr

/-- An M tile: plane sets, loads, the rows that the load in flight has received (key: plane x 2^20 + place in BT x 2^14 + row), the pass
and those that wait, how many of each were given, the intake queue and the next cycle in which a flit may enter it, the tally store and
the slot of its next group, the next cycle the engine has to decide, the cycles from which the sets are free of vectors (R118), results
of checks still to come, groups that have failed one (pass, group), and the group whose failure MTL_CS_LAST records without a column. -/
structure MTile where
  a : PlaneSet
  b : PlaneSet
  loads : List MLoad
  nLoads : Nat
  pass : Option MPass
  more : List MPass
  nPass : Nat
  got : Sparse (List RowWord)
  queue : List WPkt
  inAt : Nat
  groups : List TGroup
  slot : Nat
  clk : Nat
  freeA : Nat
  freeB : Nat
  fails : List CFail
  failed : List (Nat × Nat)
  loc : Option (Nat × Nat)
  deriving DecidableEq, Repr

/-! ### S tiles (chapter 4) -/

/-- A shadowed operation (R195 to R198): function, task, own output, partner, the partner's output, arbiter, step. -/
structure Shadow where
  func : Nat
  task : Nat
  out : SOut
  partner : Nat
  pout : Option SOut
  arb : Option Nat
  step : Nat
  stalled : Bool
  deriving DecidableEq, Repr

/-- An S tile: the counters of R194, the steps in flight of which it has executed an operation, those of which it has shadowed
one, shadows open. -/
structure STile where
  opc : Nat
  sts : Nat
  steps : List Nat
  shadowedIn : List Nat
  shadows : List Shadow
  deriving DecidableEq, Repr

/-! ### W tiles (chapter 4) -/

/-- An item held at a W-tile input (R205): a steer word or a data packet, with its arrival cycle. -/
inductive WItem where
  | steer (w : DWord) (arr : Nat)
  | data (p : MeshPkt) (arr : Nat)
  deriving DecidableEq, Repr

/-- A group that has paired (R208, R210): input, ordinal on its input, steer word, packets received and not yet sent with
their arrival, packets sent whole, outputs that still need a copy of the first waiting packet, outputs that still get the steer word,
the cycle its hold runs from, whether its first packet keeps the entry it was held in, the packets it takes in all: GCOUNT,
or fewer once its steer word was discarded (R212), and 0 for a pure control event, and the cycle of its pairing. -/
structure WGroup where
  input : Nat
  ord : Nat
  word : DWord
  pkts : List (MeshPkt × Nat)
  sent : Nat
  left : List Nat
  fwdLeft : List Nat
  last : Nat
  own : Bool
  count : Nat
  paired : Nat
  deriving DecidableEq, Repr

/-- A W-tile input (R205, R215): state 0 to 3, next SEQ, held items oldest first, packets left, halted, the
ordinal of the next group, items of the next epoch: at most one of each virtual channel (R292). -/
structure WInput where
  st : Nat
  next : Nat
  held : List WItem
  remain : Nat
  halted : Bool
  ord : Nat
  early : List WItem
  deriving DecidableEq, Repr

/-- A W tile: inputs, groups paired in order of pairing, the steer words paired that some ordered output has not yet
taken or passed, the turn of each ordered output, how many groups of each input each output has
handled (R210), the next free injection cycle (R208), the items in the tile port's input queue that the tile cannot take yet, with
their headers: no entry is free, or their input holds one of the next epoch (R209, R215). -/
structure WTile where
  ins : Sparse WInput
  groups : List WGroup
  hist : List (Nat × Nat × Nat)
  turn : Sparse Nat
  handled : Sparse Nat
  clk : Nat
  wait : List (Nat × WItem)
  deriving DecidableEq, Repr

/-! ### Routers and tile ports (chapter 5) -/

/-- A flit in an input queue (R229): its content, whether it is a head, whether its header lane carries content, the cycle in which it
is in the queue, and for a head the output ports and lane that routing gave it and whether the router holds its packet to combine; the
last flit that comes of a packet. -/
structure QFlit where
  f : PFlit
  head : Bool
  l : Bool
  arr : Nat
  outs : Nat
  escOut : Bool
  hold : Bool
  last : Bool
  deriving DecidableEq, Repr

/-- One lane of an input (R229, R239, R270). Arriving: discarding to the next head, flits of the packet still to come. The queue.
Leaving: the packet's output ports and lane, whether it goes to a combine slot, the flits that have left. -/
structure RLane where
  drop : Bool
  left : Nat
  q : List QFlit
  outs : Nat
  escOut : Bool
  hold : Bool
  got : List PFlit
  deriving DecidableEq, Repr

/-- A combine slot (R262): the held packet and the cycle in which its window ends. -/
structure CSlot where
  pkt : List PFlit
  esc : Bool
  deadline : Nat
  deriving DecidableEq, Repr

/-- A chunk accumulator of a sink (R265): RED, OFF, contributors, tallies with TSTAT, residue of each flit. -/
structure ChunkAcc where
  red : Nat
  off : Nat
  contrib : Nat
  vals : List Int
  ts : List Nat
  res : List Nat
  deriving DecidableEq, Repr

/-- A flow that a tile port sends (R274, R275, R291): destination, flow ID, next SEQ, the step it was last used in, whether it is
guarded. -/
structure Flow where
  dest : Nat
  flow : Nat
  next : Nat
  step : Nat
  guard : Bool
  deriving DecidableEq, Repr

/-- A router with its tile port: consecutive CRC failures and links down by port, lanes, combine slots, the step and attempt of the
last logged CRC failure, guard tables of the tile port and of an attachment, epoch markers seen, flows sent, sink
accumulators and completed chunks, early packets, the cycle up to which it has run, the packet that owns a lane of an output (R239), flits
sent on a lane of an output whose credit has not come back, the channel and the input that an output served last (R238), credits to
return, the queues of the crossings that its out-links lead over (R280), beats of a flit that has not come whole (R285), the snapshot of
R296, chunks that wait for an accumulator (R265), whether its markers of the epoch are sent (R291). -/
structure Router where
  crcRun : Sparse Nat
  down : List Nat
  lanes : Sparse RLane
  slots : Sparse CSlot
  crcStep : Option (Nat × Nat)
  guard : List (Nat × Nat × Nat)
  eguard : List (Nat × Nat × Nat)
  markers : List (Nat × Nat)
  flows : List Flow
  acc : List ChunkAcc
  doneCh : List (Nat × Nat)
  early : List MeshPkt
  now : Nat
  own : Sparse Nat
  sent : Sparse Nat
  rrVc : Sparse Nat
  rrIn : Sparse Nat
  credits : List (Nat × Nat)
  cross : Sparse (List Flit)
  beats : Sparse (List (BitVec 256 × BitVec 16))
  occ : List Nat
  waiting : List MeshPkt
  marked : Bool
  deriving DecidableEq, Repr

/-! ### B tiles (chapter 6) -/

/-- An access in the pipeline (R318, R325): bank cycle, port, whether a write, row, words written and their mask, disturbances,
whether the mask of R317 refuses it, whether SELECT has judged it, the sequencer's transfer that a read belongs to or the packet of a
held row that is written, and the M tile whose plane loader reads the row, with the key under which it keeps it. -/
structure BAccess where
  cyc : Nat
  port : Nat
  write : Bool
  row : Nat
  words : List RowWord
  wmask : Nat
  flips : List Flip
  own : Bool
  sel : Bool
  job : Option Nat
  load : Option (Nat × Nat)
  deriving DecidableEq, Repr

/-- A read of a cached KV segment (R467, R468): the segment's number, the tile whose FILL or WFILL reads, the transfer, the address and
units read, the comb step it belongs to, the source named to HBM. -/
structure SegRead where
  id : Nat
  site : Nat
  xfer : Nat
  addr : Nat
  units : Nat
  step : Option Nat
  src : Nat
  deriving DecidableEq, Repr

/-- A request in the AREAD queue (R319, R340, R467): next row, rows left, reply fields, side-channel port of a partner read,
rows gathered for the response packet being filled, whether the request came poisoned (R271), and the cached segment that it reads. -/
structure BReadReq where
  row : Nat
  left : Nat
  reply : Nat
  rflow : Nat
  tag : Nat
  port : Option Nat
  first : Nat
  got : List (List Byte × Bool)
  headAt : Nat
  poison : Bool
  seg : Option SegRead
  deriving DecidableEq, Repr

/-- A held row write (R332): row, words, word mask, arrival, packet number, source, partner write, epoch, comb step. -/
structure BHeld where
  row : Nat
  words : List RowWord
  wmask : Nat
  arr : Nat
  pkt : Nat
  src : Nat
  partner : Bool
  epoch : Nat
  deriving DecidableEq, Repr

/-- A write packet whose rows are held (R335, R376): number, rows left, whether some were discarded, whether a discard of R334 is
logged, the transfer or cache write it is part of, acknowledgement fields. -/
structure BPkt where
  pkt : Nat
  left : Nat
  lost : Bool
  logged : Bool
  ctr : Option Nat
  ack : Bool
  reply : Nat
  rflow : Nat
  tag : Nat
  deriving DecidableEq, Repr

/-- Where the rows of a transfer of the sequencer go (R315, R373): packets with their mesh header, head payload and number of body
flits; local HBM under a transfer number; another device's HBM. -/
inductive SeqOut where
  | send (l : List (Nat × Nat × Nat))
  | local (xfer base src : Nat) (step : Option Nat)
  | remote (addr rflow : Nat)
  deriving DecidableEq, Repr

/-- Rows that port SEQ reads (R315): number, rows left, the body flits read with their poison, the step, where they go. -/
structure SeqJob where
  id : Nat
  left : Nat
  got : List (Nat × Bool)
  step : Option Nat
  out : SeqOut
  deriving DecidableEq, Repr

/-- A request whose credit is withheld at the tile port (R320, R332): head, SRC, LEN, virtual channel and epoch of a read; a write packet;
both with the side-channel port of a partner access; the rows of a transfer or of a cache write, as one packet, with their word mask, SRC
and epoch, and whether they need no window; a read of a cached segment, with its first row. -/
inductive BWait where
  | read (head src len vc epoch : Nat) (poison : Bool) (port : Option Nat)
  | write (pkt : MeshPkt) (port : Option Nat)
  | rows (l : List (Nat × List RowWord)) (wmask src epoch : Nat) (partner : Bool) (pkt : BPkt)
  | seg (row n : Nat) (r : SegRead)
  deriving DecidableEq, Repr

/-- A B tile: pipeline; bank cycles that AREAD and SCRUB have taken, as bank cycle, port and row; AREAD queue; hold queue; packets
and the next packet number; transfers of the sequencer and the next transfer number; requests whose credit is withheld; windows that a
cycle has changed, as bank, cycle and earlier value; the cycle reached; scrub row and pending write-backs. -/
structure BTile where
  pipe : List BAccess
  claims : List (Nat × Nat × Nat)
  jobs : List SeqJob
  nextJob : Nat
  waiting : List BWait
  wins : List (Nat × Nat × Nat)
  reads : List BReadReq
  hold : List BHeld
  pkts : List BPkt
  nextPkt : Nat
  now : Nat
  scrubRow : Nat
  scrubBack : List (Nat × List RowWord)
  scrubAt : Nat
  deriving DecidableEq, Repr

/-! ### Treath ports and slices (chapter 11) -/

/-- The fields of a header that a sender chooses (R583); the link layer adds LSEQ, LACK, NAK and CRC. -/
structure THead where
  dst : Nat
  src : Nat
  slice : Nat
  cls : Nat
  hops : Nat
  len : Nat
  pmask : Nat
  deriving DecidableEq, Repr

/-- A Treath port (R575 to R588): state 0 OFF, 1 TRAINING, 2 UP, 3 DOWN; width and lanes as the registers show them; the
neighbour; an ID conflict; kept out of bundles until a full retrain; the neighbour it was bundled with; retrains since
start and the times of the Keeper's; link sequence numbers, the LSEQ refused and how often, packets
not acknowledged; the chunk accumulators of its hive sinks and the chunks done; the time announcements it hears. -/
structure TPort where
  st : Nat
  width : Nat
  rev : Bool
  lanes : Nat
  nbr : Option Ident
  conflict : Bool
  alone : Bool
  bundle : Option Nat
  mate : Option (DWord × Nat)
  retrains : Nat
  tries : List Nat
  fails : Nat
  lseq : Nat
  lack : Nat
  refused : Nat × Nat
  retry : List (BitVec 128 × TBody)
  acc : List ChunkAcc
  doneCh : List (Nat × Nat)
  waiting : List MeshPkt
  txq : List (THead × TBody)
  used : Sparse Nat
  back : Sparse Nat
  turn : Nat
  rxq : List (THead × MeshPkt)
  heard : Option (DWord × Nat)
  deriving DecidableEq, Repr

/-- Time (R604 to R610): the root followed and the hops to it, the parent port, SYNC, holdover since when, the last
offset, whether the one step of R606 is used, the last exchange, the nanoseconds still to be slewed away, whether
the chronometer has just been held back for it. -/
structure TimeSt where
  root : Option DWord
  hops : Nat
  parent : Option Nat
  sync : Bool
  holdover : Option Nat
  offset : Int
  stepped : Bool
  last : Nat
  slew : Int
  hold : Bool
  deriving DecidableEq, Repr

/-- Treath: ports, bundles (ports and neighbour, by number), remote-request entries in use (R600), time. -/
structure Treath where
  ports : Sparse TPort
  bundles : List (List Nat × Ident)
  rrt : List RemoteEntry
  time : TimeSt
  deriving DecidableEq, Repr

/-- A round of the slice protocol (R612 to R615): step, the own share's result records once it is ready and since when,
READY messages by sender, the COMMIT sent and its phase (0 none, 1 to the deputy, 2 to all), DONE by sender. -/
structure SRound where
  step : Nat
  own : Option (List ResRec)
  since : Nat
  ready : List (Nat × List ResRec)
  phase : Nat
  body : CommitBody
  done : List Nat
  deriving DecidableEq, Repr

/-- The slice protocol (R611 to R624): state 0 NONE, 1 RUN, 2 SUSPENDED, 3 REBUILD; rounds in ascending step; when each
member was last heard; lost members; the last step applied and its COMMIT; the token log by stream, with incomplete
streams; rebuild positions reached; what the next COMMIT carries; the last BEAT sent; members' last steps by STATUS_R;
whether the deputy has asked for them (R618); the writes of R450 of the last committed step, as the deputy would make them; the events that
keep this device's share of its oldest step from committing, and those of earlier attempts by step (R612, R776). -/
structure Slice where
  st : Nat
  rounds : List SRound
  seen : Sparse Nat
  lost : List Nat
  applied : Nat
  lastBody : CommitBody
  toklog : Sparse (List Word)
  gaps : List Nat
  rebuild : List (Nat × Nat)
  switches : List (List Byte)
  remap : List (Nat × BitVec 16)
  beatAt : Nat
  status : Sparse Nat
  takeover : Bool
  lastWrites : List Out
  gather : List (Nat × Nat × List ResRec)
  own : List Forbid
  past : Sparse (List Forbid)
  deriving DecidableEq, Repr

/-! ### What a start keeps (chapter 15) -/

/-- An entry of the stored defect list (R825). -/
structure DEntry where
  type : Nat
  origin : Nat
  start : Nat
  ref : Nat
  data : Nat
  deriving DecidableEq, Repr

/-- A flash bank (R811, R812): GEN of its directory, the component objects written into it since manufacture, by ID, and
the components whose package had ADVANCE set (R838). A component not listed holds the maker's object (log 18). -/
structure Bank where
  gen : Nat
  objs : List (Nat × List Byte)
  adv : List Nat
  deriving DecidableEq, Repr

/-- An update that is being written (R836): component, object, ADVANCE, TARGET_VERSION, the mailbox that asked. -/
structure FwWrite where
  comp : Nat
  obj : List Byte
  adv : Bool
  version : Nat
  mailbox : Option Nat
  deriving DecidableEq, Repr

/-- What outlives a start (chapter 15): life-cycle fuses, revoked slots, floors of components 1 to 6, the start counter, the
flash banks and the one that booted, the owner key set, licences held (TIER, ISSUE, key slot), the two fmax table copies (GEN,
start count, codes), the defect list with the appends that wait for an update, an accepted LCS_REQUEST, the update being
written, the input readings of a cut (R884), the seam wires that failed after the start test (R23), and the Subsystem ID and
Subsystem Vendor ID of the configuration space (R646). -/
structure Nv where
  provFuse : Bool
  sealFuse : Bool
  voidFuse : Bool
  ret : Nat
  revoked : Nat
  floors : List Nat
  starts : Nat
  bankA : Bank
  bankB : Bank
  active : Nat
  owner : Option (List Byte)
  lics : List (Nat × Nat × Nat)
  fmaxTab : List (Nat × Nat × Sparse Nat)
  dlist : List DEntry
  dwait : List DEntry
  lcsPending : Nat
  update : Option FwWrite
  cut : Option (Nat × Nat)
  badWires : List (Nat × Nat)
  subIds : Word
  deriving DecidableEq, Repr

/-- The management port (R665 to R669, R839, R850, R899): the dynamic I3C address, the firmware-device state of PLDM (0 idle,
1 learning components, 2 ready for transfer, 3 download, 4 verify, 5 apply, 6 activate), the components passed, the one
in transfer with its size and bytes, the signing inputs of the last CHALLENGE_AUTH and signed MEASUREMENTS, the components as
loaded and the defect list as read at start (R852), the sensors of R666 in its order, the pin sensors. -/
structure Mgmt where
  i3c : Option Nat
  upd : Nat
  comps : List Nat
  comp : Nat
  size : Nat
  pkg : List Byte
  chal : Option (List Byte)
  meas : Option (List Byte)
  loaded : List (List Byte)
  listRead : List DEntry
  sensors : List Nat
  sensTrip : PinSensor
  sensAlert : PinSensor
  deriving DecidableEq, Repr

/-- The state of the module and the queue of commands that wait. -/
structure State where
  pending : List Instr
  regs : Sparse Word
  staged : Sparse Word
  limits : Sparse Slots4
  limStaged : Sparse Slots4
  pages : Sparse PageSt
  latch : Sparse Word
  lowHeld : Sparse Word
  ev : Events
  out : List Out
  dev : Dev
  die : Die
  mem : Mem
  prog : Prog
  intake : Intake
  kv : Kv
  mrd : Meridian
  alm : Almanac
  hbm : Hbm
  host : HostPort
  combs : Sparse Comb
  clk : Clk
  ldg : Ledger
  mt : Sparse MTile
  st : Sparse STile
  wt : Sparse WTile
  rt : Sparse Router
  bt : Sparse BTile
  tre : Treath
  slc : Slice
  nv : Nv
  mgmt : Mgmt
  freeCtr : Nat
  deriving DecidableEq, Repr

/-! ### Reset -/

/-- What a slice carries between its steps when there is none. -/
def noBody : CommitBody := { results := [], records := [], switches := [], remap := [], hasStep := false, time := 0, prefill := [], reports := [], rebuild := false }

def resetDev : Dev :=
  { st := .standby, chrono := 0, running := false, keeper := false, fail := 0, minderLost := 0, minderDown := 0, minderRestarts := [], refs := 0
    servedOnce := false, tripLatched := false, wdog := none, tripLast := 0, tripNew := false, perst := true, resetN := true
    brakeIn := false, thermtrip := false, inRange := false, bootLog := [(0, 1)] }

def noDist : DistSnap := { gen := 0, chrono := 0, remap := [], holes := [], slow := [], off := [], seamOff := [], links := [] }

def resetDie : Die :=
  { tiles := [], holes := [], standIns := [], remapWait := [], reinst := [], reinstStaged := [], defects := [], strikes := []
    seamOff := [], linkOff := [], distOld := noDist, distNew := noDist, routes := noDist, routesNext := noDist
    routesPrev := noDist, routeLinks := [], routeLinksNext := [], routeLinksPrev := [], built := false }

def resetProg : Prog :=
  { slots := [], switches := 0, cur := none, ahead := [], dq := [], launches := [], nextLaunch := 1, nextTask := [], pools := []
    runs := [], nextXfer := 1, halted := [], flushed := [], once := [], armed := [], pre := none, code := [], codeNext := [] }

def resetIntake : Intake :=
  { table := [], init := false, expect := [], pend := [], last := [], asm := [], staged := [], stageUsed := [], reports := []
    lastRep := [], round := 0, deferred := [], late := [], samples := [], stamp := none }

def resetKv : Kv :=
  { lists := [], blocks := [], refs := [], resvPages := [], resvBlocks := [], draining := [], poolLow := false, listLow := false
    cache := [], tickUse := 0 }

def resetMrd : Meridian :=
  { guards := [], shedCap := 16, tsLast := 0, lastStart := 0, startedOnce := false, configured := false, mode := 2, hSvc := 0
    lastSeq := 0, next := 1, steps := [], abandoned := [], faulting := [] }

def resetAlm : Almanac :=
  { cur := [], slots := [], secs := [], mins := [], inSec := 0, inMin := 0, gen := 0, lastEnd := 0, closed := 0 }

def resetHost : HostPort :=
  { linkUp := false, linkBits := 0, subIds := 0, bme := false, held := [], msixPend := [], funcMask := false, refused := 0, refusedAt := 0
    refusedOff := 0, aer := 0 }

def resetClk : Clk :=
  { held := false, sprint := 0, reason := 0, brake := false, capN := 144, overIv := 0, underIv := 0, sync := none, again := none
    waiting := [] }

def resetLedger : Ledger :=
  { job := [], occ := [], cls := [], toks := [], idle := 0, overhead := 0, uncl := 0, device := 0, gen := 0, intervals := 0
    lastEnd := 0, ended := []
    pub := { job := [], occ := [], cls := [], toks := [], idle := 0, overhead := 0, uncl := 0, device := 0 } }

def resetTreath : Treath :=
  { ports := [], bundles := [], rrt := []
    time := { root := none, hops := 0, parent := none, sync := false, holdover := none, offset := 0, stepped := false, last := 0
              slew := 0, hold := false } }

def resetSlice : Slice :=
  { st := 0, rounds := [], seen := [], lost := [], applied := 0, lastBody := noBody, toklog := [], gaps := [], rebuild := []
    switches := [], remap := [], beatAt := 0, status := [], takeover := false, lastWrites := [], gather := [], own := [], past := [] }

/-- The fuses and the flash of a new module (log 18): SEALED, both banks at the maker's objects, a Manuka licence. -/
def makerNv : Nv :=
  { provFuse := true, sealFuse := true, voidFuse := false, ret := 0, revoked := 0, floors := [0, 0, 0, 0, 0, 0], starts := 0
    bankA := { gen := 1, objs := [], adv := [] }, bankB := { gen := 1, objs := [], adv := [] }, active := 0
    owner := none, lics := [(3, 1, 0)], fmaxTab := [], dlist := [], dwait := [], lcsPending := 0, update := none, cut := none
    badWires := [], subIds := 0 }

def resetMgmt : Mgmt :=
  { i3c := none, upd := 0, comps := [], comp := 0, size := 0, pkg := [], chal := none, meas := none, loaded := [], listRead := []
    sensors := [], sensTrip := .normal, sensAlert := .normal }

/-- The module right after reset: in STANDBY, every register at its reset value (R804, R807, R809, R876). -/
def State.reset : State :=
  { pending := [], regs := [], staged := [], limits := [], limStaged := [], pages := [], latch := [], lowHeld := []
    ev := { retained := [], retLost := 0, batch := [], overflow := 0, bmc := [], bmcLost := 0 }
    out := [], dev := resetDev, die := resetDie, mem := { ops := [], sst := [], buf := [], hbm := [] }, prog := resetProg
    intake := resetIntake, kv := resetKv, mrd := resetMrd, alm := resetAlm
    hbm := { stk := [], kpoison := [], undef := [], rewritten := [], onDie := [] }
    host := resetHost, combs := [], clk := resetClk, ldg := resetLedger, mt := [], st := [], wt := [], rt := [], bt := []
    tre := resetTreath, slc := resetSlice, nv := makerNv, mgmt := resetMgmt, freeCtr := 0 }

end Sys2Proof.Machine
end

