-- ==== Sys2Proof/Machine/Ops.lean ====
section
/-! DEFINITION. The named operations every family shares: registers, pages, the event log, host writes, sites. -/

namespace Sys2Proof.Machine

/-- The three outcomes over this machine's state. -/
abbrev Res := Host.Outcome State Fault Refusal

/-! ### Sites (R2, R15, R24 to R28) -/

def siteComb (site : Nat) : Nat := site / 120
def siteIdx (site : Nat) : Nat := site % 120
def mkSite (comb idx : Nat) : Nat := 120 * comb + idx
def siteKind (site : Nat) : Kind := kindOf (site % 120)

/-- The physical coordinates of a site: comb origin plus local column and row (R15). -/
def siteX (site : Nat) : Nat :=
  let c := siteComb site
  24 * (c / 4 % 2) + 12 * (c % 2) + siteIdx site % 12
def siteY (site : Nat) : Nat :=
  let c := siteComb site
  20 * (c / 8) + 10 * (c % 4 / 2) + siteIdx site / 12

/-- `comb_of_p` of R15. -/
def combOfXY (px py : Nat) : Nat :=
  4 * (2 * (py / 10 / 2) + px / 12 / 2) + (2 * (py / 10 % 2) + px / 12 % 2)

/-- The site at physical coordinates. -/
def siteAt (px py : Nat) : Nat := mkSite (combOfXY px py) (12 * (py % 10) + px % 12)

/-- The site is one of the device's 2,880 (R2). -/
def isSite (site : Nat) : Bool := decide (site < 2880)

/-- The site holds a tile of the kind. -/
def isKind (k : Kind) (site : Nat) : Bool := isSite site && siteKind site == k

/-- Run a meaning on a site of the kind it acts on; the device has no other such unit (R2, R24). -/
def onKind (k : Kind) (site : Nat) (f : State → State) (s : State) : Res :=
  if isKind k site then .next (f s) else .fault .noSuchUnit

/-- Run a meaning where the unit it names exists. -/
def onUnit (ok : Bool) (f : State → State) (s : State) : Res :=
  if ok then .next (f s) else .fault .noSuchUnit

/-! ### Sources (R684) -/

def srcCode : Source → Nat
  | .keeper => 1
  | .bmc => 2
  | .host => 3
  | .peer _ => 4

/-- The physical device ID of a peer, 0 for other sources (R685, R690). -/
def srcDev : Source → Nat
  | .peer d => d.toNat
  | _ => 0

/-! ### Pages -/

/-- The header of a page after reset: OWNER_FIXED pages belong to the Keeper (R57, R686), every other is unowned. -/
def pageDflt (p : Nat) : PageSt :=
  { own := if bit (pageClass p).caps 2 then some .keeper else none
    seq := 0, pending := false, who := 0, slotsOnly := false, slotDirty := [], dirty := 0, mask := 0, last := 0, results := [] }

def State.page (s : State) (p : Nat) : PageSt := sget pageDflt s.pages p

def State.updPage (s : State) (p : Nat) (f : PageSt → PageSt) : State :=
  { s with pages := supd pageDflt s.pages p f }

/-! ### Registers -/

/-- The active value of a register word. -/
def State.reg (s : State) (p off : Nat) : Word := sget regDflt s.regs (regKey p off)

/-- The active value of a register word as a number. -/
def State.regN (s : State) (p off : Nat) : Nat := (s.reg p off).toNat

/-- The active value of a 64-bit register. -/
def State.reg64 (s : State) (p off : Nat) : Nat := s.regN p off + 2 ^ 32 * s.regN p (off + 4)

/-- Set a register word. -/
def State.setReg (s : State) (p off v : Nat) : State :=
  { s with regs := sset regDflt s.regs (regKey p off) (w32 v) }

/-- Set a 64-bit register. -/
def State.setReg64 (s : State) (p off v : Nat) : State := (s.setReg p off v).setReg p (off + 4) (v / 2 ^ 32)

/-- Count in an RC counter, which saturates. -/
def State.incReg (s : State) (p off : Nat) : State := s.setReg p off (satInc (s.regN p off))

/-- Count in a counter that wraps at 2^32. -/
def State.wrapReg (s : State) (p off : Nat) : State := s.setReg p off (s.regN p off + 1)

/-- Add to a 64-bit counter that wraps. -/
def State.addReg64 (s : State) (p off k : Nat) : State := s.setReg64 p off (s.reg64 p off + k)

/-- Count in a 16-bit half of an RC counter, `sh` 0 or 16; each half saturates. -/
def State.incHalf (s : State) (p off sh : Nat) : State :=
  let v := s.regN p off
  s.setReg p off (putBits v (sh + 15) sh (satAdd 0xFFFF (bits v (sh + 15) sh) 1))

/-- The staged value of a word: the staged copy where it differs, else the active value (R680). -/
def State.stg (s : State) (p off : Nat) : Word :=
  match sfind s.staged (regKey p off) with
  | some w => w
  | none => s.reg p off

def State.stgN (s : State) (p off : Nat) : Nat := (s.stg p off).toNat
def State.stg64 (s : State) (p off : Nat) : Nat := s.stgN p off + 2 ^ 32 * s.stgN p (off + 4)

/-- The dirty bit of PG_STAGE for a block offset (R676). -/
def dirtyBit (off : Nat) : Nat := if off / 64 = 0 then 1 else off / 64

/-- Write the staged copy of a word and mark PG_STAGE (R676, R680). -/
def State.stage (s : State) (p off v : Nat) : State :=
  ({ s with staged := sput s.staged (regKey p off) (w32 v) }).updPage p fun g =>
    { g with dirty := putBits g.dirty (dirtyBit off) (dirtyBit off) 1 }

/-- The staged words of a page. -/
def State.stagedOf (s : State) (p : Nat) : Sparse Word := s.staged.filter fun e => e.1 / 0x1000 == p

/-- Take the staged copy of a page away (R683). -/
def State.dropStaged (s : State) (p : Nat) : State :=
  ({ s with staged := s.staged.filter fun e => e.1 / 0x1000 != p }).updPage p fun g => { g with dirty := 0 }

/-- The active words after a staged copy has been applied. -/
def applyWords (regs : Sparse Word) : Sparse Word → Sparse Word
  | [] => regs
  | (k, w) :: t => applyWords (sset regDflt regs k w) t

/-- A PENDING result turns to OK when the commit takes effect (R681). -/
def settle (l : List OrderRes) : List OrderRes := l.map fun r => if r.code = 1 then { r with code := 0 } else r

/-! ### Limit slots (R688) -/

/-- Every slot of a limit register is released. -/
def slotsDflt (_ : Nat) : Slots4 :=
  { keeper := 0xFFFFFFFF, bmc := 0xFFFFFFFF, host := 0xFFFFFFFF, peer := 0xFFFFFFFF }

def Slots4.get (l : Slots4) : Nat → Word
  | 1 => l.keeper
  | 2 => l.bmc
  | 3 => l.host
  | _ => l.peer

def Slots4.set (l : Slots4) (c : Nat) (w : Word) : Slots4 :=
  match c with
  | 1 => { l with keeper := w }
  | 2 => { l with bmc := w }
  | 3 => { l with host := w }
  | _ => { l with peer := w }

def Slots4.all (l : Slots4) : List Word := [l.keeper, l.bmc, l.host, l.peer]

/-- The committed slots of a limit register. -/
def State.limit (s : State) (p off : Nat) : Slots4 := sget slotsDflt s.limits (regKey p off)

/-- The effective value: the lowest committed slot, or the reset value when every slot is released (R688). -/
def State.limitN (s : State) (p off : Nat) : Nat :=
  let m := minNat 0xFFFFFFFF ((s.limit p off).all.map (·.toNat))
  if m = 0xFFFFFFFF then (regReset p off).toNat else m

/-- The limit registers of a page. -/
def limitRegs (p : Nat) : List Nat := [0x048, 0x04C].filter (isLimit p)

/-- The staged limit slots of one source become the committed ones (R682, R688). -/
def State.applyLimits (s : State) (p code : Nat) : State :=
  ({ s with limits := (limitRegs p).foldl (fun m o => supd slotsDflt m (regKey p o) fun l =>
      l.set code ((sget slotsDflt s.limStaged (regKey p o)).get code)) s.limits }).updPage p fun g =>
    { g with slotDirty := g.slotDirty.filter (· != code) }

/-- An accepted commit takes effect: the committing source's limit slots, and the shared staged copy as one change unless
the source does not own the page; PENDING clears (R680, R682). -/
def State.applyPage (s : State) (p : Nat) : State :=
  let g := s.page p
  let st := if g.slotsOnly then [] else s.stagedOf p
  let s := s.applyLimits p g.who
  let s := if g.slotsOnly then s else s.dropStaged p
  ({ s with regs := applyWords s.regs st }).updPage p fun g =>
    { g with pending := false, slotsOnly := false, results := settle g.results }

/-- The Keeper commits a page whose staged copy it wrote (R57): accepted, PENDING until its safe point. -/
def State.keeperCommit (s : State) (p : Nat) : State :=
  s.updPage p fun g =>
    { g with seq := (g.seq + 1) % 2 ^ 32, pending := true, who := 1, slotsOnly := false
             results := { src := .keeper, seq := (g.seq + 1) % 2 ^ 16, code := 1 } ::
               g.results.filter fun r => r.src != .keeper
             last := w32 (putBits (2 ^ 29 + (g.last.toNat % 2 ^ 17 + 1) % 2 ^ 17) 28 25 1) }

/-- A commit of the Keeper's that an agreement check refuses: nothing is applied, and the staged copy goes (R682, step 4; log 99). -/
def State.keeperRefused (s : State) (p : Nat) : State :=
  (s.dropStaged p).updPage p fun g =>
    { g with results := { src := .keeper, seq := match g.results.find? fun r => r.src == .keeper with
                            | some r => r.seq
                            | none => 0
                          code := 2 } :: g.results.filter fun r => r.src != .keeper
             last := w32 (putBits (2 ^ 29 + (g.last.toNat % 2 ^ 17 + 1) % 2 ^ 17) 28 25 2) }

/-- Commit a slot of a limit register. -/
def State.setLimit (s : State) (p off code v : Nat) : State :=
  { s with limits := supd slotsDflt s.limits (regKey p off) fun l => l.set code (w32 v)
           limStaged := supd slotsDflt s.limStaged (regKey p off) fun l => l.set code (w32 v) }

/-! ### Outputs and the host port (R656, R657) -/

def State.emit (s : State) (o : Out) : State := { s with out := s.out ++ [o] }
def State.emits (s : State) (o : List Out) : State := { s with out := s.out ++ o }

/-- The device may write host memory: the link is up and Bus Master Enable is 1. -/
def State.hostOpen (s : State) : Bool := s.host.linkUp && s.host.bme

/-- The byte offset of MSI-X vector v's control word in its page, and the page (R648, R649). -/
def msixMasked (s : State) (v : Nat) : Bool :=
  s.host.funcMask || bit (s.regN (32759 + v / 256) (v % 256 * 16 + 12)) 0

/-- One host write goes out now: a masked MSI-X message sets its pending bit instead (R657). -/
def State.hostNow (s : State) (o : Out) : State :=
  match o with
  | .msix v =>
    if msixMasked s v then
      { s with host := { s.host with msixPend := if s.host.msixPend.contains v then s.host.msixPend else v :: s.host.msixPend } }
    else s.emit o
  | _ => s.emit o

/-- A write to host memory or an MSI-X message: made, or held in order (R656). -/
def State.toHost (s : State) (o : Out) : State :=
  if s.hostOpen then s.hostNow o else { s with host := { s.host with held := s.host.held ++ [o] } }

def State.toHosts (s : State) (l : List Out) : State := l.foldl State.toHost s

/-! ### Event log (R660 to R668, R800) -/

/-- EN of PCI_EVT_CFG. -/
def State.evtOn (s : State) : Bool := bit (s.regN pgPci 0x048) 31

/-- Queue an event to the BMC with an in-band interrupt; a full queue drops it and counts the loss (R667). -/
def State.toBmc (s : State) (r : EvRec) : State :=
  if s.ev.bmc.length < 256 then ({ s with ev := { s.ev with bmc := s.ev.bmc ++ [r] } } : State).emit .bmcIrq
  else { s with ev := { s.ev with bmcLost := s.ev.bmcLost + 1 } }

/-- Log an event: to the batch while EN is 1, to the 1,024 retained events while it is 0 (R664), and to the BMC. -/
def State.log (s : State) (page code a0 a1 a2 a3 : Nat) : State :=
  let r : EvRec := { time := s.dev.chrono, page, code, a0 := a0 % 2 ^ 32, a1 := a1 % 2 ^ 32, a2 := a2 % 2 ^ 32, a3 }
  let s := s.toBmc r
  let e := s.ev
  { s with ev := if s.evtOn then { e with batch := e.batch ++ [r] }
      else { e with retained := lastN 1024 (e.retained ++ [r])
                    retLost := e.retLost + b2n (decide (1024 ≤ e.retained.length)) } }

/-- Set a fault bit of a page (offset 0x044). -/
def State.flag (s : State) (p b : Nat) : State := s.setReg p 0x044 (putBits (s.regN p 0x044) b b 1)

/-- A fault bit of a page is set. -/
def State.flagged (s : State) (p b : Nat) : Bool := bit (s.regN p 0x044) b

/-- Set a fault bit and log its event; the event forbids no commit. -/
def State.report (s : State) (p b code a0 a1 a2 : Nat) : State := (s.flag p b).log p code a0 a1 a2 0

/-! ### Tiles -/

def tileDflt (_ : Nat) : TileSt := { st := .off, before := .off, bench := [], home := none, rotating := false }

def State.tile (s : State) (site : Nat) : TileSt := sget tileDflt s.die.tiles site

def State.updTile (s : State) (site : Nat) (f : TileSt → TileSt) : State :=
  { s with die := { s.die with tiles := supd tileDflt s.die.tiles site f } }

/-- The tile is in service. -/
def State.inRun (s : State) (site : Nat) : Bool := (s.tile site).st == .run

/-- A unit reference (R780). -/
def unitRef (kind comb idx : Nat) : Nat := kind * 65536 + comb * 256 + idx

/-- The unit reference of a site's tile. -/
def tileRef (site : Nat) : Nat := unitRef (siteKind site).code (siteComb site) (siteIdx site)

/-- A tile changes state, logged as UNIT_STATE from its page (R780, R875); scan of the tile ends (R831). -/
def State.tileTo (s : State) (site : Nat) (new : TileState) : State :=
  let old := (s.tile site).st
  if old = new then s
  else
    let s := if s.regN pgBst 0x060 = 2 ^ 31 + tileRef site then s.setReg pgBst 0x060 (tileRef site) else s
    (s.updTile site fun t => { t with st := new }).log site 0x1804 (tileRef site) old.code new.code 0

/-! ### Free values (log 6) -/

/-- Draw a fresh index for the free value of Config. -/
def State.draw (s : State) : Nat × State := (s.freeCtr, { s with freeCtr := s.freeCtr + 1 })

/-! ### Remap (R30 to R36, R61) -/

/-- The remap entry of a logical index in force. -/
def State.remap (s : State) (comb l : Nat) : Nat := s.regN (pgDfm comb) (0x100 + 4 * l)

/-- The physical site that serves a logical index, none for a hole (R34, R38). -/
def State.serving (s : State) (comb l : Nat) : Option Nat :=
  let e := s.remap comb l
  if bit e 15 then none else some (mkSite comb (bits e 6 0))

/-- The logical index that a site serves, if any. -/
def State.served (s : State) (site : Nat) : Option Nat :=
  (List.range 108).find? fun l => s.serving (siteComb site) l == some site

/-! ### Device -/

/-- The device runs its units. -/
def State.live (s : State) : Bool :=
  match s.dev.st with
  | .ready | .degraded => true
  | _ => false

/-- LOCK of every page (R675). Before READY and in STANDBY no source but the Keeper may commit (log 12). -/
def State.lock (s : State) : Bool :=
  match s.dev.st with
  | .ready | .degraded | .failed => false
  | _ => true

/-- The effect of an event row whose condition does not hold: none (log 7). -/
def State.whenB (s : State) (c : Bool) (f : State → State) : State := if c then f s else s

end Sys2Proof.Machine
end

