-- ==== Sys2Proof/Machine/HbmMem.lean ====
section
/-! DEFINITION. The HBM as addressed storage: the address map of R530 to R532, the device error code of R544 to R547,
units of 64 data and 8 check bytes, and reads and writes of byte ranges by the device's own units. -/

namespace Sys2Proof.Machine

/-! ### GF(2^16) and the device code (R544 to R547) -/

/-- Multiplication by α in GF(2^16) with the polynomial x^16 + x^12 + x^3 + x + 1. -/
def gfX (a : Nat) : Nat := if a ≥ 0x8000 then (2 * a) ^^^ 0x1100B else 2 * a

/-- Multiplication in GF(2^16), low bit of the second factor first. -/
def gfMulGo : Nat → Nat → Nat → Nat → Nat
  | 0, _, _, acc => acc
  | n + 1, a, b, acc => gfMulGo n (gfX a) (b / 2) (if b % 2 = 1 then acc ^^^ a else acc)

def gfMul (a b : Nat) : Nat := gfMulGo 16 a b 0

/-- α to a power. -/
def gfAlpha : Nat → Nat
  | 0 => 1
  | n + 1 => gfX (gfAlpha n)

/-- The three check symbols while a word is divided by g(x) = x³ + 7x² + 14x + 8. -/
structure RsReg where
  c0 : Nat
  c1 : Nat
  c2 : Nat
  deriving DecidableEq, Repr

/-- One step of the division by g(x) = (x + 1)(x + α)(x + α²) (R544). -/
def rsStep (r : RsReg) (sym : Nat) : RsReg :=
  let f := r.c2 ^^^ sym
  let f2 := gfX f
  let f4 := gfX f2
  let f8 := gfX f4
  { c0 := f8, c1 := r.c0 ^^^ (f2 ^^^ f4 ^^^ f8), c2 := r.c1 ^^^ (f ^^^ f2 ^^^ f4) }

/-- The data symbols d0 to d31 of a unit, low byte first (R544). -/
def unitSyms : List Byte → List Nat
  | a :: b :: t => (a.toNat + 256 * b.toNat) :: unitSyms t
  | [a] => [a.toNat]
  | [] => []

/-- ASYM of a unit (R545). -/
def asym (h v : Nat) : Nat := (v % 65536) ^^^ (v / 65536) ^^^ (h * 4096 % 65536)

/-- The check symbols of a unit's data (R544). -/
def rsEncode (h v : Nat) (data : List Byte) : RsReg :=
  ((asym h v) :: (unitSyms data).reverse).foldl rsStep { c0 := 0, c1 := 0, c2 := 0 }

/-- The eight check bytes: c0, c1, c2 and STS (R544, R546). -/
def chkBytes (h v : Nat) (data : List Byte) (poison : Bool) : List Byte :=
  let r := rsEncode h v data
  leBytes 2 r.c0 ++ leBytes 2 r.c1 ++ leBytes 2 r.c2 ++ leBytes 2 (if poison then 0xFFFF else 0)

/-- A syndrome: the word's value at a power of α, highest position first. -/
def horner (x : Nat) (l : List Nat) : Nat := l.foldl (fun acc c => gfMul acc x ^^^ c) 0

/-- What a decode finds (R547, R570): the unit, corrected or not, or the KIND of an uncorrectable read. -/
inductive Decoded where
  | good (data : List Byte)
  | corrected (data : List Byte)
  | bad (kind : Nat)
  deriving DecidableEq, Repr

/-- Change one data byte of a unit. -/
def xorByte (l : List Byte) (i : Nat) (v : Nat) : List Byte := setNth l i (nth 0 l i ^^^ BitVec.ofNat 8 v)

/-- Decode a stored unit under the recomputed ASYM (R547). -/
def rsDecode (h v : Nat) (data chk : List Byte) : Decoded :=
  let word := (asym h v) :: ((unitSyms data).reverse ++ [leAt chk 4 2, leAt chk 2 2, leAt chk 0 2])
  let s0 := horner 1 word
  let s1 := horner 2 word
  let s2 := horner 4 word
  if s0 = 0 ∧ s1 = 0 ∧ s2 = 0 then .good data
  else match (List.range 36).find? fun p => gfMul s0 (gfAlpha p) == s1 && gfMul s1 (gfAlpha p) == s2 with
    | none => .bad 0
    | some p =>
      if s0 = 0 then .bad 0
      else if p = 35 then .bad 1
      else if p < 3 then .corrected data
      else .corrected (xorByte (xorByte data (2 * (p - 3)) (s0 % 256)) (2 * (p - 3) + 1) (s0 / 256))

/-! ### Storage -/

/-- The store key of byte i of the unit that holds a stack address. -/
def unitKey (h sa i : Nat) : Nat := (h * 2 ^ 30 + sa / 64) * 72 + i

/-- What an unlisted byte reads as: zero data under good check symbols (log 2). -/
def hbmDflt (k : Nat) : Byte :=
  if k % 72 < 64 then 0
  else nth 0 (chkBytes (k / 72 / 2 ^ 30) (k / 72 % 2 ^ 30) (List.replicate 64 0) false) (k % 72 - 64)

/-- A default for a unit nothing has been written to. -/
def stackDflt (_ : Nat) : Stack :=
  { st := .out, inMap := false, temp := 0, lanes := 0, reduced := false, rows := [], soft := [], hard := [], softDone := 0 }

def State.stack (s : State) (h : Nat) : Stack := sget stackDflt s.hbm.stk h

def State.updStack (s : State) (h : Nat) (f : Stack → Stack) : State :=
  { s with hbm := { s.hbm with stk := supd stackDflt s.hbm.stk h f } }

/-- The stacks of the map, ascending (R530). -/
def State.hs (s : State) : List Nat := (List.range 12).filter fun h => (s.stack h).inMap

/-- HBM_SIZE (R530). -/
def State.hbmSize (s : State) : Nat := s.hs.length * (48 * 2 ^ 30)

/-- MIRROR_OFF (R560). -/
def State.mirrorOff (s : State) : Nat :=
  let k := s.hs.length
  let r := ((List.range k).find? fun r => (131072 + r) % k == 1 % k).getD 0
  512 * 2 ^ 20 + 4096 * r

/-- Base of the Keeper area (R534). -/
def State.rsvBase (s : State) : Nat := s.hbmSize - 2 ^ 30

/-- The mode of a set: LOCAL (R531, R572). Set 47, which holds the Keeper area, is always GLOBAL (R534). -/
def State.setLocal (s : State) (set : Nat) : Bool := set != 47 && bit (s.reg64 pgHbmDev 0x058) set

/-- `map_of` (R532): the stack and stack address of an address below HBM_SIZE. -/
def State.mapOf (s : State) (a : Nat) : Nat × Nat :=
  let k := s.hs.length
  let g := 2 ^ 30
  let set := a / (k * g)
  let o := a % (k * g)
  if s.setLocal set then (nth 0 s.hs (o / g), set * g + o % g)
  else (nth 0 s.hs (o / 4096 % k), set * g + o / 4096 / k * 4096 + a % 4096)

/-- `pc_of` (R532). -/
def pcOf (sa : Nat) : Nat := (sa / 256 ^^^ sa / 8192) % 32

/-- The device physical address of a stack address: the inverse of `map_of`. -/
def State.addrOf (s : State) (h sa : Nat) : Nat :=
  let k := s.hs.length
  let g := 2 ^ 30
  let i := (s.hs.takeWhile fun x => x != h).length
  let set := sa / g
  if s.setLocal set then set * k * g + i * g + sa % g
  else set * k * g + (sa % g / 4096 * k + i) * 4096 + sa % 4096

/-- A unit whose content a mode change left undefined and nothing has written since: the index of its free value (R537). -/
def State.undefUnit (s : State) (h sa : Nat) : Option Nat :=
  if s.hbm.rewritten.contains (h * 2 ^ 30 + sa / 64) then none else sfind s.hbm.undef (sa / 2 ^ 30)

/-- A stored unit: 64 data bytes and 8 check bytes. -/
def State.unit (s : State) (h sa : Nat) : List Byte × List Byte :=
  match s.undefUnit h sa with
  | some i =>
    let d := leBytes 64 (Config.hbmFree i (h * 2 ^ 30 + sa / 64)).toNat
    (d, chkBytes h (sa / 64) d false)
  | none => (sgetMany hbmDflt s.mem.hbm (unitKey h sa 0) 64, sgetMany hbmDflt s.mem.hbm (unitKey h sa 64) 8)

/-- The bits of HBM_REPAIR_CMD besides GO; reserved ones stay zero (R571). -/
def cmdBits : Nat := 0x4000000FFFFFFFC0

/-- A unit of a stack by one number. -/
def unitNum (h sa : Nat) : Nat := h * 2 ^ 30 + sa / 64

/-- The stack reports the unit as uncorrectable under its on-die ECC (R547). -/
def State.dieBad (s : State) (h sa : Nat) : Bool := s.hbm.onDie.contains (unitNum h sa)

/-- The stack has reported units of a read; the report stands until the unit is written (R547, log 110). -/
def State.markDie (s : State) (l : List Nat) : State :=
  { s with hbm := { s.hbm with onDie := s.hbm.onDie ++ l.filter fun u => !s.hbm.onDie.contains u } }

/-- Store a unit with its check symbols, or in the poison form (R544 to R546). -/
def State.setUnit (s : State) (h sa : Nat) (data : List Byte) (poison : Bool) : State :=
  let s : State := { s with hbm := { s.hbm with onDie := s.hbm.onDie.filter (· != unitNum h sa) } }
  let s := if (s.undefUnit h sa).isSome then
      { s with hbm := { s.hbm with rewritten := (h * 2 ^ 30 + sa / 64) :: s.hbm.rewritten } }
    else s
  { s with mem := { s.mem with
      hbm := ssetMany hbmDflt s.mem.hbm (unitKey h sa 0) (data ++ chkBytes h (sa / 64) data poison) } }

/-- A stored unit reads as poisoned by its STS (R546). -/
def stsPoison (chk : List Byte) : Bool := decide (8 < popCount 16 (leAt chk 6 2))

/-- Stored bits disturbed where a read meets them. -/
def State.disturbHbm (s : State) (fl : List Flip) : State :=
  { s with mem := { s.mem with hbm := fl.foldl (fun m f => supd hbmDflt m f.addr (· ^^^ f.bits)) s.mem.hbm } }

/-! ### Byte ranges, for the device's own structures -/

/-- The unit at an aligned address as a device unit reads it: none for a lost stack or an uncorrectable or poisoned unit. -/
def State.readUnit (s : State) (a : Nat) : Option (List Byte) :=
  let (h, sa) := s.mapOf a
  if a ≥ s.hbmSize ∨ (s.stack h).st ≠ .run then none
  else
    let (d, c) := s.unit h sa
    if stsPoison c || s.dieBad h sa then none
    else match rsDecode h (sa / 64) d c with
      | .good x => some x
      | .corrected x => some x
      | .bad _ => none

/-- The 64-byte units that a range touches. -/
def unitsOf (a len : Nat) : List Nat :=
  if len = 0 then [] else (List.range ((a + len - 1) / 64 + 1 - a / 64)).map fun i => (a / 64 + i) * 64

/-- Bytes of HBM as the device reads its records; `none` where a unit of the range is poisoned or unreadable. -/
def State.dram (s : State) (a len : Nat) : Option (List Byte) :=
  (((unitsOf a len).mapM fun u => s.readUnit u)).map fun us => (us.flatten.drop (a % 64)).take len

/-- Bytes of HBM, zeros where the range cannot be read. -/
def State.dramD (s : State) (a len : Nat) : List Byte := (s.dram a len).getD (List.replicate len 0)

/-- A number of `len` bytes in HBM. -/
def State.dramN (s : State) (a len : Nat) : Nat := leNat (s.dramD a len)

/-! ### Reports and writes (R542, R548, R549, R553, R559) -/

/-- An uncorrectable read is counted, sets HBM_UE, and the first one is kept in HBM_UE_LAST (R549). -/
def State.ueNote (s : State) (h sa source kind : Nat) : State :=
  let p := pgHbm h
  let s := s.incHalf p 0x048 16
  let s := if s.flagged p 0 then s else s.setReg64 p 0x050 (2 ^ 63 + source * 2 ^ 60 + kind * 2 ^ 58 + sa / 64 * 64)
  s.flag p 0

/-- An uncorrectable read that served no step (R549). -/
def State.ueLog (s : State) (h sa source kind : Nat) : State :=
  let s := s.ueNote h sa source kind
  s.log (pgHbm h) 0x0901 (s.regN (pgHbm h) 0x054) (s.regN (pgHbm h) 0x050) 0 0

/-- Count a corrected read: HBM_ECC and the row's count, which at THRESH asks for a repair (R548, R553). -/
def State.hbmCorrected (s : State) (h sa : Nat) : State :=
  let p := pgHbm h
  let row := Config.hbmRow (sa / 64)
  let n := sget (fun _ => 0) (s.stack h).rows row + 1
  let s := (s.incHalf p 0x048 0).updStack h fun x => { x with rows := sset (fun _ => 0) x.rows row n }
  if s.regN p 0x064 % 256 = n then s.report p 2 0x0903 (sa / 64) 0 0 else s

/-- A unit with the bytes of a mask replaced. -/
def maskMerge (mask : Nat) (old new : List Byte) : List Byte :=
  (List.range 64).map fun i => if bit mask i then nth 0 new i else nth 0 old i

/-- A controller writes one unit; a partial one is merged, and becomes poison where its read is uncorrectable, which `ue` reports
with its KIND (R542). A lost stack writes nothing (R559). -/
def State.writeAt (s : State) (h a mask : Nat) (data : List Byte) (poison : Bool) (ue : State → Nat → State) : State :=
  let sa := (s.mapOf a).2
  if (s.stack h).st ≠ .run then s
  else
    let s := s.addReg64 (pgHbm h) 0x078 1
    if mask = 2 ^ 64 - 1 then s.setUnit h sa data poison
    else
      let s := s.addReg64 (pgHbm h) 0x070 1
      let (d, c) := s.unit h sa
      if stsPoison c then s.setUnit h sa (maskMerge mask d data) true
      else if s.dieBad h sa then (ue s 2).setUnit h sa (maskMerge mask d data) true
      else match rsDecode h (sa / 64) d c with
        | .good x => s.setUnit h sa (maskMerge mask x data) poison
        | .corrected x => (s.hbmCorrected h sa).setUnit h sa (maskMerge mask x data) poison
        | .bad k => (ue s k).setUnit h sa (maskMerge mask d data) true

/-- The bytes of a unit that a range covers, as a mask. -/
def rangeMask (u a len : Nat) : Nat := sumNat ((List.range 64).map fun i => if a ≤ u + i ∧ u + i < a + len then 2 ^ i else 0)

/-- The part of a range's bytes that lies in a unit, in its place. -/
def rangePart (u a : Nat) (data : List Byte) : List Byte :=
  (List.range 64).map fun i => if a ≤ u + i then nth 0 data (u + i - a) else 0

/-- A unit of the device writes one unit's part of a range. -/
def State.devWrite (s : State) (u a : Nat) (data : List Byte) (poison : Bool) : State :=
  let h := (s.mapOf u).1
  s.writeAt h u (rangeMask u a data.length) (rangePart u a data) poison fun s k => s.ueLog h (s.mapOf u).2 3 k

/-- DEST and SRC of an attachment (R243). -/
def attDest (a : Nat) : Nat := 2 * 2 ^ 14 + a

/-- An access of the device's own that reaches past HBM (R536). -/
def State.devUnmapped (s : State) (a : Nat) : State := s.report pgHbmDev 0 0x0907 (attDest 33) (a % 2 ^ 32) (a / 2 ^ 32)

/-- Write bytes of HBM (R535, R536): the Keeper complex, the intake unit, the step former. -/
def State.dramWrite (s : State) (a : Nat) (data : List Byte) : State :=
  let us := unitsOf a data.length
  let s := (us.filter fun u => decide (u < s.hbmSize)).foldl (fun s u => s.devWrite u a data false) s
  match us.find? fun u => decide (s.hbmSize ≤ u) with
  | some u => s.devUnmapped (max a u)
  | none => s

end Sys2Proof.Machine
end

