-- ==== Sys2Proof/Machine/TreathLink.lean ====
section
/-! DEFINITION. The link side of a Treath port (chapter 11): the attachments and what they lose with their routers (R53, R56), the port
that a device is reached by (R591, R592), packets and their headers (R583, R584), credits and order (R586, R588), and the
messages of the slice protocol as they leave (R611). -/

namespace Sys2Proof.Machine

/-! ### CRC-32C (PRESUMED: the reflected polynomial 0x82F63B78, initial value and final inversion of the named CRC; log 23) -/

def crc32Bits : Nat → Nat → Nat
  | 0, c => c
  | n + 1, c => crc32Bits n (if c % 2 = 1 then (c / 2) ^^^ 0x82F63B78 else c / 2)

def crc32Byte (c : Nat) (b : Byte) : Nat := crc32Bits 8 (c ^^^ b.toNat)

def crc32c (l : List Byte) : Nat := l.foldl crc32Byte 0xFFFFFFFF ^^^ 0xFFFFFFFF

/-! ### Combs and attachments -/

def combDflt (_ : Nat) : Comb :=
  { st := .off, nom := 66, tgt := 66, adpll := 0, localCh := none, thermN := 144, gnomN := 144, vtrim := 0, calm := 0
    shortfall := 0, stretching := false, throttled := false, marginMin := 0, coolIv := 0, cool := 0, hot := 0, temp := 0
    parkCause := 0, parking := false, railW := 0, vmeas := 0, sense := false, departed := [] }

def State.comb (s : State) (c : Nat) : Comb := sget combDflt s.combs c

def State.updComb (s : State) (c : Nat) (f : Comb → Comb) : State :=
  { s with combs := supd combDflt s.combs c f }

def State.combOff (s : State) (c : Nat) : Bool := (s.comb c).st == .off

/-- A site is a physical hole: its router is excluded, or its comb is OFF (R39, R41). -/
def State.physHole (s : State) (site : Nat) : Bool := s.combOff (siteComb site) || s.die.holes.contains site

/-- The attachment routers of R53; attachments are coded as in R243. -/
def attRouters (a : Nat) : List Nat :=
  if a < 12 then
    let r := a % 6 / 2
    (List.range 10).map fun i => siteAt (if a < 6 then 0 else 47) (20 * r + 2 * i + a % 2)
  else if 16 ≤ a ∧ a < 32 then
    let t := a - 16
    let k := t % 8 / 2
    let x := 12 * k + (if t % 2 = 0 then 2 else 8)
    [siteAt x (if t < 8 then 0 else 59), siteAt (x + 1) (if t < 8 then 0 else 59)]
  else if a = 32 then [siteAt 11 0, siteAt 12 0]
  else if a = 33 then [siteAt 35 59, siteAt 36 59]
  else []

/-- An attachment has no router left (R56). -/
def State.attLost (s : State) (a : Nat) : Bool := (attRouters a).all s.physHole

/-! ### The device in its hive (R638, R639) -/

def State.ownDev (s : State) : Nat := bits (s.regN pgRte 0x048) 7 0

def State.idValid (s : State) : Bool := bit (s.regN pgRte 0x048) 8

def State.sliceId (s : State) : Nat := bits (s.regN pgRte 0x04C) 29 24

/-- The device belongs to a slice, its logical ID and its lead's (R639). -/
def State.inSlice (s : State) : Bool := bit (s.regN pgRte 0x04C) 31

def State.myLogical (s : State) : Nat := bits (s.regN pgRte 0x04C) 23 16

def State.lastLogical (s : State) : Nat := bits (s.regN pgRte 0x04C) 7 0

/-- The other members of the slice. -/
def State.members (s : State) : List Nat := (List.range (s.lastLogical + 1)).filter fun l => l != s.myLogical

/-! ### Ports and bundles -/

def tpDflt (_ : Nat) : TPort :=
  { st := 0, width := 0, rev := false, lanes := 0, nbr := none, conflict := false, alone := false, bundle := none
    mate := none, retrains := 0, tries := [], fails := 0, lseq := 0, lack := 0xFFFF, refused := (0, 0), retry := []
    acc := [], doneCh := [], waiting := [], txq := [], used := [], back := [], turn := 0
    rxq := [], heard := none }

def State.tport (s : State) (p : Nat) : TPort := sget tpDflt s.tre.ports p

def State.updTP (s : State) (p : Nat) (f : TPort → TPort) : State :=
  { s with tre := { s.tre with ports := supd tpDflt s.tre.ports p f } }

/-- The port is UP, and its attachment still has a router (R56, R630). -/
def State.tUp (s : State) (p : Nat) : Bool := (s.tport p).st == 2 && !s.attLost (16 + p)

/-- No neighbour. -/
def noIdent : Ident := { serial := 0, dev := 0, idValid := false, port := 0, isSwitch := false, timeTc := false }

/-- The ports of a bundle that are UP, ascending. -/
def State.bundleUp (s : State) (b : Nat) : List Nat :=
  (nth ([], noIdent) s.tre.bundles b).1.filter s.tUp

/-- RTE_DEV of a physical device (R643). -/
def State.rteDev (s : State) (d : Nat) : Nat := s.regN pgRte (0x400 + 4 * d)

/-- The bundle that R591 selects for a device: PRIMARY, else the first alternate with a port UP. -/
def State.bundleFor (s : State) (d : Nat) : Option Nat :=
  let e := s.rteDev d
  if !bit e 31 then none
  else
    let alts := (List.range (min 4 (bits e 30 28))).map fun i => bits e (7 + 4 * i) (4 + 4 * i)
    (bits e 3 0 :: alts).find? fun b => !(s.bundleUp b).isEmpty

/-- RTE_REMAP of a logical device: its physical device where VALID (R620, R642). -/
def State.remapDev (s : State) (l : Nat) : Option Nat :=
  let w := s.regN pgRte (0x200 + l / 2 * 4)
  let e := bits w (16 * (l % 2) + 15) (16 * (l % 2))
  if bit e 15 then some (e % 256) else none

/-! ### Packets -/

/-- The message bytes that a packet of class COMMIT carries after the head: the result records of READY, to whole flits (R612). -/
def sliceBytes : SliceMsg → List Byte
  | .ready _ _ recs => (recs.flatMap fun r => leBytes 4 r.stream ++ leBytes 4 r.pos ++ leBytes 4 r.token ++ leBytes 4 r.lp.toNat)
      ++ List.replicate ((4 - recs.length % 4) % 4 * 16) 0
  | _ => []

/-- The body's bytes (R584); in class REDUCE every flit brings its header lane. The body of COMMIT, the answers to discovery and the
times of class TIME have no byte layout in the spec (log 37). -/
def tBytes (reduce : Bool) : TBody → List Byte
  | .link c => leBytes 8 c.toNat ++ leBytes 8 0
  | .mesh p => match p.flits with
    | [] => []
    | f :: t => leBytes 16 f.lane.toNat ++ leBytes 64 f.pay.toNat
        ++ t.flatMap fun g => (if reduce then leBytes 16 g.lane.toNat else []) ++ leBytes 64 g.pay.toNat
  | .maint h => leBytes 16 0 ++ leBytes 64 h.toNat
  | .time r n => leBytes 8 r.toNat ++ leBytes 8 n
  | .slice h m => leBytes 16 0 ++ leBytes 64 h.toNat ++ sliceBytes m
  | .identAnswer .. | .nbrAnswer .. => []

/-- A header with its link fields, its CRC over the whole packet with the CRC field zero (R583). -/
def THead.word (h : THead) (lseq lack : Nat) (nak : Bool) (body : TBody) : BitVec 128 :=
  let w := h.dst % 256 * 2 ^ 120 + h.src % 256 * 2 ^ 112 + h.slice % 64 * 2 ^ 106 + h.cls % 16 * 2 ^ 102 + h.hops % 16 * 2 ^ 98
    + h.len % 16 * 2 ^ 94 + h.pmask % 8192 * 2 ^ 81 + lseq % 65536 * 2 ^ 64 + lack % 65536 * 2 ^ 48 + b2n nak * 2 ^ 47
  BitVec.ofNat 128 (w + crc32c (leBytes 16 w ++ tBytes (h.cls == 3) body))

/-- The fields of a received or kept header. -/
def headOf (w : BitVec 128) : THead :=
  let v := w.toNat
  { dst := bits v 127 120, src := bits v 119 112, slice := bits v 111 106, cls := bits v 105 102, hops := bits v 101 98
    len := bits v 97 94, pmask := bits v 93 81 }

def tLseq (w : BitVec 128) : Nat := bits w.toNat 79 64

def tLack (w : BitVec 128) : Nat := bits w.toNat 63 48

def tNak (w : BitVec 128) : Bool := bit w.toNat 47

/-- A packet goes out on a port's link: it takes the next LSEQ and stays in the retry buffer until it is acknowledged (R586). -/
def State.trlEmit (s : State) (p : Nat) (h : THead) (nak : Bool) (body : TBody) : State :=
  let t := s.tport p
  let w := h.word t.lseq t.lack nak body
  let s := s.updTP p fun t => { t with lseq := (t.lseq + 1) % 65536, retry := t.retry ++ [(w, body)] }
  (s.addReg64 (pgTrl p) 0x078 (16 + (tBytes (h.cls == 3) body).length)).emit (.treath p w body)

/-- The Treath channel of a class: 0 REQ, 1 RSP, 2 RED, 3 CTL (R585). -/
def chanOf (cls : Nat) : Nat := if 1 ≤ cls ∧ cls ≤ 3 then cls - 1 else 3

/-- Credit units of a packet: 64 bytes each (R588). -/
def tUnits (cls : Nat) (b : TBody) : Nat := (16 + (tBytes (cls == 3) b).length + 63) / 64

/-- Bytes of the packets that a port holds for a resend. -/
def TPort.held (t : TPort) : Nat := sumNat (t.retry.map fun x => 16 + (tBytes (bits x.1.toNat 105 102 == 3) x.2).length)

/-- A packet may go: the far side's receive buffer of its channel, 16 KiB, has room by the credit (R588), and the retry buffer of 128 KiB
holds it (R586). -/
def TPort.mayGo (t : TPort) (x : THead × TBody) : Bool :=
  decide (sget (fun _ => 0) t.used (chanOf x.1.cls) + tUnits x.1.cls x.2 ≤ 256) && decide (t.held + 64 * tUnits x.1.cls x.2 ≤ 131072)

/-- The packet that a port sends next (R588): of the CTL channel first, of the others in round-robin; within a channel the oldest. -/
def TPort.next (t : TPort) : Option (THead × TBody) :=
  let first := fun (c : Nat) => (t.txq.find? fun x => chanOf x.1.cls == c).filter t.mayGo
  match first 3 with
  | some x => some x
  | none => ((List.range 3).map fun i => (t.turn + i) % 3).findSome? first

/-- Send what may go. -/
def State.trlPump (s : State) (p : Nat) : Nat → State
  | 0 => s
  | fuel + 1 =>
    match (s.tport p).next with
    | none => s
    | some x =>
      let c := chanOf x.1.cls
      let s := s.updTP p fun t => { t with
        txq := t.txq.erase x, turn := if c = 3 then t.turn else (c + 1) % 3
        used := supd (fun _ => 0) t.used c (· + tUnits x.1.cls x.2) }
      State.trlPump (s.trlEmit p x.1 false x.2) p fuel

def State.trlFlow (s : State) (p : Nat) : State := s.trlPump p (s.tport p).txq.length

/-- A packet is given to a port: it waits for its channel's credit (R588). -/
def State.trlPut (s : State) (p : Nat) (h : THead) (body : TBody) : State :=
  (s.updTP p fun t => { t with txq := t.txq ++ [(h, body)] }).trlFlow p

/-! ### Routing -/

/-- A packet discarded at a port (R629). -/
def State.trlDrop (s : State) (p : Nat) : State := s.incReg (pgTrl p) 0x068

/-- TRL_SLICE_VIOL (R596). -/
def State.sliceViol (s : State) (p : Nat) (h : THead) : State :=
  (s.trlDrop p).report (pgTrl p) 9 0x0A0D p h.src h.slice

/-- A slice may cross a port (R596). -/
def State.maskOpen (s : State) (p slice : Nat) : Bool := bit (s.reg64 (pgTrl p) 0x070) slice

/-- The slots of a bundle: two for a port at eight lanes, one at four, in ascending port order (R592). -/
def State.slotsOf (s : State) (b : Nat) : List Nat :=
  (s.bundleUp b).flatMap fun p => if (s.tport p).width = 3 then [p, p] else [p]

/-- The port on which a packet leaves for a device (R591, R592). -/
def State.egress (s : State) (dst src flow : Nat) : Option Nat :=
  match s.bundleFor dst with
  | none => none
  | some b =>
    let l := s.slotsOf b
    let h := (flow ^^^ (src * 16) ^^^ dst) % 4096
    l[h % l.length]?

/-- TRL_NO_ROUTE (R591). -/
def State.trlNoRoute (s : State) (p what : Nat) : State := (s.trlDrop p).report (pgTrl p) 10 0x0A0C p what 0

/-- A packet leaves by a port; `chk` that its class is checked against the slice masks (R596). -/
def State.trlOut (s : State) (p : Nat) (chk : Bool) (h : THead) (body : TBody) : State :=
  if chk && !s.maskOpen p h.slice then s.sliceViol p h else s.trlPut p h body

/-! ### Messages of the slice protocol (R611) -/

/-- TYPE, STEP, FROM, CODE and LASTSTEP of a message. -/
def sliceFields : SliceMsg → Nat × Nat × Nat × Nat × Nat
  | .ready n l _ => (1, n.toNat, l, 0, 0)
  | .notReady n l c => (2, n.toNat, l, c.toNat, 0)
  | .commit n l _ => (3, n.toNat, l, 0, 0)
  | .abort n l => (4, n.toNat, l, 0, 0)
  | .done n l => (5, n.toNat, l, 0, 0)
  | .statusQ l => (6, 0, l, 0, 0)
  | .statusR l n => (7, 0, l, 0, n.toNat)
  | .beat l => (8, 0, l, 0, 0)

/-- The message head that the head payload carries. -/
def sliceHead (slice part nparts : Nat) (m : SliceMsg) : Nat :=
  let f := sliceFields m
  f.1 * 2 ^ 508 + slice % 64 * 2 ^ 502 + f.2.1 * 2 ^ 470 + f.2.2.1 % 256 * 2 ^ 462 + part % 65536 * 2 ^ 446 + nparts % 65536 * 2 ^ 430
    + f.2.2.2.1 * 2 ^ 414 + f.2.2.2.2 * 2 ^ 382

/-- Lists of at most k elements in order. -/
def groupsOf {α : Type} (k : Nat) : Nat → List α → List (List α)
  | 0, _ => []
  | fuel + 1, l => if l.isEmpty then [] else l.take k :: groupsOf k fuel (l.drop k)

/-- The packets' shares of a message: 48 result records of READY to a packet, twelve body flits. -/
def sliceParts : SliceMsg → List SliceMsg
  | .ready n l recs => if recs.isEmpty then [.ready n l recs] else (groupsOf 48 recs.length recs).map fun g => .ready n l g
  | m => [m]

/-- One packet of a message to a physical device. Without a route it is lost at port 0's page (log 37). -/
def State.slicePart (s : State) (d part nparts : Nat) (m : SliceMsg) : State :=
  let h : THead := { dst := d, src := s.ownDev, slice := s.sliceId, cls := 4, hops := 0, len := 1 + (sliceBytes m).length / 64, pmask := 0 }
  if !s.inSlice || !s.idValid then s.sliceViol 0 h
  else match s.egress d s.ownDev 0 with
    | none => s.trlNoRoute 0 d
    | some p => s.trlOut p true h (.slice (BitVec.ofNat 512 (sliceHead s.sliceId part nparts m)) m)

/-- A message to a member of the slice. -/
def State.sendSlice (s : State) (l : Nat) (m : SliceMsg) : State :=
  match s.remapDev l with
  | none => s.trlNoRoute 0 l
  | some d =>
    let ps := sliceParts m
    (List.range ps.length).foldl (fun s i => s.slicePart d i ps.length (nth m ps i)) s

def State.sendAll (s : State) (l : List Nat) (m : SliceMsg) : State := l.foldl (fun s x => s.sendSlice x m) s

end Sys2Proof.Machine
end

