-- ==== Sys2Proof/Machine/Recovery.lean ====
section
/-! DEFINITION. What every detected fault leads to (chapter 14): forbidding a commit, abandoning and replaying steps,
fencing, substitution, strikes, and the device's states. -/

namespace Sys2Proof.Machine

/-! ### Combs -/

def State.combParked (s : State) (c : Nat) : Bool := (s.comb c).st == .parked

/-- The comb's tile ports are closed: it is PARKED or on its way there (R742). -/
def State.combClosed (s : State) (c : Nat) : Bool := s.combParked c || (s.comb c).parking

/-- Fields of CLK_CFG (R749). -/
def State.baseN (s : State) : Nat := bits (s.regN pgClk 0x048) 23 16
def State.sprintN (s : State) : Nat := bits (s.regN pgClk 0x048) 15 8
def State.brakeN (s : State) : Nat := bits (s.regN pgClk 0x048) 7 0
def State.steady (s : State) : Bool := !bit (s.regN pgClk 0x048) 31

/-- OFFSET of a comb (R713). -/
def State.offsetOf (s : State) (c : Nat) : Nat := bits (s.regN (pgCmb c) 0x050) 1 0

/-! ### Device states (R795 to R797) -/

/-- The comb is OFF in a start whose remap tables are built: all its logical sites are holes (R38, R41). -/
def State.combGone (s : State) (c : Nat) : Bool := s.die.built && s.combOff c

/-- A logical site is a hole (R38). -/
def State.logHole (s : State) (comb l : Nat) : Bool := s.combGone comb || bit (s.remap comb l) 15

/-- The logical sites of a comb by kind, ascending (R24, R28). -/
def logicals (k : Kind) : List Nat := (List.range 108).filter fun l => kindOf l == k

/-- A logical M site is in service (R796). -/
def State.mInService (s : State) (comb l : Nat) : Bool :=
  match s.serving comb l with
  | none => false
  | some p => !s.combOff comb && (s.tile p).st != .benched

/-- M tiles in service of the device. -/
def State.mCount (s : State) : Nat :=
  sumNat ((List.range 24).map fun c => ((logicals .m).filter fun l => s.mInService c l).length)

/-- The licence's count of M tiles in service (R7, R857). -/
def State.licM (s : State) : Nat :=
  match s.regN pgLcs 0x064 with
  | 3 => 1536
  | 2 => 1280
  | _ => 1024

/-- The licence's count of contract classes (R7). -/
def State.licClasses (s : State) : Nat :=
  match s.regN pgLcs 0x064 with
  | 3 => 64
  | 2 => 32
  | _ => 16

def State.manuka (s : State) : Bool := s.regN pgLcs 0x064 == 3

/-- A format code the licence enables (R7, R67): Clover has MX FP8, INT8, BF16 and FP16; Heather adds MX FP6 and FP4. -/
def State.licFmt (s : State) (code : Nat) : Bool :=
  match s.regN pgLcs 0x064 with
  | 3 | 2 => true
  | _ => !(code == 3 || code == 4 || code == 5)

/-- DEGRADE of DFM_DEV_STATE (R796, R804). -/
def State.degrade (s : State) : Nat :=
  b2n ((List.range 24).any s.combOff)
    + 2 * b2n ((List.range 12).any fun h => (s.stack h).st == .out)
    + 4 * b2n ((List.range 16).any fun t => s.attLost (16 + t))
    + 8 * b2n (s.dev.minderLost != 0)
    + 16 * b2n (decide (s.mCount < s.licM))
    + 32 * b2n ((List.range 24).any fun c =>
        (List.range 108).any fun l => kindOf l != .m && s.logHole c l)

/-- DFM_DEV_STATE (R804). -/
def State.devWord (s : State) : Nat :=
  s.dev.st.code * 2 ^ 28 + s.dev.fail * 256 + (if s.live || s.dev.st == .failed then s.degrade else 0)

/-- The device changes state, logged as DEVICE_STATE; without the Keeper the move waits for its next start (R795). -/
def State.devTo (s : State) (new : DevState) : State :=
  if s.dev.st = new then s
  else
    let old := s.dev.st
    let s : State := { s with dev := { s.dev with
      st := new, servedOnce := s.dev.servedOnce || new == DevState.ready || new == DevState.degraded } }
    if s.dev.keeper then s.log (pgKpr 0) 0x1507 new.code old.code s.devWord 0
    else { s with dev := { s.dev with bootLog := s.dev.bootLog ++ [(old.code, new.code)] } }

/-! ### Forbidding a commit (R770 to R777, R800) -/

/-- The number of the oldest step in flight, 0 for none. -/
def State.oldest (s : State) : Nat :=
  match s.mrd.steps with
  | [] => 0
  | st :: _ => st.num

/-- The run of a tile. -/
def runDflt (_ : Nat) : TileRun :=
  { inst := none, ctr := [0, 0, 0, 0, 0, 0, 0, 0], wait := none, ended := false, pend := [] }

def State.run (s : State) (site : Nat) : TileRun := sget runDflt s.prog.runs site

def State.updRun (s : State) (site : Nat) (f : TileRun → TileRun) : State :=
  { s with prog := { s.prog with runs := supd runDflt s.prog.runs site f } }

def State.launch? (s : State) (id : Nat) : Option Launch := s.prog.launches.find? fun l => l.id == id

/-- The launch whose instance a tile runs. -/
def State.launchAt (s : State) (site : Nat) : Option Launch :=
  match (s.run site).inst with
  | none => none
  | some i => s.launch? i.launch

/-- The step whose instance a tile runs. -/
def State.stepAt (s : State) (site : Nat) : Option Nat := (s.launchAt site).map (·.step)

/-- The task ID a tile runs, 0 when it runs none. -/
def State.taskAt (s : State) (site : Nat) : Nat :=
  match (s.run site).inst with
  | none => 0
  | some i => i.task

def State.step? (s : State) (n : Nat) : Option StepRec := s.mrd.steps.find? fun st => st.num == n

/-- Change a step in flight. -/
def State.updStep (s : State) (n : Nat) (f : StepRec → StepRec) : State :=
  { s with mrd := { s.mrd with steps := s.mrd.steps.map fun st => if st.num = n then f st else st } }

def State.leadId (s : State) : Nat := bits (s.regN pgRte 0x04C) 15 8
def State.isLead (s : State) : Bool := s.myLogical == s.leadId
def State.follower (s : State) : Bool := s.inSlice && !s.isLead

/-- The program class of R776. -/
def isProgram (code : Nat) : Bool :=
  [0x0102, 0x0103, 0x0303, 0x0104, 0x0304, 0x0105, 0x0107, 0x0401, 0x0402, 0x0403, 0x0201, 0x0202, 0x0204, 0x0502,
   0x0504, 0x0509, 0x0507, 0x0508, 0x050B, 0x0902, 0x0907, 0x0908, 0x0901, 0x0A0C].contains code

/-- Steer failures count as one event where a rule compares them (R214). -/
def eventClass (code : Nat) : Nat := if code = 0x0402 ∨ code = 0x0403 then 0x0401 else code

/-- A repeat of an event: same page, code and named detail (R776). -/
def Forbid.same (f g : Forbid) : Bool :=
  f.page == g.page && eventClass f.code == eventClass g.code && f.det == g.det

/-- The streams of a step. -/
def StepRec.streams (st : StepRec) : List Nat := st.decode.map (·.2) ++ st.prefill.map (·.1)

/-- The page of the KV pool that holds a device physical address, if any (R456). -/
def State.kvPageOf (s : State) (a : Nat) : Option Nat :=
  let base := s.reg64 pgKvs 0x048
  let pb := s.regN pgKvs 0x054
  if pb = 0 ∨ a < base ∨ base + s.regN pgKvs 0x050 * pb ≤ a then none else some ((a - base) / pb)

/-- Streams whose page lists name a page. -/
def State.holders (s : State) (page : Nat) : List Nat :=
  (s.kv.lists.filter fun e => e.2.contains page).map (·.1)

/-- The streams of a step whose results depend on a tally: task, feature, column (R100). -/
def StepRec.fedBy (st : StepRec) (task f c : Nat) : List Nat :=
  (st.decode.filter fun d => Config.tallyFeeds task f c d.1).map (·.2)
    ++ ((List.range st.prefill.length).filter fun i => Config.tallyFeeds task f c (512 + i)).map
        fun i => (nth (0, 0) st.prefill i).1

/-- The streams of a step that enter FAULTED at its commit point while the others commit, each with its code (R100, R777). -/
def StepRec.faults (st : StepRec) : List (Nat × Nat) :=
  st.faulted ++ st.taints.flatMap fun x => (st.fedBy x.1 x.2.1 x.2.2.1).map fun n => (n, x.2.2.2)

/-- The streams to which a step's reservations give a page: as a new page or as the copy of a shared one (R460, R462). -/
def StepRec.owners (st : StepRec) (page : Nat) : List Nat :=
  (st.newPages.filter fun e => e.2.contains page).map (·.1) ++ (st.cow.filter fun c => c.2.2.2 == page).map (·.1)

/-- The streams that R100, R191 or R550 narrows a repeated event of a step to; none where no such rule applies, and none where no page list
names the page. Those of R100 are found at the commit point, from every tally that the attempt poisoned. -/
def State.narrowed (s : State) (st : StepRec) (f : Forbid) : Option (List Nat) :=
  if f.code = 0x0102 ∨ f.code = 0x0103 then some []
  else if f.code = 0x0303 then some [f.a1]
  else if f.code = 0x0901 then
    match (s.kvPageOf f.det).map fun p => s.holders p ++ st.owners p with
    | none | some [] => none
    | some l => some l
  else none

/-- REPLAY_LIMIT (R805). -/
def State.replayLimit (s : State) : Nat := bits (s.regN pgDfmDev 0x068) 7 0

/-- The step's next abandonment is its last (R776): a repeated program event, or the limit of hardware attempts. -/
def State.lastAttempt (s : State) (st : StepRec) (f : Forbid) : Bool :=
  if isProgram f.code ∧ st.forbids.all fun g => isProgram g.code then
    st.past.any fun l => (l.all fun g => isProgram g.code) && l.any fun g => Forbid.same f g
  else decide (s.replayLimit ≤ st.attempts + 1)

/-- A completion record (R397). -/
def doneRec (status reason bucket tasks first start fin : Nat) : List Byte :=
  leBytes 1 status ++ leBytes 1 reason ++ leBytes 1 bucket ++ [0] ++ leBytes 4 tasks ++ leBytes 4 first
    ++ leBytes 4 0 ++ leBytes 8 start ++ leBytes 8 fin

/-- A step completion record (R503). -/
def stepDone (status cohorts ndec dropped npf flags tag toks start fin : Nat) : List Byte :=
  leBytes 1 status ++ leBytes 1 cohorts ++ leBytes 2 ndec ++ leBytes 2 dropped ++ leBytes 1 npf ++ leBytes 1 flags
    ++ leBytes 4 tag ++ leBytes 4 toks ++ leBytes 8 start ++ leBytes 8 fin

/-- Write a record at an address; 0 means no record (R416). -/
def State.record (s : State) (a : Nat) (bs : List Byte) : State := if a = 0 then s else s.dramWrite a bs

/-- STATUS 3 in the completion records of an abandoned step's launches (R398, R772). -/
def State.doneAbandoned (s : State) (recs : List LRec) : State :=
  recs.foldl (fun s r => s.record (leAt r.raw 48 8) (doneRec 3 0 0xFF 0 0 0 0)) s

/-- The launches, instances and queued records of steps that are gone (R772). -/
def Prog.without (p : Prog) (steps : List Nat) : Prog :=
  let ids := (p.launches.filter fun l => steps.contains l.step).map (·.id)
  let gone := fun (i : Inst) => ids.contains i.launch
  { p with
    launches := p.launches.filter fun l => !steps.contains l.step
    dq := p.dq.filter fun r => match r with
      | .launch l => !steps.contains l.step
      | .switch _ => true
    pools := (p.pools.map fun e => (e.1, e.2.filter fun i => !gone i)).filter fun e => !e.2.isEmpty
    runs := p.runs.filter fun e => match e.2.inst with
      | some i => !gone i
      | none => true
    nextTask := p.nextTask.filter fun e => !steps.contains e.1 }

/-- A step's reservations return to the pool (R460, R772). -/
def Kv.release (k : Kv) (st : StepRec) : Kv :=
  let pg := (st.newPages.map (·.2)).flatten ++ st.cow.map fun c => c.2.2.2
  let bl := (st.newBlocks.map (·.2)).flatten
  { k with resvPages := k.resvPages.filter fun p => !pg.contains p
           resvBlocks := k.resvBlocks.filter fun b => !bl.contains b }

/-- STEP_REPLAY and its registers for one abandoned step (R775, R806). -/
def State.logReplay (s : State) (num code attempt : Nat) : State :=
  let s := s.log (pgKpr 0) 0x1505 num code attempt 0
  let s := s.incReg pgDfmDev 0x06C
  s.setReg64 pgDfmDev 0x070 (2 ^ 63 + attempt % 32 * 2 ^ 56 + code * 2 ^ 32 + num % 2 ^ 32)

/-! ### The pools of the KV store (R457, R458, R465) -/

def State.kvPages (s : State) : Nat := s.regN pgKvs 0x050
def State.kvPageBytes (s : State) : Nat := s.regN pgKvs 0x054
def State.kvListBlocks (s : State) : Nat := s.regN pgKvs 0x078

/-- KVS_STATUS.READY: the pools are configured (R476). -/
def State.kvReady (s : State) : Bool := s.kvPages != 0 && s.kvPageBytes != 0 && s.kvListBlocks != 0

/-- Pages with REFS 0 (KVS_FREE_PAGES). -/
def State.kvFree (s : State) : Nat := s.kvPages - (s.kv.refs.filter fun e => e.2 != 0).length

/-- Free list blocks (KVS_LIST_FREE). -/
def State.kvListFree (s : State) : Nat :=
  s.kvListBlocks - (sumNat (s.kv.blocks.map fun e => e.2.length) + s.kv.resvBlocks.length)

/-- KV_POOL_LOW and KV_LIST_LOW, each once until the level has risen again (R465). -/
def State.kvLow (s : State) : State :=
  let lw := s.regN pgKvs 0x05C
  let free := s.kvFree
  let s := if lw ≠ 0 ∧ free < lw ∧ s.kv.poolLow = false ∧ s.kvReady then
      { s.report pgKvs 0 0x0E01 free 0 0 with kv := { s.kv with poolLow := true } }
    else if lw < free then { s with kv := { s.kv with poolLow := false } } else s
  let lf := s.kvListFree
  if 64 * lf < s.kvListBlocks ∧ s.kv.listLow = false ∧ s.kvReady then
    { s.report pgKvs 1 0x0E02 lf 0 0 with kv := { s.kv with listLow := true } }
  else if s.kvListBlocks < 64 * lf then { s with kv := { s.kv with listLow := false } } else s

/-! ### Tiles at rest -/

/-- An empty plane set. -/
def emptySet : PlaneSet := { fmt := 0, cls := 0, planes := [], ready := false, poison := false }

def mtDflt (_ : Nat) : MTile :=
  { a := emptySet, b := emptySet, loads := [], nLoads := 0, pass := none, more := [], nPass := 0, got := [], queue := [], inAt := 0
    groups := [], slot := 0, clk := 0, freeA := 0, freeB := 0, fails := [], failed := [], loc := none }

def State.mtile (s : State) (site : Nat) : MTile := sget mtDflt s.mt site
def State.updM (s : State) (site : Nat) (f : MTile → MTile) : State := { s with mt := supd mtDflt s.mt site f }

/-- The S sites of a comb, ascending (R24). -/
def sSites : List Nat := (List.range 120).filter fun p => kindOf p == .s

/-- The S index of a physical index within its comb; the spare comes last. -/
def sIndex (p : Nat) : Nat := (sSites.takeWhile fun x => x != p).length

/-- OPC is 8 × the S index at reset, in 6 bits (R194). -/
def stDflt (site : Nat) : STile :=
  { opc := 8 * sIndex (siteIdx site) % 64, sts := 0, steps := [], shadowedIn := [], shadows := [] }

def State.stile (s : State) (site : Nat) : STile := sget stDflt s.st site
def State.updS (s : State) (site : Nat) (f : STile → STile) : State := { s with st := supd stDflt s.st site f }

def btDflt (_ : Nat) : BTile :=
  { pipe := [], claims := [], jobs := [], nextJob := 0, waiting := [], wins := [], reads := [], hold := [], pkts := [], nextPkt := 0, now := 0, scrubRow := 0, scrubBack := [], scrubAt := 0 }

/-- The work that a new instance finds on its tile, left by one that is gone, is dropped; what has come is kept in the queue. -/
def MTile.drop (t : MTile) : MTile :=
  { t with pass := none, more := [], loads := [], got := [], groups := [], fails := [], failed := []
           queue := match t.pass with
             | some q => if q.vecs.isEmpty then t.queue else t.queue.drop 1
             | none => t.queue }

/-- Shadow runs of a step that is gone are dropped, rows that its instances were reading go nowhere, and its operations count from
the first again when it is replayed (R194, R772). Passes and loads of its instances run on until a new instance takes the
tile (log 97). -/
def State.clearTiles (s : State) (num : Nat) : State :=
  let l := s.st.map fun e => (e.1, { e.2 with shadows := e.2.shadows.filter fun x => x.step != num || x.pout.isSome
                                              steps := e.2.steps.filter (· != num)
                                              shadowedIn := e.2.shadowedIn.filter (· != num) })
  let b := s.bt.map fun e => (e.1, { e.2 with jobs := e.2.jobs.filter fun j => j.step != some num })
  { s with st := l.filter fun e => decide (e.2 ≠ stDflt e.1), bt := b.filter fun e => decide (e.2 ≠ btDflt e.1) }

/-! ### The Ledger's part in a launch's end (R738) -/

/-- An all-zero entry: FREE (R420). -/
def streamDflt (_ : Nat) : Stream :=
  { st := 0, cls := 0, oseq := 0, job := 0, ring16 := false, spec := false, emittedGen := false, notify := false
    seed := 0, ringBase := 0, ringEntries := 0, vector := 0, countAddr := 0, statusAddr := 0, emitted := 0, seqLen := 0
    prompt := 0, kvRoot := 0, budget := 0, temp := 0, topp := 0, topk := 0, fault := 0, stop0 := 0, stop1 := 0
    stage := 0, lastEmit := 0, reqStart := 0, gen := 0 }

def State.stream (s : State) (n : Nat) : Stream := sget streamDflt s.intake.table n

/-- The Ledger runs (LDG_CFG.EN). -/
def State.ldgOn (s : State) : Bool := bit (s.regN pgLdg 0x048) 31

/-- Shares of a step by class: one for each decode stream, one for each token of a chunk. -/
def State.shares (s : State) (st : StepRec) : List (Nat × Nat) :=
  st.decode.map (fun d => ((s.stream d.2).cls, 1)) ++ st.prefill.map fun p => ((s.stream p.1).cls, p.2)

/-- A launch ends: the interval under way still gives it energy, and its energy of `nj` is split at that interval's end (log 78). A launch
of no step counts as unclassed. -/
def State.endLaunch (s : State) (l : Launch) (nj : Nat) : State :=
  if !s.ldgOn then s
  else
    let shares := ((if l.step = 0 then none else s.step? l.step).map s.shares).getD []
    { s with ldg := { s.ldg with ended := s.ldg.ended ++ [{ id := l.id, job := l.job, nj, shares }] } }

/-- The launches of a step that is abandoned end; the energy that they have goes with their records (R738). -/
def State.endLaunches (s : State) (num : Nat) : State :=
  (s.prog.launches.filter fun l => l.step == num && !l.finished).foldl (fun s l => s.endLaunch l 0) s

/-- A step's launch records with the energy of its launches so far (R738). -/
def Prog.recsWith (p : Prog) (st : StepRec) : List LRec :=
  st.recs.map fun r => match p.launches.find? fun l => l.step == st.num && l.role == r.role with
    | some l => { r with nj := l.energy }
    | none => r

/-- Step 2 of R379 runs from the last commit or abandonment before the switch (R381). -/
def State.markBoundary (s : State) : State :=
  { s with prog := { s.prog with cur := s.prog.cur.map fun w => { w with since := s.dev.chrono } } }

/-- A tile's micro-program goes on: the tile is in RUN, its instance has not executed END and stands at no WAIT (R377, R405). -/
def State.mayRun (s : State) (site : Nat) : Bool :=
  let r := s.run site
  s.inRun site && r.inst.isSome && r.wait.isNone && !r.ended

/-- The step in progress in a tile's comb: that of its own instance, else the oldest with an instance in the comb. -/
def State.combStep (s : State) (site : Nat) : Option Nat :=
  match s.stepAt site with
  | some n => some n
  | none => (s.mrd.steps.find? fun st => s.prog.runs.any fun e => siteComb e.1 == siteComb site && s.stepAt e.1 == some st.num).map (·.num)

/-- The step whose chunks carry a RED: that of the oldest launch under way whose graph feeds it (R265, R404). -/
def State.redStep (s : State) (red : Nat) : Option Nat :=
  (s.prog.launches.find? fun l => l.reds.any fun r => r.1 == red).map (·.step)

/-- The step that holds a request: that of the tile that sent it; for another sender the oldest in flight (R535, R536, R539, R549, log 114). -/
def State.reqStep (s : State) (src : Nat) : Option Nat :=
  let own := if bits src 15 14 = 0 then (s.serving (bits src 11 7) (bits src 6 0)).bind s.stepAt else none
  match own with
  | some n => some n
  | none => if s.oldest = 0 then none else some s.oldest

/-- One step leaves flight (R771, R772, R775 to R777). `own` says that an event forbids its own commit, `last` that it is
not replayed again: then its streams enter FAULTED at the next commit point with the cause's code. -/
def State.abandonOne (s : State) (code : Nat) (own last : Bool) (st : StepRec) : State :=
  let n := st.attempts + b2n own
  let s := s.doneAbandoned st.recs
  let recs := s.prog.recsWith st
  let s := (s.endLaunches st.num).clearTiles st.num
  let s : State := { s with kv := s.kv.release st, prog := s.prog.without [st.num] }
  let s := s.markBoundary
  let s := s.logReplay st.num code n
  let fin := own && last
  let st' : StepRec := { st with attempts := n, forbids := [], past := st.past ++ [st.forbids], results := [], recs := recs
                                 newPages := [], newBlocks := [], cow := [], copied := [], seals := [], shadows := 0
                                 faulted := [], taints := [] }
  let s : State := { s with mrd := { s.mrd with
    steps := s.mrd.steps.filter fun x => x.num != st.num
    abandoned := if fin || s.dev.st == .failed then s.mrd.abandoned else s.mrd.abandoned ++ [st']
    faulting := if fin then s.mrd.faulting ++ st.streams.map fun x => (x, code) else s.mrd.faulting } }
  let s := s.kvLow
  if fin then
    s.record st.done (stepDone 2 st.cohorts st.decode.length st.dropped st.prefill.length
      (b2n st.spec + 2 * b2n st.sprint) st.tag 0 st.start s.dev.chrono)
  else s

/-- Abandon every step in flight from one on (R771). -/
def State.abandonFrom (s : State) (num code : Nat) (last : Bool) : State :=
  (s.mrd.steps.dropWhile fun st => st.num != num).foldl
    (fun s st => s.abandonOne code (st.num == num) (last && st.num == num) st) s

/-- Abandon every step in flight, each for its own sake (R742, R792). -/
def State.abandonAll (s : State) (f : Forbid) : State :=
  s.mrd.steps.foldl (fun s st => s.abandonOne f.code true (s.lastAttempt st f) { st with forbids := st.forbids ++ [f] }) s

/-- The lead's ABORT for a step, to every other member, logged as SLICE_ABORT (R615). -/
def State.sendAbort (s : State) (num logical code : Nat) : State :=
  let s := s.sendAll s.members (.abort (w32 num) s.myLogical)
  let s : State := { s with slc := { s.slc with rounds := s.slc.rounds.filter fun r => decide (r.step < num) || r.phase == 2 } }
  (s.flag pgRte 2).log pgRte 0x0B01 num logical code 0

/-- An event of an attempt that is already abandoned counts among its causes (R776, log 97). -/
def State.blameGone (s : State) (num : Nat) (f : Forbid) : State :=
  { s with mrd := { s.mrd with abandoned := s.mrd.abandoned.map fun st =>
      if st.num = num then { st with past := addLast st.past f } else st } }
where
  /-- Add a cause to the last attempt. -/
  addLast : List (List Forbid) → Forbid → List (List Forbid)
    | [], f => [[f]]
    | [l], f => [l ++ [f]]
    | l :: t, f => l :: addLast t f

/-- An event forbids the commit of a step in flight (R771, R776, R777). A follower of a slice keeps its share and answers
NOTREADY; the lead abandons through ABORT (R612, R615), but no step whose COMMIT is out. The streams that a rule narrows a repeat to need not be in the step (R550). -/
def State.blame (s : State) (num : Nat) (f : Forbid) : State :=
  match s.step? num with
  | none =>
    if s.follower then { s with slc := { s.slc with own := s.slc.own ++ [f] } } else s.blameGone num f
  | some st =>
    if s.slc.rounds.any fun r => r.step == num && r.phase != 0 then s
    else if s.follower then s.updStep num fun x => { x with forbids := x.forbids ++ [f] }
    else
      let last := s.lastAttempt st f
      match (if last then s.narrowed st f else none) with
      | some l => s.updStep num fun x => { x with faulted := x.faulted ++ l.map fun y => (y, f.code) }
      | none =>
        let s := s.updStep num fun x => { x with forbids := x.forbids ++ [f] }
        let s := if s.inSlice then s.sendAbort num s.myLogical f.code else s
        s.abandonFrom num f.code last

/-- Log an event that forbids a commit, then abandon the step it falls on: the one named, else the oldest in flight. -/
def State.forbid (s : State) (page code a0 a1 a2 det : Nat) (step : Option Nat) : State :=
  let old := s.oldest
  let s := s.log page code a0 a1 a2 old
  s.blame (step.getD old) { page, code, a0, a1, a2, det }

/-- A fault bit, its event, and the commit it forbids. -/
def State.raise (s : State) (page b code a0 a1 a2 det : Nat) (step : Option Nat) : State :=
  (s.flag page b).forbid page code a0 a1 a2 det step

/-- Enter FAILED with a cause bit of FAIL (R797, R804): steps in flight are abandoned and not replayed. -/
def State.failWith (s : State) (b : Nat) : State :=
  let s : State := { s with dev := { s.dev with fail := putBits s.dev.fail b b 1 } }
  let s := s.devTo .failed
  let s := s.mrd.steps.foldl (fun s st => s.abandonOne 0x1507 false false st) s
  { s with mrd := { s.mrd with abandoned := [] } }

/-- After a change of a unit: DEGRADED when a condition of R796 arises; FAILED when every comb is OFF or no stack runs. -/
def State.review (s : State) : State :=
  if !s.live then s
  else if (List.range 24).all s.combOff then s.failWith 5
  else if (List.range 12).all fun h => (s.stack h).st != .run then s.failWith 2
  else if s.dev.st == .ready && s.degrade != 0 then s.devTo .degraded
  else s

/-- READY again, at a commit point at which no condition of R796 holds (R795). -/
def State.reviewUp (s : State) : State :=
  if s.dev.st == .degraded && s.degrade == 0 then s.devTo .ready else s

/-! ### Switches the Keeper queues (R382, R383, R783) -/

/-- The ACTIVE slot (R362). -/
def slotDflt (_ : Nat) : Slot := { st := .empty, addr := 0, img := none, map := List.range 24, next := List.range 24 }

def State.slot (s : State) (n : Nat) : Slot := sget slotDflt s.prog.slots n

def State.updSlot (s : State) (n : Nat) (f : Slot → Slot) : State :=
  { s with prog := { s.prog with slots := supd slotDflt s.prog.slots n f } }

def State.activeSlot (s : State) : Option Nat := (List.range 64).find? fun n => (s.slot n).st == .active

/-- The slot number of a switch that keeps the null configuration, when no slot is ACTIVE (log 20). -/
def nullSlot : Nat := 64

/-- Queue a switch to the ACTIVE slot ahead of every queued launch; one that waits already serves (log 20). -/
def State.queueSwitch (s : State) (flush : Bool) : State :=
  let r : SwitchRec := { ok := true, slot := s.activeSlot.getD nullSlot, flush, limit := 0, done := 0 }
  if s.prog.ahead.contains r then s
  else { s with prog := { s.prog with ahead := s.prog.ahead ++ [r] } }

/-- A switch is queued or under way. -/
def State.switchQueued (s : State) : Bool :=
  s.prog.cur.isSome || !s.prog.ahead.isEmpty ||
    s.prog.dq.any fun r => match r with
      | .switch _ => true
      | .launch _ => false

/-! ### Substitution (R31 to R36, R43, R44, R783) -/

/-- The offset of a tile page's fmax register. -/
def fmaxOff (site : Nat) : Nat := if siteKind site == .m then 0x04C else 0x048

/-- The measured fmax code of a tile (R168, R823). -/
def State.fmaxOf (s : State) (site : Nat) : Nat := bits (s.regN site (fmaxOff site)) 7 0

/-- A tile or its router is on the defect list. -/
def State.defective (s : State) (site : Nat) : Bool :=
  s.die.defects.contains (.tile site) || s.die.defects.contains (.router site)

/-- A free spare of a kind in a comb (R32), of which a substitution may choose (R62, R720). -/
def State.spareFree (s : State) (k : Kind) (site : Nat) : Bool :=
  siteKind site == k && !s.defective site && !s.physHole site && (s.served site).isNone &&
    (s.tile site).st == .benched && ((s.tile site).bench.all fun b => b == .spare || b == .licence) &&
    !(s.die.standIns.any fun x => x.spare == site) && !(s.die.reinst.any fun x => x.1 == site) &&
    decide (s.baseN ≤ s.fmaxOf site)

/-- Manhattan distance of two sites. -/
def dist (a b : Nat) : Nat := (siteX a - siteX b) + (siteX b - siteX a) + (siteY a - siteY b) + (siteY b - siteY a)

/-- The nearest free spare of R31 from the default site of a logical index; the lower x wins a tie. -/
def State.pickSpare (s : State) (comb l : Nat) : Option Nat :=
  leastBy (fun p => dist p (mkSite comb l) * 64 + siteX p)
    (((List.range 12).map fun i => mkSite comb (108 + i)).filter fun p => s.spareFree (kindOf l) p)

/-- The switch whose shadow copies are written or to be written: the one under way, or a queued one already loaded (R379, step 1). -/
def State.shadow (s : State) : Option Switching :=
  match s.prog.cur with
  | some w => some w
  | none => s.prog.pre

/-- The Keeper takes back the commits it made for a switch that no comb has made yet: the copies are written anew for another switch that
goes before it, or for a remap commit that came after them (R63, R379). -/
def State.dropShadow (s : State) : State :=
  match s.shadow with
  | none => s
  | some w =>
    if !w.loaded || !w.combs.isEmpty then s
    else
      let ours := s.pages.filter fun e => decide (e.1 < 5952) && e.2.pending && e.2.who == 1
      let s := ours.foldl (fun s e => (s.dropStaged e.1).updPage e.1 fun g => { g with pending := false }) s
      { s with prog := { s.prog with
          pre := none, codeNext := [], cur := s.prog.cur.map fun w => { w with loaded := false, left := [] } } }

/-- The shadow copies are written, for the switch under way or for a queued one: the copies are not free (R253, R379). -/
def State.shadowBusy (s : State) : Bool := s.shadow.any (·.loaded)

/-- R62, for the staged entries of a comb's page. An entry not marked HOLE whose PHYS is 120 or more names no site, and is refused as
one that breaks these conditions (log 99). -/
def State.dfmOk (s : State) (p : Nat) : Bool :=
  let c := p - 9464
  let e := fun (l : Nat) => s.stgN p (0x100 + 4 * l)
  let phys := fun (l : Nat) => bits (e l) 6 0
  let bad := fun (l : Nat) =>
    (bit (e l) 15 && bit (e l) 14) ||
    (!bit (e l) 15 &&
      ((!bit (e l) 14 && phys l != l) || decide (119 < phys l) || kindOf (phys l) != kindOf l
        || s.physHole (mkSite c (phys l)) || s.defective (mkSite c (phys l))
        || (List.range 108).any fun m => m != l && !bit (e m) 15 && phys m == phys l))
  !((s.stagedOf p).any fun x => bad ((x.1 % 4096 - 0x100) / 4))

/-- The copies are in use, or a commit of the comb's page is pending: a remap entry waits (R253, R683, R785). -/
def State.remapBusy (s : State) (comb : Nat) : Bool := (s.page (pgDfm comb)).pending || s.shadowBusy

/-- Stage a remap entry and commit it for the comb's next epoch boundary, or wait. A commit that R62 refuses applies nothing. -/
def State.stageRemap (s : State) (comb l : Nat) (e : Nat) : State :=
  if s.remapBusy comb then
    { s with die := { s.die with remapWait := s.die.remapWait ++ [(comb, l, w32 e)] } }
  else
    let t := s.stage (pgDfm comb) (0x100 + 4 * l) e
    if t.dfmOk (pgDfm comb) then t.keeperCommit (pgDfm comb) else t.keeperRefused (pgDfm comb)

/-- Comb-grid column and row (R15). -/
def combCol (c : Nat) : Nat := 2 * (c / 4 % 2) + c % 2
def combRow (c : Nat) : Nat := 2 * (c / 8) + c % 4 / 2

/-- Comb-grid distance (R407). -/
def combDist (a b : Nat) : Nat :=
  (combCol a - combCol b) + (combCol b - combCol a) + (combRow a - combRow b) + (combRow b - combRow a)

/-- A tile enters QUARANTINE for its known-answer run. -/
def State.toQuarantine (s : State) (site : Nat) : State :=
  (s.tileTo site .quarantine).updTile site fun t => { t with bench := [] }

/-- A logical site becomes a hole at the comb's next boundary (R38, R63). -/
def State.makeHole (s : State) (comb l : Nat) : State :=
  s.stageRemap comb l 0x8000

/-- The Keeper chooses a stand-in for a logical site (R783). A spare runs its known-answer run first; with no spare the
site becomes a hole at the FLUSH switch. A stand-in that is already in its known-answer run serves. -/
def State.substitute (s : State) (comb l : Nat) : State :=
  if s.die.standIns.any fun x => x.comb == comb && x.logical == l then s
  else match s.pickSpare comb l with
  | some sp =>
    let s := s.toQuarantine sp
    { s with die := { s.die with standIns := s.die.standIns ++ [{ comb, logical := l, spare := sp }] } }
  | none => (s.makeHole comb l).queueSwitch true

/-- Stage the entry of a site chosen for a logical index; where R62 refuses it, and nothing serves the index, the Keeper chooses
again (R783, log 99). -/
def State.stageChosen (s : State) (comb l e : Nat) : State :=
  let refused := !s.remapBusy comb && !(s.stage (pgDfm comb) (0x100 + 4 * l) e).dfmOk (pgDfm comb)
  let t := s.stageRemap comb l e
  if refused && !(t.serving comb l).any t.inRun then t.substitute comb l else t

/-- A tile that serves a logical site leaves RUN (R783); a rotation that it waited for is off. -/
def State.leaveRun (s : State) (site : Nat) (new : TileState) : State :=
  let l? := s.served site
  let s := (s.tileTo site new).updTile site fun t => { t with rotating := false, home := match l? with
    | some l => some l
    | none => t.home }
  match l? with
  | some l => s.substitute (siteComb site) l
  | none => s

/-! ### Strikes (R787 to R791) -/

/-- PWR_STATUS bits CAPPING and FORCED (R757), kept where the cap loop writes them. -/
def State.capping (s : State) : Bool := bit (s.regN pgPwr 0x040) 30
def State.forced (s : State) : Bool := bit (s.regN pgPwr 0x040) 29

/-- The code a comb's rail is set for: a change that raises the code raises the voltage first (R714). -/
def State.voltCode (s : State) (c : Nat) : Nat :=
  let x := s.comb c
  let l := match x.localCh with
    | some l => l.1
    | none => 0
  let y := match s.clk.sync with
    | some ch => if ch.failed.contains c then 0 else match ch.moves.find? fun m => m.1 == c with
      | some m => m.2.1
      | none => 0
    | none => 0
  max x.nom (max l y)

/-- The set rail voltage of a comb in mV, VSET (R713, R714, R753). -/
def State.vset (s : State) (c : Nat) : Nat :=
  min 900 (max 600 (Config.vf c (s.voltCode c) + 5 * (s.comb c).vtrim + 10 * s.offsetOf c))

/-- A comb is power-limited (R789). -/
def State.powerLimited (s : State) (c : Nat) : Bool :=
  decide (900 < s.vset c + 10)
    || decide (120 < (s.comb c).railW) || s.capping || s.forced

/-- An entry is written to the stored defect list, or waits while an update writes flash; a full list sets DEFECT_FULL
(R826, R837). -/
def State.storeDefect (s : State) (e : DEntry) : State :=
  if 53248 ≤ s.nv.dlist.length + s.nv.dwait.length then s.flag pgBst 2
  else if s.nv.update.isSome then { s with nv := { s.nv with dwait := s.nv.dwait ++ [e] } }
  else { s with nv := { s.nv with dlist := s.nv.dlist ++ [e] } }

/-- The stored entry of a unit (R825): type and data. -/
def Defect.entry (d : Defect) (origin start ref : Nat) : DEntry :=
  match d with
  | .tile _ | .router _ => { type := 1, origin, start, ref, data := 0 }
  | .wire b w => { type := 2, origin, start, ref := b * 256, data := w }
  | .hbmRow h sa => { type := 4, origin, start, ref := h, data := sa }
  | .combCeil _ code => { type := 5, origin, start, ref, data := code }

/-- A unit joins the defect list. -/
def State.listDefect (s : State) (d : Defect) (origin ref : Nat) : State :=
  if s.die.defects.contains d then s
  else ({ s with die := { s.die with defects := s.die.defects ++ [d] } } : State).storeDefect
    (d.entry origin (s.nv.starts % 65536) ref)

/-- Append a defect-list entry in the field, logged as DEFECT_APPEND with its bit in DFM_PHYS_DEFECT (R790). -/
def State.appendDefect (s : State) (d : Defect) (ref page : Nat) : State :=
  if s.die.defects.contains d then s else (s.listDefect d 1 ref).log page 0x1803 ref 0 0 0

/-- Bench a tile for a reason. -/
def State.bench (s : State) (site : Nat) (b : BenchBy) : State :=
  (s.tileTo site .benched).updTile site fun t => { t with bench := if t.bench.contains b then t.bench else t.bench ++ [b] }

/-- The step of R788 that a strike takes: 1 retirement, 2 offset, 3 bench. -/
def State.strikeStep (s : State) (ref comb : Nat) (field : Bool) : Nat :=
  let pol := s.regN pgDfmDev 0x068
  let win := bits pol 23 16
  let recent := s.die.strikes.any fun k => k.1 == ref && decide (s.dev.chrono ≤ k.2 + win * 3600000000000)
  if bit pol 30 ∧ win ≠ 0 ∧ recent then 1
  else if bit pol 31 ∧ ¬s.powerLimited comb ∧ s.offsetOf comb < 3 ∧ ¬(field ∧ bit pol 29) then 2
  else 3

/-- Raise OFFSET of a comb by one, 10 mV (R713, R788). -/
def State.raiseOffset (s : State) (c : Nat) : State :=
  s.setReg (pgCmb c) 0x050 (putBits (s.regN (pgCmb c) 0x050) 1 0 (s.offsetOf c + 1))

/-- Record a strike, its count and its event. -/
def State.noteStrike (s : State) (ref page code step : Nat) : State :=
  let s : State := { s with die := { s.die with strikes := (ref, s.dev.chrono) :: s.die.strikes } }
  (s.incReg pgDfmDev 0x078).log page 0x1805 ref code step 0

/-- A strike against a tile (R788): retired, offset and quarantined, or benched until the next start. -/
def State.strikeTile (s : State) (site code : Nat) : State :=
  let step := s.strikeStep (tileRef site) (siteComb site) (code == 0x1703)
  let s := s.noteStrike (tileRef site) site code step
  match step with
  | 1 => (s.appendDefect (.tile site) (tileRef site) site).bench site .retired
  | 2 => (s.raiseOffset (siteComb site)).toQuarantine site
  | _ => s.bench site .strike

/-- A strike against a comb (R788, R790): its CMB_CEIL code goes to the defect list, its OFFSET rises, or the Keeper's own
CMB_CEIL slot falls four codes below the nominal code, to no code below 33 (R696). -/
def State.strikeComb (s : State) (c code : Nat) : State :=
  let ref := unitRef 5 c 0
  let step := s.strikeStep ref c false
  let s := s.noteStrike ref (pgCmb c) code step
  let ceil := max 33 ((s.comb c).nom - 4)
  match step with
  | 1 => s.appendDefect (.combCeil c (s.limitN (pgCmb c) 0x048)) ref (pgCmb c)
  | 2 => s.raiseOffset c
  | _ => s.setLimit (pgCmb c) 0x048 1 ceil

/-- A tile is fenced for a fault: its port closes, a stand-in is sought, and the fault is a strike (R779, R782, R787). -/
def State.fence (s : State) (site code : Nat) : State :=
  if s.inRun site then
    let s := s.leaveRun site .fenced
    (s.strikeTile site code).review
  else s

/-- An uncorrectable read of a tile's store forbids a commit; the same row in an attempt and its replay is a strike, whatever becomes of
the step (R345, R776, R787). -/
def State.forbidUe (s : State) (site code a0 a1 a2 row : Nat) (step : Option Nat) : State :=
  let again := s.mrd.steps.any fun st => st.past.any fun l => l.any fun f => f.page == site && f.code == code && f.det == row
  let s := s.forbid site code a0 a1 a2 row step
  if again then s.strikeTile site code else s

/-! ### Treath ports as the hive sees them (R56, R628) -/

/-- TRL_NBR_ID (R634). -/
def nbrWord : Option Ident → Nat
  | none => 0
  | some i => 2 ^ 31 + b2n i.isSwitch * 2 ^ 30 + b2n i.idValid * 2 ^ 29 + b2n i.timeTc * 2 ^ 28 + i.port % 16 * 2 ^ 24
      + i.dev.toNat * 2 ^ 16

/-- TRL_NEIGHBOUR: 0 up, 1 down, 2 new identity (R628). -/
def State.nbrEvent (s : State) (p what : Nat) : State :=
  s.report (pgTrl p) 7 0x0A09 p (nbrWord (s.tport p).nbr) what

/-- The port is no member of its bundle (R592, R628). -/
def State.leaveBundle (s : State) (p : Nat) : State :=
  { s with tre := { s.tre with bundles := s.tre.bundles.map fun b => (b.1.filter (· != p), b.2) } }

/-- The port of a Treath attachment without a router goes DOWN: what was not acknowledged is lost, and the hive's routing hears of it
(R56, R587, R628). -/
def State.portCut (s : State) (p : Nat) : State :=
  if (sget tpDflt s.tre.ports p).st ≠ 2 then s
  else
    let s := (s.updTP p fun t => { t with
      st := 3, width := 0, retry := [], txq := [], used := [], back := [], heard := none, refused := (0, 0) }).leaveBundle p
    s.nbrEvent p 1

/-! ### Physical holes (R39, R42, R55, R56) -/

/-- The attachment of an edge router, if any (R53). -/
def attOf (site : Nat) : Option Nat := (List.range 34).find? fun a => (attRouters a).contains site

/-- Routers of an attachment have become physical holes: ATTACH_LOST when none is left, else ATTACH_DEGRADED for each (R55, R56). -/
def State.attachCheck (s : State) (a : Nat) (lost : List Nat) : State :=
  if lost.isEmpty then s
  else if s.attLost a then
    let s := s.log pgDfmDev 0x1802 a 0 0 0
    if a = 32 then s.failWith 0
    else if a = 33 then s.failWith 1
    else if a < 12 then s.updStack a fun x => { x with st := .out }
    else s.portCut (a - 16)
  else lost.foldl (fun s k => s.log pgDfmDev 0x1801 a (unitRef 4 (siteComb k) (siteIdx k)) 0 0) s

/-- The attachments after some routers have become holes. -/
def State.attachAll (s : State) (lost : List Nat) : State :=
  (List.range 34).foldl (fun s a => s.attachCheck a ((attRouters a).filter lost.contains)) s

/-- A router is excluded from routing: a physical hole; its tile becomes HOLE and its logical site is remapped. -/
def State.routerLost (s : State) (site : Nat) : State :=
  if s.die.holes.contains site then s
  else
    let l? := s.served site
    let s : State := { s with die := { s.die with holes := s.die.holes ++ [site] } }
    let s := s.tileTo site .hole
    let s := match l? with
      | some l => s.substitute (siteComb site) l
      | none => s
    (s.attachAll [site]).review

end Sys2Proof.Machine
end

