-- ==== Sys2Proof/Machine/HbmRead.lean ====
section
/-! DEFINITION. Reads of HBM units as a controller makes them (R540, R546 to R550, R553, R559): correction, counts, the
report of an uncorrectable read, and the reads that the device's own units make of their records. -/

namespace Sys2Proof.Machine

/-- The device physical address of a unit, as a repeat of R550 compares it. -/
def State.unitAddr (s : State) (h sa : Nat) : Nat := s.addrOf h (sa / 64 * 64)

/-- A read returned poison to a step: its commit is forbidden without a further event (R548, R550, R559). -/
def State.poisonRead (s : State) (h sa : Nat) (served : Option Nat) : State :=
  match served with
  | none => s
  | some n => s.blame n { page := pgHbm h, code := 0x0901, a0 := 0, a1 := 0, a2 := 0, det := s.unitAddr h sa }

/-- Report an uncorrectable read (R549); a read that served a step forbids its commit. -/
def State.hbmUe (s : State) (h sa source kind : Nat) (served : Option Nat) : State :=
  match served with
  | none => s.ueLog h sa source kind
  | some n =>
    let s := s.ueNote h sa source kind
    s.forbid (pgHbm h) 0x0901 (s.regN (pgHbm h) 0x054) (s.regN (pgHbm h) 0x050) 0 (s.unitAddr h sa) (some n)

/-- What a controller's read of a unit returns. -/
structure UnitRead where
  data : List Byte
  poison : Bool
  s : State
  deriving DecidableEq, Repr

/-- A controller reads one stored unit for a request (R546 to R549, R559). -/
def State.ctlDecode (s : State) (h sa source : Nat) (u : List Byte × List Byte) (served : Option Nat) : UnitRead :=
  let s := if (s.stack h).st = .run then s.addReg64 (pgHbm h) 0x070 1 else s
  let d := u.1
  let c := u.2
  if (s.stack h).st ≠ .run ∨ stsPoison c then ⟨d, true, s.poisonRead h sa served⟩
  else if s.dieBad h sa then ⟨d, true, s.hbmUe h sa source 2 served⟩
  else match rsDecode h (sa / 64) d c with
    | .good x => ⟨x, false, s⟩
    | .corrected x => ⟨x, false, s.hbmCorrected h sa⟩
    | .bad k => ⟨d, true, s.hbmUe h sa source k served⟩

/-- A controller reads one unit of its stack. -/
def State.ctlRead (s : State) (h sa source : Nat) (served : Option Nat) : UnitRead :=
  s.ctlDecode h sa source (s.unit h sa) served

/-- A device unit reads one unit at a device physical address. -/
def State.devUnit (s : State) (a : Nat) (served : Option Nat) : UnitRead :=
  if s.hbmSize ≤ a then ⟨List.replicate 64 0, true, s⟩
  else
    let (h, sa) := s.mapOf a
    s.ctlRead h sa 0 served

/-- A device unit reads units in turn. -/
def State.devUnits : List Nat → Option Nat → State → UnitRead
  | [], _, s => ⟨[], false, s⟩
  | u :: t, served, s =>
    let r := s.devUnit u served
    let q := State.devUnits t served r.s
    ⟨r.data ++ q.data, r.poison || q.poison, q.s⟩

/-- HBM_ADDR for a read of the device's own (R536). -/
def State.devAddr (s : State) (a : Nat) (served : Option Nat) : State :=
  match served with
  | none => s.devUnmapped a
  | some n => s.raise pgHbmDev 0 0x0907 (attDest 33) (a % 2 ^ 32) (a / 2 ^ 32) 0 (some n)

/-- A device unit reads `len` bytes of a record at an address for a step, or for none. -/
def State.fetch (s : State) (a len : Nat) (served : Option Nat) : UnitRead :=
  let us := unitsOf a len
  let r := State.devUnits us served s
  ⟨(r.data.drop (a % 64)).take len, r.poison, match us.find? fun u => decide (s.hbmSize ≤ u) with
    | some u => r.s.devAddr (max a u) served
    | none => r.s⟩

/-- The counts and reports of a record's read, for a record that is read apart. -/
def State.noteRead (s : State) (a len : Nat) (served : Option Nat) : State := (s.fetch a len served).s

end Sys2Proof.Machine
end

