-- ==== Sys2Proof/Machine/Kv.lean ====
section
/-! DEFINITION. The KV store (R456 to R465): pages, page lists, list blocks, reservations, forks and releases. -/

namespace Sys2Proof.Machine

def refsDflt (_ : Nat) : Nat := 0
def listDflt {α : Type} (_ : Nat) : List α := []

/-- REFS of a page (R457). -/
def Kv.ref (k : Kv) (p : Nat) : Nat := sget refsDflt k.refs p

/-- Add to REFS of a page. -/
def Kv.addRef (k : Kv) (p : Nat) : Kv := { k with refs := supd refsDflt k.refs p (· + 1) }

/-- Take from REFS of a page. -/
def Kv.dropRef (k : Kv) (p : Nat) : Kv := { k with refs := supd refsDflt k.refs p (· - 1) }

/-- The pages of a stream's list. -/
def Kv.list (k : Kv) (st : Nat) : List Nat := sget listDflt k.lists st

/-- The list blocks of a stream, root first. -/
def Kv.blocksOf (k : Kv) (st : Nat) : List Nat := sget listDflt k.blocks st

/-- The first `n` numbers from `next` on that are not busy, looking at `fuel` numbers. -/
def takeFree (busy : Nat → Bool) : Nat → Nat → Nat → List Nat
  | 0, _, _ => []
  | fuel + 1, next, n =>
    if n = 0 then [] else if busy next then takeFree busy fuel (next + 1) n
    else next :: takeFree busy fuel (next + 1) (n - 1)

/-- `n` free pages, lowest first (R457; the choice is log 21); none when the pool has fewer. -/
def State.freePages (s : State) (n : Nat) : Option (List Nat) :=
  let l := takeFree (fun p => s.kv.ref p != 0 || s.kv.resvPages.contains p) s.kvPages 0 n
  if l.length = n then some l else none

/-- `n` free list blocks, lowest first (R458; log 21). -/
def State.freeBlocks (s : State) (n : Nat) : Option (List Nat) :=
  let used := (s.kv.blocks.map (·.2)).flatten
  let l := takeFree (fun b => used.contains b || s.kv.resvBlocks.contains b) s.kvListBlocks 0 n
  if l.length = n then some l else none

/-- List blocks of a list of n pages (R459). -/
def blocksFor (n : Nat) : Nat := if n = 0 then 0 else 1 + (n + 127) / 128

/-- Pages that n positions take (R456). -/
def pagesFor (n : Nat) : Nat := (n + 255) / 256

/-- A reservation (R460): the stream's new pages, new list blocks, and copies of shared pages (R462). -/
structure Resv where
  pages : List Nat
  blocks : List Nat
  cow : List (Nat × Nat × Nat × Nat)
  deriving DecidableEq, Repr

/-- The list indices of shared pages that new positions are written into (R462). -/
def Kv.shared (k : Kv) (st seqLen n : Nat) : List Nat :=
  (List.range (k.list st).length).filter fun i =>
    decide (seqLen / 256 ≤ i) && decide (i * 256 < seqLen + n) && decide (1 < k.ref (nth 0 (k.list st) i))

/-- What a stream's new positions need, if the pools can give it (R460). A sequence has 2,097,152 positions at most, so that its list
fits the root's 64 entries (R421, R459). -/
def State.needKv (s : State) (st seqLen n : Nat) : Option Resv :=
  let held := (s.kv.list st).length
  let sh := s.kv.shared st seqLen n
  let pages := pagesFor (min (seqLen + n) 2097152)
  match s.freePages (pages - held + sh.length), s.freeBlocks (blocksFor (max held pages) - (s.kv.blocksOf st).length) with
  | some ps, some bs =>
    some { pages := ps.drop sh.length, blocks := bs
           cow := (List.zip sh ps).map fun e => (st, e.1, nth 0 (s.kv.list st) e.1, e.2) }
  | _, _ => none

/-- Hold a reservation. -/
def Kv.hold (k : Kv) (r : Resv) : Kv :=
  { k with resvPages := k.resvPages ++ r.pages ++ r.cow.map fun c => c.2.2.2
           resvBlocks := k.resvBlocks ++ r.blocks }

/-- Set a stream's page list. -/
def Kv.setList (k : Kv) (st : Nat) (l : List Nat) : Kv := { k with lists := sset listDflt k.lists st l }

/-- Set a stream's list blocks. -/
def Kv.setBlocks (k : Kv) (st : Nat) (l : List Nat) : Kv := { k with blocks := sset listDflt k.blocks st l }

/-- Copy one page of the pool for a step (R462), poisoned units as poison; counted in KVS_COW_COUNT. -/
def State.copyPage (s : State) (step src dst : Nat) : State :=
  let base := s.reg64 pgKvs 0x048
  let pb := s.kvPageBytes
  let s := (List.range (pb / 64)).foldl
    (fun s i =>
      let r := s.devUnit (base + src * pb + 64 * i) (some step)
      let u := base + dst * pb + 64 * i
      r.s.devWrite u u r.data r.poison) s
  let s : State := { s with kv := { s.kv with cache := s.kv.cache.filter fun g => g.page != dst } }
  s.incReg pgKvs 0x064

/-- The stream of a step that an access of a task to a page of the pool concerns, among some of its streams (R462, log 112). -/
def kvPick (task a : Nat) (l : List Nat) : Option Nat := if l.isEmpty then none else l[Config.kvStream task a % l.length]?

/-- The copies of a page that a step holds (R462). -/
def StepRec.cowOf (st : StepRec) (p : Nat) : List (Nat × Nat × Nat × Nat) := st.cow.filter fun c => c.2.2.1 == p

/-- Where a step's write into the pool lands: the writer's copy of a shared page, made before its first write (R462). -/
def State.cowTarget (s : State) (step task a : Nat) : Nat × State :=
  match s.kvPageOf a, s.step? step with
  | some p, some st =>
    match (kvPick task a ((st.cowOf p).map (·.1))).bind fun n => (st.cowOf p).find? fun c => c.1 == n with
    | none => (a, s)
    | some c =>
      let cp := c.2.2.2
      let a' := a - p * s.kvPageBytes + cp * s.kvPageBytes
      if st.copied.contains cp then (a', s)
      else (a', (s.copyPage step p cp).updStep step fun x => { x with copied := x.copied ++ [cp] })
  | _, _ => (a, s)

/-- Where a step's read of the pool is served: the reader's copy, once one of its writes has made it; other holders of the page read the
original (R462). -/
def State.cowRead (s : State) (step task a : Nat) : Nat :=
  match s.kvPageOf a, s.step? step with
  | some p, some st =>
    if (st.cowOf p).isEmpty then a
    else
      match (kvPick task a (st.streams.filter fun n => (s.kv.list n).contains p)).bind fun n => (st.cowOf p).find? fun c => c.1 == n with
      | some c => if st.copied.contains c.2.2.2 then a - p * s.kvPageBytes + c.2.2.2 * s.kvPageBytes else a
      | none => a
  | _, _ => a

/-- A step's copies that no write has made yet are made before its lists name them. -/
def State.finishCopies (s : State) (st : StepRec) : State :=
  (st.cow.filter fun c => !st.copied.contains c.2.2.2).foldl (fun s c =>
    (s.copyPage st.num c.2.2.1 c.2.2.2).updStep st.num fun x => { x with copied := x.copied ++ [c.2.2.2] }) s

/-- One copy of R462 enters its stream's list. -/
def Kv.applyCow (k : Kv) (c : Nat × Nat × Nat × Nat) : Kv :=
  ((k.setList c.1 (setNth (k.list c.1) c.2.1 c.2.2.2)).dropRef c.2.2.1).addRef c.2.2.2

/-- New pages enter a stream's list. -/
def Kv.applyPages (k : Kv) (e : Nat × List Nat) : Kv :=
  e.2.foldl Kv.addRef (k.setList e.1 (k.list e.1 ++ e.2))

/-- The list block with a page list's entries: 128 numbers, 0xFFFF_FFFF beyond the list (R458). -/
def blockBytes (l : List Nat) : List Byte := (fit 0xFFFFFFFF 128 l).flatMap (leBytes 4)

/-- Write a stream's list blocks to the list pool: the root names the leaves, leaf j the stream's pages from 128j (R459). -/
def State.writeList (s : State) (st : Nat) : State :=
  let at_ := fun b => s.reg64 pgKvs 0x070 + 512 * b
  match s.kv.blocksOf st with
  | [] => s
  | root :: leaves =>
    (List.range leaves.length).foldl (fun s j =>
      s.dramWrite (at_ (nth 0 leaves j)) (blockBytes ((s.kv.list st).drop (128 * j) |>.take 128)))
      (s.dramWrite (at_ root) (blockBytes leaves))

/-- The descriptor of a page, in the array after the pool's last page (R457). -/
def State.writeRef (s : State) (p : Nat) : State :=
  s.dramWrite (s.reg64 pgKvs 0x048 + s.kvPages * s.kvPageBytes + 4 * p) (leBytes 4 (s.kv.ref p))

/-- The KV store changes: the lists and descriptors that changed are written to HBM (R457 to R459). -/
def State.kvStore (s : State) (k : Kv) : State :=
  let old := s.kv
  let s : State := { s with kv := k }
  let ps := (old.refs ++ k.refs).map (·.1) |>.filter fun p => old.ref p != k.ref p
  let ss := (old.blocks ++ k.blocks).map (·.1) |>.filter fun n => old.list n != k.list n || old.blocksOf n != k.blocksOf n
  ss.eraseDups.foldl State.writeList (ps.eraseDups.foldl State.writeRef s)

/-- A step's reservations become list changes at its commit (R460). -/
def State.commitKv (s : State) (st : StepRec) : State :=
  let s := s.finishCopies st
  let k := s.kv.release st
  let k := st.cow.foldl Kv.applyCow k
  let k := st.newPages.foldl Kv.applyPages k
  let k := st.newBlocks.foldl (fun k e => k.setBlocks e.1 (k.blocksOf e.1 ++ e.2)) k
  s.kvStore k

/-- A stream in DRAINING gives up its pages and list blocks (R464). -/
def Kv.drain (k : Kv) (st : Nat) : Kv :=
  let k := (k.list st).foldl Kv.dropRef k
  (k.setList st []).setBlocks st []

/-- List blocks a FORK reserves (R461). -/
def forkBlocks (pre : Nat) : Nat := 1 + ((pre + 255) / 256 + 127) / 128

/-- A FORK would take some REFS above 65,535 (R461). -/
def Kv.forkOver (k : Kv) (parent pre : Nat) : Bool :=
  ((k.list parent).take (pagesFor pre)).any fun p => decide (65535 ≤ k.ref p)

/-- The child's list shares the parent's pages (R461). -/
def Kv.fork (k : Kv) (parent child pre : Nat) (blocks : List Nat) : Kv :=
  let ps := (k.list parent).take (pagesFor pre)
  (ps.foldl Kv.addRef (k.setList child ps)).setBlocks child blocks

/-- Cached segments of a comb are invalidated (R469). -/
def State.dropCache (s : State) (c : Nat) : State :=
  { s with kv := { s.kv with cache := s.kv.cache.filter fun g => g.comb != c } }

/-- The root block of a stream's list (KV_ROOT of R421, R459). -/
def Kv.root (k : Kv) (st : Nat) : Nat :=
  match k.blocksOf st with
  | [] => 0xFFFFFFFF
  | b :: _ => b

end Sys2Proof.Machine
end

