-- ==== Sys2Proof/Machine/Intake.lean ====
section
/-! DEFINITION. Stream intake and the Stream Table (chapter 8, R420 to R448): records, checks, and the application of
each operation to its stream. -/

namespace Sys2Proof.Machine

/-! ### Stream Table -/

/-- Entry bytes as the Stream Table holds them (R421). -/
def Stream.bytes (e : Stream) : List Byte :=
  leBytes 1 e.st ++ leBytes 1 e.cls ++ leBytes 2 e.oseq ++ leBytes 2 e.job
    ++ leBytes 1 (b2n e.ring16 + 2 * b2n e.spec + 4 * b2n e.emittedGen + 8 * b2n e.notify) ++ [0]
    ++ leBytes 16 e.seed.toNat ++ leBytes 8 e.ringBase ++ leBytes 4 e.ringEntries ++ leBytes 2 e.vector ++ leBytes 2 0
    ++ leBytes 8 e.countAddr ++ leBytes 8 e.statusAddr ++ leBytes 8 e.emitted ++ leBytes 4 e.seqLen
    ++ leBytes 4 e.prompt ++ leBytes 4 e.kvRoot ++ leBytes 4 e.budget ++ leBytes 4 e.temp ++ leBytes 4 e.topp
    ++ leBytes 2 e.topk ++ leBytes 2 e.fault ++ leBytes 4 e.stop0 ++ leBytes 4 e.stop1 ++ leBytes 4 e.stage
    ++ leBytes 8 e.lastEmit ++ leBytes 8 e.reqStart ++ leBytes 8 e.gen

/-- The device changes an entry: COMMIT_GEN counts before and after (R421, R422); a rewritten Keeper-area unit is no
longer poisoned, in the primary and in the mirror (R561). -/
def State.setStream (s : State) (n : Nat) (e : Stream) : State :=
  if e = s.stream n then s
  else
    let p := s.rsvBase + 128 * n
    let units := [p, p + 64, p + s.mirrorOff, p + s.mirrorOff + 64]
    let nums := units.map fun a => unitNum (s.mapOf a).1 (s.mapOf a).2
    { s with
      intake := { s.intake with table := sset streamDflt s.intake.table n { e with gen := e.gen + 2 } }
      hbm := { s.hbm with kpoison := s.hbm.kpoison.filter fun a => !units.contains a
                          onDie := s.hbm.onDie.filter fun u => !nums.contains u } }

/-- The ready bit of a stream (R424). -/
def Stream.ready (e : Stream) : Bool := e.st == 2 || e.st == 3

/-- The state of R427 for a stream in OPEN, READY or RUNNING or leaving PAUSED. -/
def Stream.derive (e : Stream) : Stream :=
  { e with st := if 0 < e.prompt ∨ (0 < e.budget ∧ e.emittedGen = false) then 2 else if 0 < e.budget then 3 else 1 }

/-! ### Intake unit -/

def expDflt (_ : Nat) : Nat := 0
def State.expect (s : State) (n : Nat) : Nat := sget expDflt s.intake.expect n
def State.pendOf (s : State) (n : Nat) : List Pend := sget listDflt s.intake.pend n
def State.setPend (s : State) (n : Nat) (l : List Pend) : State :=
  { s with intake := { s.intake with pend := sset listDflt s.intake.pend n l } }

/-- The appended prompt of a stream that is not prefilled yet (R441). -/
def State.segsOf (s : State) (n : Nat) : List Seg := sget listDflt s.intake.staged n

def State.setSegs (s : State) (n : Nat) (l : List Seg) : State :=
  { s with intake := { s.intake with staged := sset listDflt s.intake.staged n l } }

/-- A write to host memory that belongs to the commit point being handled: in a slice the lead holds it until every
member has returned DONE (R455, R613). -/
def State.toHostC (s : State) (o : Out) : State :=
  if s.inSlice then { s with intake := { s.intake with deferred := s.intake.deferred ++ [(s.intake.round, o)] } }
  else s.toHost o

/-- The chronometer count of the commit point being handled: in a slice the count that COMMIT carries, the lead's (R455, R610, log 39). -/
def State.cpTime (s : State) : Nat := s.intake.stamp.getD s.dev.chrono

/-- The first staging block of the pending prompt (STAGE of R421). -/
def stageOf (l : List Seg) : Nat := nth 0xFFFFFFFF (l.flatMap (·.blocks)) 0

/-- The deputy: the lowest logical ID, other than the lead, that is not lost. -/
def State.deputy (s : State) : Option Nat :=
  (List.range (s.lastLogical + 1)).find? fun l => l != s.leadId && !s.slc.lost.contains l

/-- The lead and the deputy keep the token log (R614). -/
def State.keepsLog (s : State) : Bool := s.inSlice && (s.isLead || s.deputy == some s.myLogical)

/-- Free token log blocks (R635). -/
def State.tokFree (s : State) : Nat :=
  s.regN pgRte 0x070 - sumNat (s.slc.toklog.map fun e => (e.2.length + 1023) / 1024)

/-- A stream's part of the token log changes; without a free block it is incomplete from here on (R624), and TOKLOG_LOW is
logged when fewer than 1/64 of the blocks stay free (R637). -/
def State.setTokLog (s : State) (n : Nat) (l : List Word) : State :=
  if !s.keepsLog then s
  else
    let low := fun (x : State) => decide (64 * x.tokFree < x.regN pgRte 0x070)
    let old := sget listDflt s.slc.toklog n
    if s.tokFree + (old.length + 1023) / 1024 < (l.length + 1023) / 1024 then
      { s with slc := { s.slc with gaps := s.slc.gaps.filter (· != n) ++ [n] } }
    else
      let s' : State := { s with slc := { s.slc with toklog := sset listDflt s.slc.toklog n l } }
      if low s' && !low s then s'.report pgRte 4 0x0B05 s'.tokFree 0 0 else s'

/-- Tokens enter the log. -/
def State.tokAppend (s : State) (n : Nat) (toks : List Word) : State :=
  if toks.isEmpty then s else s.setTokLog n (sget listDflt s.slc.toklog n ++ toks)

/-- Positions of a stream that have no token IDs (MEDIA 1, R624). -/
def State.tokGap (s : State) (n : Nat) : State :=
  if s.keepsLog then { s with slc := { s.slc with gaps := s.slc.gaps.filter (· != n) ++ [n] } } else s

/-- A stream's part of the log goes. -/
def State.tokDrop (s : State) (n : Nat) : State :=
  { s with slc := { s.slc with toklog := serase s.slc.toklog n, gaps := s.slc.gaps.filter (· != n) } }

/-- Records pending in the device (R433, R472). -/
def State.pendCount (s : State) : Nat := sumNat (s.intake.pend.map fun e => e.2.length)

/-- The intake unit takes BAR2 writes (R432, R797, R810). -/
def State.intakeOpen (s : State) : Bool :=
  s.live && bit (s.regN pgInt 0x048) 31 && (!s.inSlice || bit (s.regN pgInt 0x048) 30)

/-- A discarded BAR2 write (R429, R432). -/
def State.dropWrite (s : State) : State := (s.incReg pgInt 0x074).flag pgInt 0

/-- Fields of a record (R438). -/
def recOp (r : List Byte) : Nat := leAt r 0 1
def recFlags (r : List Byte) : Nat := leAt r 1 1
def recOseq (r : List Byte) : Nat := leAt r 2 2
def recStream (r : List Byte) : Nat := leAt r 4 4

/-- The reserved fields of a record are zero (R438 to R446). -/
def recReserved (r : List Byte) : Bool :=
  let z := fun (o n : Nat) => leAt r o n == 0
  match recOp r with
  | 1 => recFlags r == 0 && bits (leAt r 38 2) 14 11 == 0 && bits (leAt r 56 2) 15 12 == 0 && z 58 6
  | 2 => decide (recFlags r ≤ 1) && z 12 4 && z 24 40
  | 3 => decide (recFlags r ≤ 1) && z 18 2 && z 32 32
  | 6 => recFlags r == 0 && decide (leAt r 8 4 < 2 ^ 21) && z 16 48
  | 8 => recFlags r == 0 && z 16 48
  | _ => recFlags r == 0 && z 8 56

/-- Staging blocks an APPEND takes (R441). -/
def appendBlocks (r : List Byte) : Nat :=
  if recOp r = 2 ∧ recFlags r = 0 then (4 * leAt r 8 4 + 4095) / 4096 else 0

/-- Free staging blocks, lowest first (log 21). -/
def State.freeStage (s : State) (n : Nat) : Option (List Nat) :=
  let l := takeFree s.intake.stageUsed.contains (s.regN pgInt 0x060) 0 n
  if l.length = n then some l else none

/-- INT_LAST_REJECT (R474). -/
def lastRejectWord (stream op oseq result : Nat) : Nat :=
  2 ^ 63 + result * 2 ^ 59 + op * 2 ^ 51 + oseq * 2 ^ 35 + stream

/-- The streams' host-visible writes are this device's to make: alone, or as the lead (R455). -/
def State.hostSide (s : State) : Bool := !s.inSlice || s.isLead

/-- A rejected record: reported at the next commit point, counted, logged (R436). A failed OPEN is reported at its own
STATUS_ADDR where that is aligned and non-zero, else only in the log and INT_LAST_REJECT (R437). The device that took the record in counts
and logs it (R455). -/
def State.reject (s : State) (stream : Nat) (r : List Byte) (result : Nat) : State :=
  let op := recOp r
  let oseq := recOseq r
  let dest := if op = 1 then some (if leAt r 48 8 % 32 = 0 then leAt r 48 8 else 0) else none
  let s : State := { s with intake := { s.intake with reports := s.intake.reports ++ [⟨stream, oseq, result, dest⟩] } }
  if ¬s.hostSide then s
  else
  let s := s.incReg pgInt 0x06C
  let s := s.setReg64 pgInt 0x080 (lastRejectWord stream op oseq result)
  s.report pgInt 2 0x0D01 stream (op * 2 ^ 24 + result) oseq

/-- The RESULT of the checks of R433 on a formed record: none where it is accepted, `some 8` for a silent duplicate. -/
def State.checkRec (s : State) (stream : Nat) (r : List Byte) : Option Nat :=
  let exp := s.expect stream
  if recStream r ≠ stream ∨ recOp r = 0 ∨ 8 < recOp r ∨ recReserved r = false then some 1
  else if recOseq r = (exp + 65535) % 65536 ∧ r = sget listDflt s.intake.last stream then some 8
  else if recOseq r ≠ exp then some 7
  else if 32768 ≤ s.pendCount ∨ 8 ≤ (s.pendOf stream).length ∨ (s.freeStage (appendBlocks r)).isNone
      ∨ (recOp r = 6 ∧ (s.freeBlocks (forkBlocks (leAt r 12 4))).isNone) then some 6
  else none

/-- Accept a record: it becomes pending, the expected OSEQ advances, an APPEND starts its fetch and a FORK reserves its
list blocks (R433, R441, R461). -/
def State.accept (s : State) (stream : Nat) (r : List Byte) : State :=
  let blocks := (s.freeStage (appendBlocks r)).getD []
  let lb := if recOp r = 6 then (s.freeBlocks (forkBlocks (leAt r 12 4))).getD [] else []
  let fetch := decide (0 < appendBlocks r)
  let p : Pend := { raw := r, toks := [], stage := blocks, blocks := lb, fetched := !fetch, failed := false }
  let s : State := { s with
    intake := { s.intake with
      pend := sset listDflt s.intake.pend stream (s.pendOf stream ++ [p])
      expect := sset expDflt s.intake.expect stream ((s.expect stream + 1) % 65536)
      last := sset listDflt s.intake.last stream r
      stageUsed := s.intake.stageUsed ++ blocks }
    kv := { s.kv with resvBlocks := s.kv.resvBlocks ++ lb } }
  let s := (s.wrapReg pgInt 0x068).kvLow
  if fetch then s.emit (.hostRead (leAt r 16 8) (4 * leAt r 8 4) stream) else s

/-- A formed record is checked at once (R433). -/
def State.formRecord (s : State) (stream : Nat) (r : List Byte) : State :=
  match s.checkRec stream r with
  | none => s.accept stream r
  | some 8 => s.incReg pgInt 0x070
  | some res => s.reject stream r res

/-- The part of a write that falls into one slot: its offset in the slot and its bytes. -/
structure SlotPart where
  stream : Nat
  off : Nat
  data : List Byte
  deriving DecidableEq, Repr

/-- A BAR2 write cut at the slots' boundaries (R429). -/
def slotParts (off : Nat) (data : List Byte) : List SlotPart :=
  (unitsOf off data.length).map fun u =>
    let lo := max u off
    { stream := u / 64, off := lo - u, data := (data.drop (lo - off)).take (u + 64 - lo) }

/-- Whether a stream has an assembly buffer. -/
def State.asmOf (s : State) (stream : Nat) : Option Asm := s.intake.asm.find? fun a => a.stream == stream

/-- Put bytes into an assembly buffer; a later byte replaces an earlier one (R430). -/
def asmPut (m : Sparse Byte) (off : Nat) : List Byte → Sparse Byte
  | [] => m
  | b :: t => asmPut (sput m off b) (off + 1) t

/-- The intake unit discards a partial write or buffer (R431). -/
def State.dropPartial (s : State) (stream held cause : Nat) : State :=
  (s.incReg pgInt 0x074).report pgInt 1 0x0D02 stream held cause

/-- One slot's part of a BAR2 write (R430, R431). -/
def State.slotWrite (s : State) (p : SlotPart) : State :=
  let rest := s.intake.asm.filter fun a => a.stream != p.stream
  match s.asmOf p.stream with
  | none =>
    if p.data.length = 64 then s.formRecord p.stream p.data
    else if 128 ≤ s.intake.asm.length then s.dropPartial p.stream 0 0
    else { s with intake := { s.intake with
        asm := s.intake.asm ++ [{ stream := p.stream, bytes := asmPut [] p.off p.data, since := s.dev.chrono }] } }
  | some a =>
    let m := asmPut a.bytes p.off p.data
    if m.length = 64 then
      ({ s with intake := { s.intake with asm := rest } }).formRecord p.stream (List.map Prod.snd m)
    else { s with intake := { s.intake with asm := rest ++ [{ a with bytes := m }] } }

/-- An uncorrectable error is reported through AER: PCI_AER_UNCORR (R652, R694). The status of a poisoned TLP is bit 12
of the AER register (PRESUMED, the PCI Express layout; log 14). -/
def State.aerReport (s : State) (status : Nat) : State :=
  ({ s with host := { s.host with aer := s.host.aer ||| w32 status } }.emit (.aer (w32 status))).report pgPci 1 0x0C02 status 0 0

/-- What a read of BAR2 returns: zeros (R429). -/
def bar2Read (len : Nat) : List Byte := List.replicate len 0

/-- INTAKE_WRITE: a posted write of the host into BAR2 (R429 to R433, R652). A write that reaches the second 128 MiB is
discarded whole (DESIGN CHOICE, log 88). -/
def execIntakeWrite (off : Nat) (data : List Byte) (poisoned : Bool) (s : State) : Res :=
  if poisoned then .next (s.aerReport 0x1000)
  else if !s.intakeOpen || decide (0x8000000 < off + data.length) then .next s.dropWrite
  else .next ((slotParts off data).foldl State.slotWrite s)

/-- INTAKE_PARTIAL: a buffer not complete within INT_PARTIAL_TIMEOUT is discarded (R431); a timeout of 0 disables it. -/
def execIntakePartial (stream : Nat) (s : State) : Res :=
  let to_ := s.regN pgInt 0x064
  match s.asmOf stream with
  | none => .next s
  | some a =>
    if to_ = 0 ∨ s.dev.chrono < a.since + to_ * 1000 then .next s
    else .next (({ s with intake := { s.intake with asm := s.intake.asm.filter fun x => x.stream != stream } }).dropPartial
      stream a.bytes.length 1)

/-- Change the first pending record of a list that waits for its prompt fetch. -/
def updFetch (f : Pend → Pend) : List Pend → List Pend
  | [] => []
  | p :: t => if p.fetched then p :: updFetch f t else f p :: t

/-- Write fetched token IDs into the staging blocks in order (R441). -/
def State.fillStage (s : State) (blocks : List Nat) (toks : List Word) : State :=
  (List.zip blocks (chunks 1024 blocks.length toks)).foldl
    (fun s e => s.dramWrite (s.reg64 pgInt 0x058 + 4096 * e.1) (e.2.flatMap fun t => leBytes 4 t.toNat)) s

/-- APPEND_FETCH_DONE: the prompt fetch of the stream's oldest waiting APPEND is complete (R441). -/
def execAppendFetchDone (stream : Nat) (toks : List Word) (s : State) : Res :=
  match (s.pendOf stream).find? fun p => !p.fetched with
  | none => .next s
  | some p =>
    let s := s.fillStage p.stage toks
    .next (s.setPend stream (updFetch (fun p => { p with fetched := true, toks := fit 0 (leAt p.raw 8 4) toks }) (s.pendOf stream)))

/-- HOST_READ_COMPLETION_TIMEOUT: the fetch failed; the record will end with RESULT FIELD (R436, R652). -/
def execHostReadCompletionTimeout (stream : Nat) (s : State) : Res :=
  .next (s.setPend stream (updFetch (fun p => { p with fetched := true, failed := true }) (s.pendOf stream)))

/-! ### Applying records (R426, R435, R439 to R446) -/

/-- FP32 bits that are finite and 0 or above (R444). -/
def tempOk (w : Nat) : Bool := decide (w < 0x7F800000) || w == 0x80000000

/-- FP32 bits above 0 and at most 1 (R444). -/
def toppOk (w : Nat) : Bool := decide (0 < w) && decide (w ≤ 0x3F800000)

/-- The operation is accepted in the stream's state (R426). -/
def opAccepted (op st : Nat) : Bool :=
  match st with
  | 0 | 6 => op == 1 || op == 8
  | 1 => op == 2 || op == 3 || op == 4 || op == 6 || op == 7 || op == 8
  | 2 | 3 => op == 2 || op == 3 || op == 4 || op == 7 || op == 8
  | 4 => op == 2 || op == 3 || op == 5 || op == 7 || op == 8
  | 5 => op == 8
  | _ => op == 7 || op == 8

/-- The outcome of applying a record: its RESULT and the state after it. -/
structure Applied where
  result : Nat
  s : State
  deriving DecidableEq, Repr

/-- The fields of an OPEN are in range (R439). -/
def openFields (r : List Byte) : Bool :=
  let n := leAt r 32 4
  leAt r 24 8 % 64 == 0 && isPow2 n && decide (16 ≤ n) && decide (n ≤ 16777216) && decide (leAt r 36 1 ≤ 1)
    && leAt r 40 8 % 8 == 0 && leAt r 48 8 % 32 == 0

/-- OPEN (R439). STAGE is a field that the record does not set: zero, as R439 says, where R421 has 0xFFFF_FFFF for none; COMMIT_GEN counts on
(R421, log 108). -/
def State.applyOpen (s : State) (n : Nat) (r : List Byte) : Applied :=
  if ¬openFields r then ⟨3, s⟩
  else if s.licClasses ≤ leAt r 37 1 then ⟨5, s⟩
  else
    let old := s.stream n
    ⟨0, s.setStream n { streamDflt n with
      st := 1, cls := leAt r 37 1, oseq := old.oseq, job := leAt r 56 2, ring16 := leAt r 36 1 == 1
      notify := bit (leAt r 38 2) 15, seed := BitVec.ofNat 128 (leAt r 8 16), ringBase := leAt r 24 8
      ringEntries := leAt r 32 4, vector := bits (leAt r 38 2) 10 0, countAddr := leAt r 40 8
      statusAddr := leAt r 48 8, kvRoot := 0xFFFFFFFF, stop0 := 0xFFFFFFFF, stop1 := 0xFFFFFFFF, gen := old.gen }⟩

/-- Staging blocks go back to the pool. -/
def State.freeStageBlocks (s : State) (bl : List Nat) : State :=
  { s with intake := { s.intake with stageUsed := s.intake.stageUsed.filter fun b => !bl.contains b } }

/-- APPEND (R440 to R443): the record's own fields first, then the limit, then the token IDs, in the order of R443; a COUNT of 0
is OK whatever the other fields hold (DESIGN CHOICE, log 88). -/
def State.applyAppend (s : State) (n : Nat) (p : Pend) : Applied :=
  let r := p.raw
  let cnt := leAt r 8 4
  let e := s.stream n
  let media := recFlags r == 1
  if cnt = 0 then ⟨0, s⟩
  else if p.failed ∨ 1048576 < cnt ∨ (media = false ∧ leAt r 16 8 % 4 ≠ 0) then ⟨3, s.freeStageBlocks p.stage⟩
  else if 2097152 < e.seqLen + e.prompt + cnt then ⟨4, s.freeStageBlocks p.stage⟩
  else if p.toks.any fun t => decide (s.regN pgInt 0x04C ≤ t.toNat) then ⟨3, s.freeStageBlocks p.stage⟩
  else
    let l := s.segsOf n ++ [{ total := cnt, left := cnt, blocks := p.stage
                              media := if media then some (leAt r 16 8) else none }]
    let s := if media then s.tokGap n else s.tokAppend n p.toks
    ⟨0, (s.setSegs n l).setStream n { e with prompt := e.prompt + cnt, stage := stageOf l }⟩

/-- GENERATE (R444); a BUDGET of 0 is OK whatever the other fields hold (DESIGN CHOICE, log 88). -/
def State.applyGenerate (s : State) (n : Nat) (r : List Byte) : Applied :=
  let e := s.stream n
  if leAt r 8 4 = 0 then ⟨0, s⟩
  else if ¬tempOk (leAt r 12 4) ∨ 1024 < leAt r 16 2 ∨ ¬toppOk (leAt r 20 4) then ⟨3, s⟩
  else ⟨0, s.setStream n { e with
    budget := leAt r 8 4, temp := leAt r 12 4, topk := leAt r 16 2, topp := leAt r 20 4, stop0 := leAt r 24 4
    stop1 := leAt r 28 4, spec := recFlags r == 1, emittedGen := false, reqStart := s.cpTime }⟩

/-- CLOSE: the stream drains and its pages and list blocks are released; FAULT is that of FAULTED alone (R421, R423, R464). -/
def State.applyClose (s : State) (n : Nat) : Applied :=
  let s := s.freeStageBlocks ((s.segsOf n).flatMap (·.blocks))
  let s := s.kvStore { s.kv.drain n with
    draining := if s.kv.draining.contains n then s.kv.draining else s.kv.draining ++ [n] }
  let s := (s.setSegs n []).tokDrop n
  ⟨0, s.setStream n { s.stream n with st := 5, fault := 0, kvRoot := 0xFFFFFFFF, stage := 0xFFFFFFFF }⟩

/-- FORK (R446, R461); reserved list blocks become the child's list or return to the pool. -/
def State.applyFork (s : State) (n : Nat) (p : Pend) : Applied :=
  let parent := leAt p.raw 8 4
  let pre := leAt p.raw 12 4
  let e := s.stream n
  let pe := s.stream parent
  let back := { s with kv := { s.kv with resvBlocks := s.kv.resvBlocks.filter fun b => !p.blocks.contains b } }
  if e.st ≠ 1 ∨ e.seqLen ≠ 0 ∨ e.prompt ≠ 0 then ⟨2, back⟩
  else if pe.st ≠ 1 ∧ pe.st ≠ 2 ∧ pe.st ≠ 3 ∧ pe.st ≠ 4 then ⟨2, back⟩
  else if pe.seqLen < pre then ⟨3, back⟩
  else if pre = 0 then ⟨0, back⟩
  else if s.kv.forkOver parent pre then ⟨4, back⟩
  else
    let s := back.kvStore (back.kv.fork parent n pre p.blocks)
    let s := if s.slc.gaps.contains parent then s.tokGap n
      else s.setTokLog n ((sget listDflt s.slc.toklog parent).take pre)
    ⟨0, s.setStream n { e with seqLen := pre, kvRoot := s.kv.root n }⟩

/-- The report of QUERY (R445). -/
def State.queryReport (s : State) (n : Nat) : List Byte :=
  let e := s.stream n
  let l := s.kv.list n
  leBytes 4 n ++ leBytes 1 e.st ++ leBytes 1 e.cls ++ leBytes 2 e.oseq ++ leBytes 8 e.emitted ++ leBytes 4 e.seqLen
    ++ leBytes 4 e.prompt ++ leBytes 4 e.budget ++ leBytes 4 l.length
    ++ leBytes 4 (l.filter fun p => decide (1 < s.kv.ref p)).length ++ leBytes 2 e.fault ++ leBytes 2 0
    ++ leBytes 8 e.lastEmit ++ leBytes 8 e.reqStart ++ leBytes 8 s.cpTime

/-- QUERY (R445). -/
def State.applyQuery (s : State) (n : Nat) (r : List Byte) : Applied :=
  let dest := leAt r 8 8
  if dest % 64 ≠ 0 then ⟨3, s⟩
  else ⟨0, if s.hostSide then s.toHostC (.hostWrite dest (s.queryReport n)) else s⟩

/-- The operation of a record on its stream. -/
def State.applyOp (s : State) (n : Nat) (p : Pend) : Applied :=
  let e := s.stream n
  if ¬opAccepted (recOp p.raw) e.st then
    ⟨2, { s.freeStageBlocks p.stage with
          kv := { s.kv with resvBlocks := s.kv.resvBlocks.filter fun b => !p.blocks.contains b } }⟩
  else match recOp p.raw with
    | 1 => s.applyOpen n p.raw
    | 2 => s.applyAppend n p
    | 3 => s.applyGenerate n p.raw
    | 4 => ⟨0, s.setStream n { e with st := 4 }⟩
    | 5 => ⟨0, s.setStream n { e with st := 1 }⟩
    | 6 => s.applyFork n p
    | 7 => s.applyClose n
    | _ => s.applyQuery n p.raw

/-- OSEQ of an entry at a commit point: what the next record must carry (R421, R433). -/
def State.showOseq (s : State) (n : Nat) : State :=
  if s.hostSide then s.setStream n { s.stream n with oseq := s.expect n } else s

/-- Apply a pending record at a commit point: its OSEQ is consumed whatever its RESULT (R435), the outcome is reported
(R436), and a rejection is logged. On a device without intake the entry's OSEQ follows the records applied (R455). -/
def State.applyRecord (s : State) (n : Nat) (p : Pend) : State :=
  let e := s.stream n
  let s := if s.hostSide then s else s.setStream n { e with oseq := (recOseq p.raw + 1) % 65536 }
  let a := s.applyOp n p
  let s := a.s
  if a.result = 0 then
    { s with intake := { s.intake with reports := s.intake.reports ++ [⟨n, recOseq p.raw, 0, none⟩] } }
  else
    s.reject n p.raw a.result

/-- Apply a stream's pending records in OSEQ order up to the first whose prompt fetch is not complete (R419). -/
def State.applyPending (s : State) (n : Nat) : Nat → State
  | 0 => s
  | fuel + 1 =>
    match s.pendOf n with
    | [] => s
    | p :: t => if p.fetched then State.applyPending ((s.setPend n t).applyRecord n p) n fuel else s

/-- A stream takes part in a step in flight or in one that awaits its replay (R773). -/
def State.inStep (s : State) (n : Nat) : Bool :=
  s.mrd.steps.any (fun st => st.streams.contains n) || s.mrd.abandoned.any fun st => st.streams.contains n

end Sys2Proof.Machine
end

