-- ==== Sys2Proof/Machine/Almanac.lean ====
section
/-! DEFINITION. Almanac (R484 to R493): samples, sketches, windows, and the guards that follow from them (R483). -/

namespace Sys2Proof.Machine

/-- A value of a class (R481, R526). -/
def State.cls (s : State) (c off : Nat) : Nat := s.regN (pgMrd + 1 + c / 32) (0x400 + 32 * (c % 32) + off)
def State.clsTps (s : State) (c : Nat) : Nat := s.cls c 0x00 % 65536
def State.clsItl50 (s : State) (c : Nat) : Nat := s.cls c 0x04
def State.clsItl99 (s : State) (c : Nat) : Nat := s.cls c 0x08
def State.clsItl999 (s : State) (c : Nat) : Nat := s.cls c 0x0C
def State.clsFtb (s : State) (c : Nat) : Nat := s.cls c 0x10
def State.clsPw (s : State) (c : Nat) : Nat := s.cls c 0x14 % 256

/-- The bucket of a sample, walking the lower bounds lb(i + 1) = lb(i) + ⌈lb(i) / 50⌉ (R488). -/
def bucketGo : Nat → Nat → Nat → Nat → Nat
  | 0, _, _, _ => 511
  | fuel + 1, i, lb, x => if x < lb then i - 1 else bucketGo fuel (i + 1) (lb + (lb + 49) / 50) x

/-- lb(1) of a metric: 16,000 ns inter-token (0), 1,024,000 ns first-token (1) (R488). -/
def lb1 (m : Nat) : Nat := if m = 0 then 16000 else 1024000

def bucketOf (m x : Nat) : Nat := bucketGo 511 1 (lb1 m) x

/-- lb(i), for i from 1. -/
def lbGo : Nat → Nat → Nat
  | 0, lb => lb
  | n + 1, lb => lbGo n (lb + (lb + 49) / 50)

def lbAt (m i : Nat) : Nat := lbGo (i - 1) (lb1 m)

/-- The representative of a bucket (R489). -/
def repOf (m i : Nat) : Nat :=
  if i = 0 then lb1 m else if 511 ≤ i then lbAt m 511 else lbAt m i + (lbAt m (i + 1) - lbAt m i) / 2

def cntDflt (_ : Nat) : Nat := 0

/-- The key of a count: class, metric, bucket. -/
def cntKey (c m b : Nat) : Nat := c * 2048 + m * 512 + b

/-- Add to a slot count, which saturates at 0xFFFF_FFFF (R493). -/
def addCnt (m : Sparse Nat) (k n : Nat) : Sparse Nat := supd cntDflt m k fun v => satAdd 0xFFFFFFFF v n

/-- The sum of slot counts. -/
def sumCnts (l : List (Sparse Nat)) : Sparse Nat :=
  l.foldl (fun acc m => m.foldl (fun acc e => supd cntDflt acc e.1 (· + e.2)) acc) []

/-- ALM_CFG.EN in force. -/
def State.almOn (s : State) : Bool := bit (s.regN pgAlm 0x048) 31

/-- Add to a count of the open slot; saturation sets SAT (R493). -/
def State.almAdd (s : State) (k n : Nat) : State :=
  let full := decide (0xFFFFFFFF < sget cntDflt s.alm.cur k + n)
  let s : State := { s with alm := { s.alm with cur := addCnt s.alm.cur k n } }
  if full then s.flag pgAlm 0 else s

/-- Record n samples of a value (R485, R486). -/
def State.sample (s : State) (c m x n : Nat) : State :=
  let s := s.almAdd (cntKey c m (bucketOf m x)) n
  s.setReg pgAlm 0x05C (s.regN pgAlm 0x05C + n)

/-- The samples, tokens and misses of one stream at a commit point, from its entry before the writes (R484 to R487). -/
def State.almStream (s : State) (e : Stream) (n now : Nat) : State :=
  if ¬s.almOn ∨ n = 0 ∨ ¬s.hostSide then s
  else
    let s := s.almAdd (e.cls * 2048 + 1024) n
    if e.emittedGen then
      let x := (now - e.lastEmit) / n
      let s := s.sample e.cls 0 x n
      if s.clsItl99 e.cls ≠ 0 ∧ s.clsItl99 e.cls * 1000 < x then s.almAdd (e.cls * 2048 + 1025) n else s
    else
      let x := now - e.reqStart
      let s := s.sample e.cls 1 x 1
      if s.clsFtb e.cls ≠ 0 ∧ s.clsFtb e.cls * 1000 < x then s.almAdd (e.cls * 2048 + 1026) 1 else s

/-- The samples of a stream at a commit point; the lead of a slice records them once every member has returned DONE (R484, R613, step 4). -/
def State.almPoint (s : State) (e : Stream) (n : Nat) : State :=
  if n = 0 ∨ ¬s.hostSide then s
  else if s.inSlice then
    { s with intake := { s.intake with samples := s.intake.samples ++ [(s.intake.round, e, n, s.cpTime)] } }
  else s.almStream e n s.cpTime

/-- Almanac records the samples that waited for a round (R613, step 4). -/
def State.almRound (s : State) (round : Nat) : State :=
  let l := s.intake.samples.filter fun x => x.1 == round
  let s : State := { s with intake := { s.intake with samples := s.intake.samples.filter fun x => x.1 != round } }
  l.foldl (fun s x => s.almStream x.2.1 x.2.2.1 x.2.2.2) s

/-- The counts of one class and metric, bucket 0 to 511. -/
def countsOf (m : Sparse Nat) (c k : Nat) : List Nat := (List.range 512).map fun b => sget cntDflt m (cntKey c k b)

/-- The lowest bucket whose cumulative count reaches a rank. -/
def rankGo : List Nat → Nat → Nat → Nat → Nat
  | [], i, _, _ => i - 1
  | n :: t, i, acc, r => if r ≤ acc + n then i else rankGo t (i + 1) (acc + n) r

/-- The p-quantile, p in thousandths; 0 for an empty sketch (R489, R492). -/
def quantile (m : Nat) (l : List Nat) (p : Nat) : Nat :=
  let n := sumNat l
  if n = 0 then 0 else repOf m (rankGo l 0 0 ((p * n + 999) / 1000))

/-- The 60 s window: the last 60 completed seconds (R490). -/
def Almanac.win60 (a : Almanac) : Sparse Nat := sumCnts a.secs
def Almanac.win1 (a : Almanac) : Sparse Nat := sumCnts a.slots
def Almanac.win3600 (a : Almanac) : Sparse Nat := sumCnts a.mins

def guardDflt (_ : Nat) : Nat := 256
def State.guard (s : State) (c : Nat) : Nat := sget guardDflt s.mrd.guards c

/-- The usable terms of R483: measured value and bound in nanoseconds. -/
def State.guardTerms (s : State) (w : Sparse Nat) (c : Nat) : List (Nat × Nat) :=
  let itl := countsOf w c 0
  let ftl := countsOf w c 1
  let t1 := if 1000 ≤ sumNat itl then
      [(quantile 0 itl 500, s.clsItl50 c), (quantile 0 itl 990, s.clsItl99 c), (quantile 0 itl 999, s.clsItl999 c)]
    else []
  let t2 := if 100 ≤ sumNat ftl then [(quantile 1 ftl 990, s.clsFtb c)] else []
  ((t1 ++ t2).filter fun t => t.2 != 0).map fun t => (t.1, t.2 * 1000)

/-- The guard's move at a slot end (R483). -/
def guardMove (g : Nat) (l : List (Nat × Nat)) : Nat :=
  if l.isEmpty then g
  else if l.any fun t => decide (t.2 < t.1) then max 128 (g - 16)
  else if l.all fun t => decide (10 * t.1 < 9 * t.2) then min 256 (g + 8)
  else g

def State.guardUpdate (s : State) : State :=
  let w := s.alm.win60
  let cs := (List.range 64).filter fun c => w.any fun e => e.1 / 2048 == c
  { s with mrd := { s.mrd with
      guards := cs.foldl (fun g c => supd guardDflt g c fun x => guardMove x (s.guardTerms w c)) s.mrd.guards } }

/-- The windows after a slot closes; a second and a minute close with it at their multiples (R490). -/
def Almanac.close (a : Almanac) (now : Nat) : Almanac :=
  let slots := lastN 10 (a.slots ++ [a.cur])
  let inSec := a.inSec + 1
  let a := { a with cur := [], slots, inSec, gen := a.gen + 2, lastEnd := now, closed := a.closed + 1 }
  if now % 1000000000 ≠ 0 then a
  else
    let secs := lastN 60 (a.secs ++ [sumCnts (lastN a.inSec a.slots)])
    let a := { a with secs, inSec := 0, inMin := a.inMin + 1 }
    if now % 60000000000 ≠ 0 then a
    else { a with mins := lastN 60 (a.mins ++ [sumCnts (lastN a.inMin a.secs)]), inMin := 0 }

/-- Every window is cleared. -/
def Almanac.clear (a : Almanac) : Almanac := { a with cur := [], slots := [], secs := [], mins := [], inSec := 0, inMin := 0 }

/-- A committed ALM_CFG takes effect at a slot end; a change clears every window (R528). -/
def State.almApply (s : State) : State :=
  if ¬(s.page pgAlm).pending then s
  else
    let changed := s.stg pgAlm 0x048 != s.reg pgAlm 0x048
    let s := s.applyPage pgAlm
    if changed then { s with alm := s.alm.clear } else s

/-- ALMANAC_SLOT_CLOSE: at each multiple of 100,000,000 of the chronometer (R490), then the guards (R483). -/
def execAlmanacSlotClose (s : State) : Res :=
  if s.dev.chrono % 100000000 ≠ 0 ∨ ¬s.live ∨ (s.alm.lastEnd = s.dev.chrono ∧ s.alm.closed ≠ 0) then .next s
  else
    let s := if s.almOn then { s with alm := s.alm.close s.dev.chrono } else s
    let s := s.setReg64 pgAlm 0x060 s.alm.gen
    let s := if s.almOn then s.guardUpdate else s
    .next s.almApply

end Sys2Proof.Machine
end

