-- ==== Sys2Proof/Machine/Orders.lean ====
section
/-! DEFINITION. Orders at a page (R682 to R691): ownership, the lock, what PG_LAST_ORDER records. -/

namespace Sys2Proof.Machine

/-- A source may write a page: it is unowned, or the source owns it (R687). -/
def State.ownsOk (s : State) (src : Source) (p : Nat) : Bool :=
  match (s.page p).own with
  | none => true
  | some o => o == src

/-- Record an order in PG_LAST_ORDER (R690). -/
def State.noteOrder (s : State) (src : Source) (p res : Nat) : State :=
  s.updPage p fun g => { g with
    last := w32 (srcCode src * 2 ^ 29 + res * 2 ^ 25 + srcDev src * 2 ^ 17 + (g.last.toNat % 2 ^ 17 + 1) % 2 ^ 17) }

/-- An order's record, with ORDER_REFUSED for NOT_OWNER and SUPERSEDED (R690, R691). -/
def State.order (s : State) (src : Source) (p off res : Nat) : State :=
  let s := s.noteOrder src p res
  if res = 3 ∨ res = 4 then s.log p 0x1504 (srcDev src * 256 + srcCode src) off res 0 else s

/-- What the order point answers to a write: 0 accepted, 4 NOT_OWNER, 5 LOCKED (R675, R687). -/
def State.writeRes (s : State) (src : Source) (p : Nat) : Nat :=
  if s.lock && src != .keeper then 5 else if s.ownsOk src p then 0 else 4

/-- A write that takes effect at once, where the order point accepts it (R675, R687). -/
def State.gated (s : State) (src : Source) (p off : Nat) (f : State → State) : State :=
  let r := s.writeRes src p
  if r = 0 then (f s).order src p off 0 else s.order src p off r

/-- The response body of R669. -/
def bmcBody (cmd status page off value : Nat) : List Byte :=
  leBytes 1 (cmd + 0x80) ++ leBytes 1 status ++ leBytes 2 page ++ leBytes 2 off ++ leBytes 2 0 ++ leBytes 4 value

/-- The response to a BMC's order that a row of its own stands for (R669). -/
def State.goReply (s : State) (src : Source) (p off res : Nat) : State :=
  if src = .bmc ∧ s.dev.keeper then s.emit (.bmcResp (bmcBody 2 0 p off res)) else s

/-- A write that starts an operation. `pend` says that an earlier order has set the bit, which reads 1 until the operation is done: its
order was processed, and answered, then (R12, R625, R669, log 101). -/
def State.goWrite (s : State) (src : Source) (p off : Nat) (pend : Bool) (f : State → State) : State :=
  if pend then f s else (s.gated src p off f).goReply src p off (s.writeRes src p)

end Sys2Proof.Machine
end

