-- ==== Sys2Proof/Machine/Ecc.lean ====
section
/-! DEFINITION. The word code of the tile stores (R341 to R343, R162, R172): check bits with the row folded in, decode,
and the stored words of the three stores. -/

namespace Sys2Proof.Machine

/-- The weight-3 columns of data bits 0 to 55, ascending (R341). -/
def cols3 : List Nat := ((List.range 256).filter fun v => popCount 8 v == 3).take 56

/-- `col_data` (R341). -/
def colData (i : Nat) : Nat :=
  if i < 56 then nth 0 cols3 i else nth 0 [0x1F, 0x2F, 0x37, 0x3B, 0x3D, 0x3E, 0x4F, 0x57] (i - 56)

/-- `col_addr` (R341). -/
def colAddr (j : Nat) : Nat :=
  nth 0 [0x7B, 0x7D, 0x7E, 0xBB, 0xBD, 0xBE, 0xD7, 0xDB, 0xDD, 0xDE, 0xE7, 0xEB, 0xED, 0xEE] j

/-- The exclusive or of the columns of the set bits. -/
def xorCols (f : Nat → Nat) (n v : Nat) : Nat := (setBits n v).foldl (fun c i => c ^^^ f i) 0

/-- `check` (R341). -/
def wordCheck (d row : Nat) : Nat := xorCols colData 64 d ^^^ xorCols colAddr 14 row

/-- A word as it is stored: good, or in the poison form (R342). -/
def wordForm (d row : Nat) (poison : Bool) : RowWord :=
  { data := BitVec.ofNat 64 d
    chk := BitVec.ofNat 8 (if poison then wordCheck (d % 2 ^ 64) row ^^^ 0xFF else wordCheck (d % 2 ^ 64) row) }

/-- What a read of a word finds (R343). -/
inductive WordRead where
  | ok (d : Nat)
  | corrected (d : Nat)
  | poisoned (d : Nat)
  | bad (syn d : Nat)
  deriving DecidableEq, Repr

/-- Decode a stored word against the row expected (R343). -/
def wordDecode (w : RowWord) (row : Nat) : WordRead :=
  let d := w.data.toNat
  let s := w.chk.toNat ^^^ wordCheck d row
  if s = 0 then .ok d
  else if popCount 8 s = 1 then .corrected d
  else match (List.range 64).find? fun i => colData i == s with
    | some i => .corrected (d ^^^ 2 ^ i)
    | none => if s = 0xFF then .poisoned d else .bad s d

def WordRead.val : WordRead → Nat
  | .ok d | .corrected d | .poisoned d | .bad _ d => d

/-- The word reads as poison. -/
def WordRead.poison : WordRead → Bool
  | .ok _ | .corrected _ => false
  | .poisoned _ | .bad _ _ => true

/-! ### Stores: word i of row r of a site is nine bytes at ((site · rows + r) · 16 + i) · 9 -/

/-- Rows of a B tile, of an operand store, of an S store (R159, R172, R309). -/
def bufRows : Nat := 16384
def opsRows : Nat := 1536
def sstRows : Nat := 2048

def wordKey (rows site row w : Nat) : Nat := ((site * rows + row) * 16 + w) * 9

/-- What an unlisted byte of a store reads as: a zero word with the check bits of its row (R351, log 2). -/
def storeDflt (rows k : Nat) : Byte :=
  if k % 9 < 8 then 0 else BitVec.ofNat 8 (wordCheck 0 (k / 144 % rows))

def bufDflt : Nat → Byte := storeDflt bufRows
def opsDflt : Nat → Byte := storeDflt opsRows
def sstDflt : Nat → Byte := storeDflt sstRows

/-- A stored word. -/
def getWord (d : Nat → Byte) (m : Sparse Byte) (k : Nat) : RowWord :=
  let l := sgetMany d m k 9
  { data := BitVec.ofNat 64 (leAt l 0 8), chk := nth 0 l 8 }

/-- Store a word. -/
def putWord (d : Nat → Byte) (m : Sparse Byte) (k : Nat) (w : RowWord) : Sparse Byte :=
  ssetMany d m k (leBytes 8 w.data.toNat ++ [w.chk])

/-- The 16 words of a row. -/
def getRow (d : Nat → Byte) (rows : Nat) (m : Sparse Byte) (site row : Nat) : List RowWord :=
  (List.range 16).map fun w => getWord d m (wordKey rows site row w)

/-- Store the words of a row that a mask selects. -/
def putRow (d : Nat → Byte) (rows : Nat) (m : Sparse Byte) (site row mask : Nat) (ws : List RowWord) : Sparse Byte :=
  (List.range 16).foldl
    (fun m w => if bit mask w then putWord d m (wordKey rows site row w) (nth (wordForm 0 row false) ws w) else m) m

/-- Stored bits disturbed where a read meets them. -/
def disturb (d : Nat → Byte) (m : Sparse Byte) (fl : List Flip) : Sparse Byte :=
  fl.foldl (fun m f => supd d m f.addr (· ^^^ f.bits)) m

/-- A row of 128 bytes as good words of that row. -/
def rowForm (row : Nat) (bs : List Byte) (poison : Bool) : List RowWord :=
  (List.range 16).map fun w => wordForm (leAt bs (8 * w) 8) row poison

/-- The bytes of decoded words. -/
def wordsBytes (l : List WordRead) : List Byte := l.flatMap fun w => leBytes 8 w.val

end Sys2Proof.Machine
end

