-- ==== Sys2Proof/Machine/Numfmt.lean ====
section
/-! DEFINITION. Number formats and tallies (chapter 2): element values, scales, contributions, conversions, residues. -/

namespace Sys2Proof.Machine

/-! ### Elements (R65, R71 to R80) -/

/-- Bits of an element by format code (R65). -/
def fmtBits (f : Nat) : Nat :=
  match f with
  | 0 | 1 | 2 => 8
  | 3 | 4 => 6
  | 5 => 4
  | 6 | 7 => 16
  | 8 => 32
  | _ => 128

/-- The format has block scales: INT8 and the MX formats. -/
def fmtScaled (f : Nat) : Bool := decide (f ≤ 5)

/-- Elements of a block by format (R65). -/
def fmtBlock (f : Nat) : Nat := if f ≤ 5 then 32 else 16

/-- Mantissa bits, exponent bits and bias of a floating element format (R71). -/
def fmtShape (f : Nat) : Nat × Nat × Nat :=
  match f with
  | 1 => (3, 4, 7)
  | 2 => (2, 5, 15)
  | 3 => (2, 3, 3)
  | 4 => (3, 2, 1)
  | 5 => (1, 2, 1)
  | 6 => (7, 8, 127)
  | 7 => (10, 5, 15)
  | _ => (23, 8, 127)

/-- Base-2 logarithm of the LSB weight of a format (R71). -/
def fmtLsb (f : Nat) : Int :=
  if f = 0 then 0 else let (m, _, b) := fmtShape f; 1 - (b : Int) - (m : Int)

/-- The integer that a finite element stands for, in units of its LSB weight (R71, R72). -/
def elemInt (f code : Nat) : Int :=
  if f = 0 then signed 8 code
  else
    let (m, e, _) := fmtShape f
    let ex := bits code (m + e - 1) m
    let man := code % 2 ^ m
    let mag : Nat := if ex = 0 then man else (2 ^ m + man) * 2 ^ (ex - 1)
    if bit code (m + e) then -(mag : Int) else mag

/-- A code is non-finite in its format, scales apart (R73). -/
def elemNonfinite (f code : Nat) : Bool :=
  match f with
  | 1 => code % 128 == 0x7F
  | 2 => decide (0x7C ≤ code % 128)
  | 6 => bits code 14 7 == 0xFF
  | 7 => bits code 14 10 == 0x1F
  | 8 => bits code 30 23 == 0xFF
  | _ => false

/-- What a unit finds in an element: a number, a non-finite input or poison (R73, R80, R107). -/
inductive Elem where
  | num (i : Int)
  | nonfinite
  | poison
  deriving DecidableEq, Repr

/-- The integer for every purpose but TSTAT: zero where an element is non-finite or poisoned (R99). -/
def Elem.int : Elem → Int
  | .num i => i
  | _ => 0

/-- An element of a scaled format under its block scale (R73, R80). -/
def elemScaled (f code scale : Nat) : Elem :=
  if scale = 0xFF then (if code = 0 then .poison else .nonfinite)
  else if elemNonfinite f code then .nonfinite
  else .num (elemInt f code)

/-- An element of a format without scale (R73, R107). -/
def elemPlain (f code : Nat) : Elem :=
  if (f = 6 ∧ code = 0x7F81) ∨ (f = 7 ∧ code = 0x7C01) ∨ (f = 8 ∧ code = 0x7F800001) then .poison
  else if elemNonfinite f code then .nonfinite
  else .num (elemInt f code)

/-- An element of any format of an M-tile operand. -/
def elemOf (f code scale : Nat) : Elem := if fmtScaled f then elemScaled f code scale else elemPlain f code

/-- Element i of packed bytes (R79). -/
def elemCode (f : Nat) (bs : List Byte) (i : Nat) : Nat :=
  match f with
  | 3 | 4 => bits (leAt bs (3 * (i / 4)) 3) (6 * (i % 4) + 5) (6 * (i % 4))
  | 5 => bits (leAt bs (i / 2) 1) (4 * (i % 2) + 3) (4 * (i % 2))
  | _ => leAt bs (i * (fmtBits f / 8)) (fmtBits f / 8)

/-- Pack element codes into bytes (R79). -/
def packCodes (f : Nat) (l : List Nat) : List Byte :=
  match f with
  | 3 | 4 => (chunks 4 l.length l).flatMap fun g =>
      leBytes 3 (nth 0 g 0 + nth 0 g 1 * 2 ^ 6 + nth 0 g 2 * 2 ^ 12 + nth 0 g 3 * 2 ^ 18)
  | 5 => (chunks 2 l.length l).flatMap fun g => leBytes 1 (nth 0 g 0 + nth 0 g 1 * 16)
  | _ => l.flatMap fun c => leBytes (fmtBits f / 8) c

/-! ### Contributions (R83, R89 to R93) -/

/-- Shift right by k ≥ 1 with rounding to nearest, ties to even (`rne_shr`; exact for every integer). -/
def rneShr (s : Int) (k : Nat) : Int :=
  let p : Int := 2 ^ k
  let q := s / p
  let r := s % p
  if p < 2 * r ∨ (p = 2 * r ∧ q % 2 = 1) then q + 1 else q

/-- `contribute`: the exact sum s at exponent e into a tally with anchor a; none where it breaks R83. -/
def contribute (s e a : Int) : Option Int :=
  let k := e - a
  let c : Int := if 0 ≤ k then s * 2 ^ (min k.toNat 300) else rneShr s (-k).toNat
  if s = 0 then some 0
  else if 2 ^ 104 ≤ c ∨ c ≤ -(2 ^ 104 : Int) then none
  else some c

/-- Round to a coarser unit: the value s · 2^e in units of 2^u. -/
def roundTo (s e u : Int) : Int :=
  let k := e - u
  if 0 ≤ k then s * 2 ^ k.toNat else rneShr s (-k).toNat

/-- The value fits a significand of 64 bits exactly (R137, R139). -/
def exact64 (s : Int) : Bool :=
  let m := s.natAbs
  m == 0 || decide (m.log2 < 64) || m % 2 ^ (m.log2 - 63) == 0

/-! ### Tallies (R81 to R88) -/

/-- The signed value of a stored tally. -/
def tallyInt (t : Nat) : Int := signed 128 t

/-- The 128 bits of a tally value. -/
def tallyBits (i : Int) : Nat := wrapN 128 i

/-- The stored form of a tally with its TSTAT (R87). -/
def tallyStore (v : Nat) (ts : Nat) : Nat := if bit ts 0 then 2 ^ 127 + ts % 8 else v % 2 ^ 128

/-- A stored tally as a reader takes it: value and TSTAT (R88). -/
def tallyLoad (t : Nat) : Nat × Nat :=
  if bit t 127 == bit t 126 then (t, 0) else (t, putBits (t % 8) 0 0 1)

/-- The modulus of a residue (R145). -/
def resMod : Nat := 2 ^ 61 - 1

/-- The residue of a tally value modulo 2^61 − 1, of its two's-complement integer (R145). -/
def residueOf (i : Int) : Nat := (i % (resMod : Int)).toNat

/-! ### Conversion (R101 to R108) -/

/-- Parameters of a target format: p, emin, emax, maxsig, bias, whether it has an infinity (R101). -/
structure FmtP where
  p : Nat
  emin : Int
  emax : Int
  maxsig : Nat
  bias : Int
  inf : Bool
  deriving DecidableEq, Repr

def fmtP (f : Nat) : FmtP :=
  match f with
  | 1 => ⟨4, -6, 8, 14, 7, false⟩
  | 2 => ⟨3, -14, 15, 7, 15, false⟩
  | 3 => ⟨3, -2, 4, 7, 3, false⟩
  | 4 => ⟨4, 0, 2, 15, 1, false⟩
  | 5 => ⟨2, 0, 2, 3, 1, false⟩
  | 6 => ⟨8, -126, 127, 255, 127, true⟩
  | 7 => ⟨11, -14, 15, 2047, 15, true⟩
  | _ => ⟨24, -126, 127, 16777215, 127, true⟩

/-- `enc`: sign, exponent field and mantissa of a target. -/
def encF (sign : Bool) (field : Int) (man f : Nat) : Nat :=
  let (m, e, _) := fmtShape f
  b2n sign * 2 ^ (m + e) + field.toNat * 2 ^ m + man

/-- A conversion's result: the code, whether it overflowed to infinity (CONV_OVF), whether it saturated. -/
structure Conv where
  code : Nat
  ovf : Bool
  sat : Bool
  deriving DecidableEq, Repr

/-- `tally_to_float`: the value t · 2^a rounded once to a format (R101 to R104). -/
def toFloat (t a : Int) (f : Nat) : Conv :=
  let q := fmtP f
  let sign := decide (t < 0)
  let m := t.natAbs
  if m = 0 then ⟨0, false, false⟩
  else
    let e := max ((m.log2 : Int) + a) q.emin
    let k := e - ((q.p : Int) - 1) - a
    let r : Nat := (if 0 < k then rneShr m k.toNat else (m : Int) * 2 ^ (-k).toNat).toNat
    if r = 0 then ⟨0, false, false⟩
    else
      let (r, e) : Nat × Int := if r = 2 ^ q.p then (r / 2, e + 1) else (r, e)
      let lo := 2 ^ (q.p - 1)
      if q.emax < e ∨ (e = q.emax ∧ q.maxsig < r) then
        if q.inf then ⟨encF sign (q.emax + q.bias + 1) 0 f, true, false⟩
        else ⟨encF sign (q.emax + q.bias) (q.maxsig % lo) f, false, true⟩
      else ⟨encF sign (if lo ≤ r then e + q.bias else 0) (r % lo) f, false, false⟩

/-- Conversion of a tally to INT8 under block scale X (R106). -/
def toInt8 (t a : Int) (x : Nat) : Conv :=
  let sh := (x : Int) - 127 - a
  let q := if 0 < sh then rneShr t sh.toNat else t * 2 ^ (-sh).toNat
  let c := max (-127) (min 127 q)
  ⟨wrapN 8 c, false, decide (c ≠ q)⟩

/-- Conversion to a scaled element format under block scale X (R105, R106). -/
def toElem (t a : Int) (f x : Nat) : Conv :=
  if f = 0 then toInt8 t a x else toFloat t (a - ((x : Int) - 127)) f

/-- The poisoned encoding of an unscaled target (R107). -/
def poisonCode (f : Nat) : Nat :=
  match f with
  | 6 => 0x7F81
  | 7 => 0x7C01
  | _ => 0x7F800001

/-- The canonical NaN of an unscaled target (R97, R108). -/
def nanCode (f : Nat) : Nat :=
  match f with
  | 6 => 0x7FC0
  | 7 => 0x7E00
  | _ => 0x7FC00000

end Sys2Proof.Machine
end

