-- ==== Sys2Proof/Machine/Escape.lean ====
section
/-! DEFINITION. The escape order of the mesh (R250, R251): sets of routers as bits of the 48 by 60 grid, the up*/down* order over a
spanning tree of the live routers, least-cost legal paths. Which tree the Keeper takes is not stated (log 24). -/

namespace Sys2Proof.Machine

/-! ### Sets of routers: bit 48 · row + column -/

def gridAll : Nat := 2 ^ 2880 - 1
def gridCol (x : Nat) : Nat := gridAll / (2 ^ 48 - 1) * 2 ^ x
def gridRow (y : Nat) : Nat := (2 ^ 48 - 1) * 2 ^ (48 * y)

/-- The members of a set that are not in another. -/
def setLess (a b : Nat) : Nat := a ^^^ (a &&& b)

def setUnion (l : List Nat) : Nat := l.foldl (· ||| ·) 0

/-- The routers that a set reaches through a port: 1 N, 2 E, 3 S, 4 W. -/
def gridMove (p s : Nat) : Nat :=
  match p with
  | 1 => s >>> 48
  | 2 => setLess s (gridCol 47) <<< 1
  | 3 => (s <<< 48) &&& gridAll
  | _ => setLess s (gridCol 0) >>> 1

/-- The port that faces back. -/
def opposite (port : Nat) : Nat := if port = 1 then 3 else if port = 2 then 4 else if port = 3 then 1 else if port = 4 then 2 else 7

/-- The routers whose neighbour through a port is in a set. -/
def gridPull (p s : Nat) : Nat := gridMove (opposite p) s

/-- The ports of the mesh. -/
def meshPorts : List Nat := [1, 2, 3, 4]

/-- A list by mesh port. -/
def atPort (l : List Nat) (p : Nat) : Nat := nth 0 l (p - 1)

/-- Out-links that leave a comb, and those that cross a seam (R16, R17). -/
def combEdge (p : Nat) : Nat :=
  match p with
  | 1 => setUnion ([10, 20, 30, 40, 50].map gridRow)
  | 2 => setUnion ([11, 23, 35].map gridCol)
  | 3 => setUnion ([9, 19, 29, 39, 49].map gridRow)
  | _ => setUnion ([12, 24, 36].map gridCol)

def seamEdge (p : Nat) : Nat :=
  match p with
  | 1 => setUnion ([20, 40].map gridRow)
  | 2 => gridCol 23
  | 3 => setUnion ([19, 39].map gridRow)
  | _ => gridCol 24

/-! ### The live mesh and its tree -/

/-- The live mesh: its routers, those of PARKED combs, the out-links in service by port. -/
structure Net where
  live : Nat
  slow : Nat
  links : List Nat
  deriving DecidableEq, Repr

/-- A mesh from its live routers, those of PARKED combs, and the links out of service: router bits and ports, both directions. -/
def Net.of (live slow : Nat) (dead : List (Nat × Nat)) : Net :=
  { live, slow, links := meshPorts.map fun p =>
      setLess (live &&& gridPull p live)
        (setUnion (dead.map fun d => if d.2 = p then 2 ^ d.1 else if d.2 = opposite p then gridMove (opposite p) (2 ^ d.1) else 0)) }

/-- The routers whose out-link through a port leads into a set. -/
def Net.back (w : Net) (p s : Nat) : Nat := atPort w.links p &&& gridPull p s

/-- The spanning tree: routers reached, and by port those whose out-link leads a level up. -/
structure EscTree where
  seen : Nat
  up : List Nat
  deriving DecidableEq, Repr

/-- Levels of the tree from a front. -/
def Net.grow (w : Net) : Nat → Nat → EscTree → EscTree
  | 0, _, t => t
  | fuel + 1, front, t =>
    let hit := meshPorts.map fun p => setLess (w.back p front) t.seen
    let new := setUnion hit
    if new = 0 then t
    else Net.grow w fuel new { seen := t.seen ||| new, up := meshPorts.map fun p => atPort t.up p ||| atPort hit p }

/-- The lowest router of a set. -/
def lowBit (s : Nat) : Nat := (s ^^^ (s &&& (s - 1))).log2

/-- A tree for every part of the mesh; the first begins at a root. -/
def Net.trees (w : Net) : Nat → Nat → EscTree → EscTree
  | 0, _, t => t
  | fuel + 1, root, t =>
    let t := w.grow 2880 (2 ^ root) { t with seen := t.seen ||| 2 ^ root }
    let left := setLess w.live t.seen
    if left = 0 then t else Net.trees w fuel (lowBit left) t

/-- The tree that the Keeper takes: breadth first, from a root that is not stated. -/
def Net.tree (w : Net) (root : Nat) : EscTree :=
  if w.live = 0 then { seen := 0, up := [0, 0, 0, 0] }
  else w.trees 2880 (if bit w.live (root % 2880) then root % 2880 else lowBit w.live) { seen := 0, up := [0, 0, 0, 0] }

/-! ### Least-cost legal paths (R250) -/

/-- The out-links of a port by cost: a seam crossing and a hop through a PARKED comb cost 4, a full-width crossing 2, any other hop 1
(log 24). -/
def Net.costs (w : Net) (p : Nat) : List (Nat × Nat) :=
  let four := seamEdge p ||| gridPull p w.slow
  let two := setLess (combEdge p) four
  [(1, setLess (setLess gridAll four) two), (2, two), (4, four)]

/-- The ports of escape routes to one destination, as sets by mesh port: while DN is 0, and once it is 1. -/
structure EscTab where
  up : List Nat
  dn : List Nat
  deriving DecidableEq, Repr

/-- A front of the search: the routers first reached at the last four costs, nearest first, those reached in all, the port table. -/
structure EscFront where
  last : List Nat
  seen : Nat
  tab : List Nat
  deriving DecidableEq, Repr

/-- The next cost: routers not reached before, by the lowest port that reaches them. -/
def EscFront.next (f : EscFront) (cand : Nat → Nat) : EscFront :=
  let hit := meshPorts.foldl (fun (acc : List Nat × Nat) p =>
    let n := setLess (setLess (cand p) f.seen) acc.2
    (acc.1 ++ [n], acc.2 ||| n)) ([], 0)
  { last := (hit.2 :: f.last).take 4, seen := f.seen ||| hit.2
    tab := meshPorts.map fun p => atPort f.tab p ||| atPort hit.1 p }

/-- The routers that reach a front over the allowed links of a port at the next cost. -/
def Net.reach (w : Net) (f : EscFront) (p allowed : Nat) : Nat :=
  setUnion ((w.costs p).map fun c => allowed &&& c.2 &&& w.back p (nth 0 f.last (c.1 - 1)))

/-- Costs in turn: down links only, and up links before them. -/
def Net.search (w : Net) (t : EscTree) : Nat → EscFront → EscFront → EscTab
  | 0, a, d => { up := a.tab, dn := d.tab }
  | fuel + 1, a, d =>
    if a.last.all (· == 0) && d.last.all (· == 0) then { up := a.tab, dn := d.tab }
    else
      let down := fun p => w.reach d p (setLess gridAll (atPort t.up p))
      Net.search w t fuel (a.next fun p => down p ||| w.reach a p (atPort t.up p)) (d.next down)

/-- The escape ports of every router for a destination. -/
def Net.escTab (w : Net) (t : EscTree) (dest : Nat) : EscTab :=
  let f : EscFront := { last := [2 ^ dest, 0, 0, 0], seen := 2 ^ dest, tab := [0, 0, 0, 0] }
  w.search t 12000 f f

/-- The port that a table names for a router; 7 where it names none. -/
def portIn (l : List Nat) (g : Nat) : Nat := (meshPorts.find? fun p => bit (atPort l p) g).getD 7

end Sys2Proof.Machine
end

