-- ==== Sys2Proof/Machine/Commit.lean ====
section
/-! DEFINITION. The commit point (R418, R419): results, pending records, stream states, host-visible writes. -/

namespace Sys2Proof.Machine

/-- Staged prompt positions are prefilled: their staging blocks return to the pool (R441). -/
def Seg.use (g : Seg) (n : Nat) : Seg × List Nat :=
  let left := g.left - n
  let done := if left = 0 then g.blocks.length else (g.total - left) / 1024 - (g.total - g.left) / 1024
  ({ g with left := left, blocks := g.blocks.drop done }, g.blocks.take done)

/-- Use up n positions of a prompt, oldest APPEND first: what remains and the blocks freed. -/
def useSegs : List Seg → Nat → List Seg × List Nat
  | [], _ => ([], [])
  | g :: t, n =>
    if n = 0 then (g :: t, [])
    else if n < g.left then
      let (g', bl) := g.use n
      (g' :: t, bl)
    else
      let (rest, bl) := useSegs t (n - g.left)
      (rest, g.blocks ++ bl)

/-- What a stream's commit produces before it is written: the entry, ring entries (index, bytes), tokens committed. -/
structure Emit where
  e : Stream
  ring : List (Nat × List Byte)
  n : Nat
  deriving DecidableEq, Repr

/-- END of a ring entry (R449, R453): 1 budget exhausted, 2 stop token, 3 sequence limit, 0 otherwise. -/
def endOf (e : Stream) (r : ResRec) : Nat :=
  if e.budget = 1 then 1
  else if (r.token = e.stop0 ∨ r.token = e.stop1) ∧ r.token ≠ 0xFFFFFFFF then 2
  else if r.pos = 2097151 then 3
  else 0

/-- A ring entry's bytes (R449). -/
def ringEntry (e : Stream) (r : ResRec) (end_ : Nat) : List Byte :=
  let lo := leBytes 8 (end_ * 2 ^ 61 + r.pos * 2 ^ 32 + r.token % 2 ^ 32)
  if e.ring16 then lo ++ leBytes 4 r.lp.toNat ++ leBytes 4 0 else lo

/-- Commit one token of a stream (R453). -/
def Emit.token (m : Emit) (now : Nat) (r : ResRec) : Emit :=
  let e := m.e
  let k := endOf e r
  { e := { e with emitted := e.emitted + 1, seqLen := e.seqLen + 1, emittedGen := true, lastEmit := now
                  budget := if k = 2 ∨ k = 3 then 0 else e.budget - 1 }
    ring := m.ring ++ [(e.emitted, ringEntry e r k)], n := m.n + 1 }

/-- Commit a stream's tokens in position order until the budget is spent (R453). -/
def Emit.tokens (now : Nat) (rs : List ResRec) : Nat → Emit → Emit
  | 0, m => m
  | fuel + 1, m =>
    if m.e.budget = 0 then m
    else match rs.find? fun r => r.pos == m.e.seqLen with
      | none => m
      | some r => Emit.tokens now rs fuel (m.token now r)

/-- A stream's share of a step's results: its prefilled chunk, then its tokens. -/
def StepRec.resultsFor (st : StepRec) (rs : List ResRec) (now n : Nat) (e : Stream) : Emit :=
  let ch := sumNat ((st.prefill.filter fun p => p.1 == n).map (·.2))
  let mine := rs.filter fun r => r.stream == n
  Emit.tokens now mine mine.length
    { e := { e with seqLen := e.seqLen + ch, prompt := e.prompt - ch }, ring := [], n := 0 }

/-- The status block (R447). -/
def statusBlock (e : Stream) (rep : Nat × Nat) (now : Nat) : List Byte :=
  leBytes 2 rep.1 ++ leBytes 1 rep.2 ++ leBytes 1 e.st ++ leBytes 4 e.seqLen ++ leBytes 8 e.emitted
    ++ leBytes 4 e.budget ++ leBytes 2 e.fault ++ leBytes 2 0 ++ leBytes 8 now

def repDflt (_ : Nat) : Nat × Nat := (0, 0)

/-- Address of a ring entry (R449). -/
def ringAddr (e : Stream) (n : Nat) : Nat :=
  e.ringBase + (if e.ringEntries = 0 then 0 else n % e.ringEntries) * (if e.ring16 then 16 else 8)

/-- The host-visible writes of one stream in the order of R450, given its entry before the commit point. A failed OPEN's
block goes to that record's own address, and without one the outcome appears in no block (R437). The committed count is written whenever
the stream is handled, while it is open or as it closes (log 109). -/
def State.streamWrites (s : State) (n : Nat) (old : Stream) (ring : List (Nat × List Byte)) : State :=
  let e := s.stream n
  let mine := s.intake.reports.filter fun r => r.stream == n
  let reps := mine.filter fun r => r.dest.isNone
  let rep := match (mine.filter fun r => r.dest != some 0).getLast? with
    | some r => (r.oseq, r.result)
    | none => sget repDflt s.intake.lastRep n
  let s : State := { s with intake := { s.intake with
    lastRep := sset repDflt s.intake.lastRep n rep
    reports := s.intake.reports.filter fun r => r.stream != n } }
  if ¬s.hostSide then s
  else
    let changed := e.st != old.st || e.seqLen != old.seqLen || e.emitted != old.emitted || e.budget != old.budget
      || e.fault != old.fault
    let faulted := e.st == 7 && old.st != 7
    let opens := mine.filterMap fun r => match r.dest with
      | some a => if a = 0 then none else some (a, (r.oseq, r.result))
      | none => none
    let s := ring.foldl (fun s x => s.toHostC (.hostWrite (ringAddr e x.1) x.2)) s
    let s := if e.st = 0 || (e.st = 6 && old.st = 6) then s else s.toHostC (.hostWrite e.countAddr (leBytes 8 e.emitted))
    let s := if (changed || !reps.isEmpty) && e.statusAddr != 0 then
        s.toHostC (.hostWrite e.statusAddr (statusBlock e rep s.cpTime))
      else s
    let s := opens.foldl (fun s x => s.toHostC (.hostWrite x.1 (statusBlock e x.2 s.cpTime))) s
    if e.notify && (!ring.isEmpty || faulted) then s.toHostC (.msix e.vector) else s

def natDflt (_ : Nat) : Nat := 0

/-- Committed tokens of a class in the Ledger (R739). -/
def State.ldgTokens (s : State) (c n : Nat) : State :=
  if n = 0 then s else { s with ldg := { s.ldg with toks := supd natDflt s.ldg.toks c (· + n) } }

/-- One stream at a commit point (R419). `st` is the step that commits, with its merged results. -/
def State.commitStream (s : State) (st : Option StepRec) (rs : List ResRec) (faults : List (Nat × Nat))
    (drained : List Nat) (n : Nat) : State :=
  let old := s.stream n
  let code := (faults.find? fun f => f.1 == n).map (·.2)
  let m : Emit := match st, code with
    | some st, none =>
      if st.streams.contains n && old.st != 7 then st.resultsFor rs s.cpTime n old else { e := old, ring := [], n := 0 }
    | _, _ => { e := old, ring := [], n := 0 }
  let used := useSegs (s.segsOf n) (old.prompt - m.e.prompt)
  let s := (s.almPoint old m.n).ldgTokens old.cls m.n
  let s := s.tokAppend n ((List.range m.n).map fun i =>
    w32 ((rs.find? fun r => r.stream == n && r.pos == m.e.seqLen - m.n + i).map (·.token) |>.getD 0))
  let s := if old.prompt = m.e.prompt then s else (s.freeStageBlocks used.2).setSegs n used.1
  let s := s.setStream n { m.e with stage := if old.prompt = m.e.prompt then m.e.stage else stageOf used.1
                                    kvRoot := if m.e.st = 0 then 0 else s.kv.root n, gen := (s.stream n).gen }
  let s : State := match code with
    | some c => s.setStream n { s.stream n with st := 7, fault := c }
    | none => s
  let s := s.showOseq n
  let s := if s.inStep n then s else s.applyPending n (s.pendOf n).length
  let e := s.stream n
  let s := if e.st = 1 ∨ e.st = 2 ∨ e.st = 3 then s.setStream n e.derive else s
  let s := if drained.contains n ∧ (s.stream n).st = 5 then s.setStream n { s.stream n with st := 6 } else s
  s.streamWrites n old m.ring

/-- Streams of a list, each once, ascending. -/
def sortStreams (l : List Nat) : List Nat := (l.foldl (fun m n => sput m n ()) ([] : Sparse Unit)).map (·.1)

/-- HBM stacks in service (R559). -/
def State.stacksRun (s : State) : Nat := ((List.range 12).filter fun h => (s.stack h).st == StackState.run).length

/-- Sets whose staged mode differs; set 47 is always GLOBAL (R534). -/
def State.modeSets (s : State) : List Nat :=
  (List.range 47).filter fun k => bit (s.stg64 pgHbmDev 0x058) k != bit (s.reg64 pgHbmDev 0x058) k

/-- A set's mode changes: its content is undefined from here on (R537). -/
def State.undefSet (s : State) (k : Nat) : State :=
  let (i, s) := s.draw
  { s with
    hbm := { s.hbm with undef := sput s.hbm.undef k i
                        rewritten := s.hbm.rewritten.filter fun u => u % 2 ^ 30 / 2 ^ 24 != k } }

/-- Commits whose safe point is a commit point take effect: INT_, KVS_ (chapter 8) and the HBM set modes (R537). The descriptors
of a new pool say that every page is free (R457). Segments cached under another pool or other cache regions go, so that R466
holds of every cached segment (DEDUCED, log 67). -/
def State.commitPages (s : State) : State :=
  let s := if (s.page pgInt).pending then s.applyPage pgInt else s
  let s := if (s.page pgKvs).pending then
      let pool := fun (s : State) => (s.reg64 pgKvs 0x048, s.kvPages, s.kvPageBytes)
      let cfg := fun (s : State) => (List.range 24).map fun c => s.regN pgKvs (0x080 + 4 * c)
      let old := pool s
      let cfgOld := cfg s
      let s := s.applyPage pgKvs
      let s := if pool s = old && cfg s == cfgOld then s else (List.range 24).foldl State.dropCache s
      if pool s = old || !s.kvReady then s
      else s.dramWrite (s.reg64 pgKvs 0x048 + s.kvPages * s.kvPageBytes) (List.replicate (4 * s.kvPages) 0)
    else s
  if (s.page pgHbmDev).pending then (s.modeSets.foldl State.undefSet s).applyPage pgHbmDev else s

/-- STREAM_FAULT, once for the commit point (R778). -/
def State.logStreamFaults (s : State) (faults : List (Nat × Nat)) : State :=
  match leastBy (·.1) faults with
  | none => s
  | some f => s.log (pgKpr 0) 0x1506 (sortStreams (faults.map (·.1))).length f.2 f.1 0

/-- A commit point (R418, R419): of a step with its results, or of a decision tick with no step in flight. -/
def State.commitPoint (s : State) (st : Option StepRec) (rs : List ResRec) : State :=
  let num := match st with
    | some x => x.num
    | none => 0
  let s : State := { s with intake := { s.intake with round := num } }
  let s := s.commitPages
  let mine := match st with
    | some x => x.faults
    | none => []
  let faults := s.mrd.faulting ++ mine
  let drained := s.kv.draining
  let s : State := { s with mrd := { s.mrd with faulting := [] }, kv := { s.kv with draining := [] } }
  let s : State := match st with
    | some x => { s with mrd := { s.mrd with steps := s.mrd.steps.filter fun y => y.num != x.num } }.commitKv x
    | none => s
  let streams := sortStreams ((match st with
      | some x => x.streams
      | none => []) ++ s.intake.pend.map (·.1) ++ s.intake.reports.map (·.stream) ++ drained ++ faults.map (·.1))
  let s := streams.foldl (fun s n => s.commitStream st rs faults drained n) s
  let s := s.logStreamFaults faults
  let s : State := { s with mrd := { s.mrd with hSvc := s.stacksRun } }
  s.kvLow.reviewUp

/-- Tokens a step commits over all its streams (R503). -/
def State.tokensOf (s : State) (st : StepRec) (rs : List ResRec) : Nat :=
  sumNat ((sortStreams st.streams).map fun n =>
    if (s.stream n).st = 7 || st.faults.any fun f => f.1 == n then 0 else (st.resultsFor rs s.cpTime n (s.stream n)).n)

/-- An S tile at the commit of a step (R194). -/
def STile.commit (t : STile) (num : Nat) : STile :=
  { t with sts := if t.shadowedIn.contains num then t.sts else min (t.sts + 1) 63
           steps := t.steps.filter (· != num), shadowedIn := t.shadowedIn.filter (· != num) }

/-- STS of every S tile at the commit of a step (R194). -/
def State.stepSts (s : State) (num : Nat) : State :=
  ((List.range 2880).filter fun k => siteKind k == .s).foldl (fun s k => s.updS k fun t => t.commit num) s

/-- A step completion record is written after the host-visible writes of its commit point; the lead of a slice holds it with them (R503,
R613). -/
def State.stepRecord (s : State) (num a : Nat) (bs : List Byte) : State :=
  if !s.inSlice then s.record a bs
  else if s.isLead then { s with intake := { s.intake with late := s.intake.late ++ [(num, a, bs)] } }
  else s

/-- A step commits: its commit point, its completion record, MRD_STEPS (R503, R521). -/
def State.commitStep (s : State) (st : StepRec) (rs : List ResRec) : State :=
  let toks := s.tokensOf st rs
  let s := s.commitPoint (some st) rs
  let s : State := { s.stepSts st.num with prog := s.prog.without [st.num] }
  let s := s.markBoundary
  let s := s.wrapReg pgMrd 0x0B8
  s.stepRecord st.num st.done (stepDone 0 st.cohorts st.decode.length st.dropped st.prefill.length
    (b2n st.spec + 2 * b2n st.sprint) st.tag toks st.start s.cpTime)

end Sys2Proof.Machine
end

