-- ==== Sys2Proof/Machine/Image.lean ====
section
/-! DEFINITION. Program images (R365 to R369, R399, R400): the facts read from an image, and the rules an install checks. -/

namespace Sys2Proof.Machine

/-! ### Instruction words (R373) -/

/-- Words of an instruction by OP; 0 for a reserved OP. -/
def opWords (op : Nat) : Nat :=
  match op with
  | 0x01 => 3
  | 0x02 | 0x03 | 0x10 | 0x21 | 0x22 | 0x23 => 2
  | 0x20 | 0x30 | 0x3E | 0x3F => 1
  | _ => 0

/-- The bits of word 0 below OP that an instruction names (R373). -/
def opMask (op : Nat) : Nat :=
  match op with
  | 0x01 => 0xFFFF
  | 0x02 => 0x3
  | 0x03 => 0xFF_FFFF_FFFF_0007
  | 0x10 => 0xFF_FFFF_8000_0003
  | 0x20 => 0x1F_0000_81FF_01FF
  | 0x21 | 0x22 => 0xFF_FFFF_FF80_0007
  | 0x23 => 0xFFFF_FE00_0007
  | 0x30 => 0x7_0000_FFFF_FFFF
  | _ => 0

/-- The named bits of the extension words, first word lowest. -/
def extMask (op : Nat) : Nat :=
  match op with
  | 0x01 => 0xFFFF_FFFF_FF80_FFFF * 2 ^ 64 + 0xFFFF_0000_FFFF_FFFF
  | 0x02 => 0xFFFF_FFFF_FFFF_FF80
  | 0x10 => 0xFFFF_FFFF_FF00_07FF
  | 0x23 => 0xFFFF_FFFF_FFC0_0000
  | _ => 2 ^ 128 - 1

/-- The extension words of an instruction as one number. -/
def extVal (l : List DWord) : Nat := l.foldr (fun w acc => w.toNat + 2 ^ 64 * acc) 0

/-- One instruction of a code list is well formed (R369, code 8). -/
def wordOk (w : DWord) (rest : List DWord) : Bool :=
  let op := bits w.toNat 63 56
  let n := opWords op
  decide (0 < n) && decide (n - 1 ≤ rest.length) && (w.toNat % 2 ^ 56 &&& opMask op) == w.toNat % 2 ^ 56
    && (let e := extVal (rest.take (n - 1)); (e &&& extMask op) == e)

/-- Every instruction of a MICRO section is well formed. -/
def codeOk : Nat → List DWord → Bool
  | 0, l => l.isEmpty
  | fuel + 1, l => match l with
    | [] => true
    | w :: t => wordOk w t && codeOk fuel (t.drop (opWords (bits w.toNat 63 56) - 1))

/-- The instructions from a code position to END, with their extension words; none without END. -/
def codeFrom : Nat → List DWord → Option (List (DWord × List DWord))
  | 0, _ => none
  | fuel + 1, l => match l with
    | [] => none
    | w :: t =>
      let op := bits w.toNat 63 56
      let n := opWords op
      if op = 0x3F then some [(w, [])]
      else if n = 0 then none
      else (codeFrom fuel (t.drop (n - 1))).map fun r => (w, t.take (n - 1)) :: r

/-! ### Sections (R366, R367) -/

/-- A section table entry. -/
structure Sect where
  type : Nat
  comb : Nat
  count : Nat
  off : Nat
  len : Nat
  rsv : Nat
  deriving DecidableEq, Repr

def sectAt (b : List Byte) (i : Nat) : Sect :=
  let o := 128 + 16 * i
  { type := leAt b o 1, comb := leAt b (o + 1) 1, rsv := leAt b (o + 2) 2, count := leAt b (o + 4) 4
    off := leAt b (o + 8) 4, len := leAt b (o + 12) 4 }

/-- Bytes of a record by section type; 0 for DATA, whose records vary, and for an unknown type. -/
def recSize (t : Nat) : Nat :=
  match t with
  | 1 => 8 | 2 => 24 | 3 => 16 | 4 => 8 | 5 => 64 | 6 => 32 | 7 => 16 | 8 => 16
  | _ => 0

/-- DATA records from a byte list: kind, logical index, first row, rows. -/
def dataRecs : Nat → List Byte → List (Nat × Nat × Nat × Nat × List Byte)
  | 0, _ => []
  | n + 1, b =>
    let rows := leAt b 4 2
    (leAt b 0 1, leAt b 1 1, leAt b 2 2, rows, (b.drop 16).take (128 * rows)) :: dataRecs n (b.drop (16 + 128 * rows))

/-- Bytes that DATA records take. -/
def dataLen (l : List (Nat × Nat × Nat × Nat × List Byte)) : Nat := sumNat (l.map fun d => 16 + 128 * d.2.2.2.1)

/-- The records of a section, each as its bytes. -/
def sectRecs (b : List Byte) (x : Sect) : List (List Byte) :=
  chunks (recSize x.type) x.count ((b.drop x.off).take (recSize x.type * x.count))

def templateOf (r : List Byte) : Template :=
  { kind := leAt r 0 1, flags := leAt r 1 1, home := leAt r 2 1, gsize := leAt r 3 1, code := leAt r 4 4
    pstride := leAt r 8 2, amax := leAt r 10 2, inst := leAt r 12 4, elig := leAt r 16 8, dep0 := leAt r 24 4
    dep1 := leAt r 28 4 }

def graphOf (r : List Byte) : Graph :=
  { id := leAt r 0 1, nbucket := leAt r 1 1, steal := leAt r 2 1, mirror := leAt r 4 4, first := leAt r 8 2 }

def bucketOfRec (r : List Byte) : Bucket :=
  { d0 := leAt r 0 4, d1 := leAt r 4 4, first := leAt r 8 2, count := leAt r 10 2, contrib := leAt r 12 4 }

/-- The facts of an image. -/
def imageOf (b : List Byte) : Image :=
  let ss := (List.range (leAt b 6 1)).map (sectAt b)
  let of_ := fun t => ss.filter fun x => x.type == t
  let recs := fun t => (of_ t).flatMap fun x => (sectRecs b x).map fun r => (x.comb, r)
  { size := leAt b 8 4, crc := leAt b 20 4, footprint := leAt b 12 4, formats := leAt b 16 2, fallback := leAt b 18 1
    ngraph := leAt b 7 1
    pages := (recs 1).map fun e => (e.1, BitVec.ofNat 64 (leAt e.2 0 8))
    mcast := (recs 2).map fun e => (e.1, leAt e.2 0 1, ((e.2.drop 8).take (leAt e.2 1 1)).map (·.toNat))
    sinks := (recs 3).map fun e => (e.1, leAt e.2 0 1, leAt e.2 1 1, BitVec.ofNat 64 (leAt e.2 8 8))
    micro := (of_ 4).map fun x => (x.comb, (sectRecs b x).map fun r => BitVec.ofNat 64 (leNat r))
    tasks := (recs 5).map fun e => templateOf e.2
    graphs := (recs 6).map fun e => graphOf e.2
    buckets := (recs 7).map fun e => bucketOfRec e.2
    queues := (recs 8).map fun e => (e.1, BitVec.ofNat 64 (leAt e.2 0 8))
    data := (of_ 9).flatMap fun x => (dataRecs x.count ((b.drop x.off).take x.len)).map fun d =>
      (x.comb, 4 * d.2.1 + d.1, d.2.2.1, d.2.2.2.1, d.2.2.2.2) }

/-- The code of a placement comb: its MICRO sections in table order. -/
def Image.codeOf (im : Image) (comb : Nat) : List DWord := (im.micro.filter fun e => e.1 == comb).flatMap (·.2)

/-- The instructions to END from a word of a code store. -/
def codeAt (code : List DWord) (at_ : Nat) : Option (List (DWord × List DWord)) :=
  let c := code.drop at_
  codeFrom c.length c

/-- A template's instructions to END. -/
def Image.codeOfTmpl (im : Image) (t : Template) : Option (List (DWord × List DWord)) := codeAt (im.codeOf t.home) t.code

/-- The graph with an identity. -/
def Image.graph? (im : Image) (g : Nat) : Option Graph := im.graphs.find? fun x => x.id == g

/-- The buckets of a graph with their index in the graph (R367). -/
def Image.bucketsOf (im : Image) (g : Graph) : List (Nat × Bucket) :=
  List.zip (List.range g.nbucket) ((im.buckets.drop g.first).take g.nbucket)

/-- The templates of a bucket with their index in the TASK section. -/
def Image.tmplsOf (im : Image) (b : Bucket) : List (Nat × Template) :=
  List.zip ((List.range b.count).map (· + b.first)) ((im.tasks.drop b.first).take b.count)

/-! ### Rules of an install (R369) -/

/-- Ranges that overlap (start, length). -/
def overlap (a b : Nat × Nat) : Bool := decide (0 < a.2) && decide (0 < b.2) && decide (a.1 < b.1 + b.2) && decide (b.1 < a.1 + a.2)

/-- Some pair of a list is related. -/
def anyPair {α : Type} (f : α → α → Bool) : List α → Bool
  | [] => false
  | a :: t => t.any (f a) || anyPair f t

/-- Bytes that a record must hold as zero, by section type (R367, R399): offset and length. -/
def recZeros (t : Nat) : List (Nat × Nat) :=
  match t with
  | 2 => [(2, 6)]
  | 3 => [(2, 6)]
  | 5 => [(32, 32)]
  | 6 => [(3, 1), (10, 22)]
  | 8 => [(8, 8)]
  | _ => []

/-- A DATA record among some holds a reserved byte that is not zero. -/
def dataRsv : Nat → List Byte → Bool
  | 0, _ => false
  | n + 1, b => leAt b 6 10 != 0 || dataRsv n (b.drop (16 + 128 * leAt b 4 2))

/-- A record of a section that lies in the image holds a reserved byte that is not zero; the rows of a W claim are zero too (R367). -/
def sectRsv (b : List Byte) (x : Sect) : Bool :=
  let size := leAt b 8 4
  let bad := fun (r : List Byte) => (recZeros x.type).any fun z => leAt r z.1 z.2 != 0
  if size < x.off + x.len ∨ x.len < x.count * (if x.type = 9 then 16 else recSize x.type) then false
  else if x.type = 9 then
    dataRsv x.count ((b.drop x.off).take x.len)
  else if x.type = 8 then (sectRecs b x).any fun r => bad r || (leAt r 0 1 == 3 && leAt r 6 2 != 0)
  else (sectRecs b x).any bad

/-- Code 1: header fields (R365). -/
def headBad (b : List Byte) : Bool :=
  let size := leAt b 8 4
  leAt b 0 4 != 0x504E5A4B || leAt b 4 2 != 1 || leAt b 6 1 == 0 || decide (64 < leAt b 6 1) || leAt b 7 1 == 0
    || decide (16 < leAt b 7 1) || decide (2 ^ 30 < size) || decide (size < 128 + 16 * leAt b 6 1)
    || leAt b 15 1 != 0 || leAt b 19 1 != 0 || leAt b 32 96 != 0
    || (List.range (leAt b 6 1)).any fun i => (sectAt b i).rsv != 0 || sectRsv b (sectAt b i)

/-- Code 2: the CRC with its own field taken as zero. -/
def crcBad (b : List Byte) : Bool :=
  crc32c (b.take 20 ++ [0, 0, 0, 0] ++ b.drop 24) != leAt b 20 4

/-- Code 3: sections. -/
def sectBad (b : List Byte) : Bool :=
  let size := leAt b 8 4
  let ss := (List.range (leAt b 6 1)).map (sectAt b)
  let one := fun (x : Sect) =>
    decide (x.type = 0 ∨ 9 < x.type) || x.off % 8 != 0 || decide (size < x.off + x.len)
      || decide (x.off < 128 + 16 * leAt b 6 1 ∧ 0 < x.len)
      || (if x.type = 9 then dataLen (dataRecs x.count ((b.drop x.off).take x.len)) != x.len
          else x.len != recSize x.type * x.count)
      || (if x.type = 5 ∨ x.type = 6 ∨ x.type = 7 then x.comb != 0xFF else decide (23 < x.comb))
  ss.any one || anyPair (fun x y => overlap (x.off, x.len) (y.off, y.len)) ss

/-- Code 4: formats. -/
def State.fmtBad (s : State) (b : List Byte) : Bool :=
  (setBits 16 (leAt b 16 2)).any fun n => decide (9 ≤ n ∧ n ≤ 14) || !s.licFmt n

/-- The class of a kind code of a PAGE record. -/
def kindOfCode (k : Nat) : Option Kind :=
  match k with
  | 0 => some .m
  | 1 => some .b
  | 2 => some .s
  | 3 => some .w
  | _ => none

/-- The offset names a staged register of a class (R368). -/
def isStaged (c : PClass) (off : Nat) : Bool :=
  off % 4 == 0 && (c.rows.any fun r => decide (r.lo ≤ off) && decide (off ≤ r.hi) && r.acc == .st)

/-- Code 5: a PAGE record. -/
def pageRecBad (w : DWord) : Bool :=
  let l := bits w.toNat 55 48
  match kindOfCode (bits w.toNat 63 56) with
  | none => true
  | some k => decide (107 < l) || kindOf l != k || !isStaged k.cls (bits w.toNat 47 32)

/-- Code 6: an MCAST record's bytes. -/
def mcastBad (r : List Byte) : Bool :=
  let n := leAt r 1 1
  decide (n = 0 ∨ 16 < n) || (((r.drop 8).take n).any fun m => decide (107 < m.toNat))

/-- Rows of a store that a sink may fill: 16,384 in a B tile, 2,048 in an S tile (R172, R309). -/
def storeRows (k : Kind) : Nat := if k == .b then 16384 else if k == .s then 2048 else 0

/-- A valid sink entry breaks a rule of R303. -/
def sinkBad (k : Kind) (e : Nat) : Bool :=
  bits e 62 48 != 0 || bits e 16 14 != 0 ||
  (bit e 63 && (bits e 31 25 == 0 || bits e 24 17 == 0 || decide (128 < bits e 24 17) || storeRows k == 0
    || decide (storeRows k < bits e 13 0 + 4 * bits e 24 17)))

/-- Code 7: SINK records. -/
def sinksBad (l : List (Nat × Nat × Nat × DWord)) : Bool :=
  (l.any fun e => decide (107 < e.2.1) || decide (63 < e.2.2.1) || sinkBad (kindOf e.2.1) e.2.2.2.toNat)
    || anyPair (fun x y => bits x.2.2.2.toNat 47 32 == bits y.2.2.2.toNat 47 32) l

/-- Code 8: code sections, and each template's code has END. -/
def Image.codeBad (im : Image) : Bool :=
  (im.micro.any fun e => !codeOk (e.2.length + 1) e.2) || ((List.range 24).any fun c => decide (131072 < (im.codeOf c).length))
    || im.tasks.any fun t => (im.codeOfTmpl t).isNone

/-- Code 9: graphs and buckets. -/
def Image.graphBad (im : Image) : Bool :=
  im.graphs.length != im.ngraph
    || (im.graphs.any fun g => decide (im.ngraph ≤ g.id) || g.nbucket == 0 || decide (16 < g.nbucket) || decide (2 < g.steal)
        || decide (2 ^ 24 ≤ g.mirror) || decide (im.buckets.length < g.first + g.nbucket))
    || anyPair (fun (x y : Graph) => x.id == y.id) im.graphs
    || im.buckets.any fun b => b.d0 == 0 || b.d1 == 0 || decide (im.tasks.length < b.first + b.count)

/-- Sites of a template's kind (R399). -/
def eligMax (k : Nat) : Nat := if k = 0 then 64 else if k = 1 then 8 else if k = 2 then 32 else 0

/-- The reduction IDs of the image's sinks. -/
def Image.reds (im : Image) : List Nat := im.sinks.map fun e => bits e.2.2.2.toNat 47 32

/-- A DEP field breaks R400 within a bucket. -/
def Image.depBad (im : Image) (b : Bucket) (d : Nat) : Bool :=
  bit d 31 && (if bit d 30 then !im.reds.contains (d % 65536)
    else decide (d % 65536 < b.first) || decide (b.first + b.count ≤ d % 65536))

/-- The template names pointer slot 0xFF (R375, R400). -/
def Image.usesMap (im : Image) (t : Template) : Bool :=
  match im.codeOfTmpl t with
  | none => false
  | some l => l.any fun i =>
    let op := bits i.1.toNat 63 56
    (op == 0x03 || op == 0x21 || op == 0x22) && bits i.1.toNat 55 48 == 0xFF

/-- The anchor indices that an instruction uses (R373, R374): that of a pass record, and that of an SFN that reads or writes tallies
(log 106). -/
def instrAnchors (i : DWord × List DWord) : List Nat :=
  let op := bits i.1.toNat 63 56
  let w0 := (nth 0 i.2 0).toNat
  if op = 0x01 then [bits (nth 0 i.2 1).toNat 48 39]
  else if op = 0x10 ∧ (bits w0 41 38 = 15 ∨ bits w0 37 34 = 15) then [bits w0 33 24]
  else []

/-- AMAX of a template's code: one more than the highest anchor index that it uses (R399). -/
def Image.amaxOf (im : Image) (t : Template) : Nat :=
  maxNat ((((im.codeOfTmpl t).getD []).flatMap instrAnchors).map (· + 1))

/-- One template breaks R399 or R400. -/
def Image.tmplBad (im : Image) (t : Template) : Bool :=
  let n := eligMax t.kind
  let gang := bit t.flags 1
  let mir := bit t.flags 0
  n == 0 || decide (7 < t.flags) || decide (23 < t.home) || t.elig == 0 || decide (2 ^ n ≤ t.elig)
    || decide (4096 < t.pstride) || decide (65535 < t.inst)
    || (t.kind == 2 && popCount 32 t.elig != 1)
    || (if gang then t.kind != 0 || popCount 64 t.elig != t.gsize || decide (t.gsize < 2 ∨ 16 < t.gsize) else t.gsize != 1)
    || (mir && gang)
    || bits t.dep0 29 16 != 0 || bits t.dep1 29 16 != 0
    || (im.usesMap t && !bit t.flags 2) || t.amax != im.amaxOf t

/-- A MIRROR template's code stands at the same place with the same words in every comb of its graph's set (R400). -/
def Image.mirrorBad (im : Image) (g : Graph) (t : Template) : Bool :=
  bit t.flags 0 && (setBits 24 g.mirror).any fun c =>
    codeAt (im.codeOf c) t.code != im.codeOfTmpl t

/-- Templates of a bucket without a cycle among their dependencies: each round removes those whose template
dependencies are gone. -/
def acyclicGo : Nat → List (Nat × Template) → Bool
  | 0, l => l.isEmpty
  | fuel + 1, l =>
    if l.isEmpty then true
    else
      let ids := l.map (·.1)
      let waits := fun (d : Nat) => bit d 31 && !bit d 30 && ids.contains (d % 65536)
      let rest := l.filter fun t => waits t.2.dep0 || waits t.2.dep1
      if rest.length = l.length then false else acyclicGo fuel rest

/-- Code 10: templates. A DEP of a template in no bucket names no template of its bucket (R400). -/
def Image.tmplsBad (im : Image) : Bool :=
  let deps := fun (b : Bucket) (t : Template) => im.depBad b t.dep0 || im.depBad b t.dep1
  let loose := (List.zip (List.range im.tasks.length) im.tasks).filter fun t =>
    !im.buckets.any fun b => decide (b.first ≤ t.1 ∧ t.1 < b.first + b.count)
  im.tasks.any im.tmplBad
    || (im.graphs.any fun g => (im.bucketsOf g).any fun b => (im.tmplsOf b.2).any fun t => im.mirrorBad g t.2)
    || (im.buckets.any fun b => (im.tmplsOf b).any fun t => deps b t.2)
    || (loose.any fun t => deps { d0 := 1, d1 := 1, first := 0, count := 0, contrib := 0 } t.2)
    || im.buckets.any fun b => !acyclicGo (b.count + 1) (im.tmplsOf b)

/-- Code 11: queues. -/
def Image.queueBad (im : Image) : Bool :=
  let q := im.queues.map fun e => (e.1, bits e.2.toNat 7 0, bits e.2.toNat 15 8, bits e.2.toNat 47 32, bits e.2.toNat 63 48)
  let b := q.filter fun e => e.2.1 == 1
  let w := q.filter fun e => e.2.1 == 3
  let d := im.data.filter fun e => e.2.1 % 4 == 1
  anyPair (fun x y => x.1 == y.1 && x.2.2.1 == y.2.2.1 && overlap (x.2.2.2.1, x.2.2.2.2) (y.2.2.2.1, y.2.2.2.2)) b
    || (b.any fun x => d.any fun y => x.1 == y.1 && x.2.2.1 == y.2.1 / 4 && overlap (x.2.2.2.1, x.2.2.2.2) (y.2.2.1, y.2.2.2.1))
    || w.any fun x => decide (64 < sumNat ((w.filter fun y => y.1 == x.1 && y.2.2.1 == x.2.2.1).map fun y => y.2.2.2.1))

/-- Code 12: FALLBACK. -/
def State.fallbackBad (s : State) (slot : Nat) (im : Image) : Bool :=
  im.fallback != 0xFF && (im.fallback == slot || match (s.slot im.fallback).img with
    | some x => decide (x.ngraph < im.ngraph)
    | none => false)

/-- The MCAST records of an image as bytes. -/
def mcastRecs (b : List Byte) : List (List Byte) :=
  (((List.range (leAt b 6 1)).map (sectAt b)).filter fun x => x.type == 2).flatMap (sectRecs b)

/-- The code of the first rule of R369 that an image breaks, 0 for none. -/
def State.imageRule (s : State) (slot : Nat) (b : List Byte) : Nat :=
  if headBad b then 1
  else if crcBad b then 2
  else if sectBad b then 3
  else if s.fmtBad b then 4
  else
    let im := imageOf b
    if im.pages.any fun e => pageRecBad e.2 then 5
    else if (mcastRecs b).any mcastBad then 6
    else if sinksBad im.sinks then 7
    else if im.codeBad then 8
    else if im.graphBad then 9
    else if im.tmplsBad then 10
    else if im.queueBad then 11
    else if s.fallbackBad slot im then 12
    else 0

end Sys2Proof.Machine
end

