-- ==== Sys2Proof/Machine/Route.lean ====
section
/-! DEFINITION. Routes as the Keeper builds them (R249, R250), seams and bridges (R17, R19), the distance table (R45 to R51). -/

namespace Sys2Proof.Machine

/-- The neighbour of a site through a port: 1 N, 2 E, 3 S, 4 W (R227). -/
def neighbour (site port : Nat) : Option Nat :=
  let x := siteX site
  let y := siteY site
  match port with
  | 1 => if y = 0 then none else some (siteAt x (y - 1))
  | 2 => if x = 47 then none else some (siteAt (x + 1) y)
  | 3 => if y = 59 then none else some (siteAt x (y + 1))
  | 4 => if x = 0 then none else some (siteAt (x - 1) y)
  | _ => none

/-- The seam bridge that a router's port leads over (R19). -/
def bridgeAt (site port : Nat) : Option Nat :=
  let x := siteX site
  let y := siteY site
  if port = 2 ∧ x = 23 ∨ port = 4 ∧ x = 24 then some y
  else if port = 3 ∧ y = 19 ∨ port = 1 ∧ y = 20 then some (60 + x)
  else if port = 3 ∧ y = 39 ∨ port = 1 ∧ y = 40 then some (108 + x)
  else none

/-- The port of a bridge's west or north router, and that router (R19). -/
def bridgeHome (n : Nat) : Nat × Nat :=
  if n < 60 then (siteAt 23 n, 2) else if n < 108 then (siteAt (n - 60) 19, 3) else (siteAt (n - 108) 39, 3)

/-- The out-link of a router carries flits: it exists, its bridge is not disabled and the Keeper has not cleared it
(R22, R300, R784). -/
def State.linkUp (s : State) (site port : Nat) : Bool :=
  match neighbour site port with
  | none => false
  | some n =>
    !(s.die.linkOff.contains (site, port)) && !(s.die.linkOff.contains (n, opposite port)) &&
      (match bridgeAt site port with
        | some b => !s.die.seamOff.contains b
        | none => true)

/-- The XY next hop's port from one site to another: along the row first, then along the column (R250); 0 at the end. -/
def xyPort (a b : Nat) : Nat :=
  if siteX a < siteX b then 2 else if siteX b < siteX a then 4
  else if siteY a < siteY b then 3 else if siteY b < siteY a then 1 else 0

/-- The next hop over a port meets an obstacle: no link, a physical hole, or a PARKED comb (R250). -/
def State.blocked (s : State) (site port : Nat) : Bool :=
  !s.linkUp site port || match neighbour site port with
    | none => true
    | some n => s.physHole n || s.combParked (siteComb n)

/-- The XY path from a to b meets no obstacle. -/
def State.xyClear (s : State) : Nat → Nat → Nat → Bool
  | 0, a, b => a == b
  | fuel + 1, a, b =>
    if a = b then true
    else if s.blocked a (xyPort a b) then false
    else match neighbour a (xyPort a b) with
      | none => false
      | some n => State.xyClear s fuel n b

/-- The links that are out of service, as the escape tree sees them. -/
def State.deadLinks (s : State) : List (Nat × Nat) := s.die.linkOff ++ s.die.seamOff.map bridgeHome

/-- The routers excluded from routing (R39), those of OFF combs included. -/
def State.deadRouters (s : State) : List Nat :=
  s.die.holes ++ ((List.range 24).filter s.combOff).flatMap fun c => (List.range 120).map (mkSite c)

/-- A router as a bit of the grid. -/
def gridBit (site : Nat) : Nat := 48 * siteY site + siteX site

/-- Routers as a set. -/
def gridSet (l : List Nat) : Nat := setUnion (l.map fun k => 2 ^ gridBit k)

/-- The live mesh. -/
def State.net (s : State) : Net :=
  Net.of (setLess gridAll (gridSet s.deadRouters))
    (gridSet (((List.range 24).filter s.combParked).flatMap fun c => (List.range 120).map (mkSite c)))
    (s.deadLinks.map fun l => (gridBit l.1, l.2))

/-- The escape order in force (R250). -/
def State.escTree (s : State) : EscTree := s.net.tree (Config.escRoot s.deadRouters s.deadLinks)

/-- The escape routes to a destination; to the sites of a multicast group they stay inside its comb (R250, R255). -/
def State.escTab (s : State) (b : Nat) (inside : Bool) : EscTab :=
  let w := s.net
  let comb := gridSet ((List.range 120).map (mkSite (siteComb b)))
  let v := if inside then { w with links := meshPorts.map fun p => atPort w.links p &&& comb &&& gridPull p comb } else w
  v.escTab s.escTree (gridBit b)

/-- The escape ports of a router for a destination: while DN is 0, and once it is 1. -/
def State.escOf (s : State) (a b : Nat) (inside : Bool) : Nat × Nat :=
  let t := s.escTab b inside
  (portIn t.up (gridBit a), portIn t.dn (gridBit a))

/-- A router's out-link leads up (R251). -/
def State.upLink (s : State) (a p : Nat) : Bool := bit (atPort s.escTree.up p) (gridBit a)

/-- The way from a router to another under the current routes, as the routers it visits: XY to the first obstacle, the escape order
from there; none where there is no way (R250). -/
def State.way (s : State) (tree : EscTree) (tab : EscTab) : Nat → Nat → Nat → Bool → Bool → Option (List Nat)
  | 0, _, _, _, _ => none
  | fuel + 1, a, b, esc, dn =>
    if a = b then some [a]
    else
      let esc := esc || s.blocked a (xyPort a b)
      let p := if !esc then xyPort a b else portIn (if dn then tab.dn else tab.up) (gridBit a)
      match neighbour a p with
      | none => none
      | some n => (State.way s tree tab fuel n b esc (dn || (esc && !bit (atPort tree.up p) (gridBit a)))).map (a :: ·)

/-- The way between two live sites (R49). -/
def State.wayOf (s : State) (a b : Nat) : Option (List Nat) :=
  if s.physHole a ∨ s.physHole b then none else s.way s.escTree (s.escTab b false) 5760 a b false false

/-- Hops between two sites under the current routes (R49). -/
def State.hops (s : State) (a b : Nat) : Nat :=
  if s.physHole a ∨ s.physHole b then 255
  else if s.xyClear 107 a b then dist a b
  else match s.wayOf a b with
    | none => 255
    | some l => min 255 (l.length - 1)

/-- The seam and comb boundaries an XY path crosses (R16, R17, R49): boundary columns 11, 23, 35, rows 9, 19, 29, 39, 49. -/
def crossings (lo hi : Nat) (at_ : List Nat) : Nat := (at_.filter fun k => decide (lo ≤ k) && decide (k < hi)).length

def combCross (a b : Nat) : Nat :=
  crossings (min (siteX a) (siteX b)) (max (siteX a) (siteX b)) [11, 23, 35]
    + crossings (min (siteY a) (siteY b)) (max (siteY a) (siteY b)) [9, 19, 29, 39, 49]

def seamCross (a b : Nat) : Nat :=
  crossings (min (siteX a) (siteX b)) (max (siteX a) (siteX b)) [23]
    + crossings (min (siteY a) (siteY b)) (max (siteY a) (siteY b)) [19, 39]

/-- How often two neighbours on a way differ in a property. -/
def changes (f : Nat → Nat) : List Nat → Nat
  | a :: b :: t => b2n (f a != f b) + changes f (b :: t)
  | _ => 0

/-- The part of the die between two seams that a site lies in (R17). -/
def frameOf (site : Nat) : Nat := siteX site / 24 + 2 * (siteY site / 20)

/-- COMBS + 16 × SEAMS of the current route between two sites (R47, R49). -/
def State.pathCross (s : State) (a b : Nat) : Nat :=
  if s.xyClear 107 a b then combCross a b + 16 * seamCross a b
  else match s.wayOf a b with
    | none => 0
    | some l => min 15 (changes siteComb l) + 16 * min 7 (changes frameOf l)

/-- A pair of sites is an M–B partner pair with a working side channel (R25, R26, R49). -/
def sidePair (a b : Nat) : Bool :=
  let ka := siteKind a
  let kb := siteKind b
  let ra := siteIdx a / 12
  let rb := siteIdx b / 12
  let blockRow := fun (r : Nat) => if r < 4 then r / 2 else (r - 1) / 2
  siteComb a == siteComb b && ((ka == .m && kb == .b) || (ka == .b && kb == .m)) && ra != 9 && rb != 9
    && blockRow ra == blockRow rb && siteIdx a % 12 / 3 == siteIdx b % 12 / 3

/-- A logical index serves as a partner B tile of a site's logical site, and a substitution has taken their side channel (R25, R37, R61). -/
def State.lostPair (s : State) (site b : Nat) : Bool :=
  match s.served site, s.serving (siteComb site) b with
  | some l, some k => sidePair (mkSite (siteComb site) l) (mkSite (siteComb site) b) && !sidePair site k
  | _, _ => false

/-- The partner B tiles of an M site (R25). -/
def partners (site : Nat) : List Nat :=
  ((List.range 120).map (mkSite (siteComb site))).filter fun b => siteKind b == .b && sidePair site b

/-! ### Distance table (R45 to R50) -/

/-- A register word holds a remap entry. -/
def isRemapKey (k : Nat) : Bool :=
  decide (regKey 9464 0x100 ≤ k) && decide (k < regKey 9488 0) && decide (0x100 ≤ k % 4096) && decide (k % 4096 ≤ 0x2AC)

/-- What a new copy of the distance table is written from. -/
def State.distSnap (s : State) (gen : Nat) : DistSnap :=
  { gen, chrono := s.dev.chrono
    remap := s.regs.filter fun e => isRemapKey e.1
    holes := s.die.holes, slow := (List.range 24).filter s.combParked, off := (List.range 24).filter s.combOff
    seamOff := s.die.seamOff, links := s.die.linkOff }

/-- A commit that changes a remap table, a hole, a bridge or a comb state writes the inactive copy and raises
DFM_DIST_GEN by one (R50); the Keeper then holds the former copy as the other one. A link that the Keeper took out makes no copy of
its own: the next copy sees it. -/
def State.distWrite (s : State) : State :=
  let gen := s.regN pgDfmDev 0x048
  let cur := s.distSnap gen
  if { cur with chrono := 0, links := [] } = { s.die.distNew with chrono := 0, gen := gen, links := [] } then s
  else
    let s := s.setReg pgDfmDev 0x048 (gen + 1)
    { s with die := { s.die with distOld := s.die.distNew, distNew := s.distSnap ((gen + 1) % 2 ^ 32) } }

/-- A remap entry of a copy. -/
def DistSnap.entry (d : DistSnap) (c l : Nat) : Nat := (sget regDflt d.remap (regKey (pgDfm c) (0x100 + 4 * l))).toNat

def DistSnap.hole (d : DistSnap) (c l : Nat) : Bool := d.off.contains c || bit (d.entry c l) 15

/-- A state that stands for a copy's inputs, so that the current routing rules read it. -/
def DistSnap.view (d : DistSnap) (s : State) : State :=
  { s with
    die := { s.die with holes := d.holes, seamOff := d.seamOff, linkOff := d.links }
    combs := (List.range 24).foldl (fun m c => supd combDflt m c fun x =>
      { x with st := if d.off.contains c then .off else if d.slow.contains c then .parked else .run }) s.combs }

/-- The gateway router of the neighbouring comb on a side: 0 N, 1 E, 2 S, 3 W, in the source's column or row (R48). -/
def gateway (site side : Nat) : Option Nat :=
  let c := siteComb site
  let x := siteX site
  let y := siteY site
  let y0 := 10 * combRow c
  let x0 := 12 * combCol c
  match side with
  | 0 => if y0 = 0 then none else some (siteAt x (y0 - 1))
  | 1 => if x0 = 36 then none else some (siteAt (x0 + 12) y)
  | 2 => if y0 = 50 then none else some (siteAt x (y0 + 10))
  | _ => if x0 = 0 then none else some (siteAt (x0 - 1) y)

/-- One entry of a copy (R47 to R49). -/
def State.distEntry (s : State) (d : DistSnap) (c src dst : Nat) : Nat :=
  let v := d.view s
  let a := mkSite c (bits (d.entry c src) 6 0)
  let target := if dst < 108 then (if d.hole c dst then none else some (mkSite c (bits (d.entry c dst) 6 0)))
    else gateway a (dst - 108)
  match target with
  | none => 0x00FF
  | some b =>
    if d.hole c src then 0x00FF
    else
      let h := v.hops a b
      if 255 ≤ h then 0x00FF
      else b2n (decide (dst < 108) && sidePair a b) * 0x8000 + v.pathCross a b * 0x100 + h

/-- The bytes of a comb block of a copy (R46, R47). -/
def State.distBlock (s : State) (d : DistSnap) (c : Nat) : List Byte :=
  let head := leBytes 4 d.gen ++ leBytes 1 c ++ leBytes 1 (b2n (d.slow.contains c) + 2 * b2n (d.off.contains c))
    ++ leBytes 2 0 ++ leBytes 8 d.chrono
    ++ leBytes 14 (sumNat ((List.range 108).map fun l => if d.hole c l then 2 ^ l else 0)) ++ List.replicate 34 0
  let body := (List.range 108).flatMap fun r => (List.range 112).flatMap fun t => leBytes 2 (s.distEntry d c r t)
  fit 0 24576 (head ++ body)

end Sys2Proof.Machine
end

