-- ==== Sys2Proof/Machine/Ports.lean ====
section
/-! DEFINITION. Tile ports: epochs, placement, destinations, the packets that tiles and units send (R240 to R245, R259 to
R261, R274, R370), pointers of an instance (R375, R391, R392) and masks (R388 to R390). -/

namespace Sys2Proof.Machine

/-! ### Epochs and placement -/

/-- Switches that a comb has made since start (R677). -/
def State.switchesOf (s : State) (c : Nat) : Nat :=
  s.prog.switches + match s.prog.cur with
    | some w => b2n (w.combs.contains c)
    | none => 0

/-- The active epoch of a comb (R378). -/
def State.epochOf (s : State) (c : Nat) : Nat := s.switchesOf c % 4

/-- The physical comb of a placement comb under the active comb map (R370). -/
def State.physComb (s : State) (c : Nat) : Nat :=
  match s.activeSlot with
  | some n => nth c (s.slot n).map c
  | none => c

/-- The placement comb that a physical comb holds, itself where the map names it nowhere. -/
def State.placeComb (s : State) (c : Nat) : Nat :=
  (((List.range 24).find? fun p => s.physComb p == c)).getD c

/-- A destination as the injecting port writes it: the comb field of kinds 00, 01 and 11 is made physical (R370). -/
def State.physDest (s : State) (d : Nat) : Nat :=
  match bits d 15 14 with
  | 2 => d
  | 1 => putBits d 12 8 (s.physComb (bits d 12 8))
  | _ => putBits d 11 7 (s.physComb (bits d 11 7))

/-- DEST of a logical site, of an attachment (R243). -/
def siteDest (comb l : Nat) : Nat := comb * 128 + l
/-- The tile's own address as SRC: the logical site that it serves (R242, R243). A tile that serves none sends only answers; it names
the logical index of its physical place (log 98). -/
def State.ownDest (s : State) (site : Nat) : Nat :=
  match s.served site with
  | some l => siteDest (siteComb site) l
  | none => siteDest (siteComb site) (siteIdx site % 108)

/-- Reserved values of DEST (R243). -/
def destReserved (d : Nat) : Bool :=
  match bits d 15 14 with
  | 0 => bits d 13 12 != 0 || decide (23 < bits d 11 7) || decide (107 < bits d 6 0)
  | 1 => bits d 13 13 != 0 || decide (23 < bits d 12 8)
  | 2 => bits d 13 6 != 0 || (let a := bits d 5 0; !(decide (a < 12) || (decide (16 ≤ a) && decide (a < 34))))
  | _ => bits d 13 12 != 0 || decide (23 < bits d 11 7) || decide (119 < bits d 6 0)

/-! ### Packets -/

/-- A header of the request, response and control channels (R242). -/
def mkHdr (dest src vc epoch len guard pk flow seq : Nat) : BitVec 128 :=
  BitVec.ofNat 128 (dest * 2 ^ 112 + src * 2 ^ 96 + vc * 2 ^ 94 + epoch * 2 ^ 92 + len * 2 ^ 88 + guard * 2 ^ 87
    + pk * 2 ^ 84 + flow % 4096 * 2 ^ 72 + seq % 65536 * 2 ^ 56)

/-- A packet from a header, the head flit's payload and body payloads with their POISON bits. -/
def mkPkt (hdr : BitVec 128) (head : Nat) (body : List (Nat × Bool)) : MeshPkt :=
  { flits := { lane := hdr, pay := BitVec.ofNat 512 head, poison := false } ::
      body.map fun b => { lane := 0, pay := BitVec.ofNat 512 b.1, poison := b.2 }
    esc := false }

/-- A packet's header, head payload, body. -/
def MeshPkt.hdr (p : MeshPkt) : Nat :=
  match p.flits with
  | [] => 0
  | f :: _ => f.lane.toNat
def MeshPkt.head (p : MeshPkt) : Nat :=
  match p.flits with
  | [] => 0
  | f :: _ => f.pay.toNat
def MeshPkt.body (p : MeshPkt) : List PFlit := p.flits.drop 1

/-- Fields of a header. -/
def hDest (h : Nat) : Nat := bits h 127 112
def hSrc (h : Nat) : Nat := bits h 111 96
def hVc (h : Nat) : Nat := bits h 95 94
def hEpoch (h : Nat) : Nat := bits h 93 92
def hLen (h : Nat) : Nat := bits h 91 88
def hGuard (h : Nat) : Bool := bit h 87
def hPk (h : Nat) : Nat := bits h 85 84
def hFlow (h : Nat) : Nat := bits h 83 72
def hSeq (h : Nat) : Nat := bits h 71 56

/-- The step that holds a packet, by its header: of a chunk the one whose RED it has, of another the one of the tile that sent it (R248, R273,
R276, R294, R782, log 114). -/
def State.pktStep (s : State) (h : Nat) : Option Nat := if hVc h = 2 then s.redStep (hSrc h) else s.reqStep (hSrc h)

/-- Any flit of a packet carries POISON (R271). -/
def MeshPkt.poisoned (p : MeshPkt) : Bool := p.flits.any fun f => f.poison

/-! ### Routers -/

def rtDflt (_ : Nat) : Router :=
  { crcRun := [], down := [], lanes := [], slots := [], crcStep := none, guard := [], eguard := [], markers := []
    flows := [], acc := [], doneCh := [], early := [], now := 0, own := [], sent := [], rrVc := [], rrIn := [], credits := []
    cross := [], beats := [], occ := [], waiting := [], marked := false }

def State.router (s : State) (site : Nat) : Router := sget rtDflt s.rt site
def State.updR (s : State) (site : Nat) (f : Router → Router) : State := { s with rt := supd rtDflt s.rt site f }

/-- A tile port uses a flow in a step: the SEQ of a guarded one (R274), 0 of another, and the state with the flow recorded. -/
def State.useFlow (s : State) (site dest flow step : Nat) (guard : Bool) : Nat × State :=
  let r := s.router site
  let n := match r.flows.find? fun f => f.dest == dest && f.flow == flow && f.guard == guard with
    | some f => f.next
    | none => 0
  let rest := r.flows.filter fun f => !(f.dest == dest && f.flow == flow && f.guard == guard)
  let next := if guard then (n + 1) % 65536 else 0
  (n, s.updR site fun r => { r with flows := rest ++ [{ dest, flow, next, step, guard }] })

/-- The key of a guarded flow among a step's open seals: the source's address, the destination and the flow. -/
def sealKey (src dest flow : Nat) : Nat × Nat := (src, dest * 4096 + flow)

/-- A step uses a guarded flow: it does not commit before each of its n destinations has checked the flow's seal (R275). -/
def State.openSeal (s : State) (step src dest flow n : Nat) : State :=
  let k := sealKey src dest flow
  s.updStep step fun st => { st with seals := if st.seals.contains k then st.seals else st.seals ++ List.replicate n k }

/-- A tile port injects a packet. -/
def State.inject (s : State) (site : Nat) (p : MeshPkt) : State := s.emit (.mesh site p)

/-! ### Pointers and masks of an instance -/

/-- The template of an instance. -/
def State.tmplOf (s : State) (l : Launch) (i : Inst) : Option Template :=
  match (s.slot l.slot).img with
  | none => none
  | some im => im.tasks[i.tmpl]?

/-- The global address of an address operand: pointer slot plus offset (R375, R392). -/
def State.operand (s : State) (site pslot ofs : Nat) : Nat :=
  match s.launchAt site, (s.run site).inst with
  | some l, some i =>
    let base := if pslot = 0xFF then l.map else match s.tmplOf l i with
      | none => 0
      | some t => if t.pstride = 0 ∨ t.inst = 0 then 0 else nth 0 l.ptrs (i.j / t.inst * t.pstride + pslot)
    (base + ofs) % 2 ^ 48
  | _, _ => ofs % 2 ^ 48

/-- A global address lies in this device's HBM: its device ID is the slice's own logical ID, or there is no slice (R598). -/
def State.isLocal (s : State) (a : Nat) : Bool := !s.inSlice || bits a 47 40 == s.myLogical

/-- A bit of a mask (R388): explicit in HBM, or the bound of its dimension. -/
def State.maskBit (s : State) (addr n i : Nat) : Bool :=
  if addr = 0 then decide (i < n) else bit (s.dramN (addr + i / 8) 1) (i % 8)

/-- Count an event once for a task (R98, R99, R103, R143, R185, R191). -/
def onceIn (l : List (Nat × Nat)) (task code : Nat) : Bool := l.contains (task, code)

end Sys2Proof.Machine
end

