-- ==== Sys2Proof/Machine/Hbm.lean ====
section
/-! DEFINITION. The HBM controllers (chapter 10, R533 to R566, R745): requests from the mesh and from BAR4, the Keeper area, scrub,
row repair, loss of a stack. The structures that the Keeper area holds are computed from the state (log 35). -/

namespace Sys2Proof.Machine

/-! ### The Keeper area (R534, R560, R561) -/

/-- Where the Keeper places its structures, from HBM_RSV_BASE (log 36): Almanac, Ledger, distance table. -/
def almOfs : Nat := 0x10000000
def ldgOfs : Nat := 0x18000000
def distOfs : Nat := 0x19000000

/-- A window of Almanac (R490, R491). -/
def Almanac.window (a : Almanac) (w : Nat) : Sparse Nat := if w = 0 then a.win1 else if w = 1 then a.win60 else a.win3600

/-- A summary (R492). -/
def almSummary (m : Sparse Nat) (c : Nat) : List Byte :=
  let itl := countsOf m c 0
  let ftl := countsOf m c 1
  let q := fun p => leBytes 4 (quantile 0 itl p)
  let f := fun p => leBytes 4 (quantile 1 ftl p / 1000)
  leBytes 8 (sumNat itl) ++ leBytes 8 (sumNat ftl) ++ q 500 ++ q 990 ++ q 999 ++ f 500 ++ f 990 ++ f 999
    ++ leBytes 8 (sget cntDflt m (c * 2048 + 1024)) ++ leBytes 4 (sget cntDflt m (c * 2048 + 1025))
    ++ leBytes 4 (sget cntDflt m (c * 2048 + 1026)) ++ leBytes 8 0

/-- One unit of Almanac's region (R491). -/
def Almanac.unit (a : Almanac) (off : Nat) : Option (List Byte) :=
  if off < 0x40 then some (leBytes 8 a.gen ++ leBytes 8 a.lastEnd ++ leBytes 8 a.closed ++ List.replicate 40 0)
  else if 0x1000 ≤ off ∧ off < 0x1000 + 192 * 64 then
    let i := (off - 0x1000) / 64
    some (almSummary (a.window (i / 64)) (i % 64))
  else if 0x100000 ≤ off ∧ off < 0x100000 + 384 * 4096 then
    let i := (off - 0x100000) / 4096
    let b := off % 4096 / 8
    let m := a.window (i / 128)
    some ((List.range 8).flatMap fun j => leBytes 8 (sget cntDflt m (cntKey (i / 2 % 64) (i % 2) (b + j))))
  else none

/-- Millijoules of a nanojoule total (R739). -/
def mJ (n : Nat) : List Byte := leBytes 8 (n / 1000000)

/-- One unit of the Ledger's region (R739). -/
def Ledger.unit (l : Ledger) (off : Nat) : Option (List Byte) :=
  let p := l.pub
  let four := fun (f : Nat → List Byte) (base : Nat) => some ((List.range 4).flatMap fun i => f ((off - base) / 16 + i))
  if off < 0x40 then some (leBytes 8 l.gen ++ leBytes 8 l.lastEnd ++ leBytes 8 l.intervals ++ List.replicate 40 0)
  else if off < 0x80 then some (mJ p.device ++ mJ p.idle ++ mJ p.overhead ++ mJ p.uncl ++ List.replicate 32 0)
  else if 0x1000 ≤ off ∧ off < 0x1400 then
    four (fun c => mJ (sget natDflt p.cls c) ++ leBytes 8 (sget natDflt p.toks c)) 0x1000
  else if 0x2000 ≤ off ∧ off < 0x12000 then
    four (fun j => mJ (sget natDflt p.job j) ++ leBytes 8 (sget natDflt p.occ j / 1024)) 0x2000
  else none

/-- One unit of the distance table's two copies (R45). -/
def State.distUnit (s : State) (off : Nat) : Option (List Byte) :=
  if 2 * 589824 ≤ off then none
  else
    let cur := s.regN pgDfmDev 0x048 % 2
    let d := if off / 589824 = cur then s.die.distNew else s.die.distOld
    let o := off % 589824
    some (((s.distBlock d (o / 24576)).drop (o % 24576)).take 64)

/-- One unit of a structure of the Keeper area, by its offset from HBM_RSV_BASE. -/
def State.kStruct (s : State) (o : Nat) : Option (List Byte) :=
  if o < almOfs then some (((s.stream (o / 128)).bytes.drop (o % 128)).take 64)
  else if o < ldgOfs then s.alm.unit (o - almOfs)
  else if o < distOfs then s.ldg.unit (o - ldgOfs)
  else if o < distOfs + 2 * 589824 then s.distUnit (o - distOfs)
  else none

/-- One unit of the Keeper area at a device physical address, primary or mirror, once the Keeper has written it (R420, R534, R561); none where
memory itself holds it. -/
def State.keeperUnit (s : State) (a : Nat) : Option (List Byte) :=
  let base := s.rsvBase
  if a < base ∨ s.hbmSize ≤ a ∨ ¬s.intake.init then none
  else
    let o := a - base
    if o < 511 * 2 ^ 20 then s.kStruct o else if s.mirrorOff ≤ o then s.kStruct (o - s.mirrorOff) else none

/-- A stored unit with its check bytes, computed structures included. -/
def State.storedUnit (s : State) (h sa : Nat) : List Byte × List Byte :=
  let a := s.unitAddr h sa
  match s.keeperUnit a with
  | some d => (d, chkBytes h (sa / 64) d (s.hbm.kpoison.contains a))
  | none => s.unit h sa

/-- Disturbances of one computed unit. -/
def flipUnit (h sa : Nat) (fl : List Flip) (u : List Byte × List Byte) : List Byte × List Byte :=
  let l := fl.foldl (fun l f =>
    let k := unitKey h sa 0
    if k ≤ f.addr ∧ f.addr < k + 72 then setNth l (f.addr - k) (nth 0 l (f.addr - k) ^^^ f.bits) else l) (u.1 ++ u.2)
  (l.take 64, l.drop 64)

/-- A unit as a read with its disturbances meets it. -/
def State.metUnit (s : State) (h sa : Nat) (fl : List Flip) : List Byte × List Byte :=
  if (s.keeperUnit (s.unitAddr h sa)).isSome then flipUnit h sa fl (s.storedUnit h sa) else s.storedUnit h sa

/-! ### Requests (R536, R538 to R543) -/

/-- Fields of a head payload. -/
def qOp (h : Nat) : Nat := bits h 511 508
def qAck (h : Nat) : Bool := bit h 507
def qAddr (h : Nat) : Nat := bits h 501 462
def qUnits (h : Nat) : Nat := bits h 461 455
def qReply (h : Nat) : Nat := bits h 454 439
def qRflow (h : Nat) : Nat := bits h 438 427
def qTag (h : Nat) : Nat := bits h 426 411
def qStat (h : Nat) : Nat := bits h 410 409
def qMask (h : Nat) : Nat := bits h 408 345

/-- A packet enters the mesh at an attachment's first live router. -/
def State.attInject (s : State) (att : Nat) (p : MeshPkt) : State :=
  match (attRouters att).find? fun r => !s.physHole r with
  | some r => s.emit (.mesh r p)
  | none => s

/-- The epoch that every comb has reached (R677). -/
def State.devEpoch (s : State) : Nat := s.prog.switches % 4

/-- Answer a request: a response with units, or an acknowledgement. -/
def State.hbmAnswer (s : State) (h op q addr tagStat : Nat) (units : List (Nat × Bool)) : State :=
  s.attInject h (mkPkt (mkHdr (qReply q) (attDest h) 1 s.devEpoch (1 + units.length) 0 0 (qRflow q) 0)
    (op * 2 ^ 508 + addr * 2 ^ 462 + units.length * 2 ^ 455 + qTag q * 2 ^ 411 + tagStat * 2 ^ 409 + (2 ^ 64 - 1) * 2 ^ 345)
    units)

/-- A request is malformed (R539); `len` is LEN of its mesh header. -/
def hbmMalformed (q len : Nat) : Bool :=
  (qOp q != 1 && qOp q != 2) || qAddr q % 64 != 0
    || (qUnits q != 0 && qAddr q / 4096 != (qAddr q + 64 * qUnits q - 1) / 4096)
    || (if qOp q = 1 then decide (64 < qUnits q) else decide (12 < qUnits q) || len != 1 + qUnits q)
    || bits q 506 502 != 0 || bits q 344 0 != 0

/-- HBM_REQ_FMT (R539). -/
def State.hbmFmt (s : State) (h q src : Nat) : State :=
  let s := s.raise (pgHbm h) 1 0x0902 src (qAddr q % 2 ^ 32) (qAddr q / 2 ^ 32) 0 (s.reqStep src)
  if qOp q = 1 then s.hbmAnswer h 3 q (qAddr q) 2 []
  else if qOp q = 2 ∧ qAck q then s.hbmAnswer h 4 q (qAddr q) 2 []
  else s

/-- HBM_ADDR: an unmapped address (R536). -/
def State.hbmUnmapped (s : State) (a src : Nat) (step : Option Nat) : State :=
  s.raise pgHbmDev 0 0x0907 src (a % 2 ^ 32) (a / 2 ^ 32) 0 step

/-- A controller reads a unit. -/
def State.readAt (s : State) (h a source : Nat) (fl : List Flip) (served : Option Nat) : UnitRead :=
  let sa := (s.mapOf a).2
  s.ctlDecode h sa source (s.metUnit h sa fl) served

/-- Units of a read, in ascending order. -/
def State.readUnits (s : State) (h source : Nat) (fl : List Flip) (served : Option Nat) (a : Nat) :
    Nat → Nat → List (Nat × Bool) × State
  | _, 0 => ([], s)
  | i, n + 1 =>
    let r := s.readAt h (a + 64 * i) source fl served
    let (l, s) := State.readUnits r.s h source fl served a (i + 1) n
    ((leNat r.data, r.poison) :: l, s)

/-- The packets of a read's answer, twelve units each (R540). -/
def State.readAnswer (s : State) (h q stat : Nat) (units : List (Nat × Bool)) : State :=
  let parts := chunks 12 units.length units
  (List.range parts.length).foldl (fun s i => s.hbmAnswer h 3 q (qAddr q + 768 * i) stat (nth [] parts i)) s

/-- The step and the task of a tile of this device that sent a request. -/
def State.tileStep (s : State) (src : Nat) : Option (Nat × Nat) :=
  if bits src 15 14 ≠ 0 then none
  else (s.serving (bits src 11 7) (bits src 6 0)).bind fun site => (s.stepAt site).map fun n => (n, s.taskAt site)

/-- HBM_READ: a read request reaches a controller (R536, R538 to R540, R546 to R550, R559). `stackUe` says which units, from the first
on, the stack reports as uncorrectable; a tile's read of a page that its step has copied is served from the copy (R462). -/
def execHbmRead (stack : Nat) (head : BitVec 512) (hdr : BitVec 128) (flips : List Flip) (stackUe : List Nat) (s : State) : Res :=
  onUnit (decide (stack < 12)) (fun s =>
    let q := head.toNat
    let src := hSrc hdr.toNat
    if hbmMalformed q (hLen hdr.toNat) then s.hbmFmt stack q src
    else if qOp q ≠ 1 then s
    else if qUnits q = 0 then s.hbmAnswer stack 3 q (qAddr q) 0 []
    else if s.hbmSize ≤ qAddr q then
      (s.hbmUnmapped (qAddr q) src (s.reqStep src)).readAnswer stack q 0 (List.replicate (qUnits q) (0, true))
    else
      let a := match s.tileStep src with
        | some x => s.cowRead x.1 x.2 (qAddr q)
        | none => qAddr q
      let s := (s.disturbHbm flips).markDie (stackUe.map fun i => unitNum stack ((s.mapOf a).2 + 64 * i))
      let (l, s) := s.readUnits (if a = qAddr q then stack else (s.mapOf a).1) 0 flips (s.reqStep src) a 0 (qUnits q)
      s.readAnswer stack q (b2n ((s.stack stack).st != .run)) l) s

/-- A source that may write the Keeper area from the mesh: the Keeper complex (R535). -/
def keeperSrc (src : Nat) : Bool := src == attDest 33

/-- HBM_RSV_WRITE (R535). -/
def State.hbmRsv (s : State) (a src : Nat) (step : Option Nat) : State :=
  s.raise pgHbmDev 1 0x0908 src (a % 2 ^ 32) (a / 2 ^ 32) 0 step

/-! ### Ranges that a tile of the device reads and writes (R375, R533) -/

/-- A tile's read of 64-byte units at an address of this device, each with its poison. -/
def State.tileRead (s : State) (src a n : Nat) (step : Option Nat) : List (Nat × Bool) × State :=
  if a % 64 ≠ 0 then ([], s.raise (pgHbm (s.mapOf a).1) 1 0x0902 src (a % 2 ^ 32) (a / 2 ^ 32) 0 step)
  else
    (List.range n).foldl (fun acc i =>
      let x := a + 64 * i
      if acc.2.hbmSize ≤ x then
        (acc.1 ++ [(0, true)], if x = a ∨ x % 4096 = 0 then acc.2.hbmUnmapped x src step else acc.2)
      else
        let h := (acc.2.mapOf x).1
        let r := acc.2.readAt h x 0 [] step
        (acc.1 ++ [(leNat r.data, r.poison)], r.s)) ([], s)

/-- A tile's write of 64-byte units at an address of this device, for a step. -/
def State.tileWrite (s : State) (src a : Nat) (units : List (Nat × Bool)) (step : Option Nat) : State :=
  if a % 64 ≠ 0 then s.raise (pgHbm (s.mapOf a).1) 1 0x0902 src (a % 2 ^ 32) (a / 2 ^ 32) 0 step
  else
    (List.range units.length).foldl (fun s i =>
      let x := a + 64 * i
      let u := nth (0, true) units i
      if s.hbmSize ≤ x then (if i = 0 ∨ x % 4096 = 0 then s.hbmUnmapped x src step else s)
      else if s.rsvBase ≤ x then (if i = 0 ∨ x % 4096 = 0 then s.hbmRsv x src step else s)
      else s.writeAt (s.mapOf x).1 x (2 ^ 64 - 1) (leBytes 64 u.1) u.2 fun s _ => s) s

/-! ### Scrub (R551, R552) -/

/-- Units of a stack. -/
def stackUnits : Nat := 805306368

/-- A unit is read and written again: corrected, or in the poison form where it cannot be (R552, R554). A unit that the Keeper's structures
give is good once it is corrected. -/
def State.refresh (s : State) (h sa source : Nat) (fl : List Flip) : State :=
  let a := s.unitAddr h sa
  let comp := (s.keeperUnit a).isSome
  let (d, c) := s.metUnit h sa fl
  let poison := fun (k : Nat) =>
    let s := s.hbmUe h sa source k none
    if comp then { s with hbm := { s.hbm with kpoison := a :: s.hbm.kpoison, onDie := s.hbm.onDie.filter (· != unitNum h sa) } }
    else s.setUnit h sa d true
  if stsPoison c then s
  else if s.dieBad h sa then poison 2
  else match rsDecode h (sa / 64) d c with
    | .good _ => s
    | .corrected x => if comp then s.hbmCorrected h sa else (s.hbmCorrected h sa).setUnit h sa x false
    | .bad k => poison k

/-- HBM_SCRUB_READ: the next unit in ascending order; a new pass counts its rows afresh (R553). -/
def execHbmScrubRead (stack : Nat) (flips : List Flip) (stackUe : Bool) (s : State) : Res :=
  onUnit (decide (stack < 12)) (fun s =>
    let p := pgHbm stack
    if s.regN p 0x04C % 65536 = 0 ∨ (s.stack stack).st ≠ .run then s
    else
      let pos := s.regN p 0x068
      let sa := 64 * pos
      let s := s.setReg p 0x068 ((pos + 1) % stackUnits)
      let s := if pos = 0 then s.updStack stack fun x => { x with rows := [] } else s
      let s := (s.disturbHbm flips).markDie (if stackUe then [unitNum stack sa] else [])
      s.refresh stack sa 2 flips) s

/-! ### Row repair (R553 to R556) -/

/-- HBM_REPAIR_STATUS (R567). -/
def State.setRepair (s : State) (h last : Nat) : State :=
  let x := s.stack h
  s.setReg (pgHbm h) 0x060 (min 255 x.softDone * 2 ^ 24 + min 255 x.hard.length * 65536 + last)

/-- No spare row: HBM_REPAIR_FAIL (R556). -/
def State.repairFail (s : State) (h sa : Nat) : State :=
  (s.setRepair h 2).report (pgHbm h) 3 0x0904 (sa / 64) 2 0

/-- SADDR of a repair command. -/
def cmdAddr (c : Nat) : Nat := bits c 35 6 * 64

/-- A repair command is kept with GO clear once it is done (R571). -/
def State.keepCmd (s : State) (h c : Nat) : State := s.setReg64 (pgHbm h) 0x058 (bits c 62 0 &&& cmdBits)

/-- The units of a stack in the row of one of them that are not known to be good: those with stored bytes, those that their stack has
reported, and those that the repair finds disturbed. Every other unit of the row reads good and is written back as it is. -/
def State.rowUnits (s : State) (h u : Nat) (fl : List Flip) : List Nat :=
  let l := (s.mem.hbm.map fun e => e.1 / 72) ++ s.hbm.onDie ++ fl.map fun f => f.addr / 72
  ((l.filter fun k => k / 2 ^ 30 == h && Config.hbmRow (k % 2 ^ 30) == Config.hbmRow u).map (· % 2 ^ 30)).eraseDups

/-- HBM_SOFT_REPAIR (R554, R556). -/
def execHbmSoftRepair (src : Source) (stack : Nat) (cmd : DWord) (noSpare : Bool) (flips : List Flip) (s : State) : Res :=
  onUnit (decide (stack < 12)) (fun s =>
    s.goWrite src (pgHbm stack) 0x05C (bit (s.reg64 (pgHbm stack) 0x058) 63) fun s =>
      let c := cmd.toNat
      let u := cmdAddr c / 64
      let s := s.keepCmd stack c
      if !bit c 63 || bit c 62 then s
      else if (s.stack stack).st ≠ .run then s.setRepair stack 3
      else if noSpare then s.repairFail stack (cmdAddr c)
      else
        let s := s.disturbHbm flips
        let s := (s.rowUnits stack u flips).foldl (fun s k => s.refresh stack (64 * k) 4 flips) s
        (s.updStack stack fun x => { x with soft := Config.hbmRow u :: x.soft, softDone := x.softDone + 1 }).setRepair stack 1) s

/-- HBM_HARD_REPAIR (R555, R556). -/
def execHbmHardRepair (src : Source) (stack : Nat) (cmd : DWord) (noSpare : Bool) (s : State) : Res :=
  onUnit (decide (stack < 12)) (fun s =>
    s.goWrite src (pgHbm stack) 0x05C (bit (s.reg64 (pgHbm stack) 0x058) 63) fun s =>
      let c := cmd.toNat
      let s := s.keepCmd stack c
      if !bit c 63 || !bit c 62 then s
      else if noSpare then s.repairFail stack (cmdAddr c)
      else
        let s := s.storeDefect { type := 3, origin := 1, start := s.nv.starts % 65536, ref := stack, data := cmdAddr c / 64 }
        (s.updStack stack fun x => { x with hard := x.hard ++ [cmdAddr c] }).setRepair stack
          (s.regN (pgHbm stack) 0x060 % 4)) s

/-! ### Loss and heat (R559, R745) -/

/-- HBM_STACK_LOST. -/
def execHbmStackLost (stack : Nat) (s : State) : Res :=
  onUnit (decide (stack < 12)) (fun s =>
    if (s.stack stack).st ≠ .run then s
    else
      let s := s.updStack stack fun x => { x with st := .out }
      (s.raise (pgHbm stack) 5 0x0906 stack 0 0 0 none).review) s

/-- HBM_HOT: TEMP reaches 95 °C or 105 °C (R745). -/
def execHbmHot (stack temp : Nat) (s : State) : Res :=
  onUnit (decide (stack < 12)) (fun s =>
    let old := (s.stack stack).temp
    let s := s.updStack stack fun x => { x with temp := temp % 256, reduced := x.reduced || decide (95 ≤ temp) }
    if 95 ≤ temp ∧ old < 95 then (s.flag pgThm 3).log (pgHbm stack) 0x1405 stack temp 0 0 else s) s

/-- HBM_FULL_RATE_RETURN: TEMP falls below 90 °C (R745). -/
def execHbmFullRateReturn (stack temp : Nat) (s : State) : Res :=
  onUnit (decide (stack < 12)) (fun s =>
    if 90 ≤ temp then s else s.updStack stack fun x => { x with temp := temp, reduced := false }) s

/-! ### BAR4 (R562 to R566, R652, R810) -/

/-- BAR4's size in bytes. -/
def State.bar4Size (s : State) : Nat := 2 ^ (s.regN pgPci 0x078 % 8) * 2 ^ 30

/-- A BAR4 access outside HBM or into the Keeper area (R565). -/
def State.winRange (s : State) (off wr : Nat) : State :=
  (s.incReg pgHbmDev 0x068).report pgHbmDev 2 0x0909 (off % 2 ^ 32) (off / 2 ^ 32) wr

/-- BAR4 is served (R797, R810). -/
def State.bar4Open (s : State) : Bool := s.live || (s.dev.st == .failed && s.dev.servedOnce && !s.hs.isEmpty)

/-- BAR4_READ (R564, R565). -/
def execBar4Read (off len : Nat) (s : State) : Res :=
  .next (
    let a := s.reg64 pgHbmDev 0x060 + off
    if s.bar4Size < off + len then s
    else if !s.bar4Open || decide (s.hbmSize < a + len) then (s.winRange off 0).emit (.bar4Data (List.replicate len 0) false)
    else
      let (d, p, s) := (unitsOf a len).foldl (fun (acc : List Byte × Bool × State) u =>
        let r := acc.2.2.readAt (acc.2.2.mapOf u).1 u 1 [] none
        (acc.1 ++ r.data, acc.2.1 || r.poison, r.s)) (([] : List Byte), false, s)
      s.emit (.bar4Data ((d.drop (a % 64)).take len) p))

/-- The base of BAR4 is rounded down to a multiple of its new size, in both values, as an order of the Keeper (R563). The size
it already has is no change. -/
def State.resizeBar4 (s : State) (log2 : Nat) : State :=
  if s.regN pgPci 0x078 = log2 then s
  else
    let s := s.setReg pgPci 0x078 log2
    let sz := s.bar4Size
    let s := match sfind s.staged (regKey pgHbmDev 0x060), sfind s.staged (regKey pgHbmDev 0x064) with
      | none, none => s
      | _, _ =>
        let v := s.stg64 pgHbmDev 0x060 / sz * sz
        { s with staged := sput (sput s.staged (regKey pgHbmDev 0x060) (w32 v)) (regKey pgHbmDev 0x064) (w32 (v / 2 ^ 32)) }
    (s.setReg64 pgHbmDev 0x060 (s.reg64 pgHbmDev 0x060 / sz * sz)).noteOrder .keeper pgHbmDev 0

/-- BAR4_RESIZE: a size of 2^log2 GiB, log2 0 to 6 (R563, R648). -/
def execBar4Resize (log2 : Nat) (s : State) : Res := onUnit (decide (log2 ≤ 6)) (fun s => s.resizeBar4 log2) s

end Sys2Proof.Machine
end

