-- ==== Sys2Proof/Machine/Links.lean ====
section
/-! DEFINITION. Treath ports as senders see them: bundles, routes, entry ports (R580, R591, R592, R598), and the HBM
requests of a tile port (R533, R538, R598). -/

namespace Sys2Proof.Machine

/-- The entry port of a physical device (R598). -/
def State.entryPort (s : State) (d : Nat) : Option Nat :=
  match s.bundleFor d with
  | none => none
  | some b => (s.bundleUp b).head?

/-- The Treath attachment that serves a logical device; the lowest one where no port is UP or the entry is not VALID:
its port answers under R591 or R599. -/
def State.remoteAtt (s : State) (l : Nat) : Nat := 16 + ((s.remapDev l).bind s.entryPort).getD 0

/-- An HBM request's head payload (R538, R598). -/
def hbmReq (op ack addr units reply rflow tag logical : Nat) : Nat :=
  op * 2 ^ 508 + ack * 2 ^ 507 + addr % 2 ^ 40 * 2 ^ 462 + units * 2 ^ 455 + reply * 2 ^ 439 + rflow % 4096 * 2 ^ 427
    + tag % 65536 * 2 ^ 411 + (2 ^ 64 - 1) * 2 ^ 345 + logical * 2 ^ 337

/-- Read requests of a tile port for a remote range: split at 4 KiB boundaries, each at most 64 units (R533, R538). -/
def State.remoteReads (s : State) (site a len rflow : Nat) : State :=
  let logical := bits a 47 40
  let base := a % 2 ^ 40
  let n := (base + len + 4095) / 4096 - base / 4096
  let own := s.ownDest site
  let dest := attDest (s.remoteAtt logical)
  (List.range n).foldl (fun s i =>
    let lo := max base ((base / 4096 + i) * 4096)
    let hi := min (base + len) ((base / 4096 + i + 1) * 4096)
    s.inject site (mkPkt (mkHdr dest own 0 (s.epochOf (siteComb site)) 1 0 0 rflow 0)
      (hbmReq 1 0 lo ((hi - lo) / 64) own rflow i logical) [])) s

/-- Units 0 to n - 1 from an address as write packets: twelve units at most, none across a 4 KiB boundary (R538, R539). -/
def writeCuts (base n : Nat) : List (List Nat) :=
  (List.range n).foldl (fun (acc : List (List Nat)) i =>
    match acc.getLast? with
    | some g => if g.length < 12 ∧ (base + 64 * i) % 4096 ≠ 0 then acc.dropLast ++ [g ++ [i]] else acc ++ [[i]]
    | none => [[i]]) []

/-- Write requests of a tile port for remote rows, twelve units to a packet and none across a 4 KiB boundary; each asks
for an acknowledgement. -/
def State.remoteWrites (s : State) (site a rflow : Nat) (rows : List (List Byte × Bool)) : State :=
  let logical := bits a 47 40
  let base := a % 2 ^ 40
  let own := s.ownDest site
  let dest := attDest (s.remoteAtt logical)
  let us := rows.flatMap fun r => [(leNat (r.1.take 64), r.2), (leNat (r.1.drop 64), r.2)]
  let cuts := writeCuts base us.length
  (List.range cuts.length).foldl (fun s k =>
    let g := nth [] cuts k
    let i0 := nth 0 g 0
    s.inject site (mkPkt (mkHdr dest own 0 (s.epochOf (siteComb site)) (1 + g.length) 0 0 rflow 0)
      (hbmReq 2 1 (base + 64 * i0) g.length own rflow k logical)
      (g.map fun i => nth (0, false) us i))) s

end Sys2Proof.Machine
end

