-- ==== Sys2Proof/Machine/Buf.lean ====
section
/-! DEFINITION. B tiles (chapter 6): row windows, reads and their errors, the AREAD queue, the hold queue, mesh requests and what waits
for room. Commands of one tile come in the order of their comb cycles (log 33). -/

namespace Sys2Proof.Machine

def State.btile (s : State) (site : Nat) : BTile := sget btDflt s.bt site
def State.updB (s : State) (site : Nat) (f : BTile → BTile) : State := { s with bt := supd btDflt s.bt site f }
/-- The bank of a row, and its bank row (R309). -/
def bankOf (row : Nat) : Nat := row % 32
def bankRow (row : Nat) : Nat := row / 32

/-- The current window of a bank (R328, R360). -/
def State.bWin (s : State) (site n : Nat) : Nat := s.regN site (0x100 + 4 * n)

/-- The window that governs admissions of a cycle: a window operation of that cycle governs from the next one on (R329). -/
def State.winAt (s : State) (site n cyc : Nat) : Nat :=
  match (s.btile site).wins.find? fun e => e.1 == n && e.2.1 == cyc with
  | some e => e.2.2
  | none => s.bWin site n

/-- A row lies in an open window in a cycle. -/
def State.winOpen (s : State) (site row cyc : Nat) : Bool :=
  let w := s.winAt site (bankOf row) cyc
  bit w 31 && decide (bits w 8 0 ≤ bankRow row) && decide (bankRow row ≤ bits w 24 16)

/-- A bank is in a scheduled port's mask (R317). -/
def State.portBank (s : State) (site port row : Nat) : Bool := bit (s.regN site (0x070 + 4 * port)) (bankOf row)

/-! ### Reads and their errors (R343 to R346) -/

/-- BUF_ECC_LAST (R356). -/
def eccLast (source word row syn : Nat) : Nat := 2 ^ 31 + source * 2 ^ 28 + word * 2 ^ 24 + row * 256 + syn

/-- An uncorrectable word (R345); a scrub's report forbids no commit (R348), nor does that of a cached KV row, source 4 (R468). -/
def State.bufUe (s : State) (site row word syn source : Nat) : State :=
  let s := s.incHalf site 0x04C 16
  let s := if s.flagged site 2 then s else s.setReg site 0x050 (eccLast (if source = 4 then 1 else source) word row syn)
  let s := s.flag site 2
  if source = 2 ∨ source = 4 then s.log site 0x0203 (s.regN site 0x050) 0 0 0
  else s.forbidUe site 0x0203 (s.regN site 0x050) 0 0 row (s.combStep site)

/-- Decode the words of a row as a read of a source finds them. -/
def State.bWords (s : State) (site row source : Nat) : List RowWord → Nat → List WordRead × State
  | [], _ => ([], s)
  | w :: t, i =>
    let r := wordDecode w row
    let s := match r with
      | .corrected _ => s.incHalf site 0x04C 0
      | .bad syn _ => s.bufUe site row i syn source
      | _ => s
    let (l, s) := State.bWords s site row source t (i + 1)
    (r :: l, s)

/-- Read a row now. -/
def State.bReadRow (s : State) (site row source : Nat) (fl : List Flip) : List WordRead × State :=
  let s : State := { s with mem := { s.mem with buf := disturb bufDflt s.mem.buf fl } }
  s.bWords site row source (getRow bufDflt bufRows s.mem.buf site row) 0

/-- Write words of a row now; a pending write-back of the scrub to it is cancelled (R348). -/
def State.bWriteRow (s : State) (site row mask : Nat) (ws : List RowWord) : State :=
  let s : State := { s with mem := { s.mem with buf := putRow bufDflt bufRows s.mem.buf site row mask ws } }
  s.updB site fun t => { t with scrubBack := t.scrubBack.filter fun b => b.1 != row }

/-- Words as they leave on a side channel (R346). -/
def sideForm (row : Nat) (l : List WordRead) : List RowWord := l.map fun w => wordForm w.val row w.poison

/-- Bit w set where word w is poisoned. -/
def poisonMask (l : List WordRead) : Nat := sumNat ((List.range l.length).map fun i =>
  if (nth (.ok 0) l i).poison then 2 ^ i else 0)

/-! ### Collisions (R317, R321 to R323) -/

/-- BUF_COLL_LAST (R357). -/
def collLast (write own : Bool) (winner loser row : Nat) : Nat :=
  2 ^ 31 + b2n write * 2 ^ 30 + b2n own * 2 ^ 29 + winner * 2 ^ 24 + loser * 2 ^ 21 + bankOf row * 2 ^ 16 + row

/-- BANK_COLLISION: recorded when it is the first, logged; the step cannot commit. -/
def State.collide (s : State) (site : Nat) (write own : Bool) (winner loser row : Nat) : State :=
  let s := if s.flagged site 0 then s else s.setReg site 0x054 (collLast write own winner loser row)
  let s := s.flag site 0
  s.forbid site 0x0201 (s.regN site 0x054) 0 0 (bankOf row) (s.combStep site)

/-- The halves of a read row with the POISON of their flits (R338). -/
def rowHalves (l : List WordRead) : List (List Byte × Bool) :=
  [(wordsBytes (l.take 8), (l.take 8).any (·.poison)), (wordsBytes (l.drop 8), (l.drop 8).any (·.poison))]

/-! ### Ports (R312, R313, R317) -/

/-- A B tile performs accesses: in service, its comb not parked (R349). -/
def State.bLive (s : State) (site : Nat) : Bool := s.inRun site && !s.combClosed (siteComb site)

/-- The logical M site whose side channel is port SC0 to SC3 of a logical B site (R313). -/
def portMate (l port : Nat) : Nat :=
  let row := l / 12
  let r := if port < 2 then row else if row < 4 then Nat.xor row 1 else Nat.xor (row - 1) 1 + 1
  12 * r + l % 12 + 2 * (port % 2) - 1

/-- The M–B pairing of a side-channel port has lost its side channel (R37, R61, R340). -/
def State.portLost (s : State) (site port : Nat) : Bool :=
  match s.served site with
  | none => false
  | some l => match s.serving (siteComb site) (portMate l port) with
    | none => false
    | some k => s.lostPair k l

/-- A scheduled port carries traffic: SEQ; a side channel of a site of a block whose pairing has it (R26, R37, R313). -/
def State.portUsed (s : State) (site port : Nat) : Bool :=
  port == 4 || (decide (siteIdx site < 108) && !s.portLost site port)

/-- The side-channel port of a B tile whose lost pairing a sender belongs to (R340). -/
def State.pairPort (s : State) (site src : Nat) : Option Nat :=
  (List.range 4).find? fun p => s.portLost site p && (match s.served site with
    | some l => (s.serving (siteComb site) (portMate l p)).any fun k => s.ownDest k == src
    | none => false)

/-! ### Mesh requests (R336 to R339) -/

/-- Fields of a head payload (R336). -/
def bOp (h : Nat) : Nat := bits h 511 508
def bAck (h : Nat) : Bool := bit h 507
def bRow (h : Nat) : Nat := bits h 501 488
def bRows (h : Nat) : Nat := bits h 487 481
def bWmask (h : Nat) : Nat := bits h 480 465
def bReply (h : Nat) : Nat := bits h 464 449
def bRflow (h : Nat) : Nat := bits h 448 437
def bTag (h : Nat) : Nat := bits h 436 421

/-- A read or write operation, partner forms included. -/
def bIsRead (h : Nat) : Bool := bOp h == 1 || bOp h == 5
def bIsWrite (h : Nat) : Bool := bOp h == 2 || bOp h == 6

/-- A request is malformed (R337); `len` is LEN of its mesh header. -/
def bMalformed (h len : Nat) : Bool :=
  !(bIsRead h || bIsWrite h) || (bRows h != 0 && decide (16383 < bRow h + bRows h - 1))
    || (if bIsRead h then decide (96 < bRows h) || bWmask h != 0 else decide (6 < bRows h) || len != 1 + 2 * bRows h)
    || bits h 506 502 != 0 || bits h 418 0 != 0

/-- A response or acknowledgement's head payload. -/
def bHead (op row rows tag stat : Nat) : Nat := op * 2 ^ 508 + row * 2 ^ 488 + rows * 2 ^ 481 + tag * 2 ^ 421 + stat * 2 ^ 419

/-- Send a response (VC 1) with its rows' halves, or an acknowledgement. -/
def State.bAnswer (s : State) (site reply rflow op row tag stat : Nat) (halves : List (Nat × Bool)) : State :=
  s.inject site (mkPkt (mkHdr reply (s.ownDest site) 1 (s.epochOf (siteComb site)) (1 + halves.length) 0 0 rflow 0)
    (bHead op row (halves.length / 2) tag stat) halves)

/-- REQ_FMT (R337). -/
def State.bFmt (s : State) (site h src : Nat) : State :=
  let s := s.raise site 3 0x0204 src (bOp h) (bRow h) 0 (s.combStep site)
  if bIsRead h || bOp h == 1 then s.bAnswer site (bReply h) (bRflow h) 3 (bRow h) (bTag h) 2 []
  else if bIsWrite h && bAck h then s.bAnswer site (bReply h) (bRflow h) 4 (bRow h) (bTag h) 2 []
  else s

/-- A read request enters the AREAD queue (R319, R320, R339). Where a flit of it carried POISON, every row it reads is poisoned (R271,
log 103). -/
def State.bEnqueue (s : State) (site h src len : Nat) (poison : Bool) (port : Option Nat) (cyc : Nat) : State :=
  if bMalformed h len then s.bFmt site h src
  else if bRows h = 0 then s.bAnswer site (bReply h) (bRflow h) 3 (bRow h) (bTag h) 0 []
  else s.updB site fun t => { t with reads := t.reads ++ [{
    row := bRow h, left := bRows h, reply := bReply h, rflow := bRflow h, tag := bTag h, port, first := bRow h, got := []
    headAt := cyc + 1, poison, seg := none }] }

/-- A read of a cached segment enters the AREAD queue (R467). -/
def State.segEnqueue (s : State) (site row n : Nat) (r : SegRead) (cyc : Nat) : State :=
  s.updB site fun t => { t with reads := t.reads ++ [{
    row, left := n, reply := 0, rflow := 0, tag := 0, port := none, first := row, got := [], headAt := cyc + 1, poison := false
    seg := some r }] }

/-! ### Held writes (R332 to R335) -/

/-- The acknowledgement of a packet whose rows have all landed or been discarded (R335). -/
def State.bAckPkt (s : State) (site : Nat) (p : BPkt) : State :=
  if p.ack then s.bAnswer site p.reply p.rflow 4 0 p.tag (b2n p.lost) [] else s

/-- One row of a packet is settled; `lost` says that it was discarded. The record of a transfer's packet stays until its counter counts,
that of a cache write as long as its segment is held. -/
def State.bRowDone (s : State) (site pkt : Nat) (lost : Bool) : State :=
  match (s.btile site).pkts.find? fun p => p.pkt == pkt with
  | none => s
  | some p =>
    let p' : BPkt := { p with left := p.left - 1, lost := p.lost || lost }
    if p'.left = 0 ∧ p'.ctr = none then
      (s.updB site fun t => { t with pkts := t.pkts.filter fun x => x.pkt != pkt }).bAckPkt site p'
    else s.updB site fun t => { t with pkts := t.pkts.map fun x => if x.pkt = pkt then p' else x }

/-- Free entries of the hold queue. -/
def BTile.holdFree (t : BTile) : Nat := 16 - t.hold.length

/-- Rows enter the hold queue as one packet. -/
def State.bHoldRows (s : State) (site src epoch cyc : Nat) (rows : List (Nat × List RowWord)) (mask : Nat) (partner : Bool)
    (p : BPkt) : State :=
  s.updB site fun t =>
    let k := t.nextPkt
    { t with
      hold := t.hold ++ rows.map fun r => { row := r.1, words := r.2, wmask := mask, arr := cyc, pkt := k, src, partner, epoch }
      pkts := t.pkts ++ [{ p with pkt := k, left := rows.length }]
      nextPkt := k + 1 }

/-- A packet with no rows to hold. -/
def noPkt : BPkt := { pkt := 0, left := 0, lost := false, logged := false, ctr := none, ack := false, reply := 0, rflow := 0, tag := 0 }

/-- The rows of a write packet: stored words, in the poison form where their flit carries POISON. -/
def pktRows (h : Nat) (body : List PFlit) : List (Nat × List RowWord) :=
  (List.range (bRows h)).map fun r =>
    let row := bRow h + r
    (row, (List.range 16).map fun w =>
      let f := nth { lane := 0, pay := 0, poison := true } body (2 * r + w / 8)
      wordForm (bits f.pay.toNat (64 * (w % 8) + 63) (64 * (w % 8))) row f.poison)

/-- A write request enters the hold queue (R332, R337, R339). -/
def State.bHoldPkt (s : State) (site : Nat) (pkt : MeshPkt) (port : Option Nat) (cyc : Nat) : State :=
  let hd := MeshPkt.hdr pkt
  let h := MeshPkt.head pkt
  let p : BPkt := { noPkt with ack := bAck h, reply := bReply h, rflow := bRflow h, tag := bTag h }
  if bMalformed h (hLen hd) then s.bFmt site h (hSrc hd)
  else if bRows h = 0 then s.bAckPkt site p
  else
    let bad := MeshPkt.poisoned pkt
    let rows := pktRows h ((MeshPkt.body pkt).map fun f => { f with poison := f.poison || bad })
    let refused := fun (r : Nat) => match port with
      | some q => !s.portBank site q r
      | none => false
    let k := (s.btile site).nextPkt
    let s := s.bHoldRows site (hSrc hd) (hEpoch hd) cyc rows (bWmask h) port.isSome p
    (rows.filter fun r => refused r.1).foldl (fun s r =>
      let s := s.updB site fun t => { t with hold := t.hold.filter fun e => !(e.pkt == k && e.row == r.1) }
      (s.collide site true true 0 (port.getD 0) r.1).bRowDone site k true) s

/-! ### Requests at the tile port -/

/-- The virtual channel of a request: answers come on the response channel. -/
def BWait.vc : BWait → Nat
  | .read _ _ _ vc _ _ _ => vc
  | .write p _ => hVc (MeshPkt.hdr p)
  | .rows .. => 1
  | .seg .. => 1

/-- Its epoch. -/
def BWait.epoch (now : Nat) : BWait → Nat
  | .read _ _ _ _ e _ _ => e
  | .write p _ => hEpoch (MeshPkt.hdr p)
  | .rows _ _ _ e _ _ => e
  | .seg .. => now

/-- A request finds room: one of the 8 places of the AREAD queue, or hold entries for its rows (R320, R332). One that is malformed or
names no rows needs none. -/
def BTile.room (t : BTile) : BWait → Bool
  | .read h _ len _ _ _ _ => bMalformed h len || bRows h == 0 || decide (t.reads.length < 8)
  | .write p _ => bMalformed (MeshPkt.head p) (hLen (MeshPkt.hdr p)) || decide (bRows (MeshPkt.head p) ≤ t.holdFree)
  | .rows l _ _ _ _ _ => decide (l.length ≤ t.holdFree)
  | .seg .. => decide (t.reads.length < 8)

/-- The tile takes a request. -/
def State.bTake (s : State) (site cyc : Nat) : BWait → State
  | .read h src len _ _ poison port => s.bEnqueue site h src len poison port cyc
  | .write p port => s.bHoldPkt site p port cyc
  | .rows l mask src epoch partner p => s.bHoldRows site src epoch cyc l mask partner p
  | .seg row n r => s.segEnqueue site row n r cyc

/-- A request that came as a packet of the mesh. -/
def BWait.packet : BWait → Bool
  | .seg .. => false
  | _ => true

/-- A request comes to the tile: without room, or behind another of its channel, it waits and no credit goes back. -/
def State.bCome (s : State) (site cyc : Nat) (w : BWait) : State :=
  let t := s.btile site
  if t.room w && !t.waiting.any (fun x => x.vc == w.vc && x.packet == w.packet) then s.bTake site cyc w
  else s.updB site fun t => { t with waiting := t.waiting ++ [w] }

/-- Requests that wait, oldest first: each that has room is taken unless an older one of its channel still waits. -/
def State.bRetry (s : State) (site cyc : Nat) : State :=
  let l := (s.btile site).waiting
  let s := s.updB site fun t => { t with waiting := [] }
  l.foldl (fun s w => s.bCome site cyc w) s

/-- A partner form arrives: it belongs to a pairing that has lost its side channel, on the response channel (R37, R340). -/
def State.partnerOk (s : State) (site port vc src : Nat) : Bool := s.pairPort site src == some port && vc == 1

/-! ### Scheduled accesses (R312 to R318) -/

/-- Rows of a scheduled access: one, or an aligned pair (R314). -/
def accessRows (pair : Bool) (row : Nat) : List Nat := if pair then [row / 2 * 2, row / 2 * 2 + 1] else [row]

/-- A scheduled access exists: ports 0 to 4, a pair on the side channels only (R312). -/
def schedOk (site port row : Nat) (pair : Bool) : Bool :=
  isKind .b site && decide (port ≤ 4) && decide (row < bufRows) && !(pair && port == 4)

/-- A port takes an access in a bank cycle; each takes one row, or one pair, at most (R312, R316). -/
def BTile.busy (t : BTile) (port c : Nat) : Bool :=
  (t.pipe.any fun a => a.port == port && a.cyc == c) || t.claims.any fun e => e.1 == c && e.2.1 == port

/-- Another port has claimed the read or the write port of a row's bank for a bank cycle: an access in the pipeline that its mask does
not refuse, or a read of AREAD or SCRUB (R311, R324). -/
def BTile.claimed (t : BTile) (write : Bool) (row c : Nat) : Bool :=
  (t.pipe.any fun a => a.write == write && !a.own && a.cyc == c && bankOf a.row == bankOf row)
    || (!write && t.claims.any fun e => e.1 == c && bankOf e.2.2 == bankOf row)

/-- The next bank cycle in which port SEQ presents nothing yet, for an access from the tile's time on (R312, R318). -/
def BTile.seqFree (t : BTile) : Nat := max (t.now + 2) (maxNat ((t.pipe.filter fun a => a.port == 4).map (·.cyc)) + 1)

/-- Scheduled reads of rows, one in each comb cycle from the first in which the port is free; for a transfer of the sequencer (R315). -/
def State.seqRead (s : State) (site row n : Nat) (step : Option Nat) (out : SeqOut) : State :=
  let t := s.btile site
  let id := t.nextJob
  let acc := (List.range n).map fun i => ({
    cyc := t.seqFree + i, port := 4, write := false, row := (row + i) % bufRows, words := [], wmask := 0, flips := []
    own := !s.portBank site 4 ((row + i) % bufRows), sel := false, job := some id, load := none } : BAccess)
  s.updB site fun t => { t with
    pipe := t.pipe ++ acc, nextJob := id + 1, jobs := t.jobs ++ [{ id, left := n, got := [], step, out }] }

/-! ### Epochs, loss of contents -/

/-- No entry of the old epoch is held (R352). -/
def State.bDrained (s : State) (site : Nat) : Bool :=
  (s.btile site).hold.all fun e => e.epoch != s.epochOf (siteComb site)

/-- At an epoch switch FLUSH discards the held entries of the old epoch, each counted in MSH_FLUSH_COUNT and acknowledged as discarded
(R335, R352), and the requests of the old epoch that still wait at the tile port, each counted (R293). -/
def State.bSwitch (s : State) (site old cyc : Nat) (flush : Bool) : State :=
  if !flush then s
  else
    let t := s.btile site
    let gone := t.hold.filter fun e => e.epoch == old
    let late := t.waiting.filter fun w => w.epoch old == old
    let s := s.updB site fun t => { t with
      hold := t.hold.filter fun e => e.epoch != old, waiting := t.waiting.filter fun w => w.epoch old != old }
    let s := (gone.map fun e => e.pkt).foldl (fun s k => (s.bRowDone site k true).incReg (pgRouter site) 0x058) s
    let s := (late.filter BWait.packet).foldl (fun s _ => s.incReg (pgRouter site) 0x058) s
    s.bRetry site cyc

/-- Every window of a tile takes its committed value (R330). -/
def State.bWindows (s : State) (site : Nat) : State :=
  (List.range 32).foldl (fun s n => s.setReg site (0x100 + 4 * n) (s.regN site (0x180 + 4 * n))) s

/-- Every window of a tile is closed (R349, R350). -/
def State.bClose (s : State) (site : Nat) : State :=
  (List.range 32).foldl (fun s n => s.setReg site (0x100 + 4 * n) (bits (s.bWin site n) 30 0)) s

/-- Every row of a tile holds zero words (R351). -/
def State.bZero (s : State) (site : Nat) : State :=
  let lo := wordKey bufRows site 0 0
  let hi := wordKey bufRows (site + 1) 0 0
  { s with mem := { s.mem with buf := s.mem.buf.filter fun e => decide (e.1 < lo) || decide (hi ≤ e.1) } }

end Sys2Proof.Machine
end

