-- ==== Sys2Proof/Machine/MPass.lean ====
section
/-! DEFINITION. The M-tile engine (chapter 3): operand store, pass classes, weight vectors, block sums, checks, groups. -/

namespace Sys2Proof.Machine

/-! ### Fields of a pass record (R130) -/

def pAfmt (r : Nat) : Nat := bits r 127 124
def pWfmt (r : Nat) : Nat := bits r 123 120
def pPlanes (r : Nat) : Nat := bits r 119 115
def pWsrc (r : Nat) : Bool := bit r 114
def pPset (r : Nat) : Bool := bit r 113
def pAnchor (r : Nat) : Int := signed 10 (bits r 112 103)
def pNfeat (r : Nat) : Nat := bits r 102 87
def pRed (r : Nat) : Nat := bits r 79 64
def pWsOff (r : Nat) : Nat := bits r 63 48
def pMask (r : Nat) : Nat := bits r 31 0

/-- Fields of a plane load record (R157). -/
def ldFmt (r : Nat) : Nat := bits r 63 60
def ldSet (r : Nat) : Bool := bit r 59
def ldPlanes (r : Nat) : Nat := bits r 58 54
def ldQ0 (r : Nat) : Nat := bits r 53 32
def ldK0 (r : Nat) : Nat := bits r 31 8
def ldMac2 (r : Nat) : Bool := bit r 7

/-- The layout class of a load (R114). -/
def ldClass (r : Nat) : Nat := if 6 ≤ ldFmt r then 2 else if ldMac2 r then 1 else 0

/-- The class of a pass (R110, R114): 0 one MAC, 1 two MACs, 2 fused pair. -/
def passClass (af wf : Nat) : Nat :=
  if 6 ≤ af then 2 else if 3 ≤ af ∧ 3 ≤ wf ∧ af ≤ 5 ∧ wf ≤ 5 then 1 else 0

/-- Reduction indices of a plane by class (R110). -/
def classK (c : Nat) : Nat := if c = 1 then 64 else if c = 2 then 16 else 32

/-- Scaled blocks of a vector by class (R115). -/
def classBlocks (c : Nat) : Nat := if c = 1 then 2 else 1

/-- Bytes of a weight vector (R110). -/
def vecBytes (c wf : Nat) : Nat := classK c * fmtBits wf / 8

def MTile.set (t : MTile) (b : Bool) : PlaneSet := if b then t.b else t.a
def MTile.putSet (t : MTile) (b : Bool) (x : PlaneSet) : MTile := if b then { t with b := x } else { t with a := x }

/-! ### Operand store (R159 to R162) -/

/-- An uncorrectable word of the operand store: counted, logged as OPS_UE, a strike on its repeat (R162, R345). -/
def State.opsUe (s : State) (site row w syn : Nat) (step : Option Nat) : State :=
  (s.incHalf site 0x05C 16).forbidUe site 0x010A row w syn row step

/-- Read words of the operand store; a corrected word is counted, an uncorrectable one counted and logged as OPS_UE (R162). What
the feeder reads from the tally store or beyond the store is a free value (log 94). -/
def State.opsWord (s : State) (site w : Nat) (step : Option Nat) : WordRead × State :=
  let row := w / 16
  if 1280 ≤ row then
    (.ok (Config.opsFree site w).toNat, s)
  else
    let r := wordDecode (getWord opsDflt s.mem.ops (wordKey opsRows site row (w % 16))) row
    match r with
    | .ok _ => (r, s)
    | .corrected _ => (r, s.incHalf site 0x05C 0)
    | .poisoned _ => (r, s)
    | .bad syn _ => (r, s.opsUe site row (w % 16) syn step)

/-- Read consecutive words. -/
def State.opsWords (s : State) (site : Nat) (step : Option Nat) : Nat → Nat → List WordRead × State
  | _, 0 => ([], s)
  | w, n + 1 =>
    let (r, s) := s.opsWord site w step
    let (l, s) := State.opsWords s site step (w + 1) n
    (r :: l, s)

/-- Bytes of the operand store from a byte offset, with whether a word of them is poisoned. -/
def State.opsBytes (s : State) (site ofs len : Nat) (step : Option Nat) : List Byte × Bool × State :=
  let w0 := ofs / 8
  let n := if len = 0 then 0 else (ofs + len - 1) / 8 + 1 - w0
  let (l, s) := s.opsWords site step w0 n
  (((wordsBytes l).drop (ofs % 8)).take len, l.any WordRead.poison, s)

/-- OPS_DMA_RANGE (R160). -/
def State.opsRange (s : State) (site row src : Nat) : State := s.report site 5 0x0109 src row 0

/-- A DMA write of one row: discarded and logged where it falls in the tally store (R160). -/
def State.opsRow (s : State) (site row : Nat) (data : List Byte) (src : Nat) (poison : Bool) : State :=
  if 1280 ≤ row then s.opsRange site row src
  else { s with mem := { s.mem with ops := putRow opsDflt opsRows s.mem.ops site row 0xFFFF (rowForm row (fit 0 128 data) poison) } }

/-! ### Vectors -/

/-- A vector from its bytes and scale bytes. -/
def vecOf (c wf : Nat) (bs : List Byte) (sc : List Nat) (poison : Bool) : MVec :=
  { codes := (List.range (classK c)).map (elemCode wf bs), scales := sc, kind := if poison then 2 else 0, need := 0, frees := 0 }

/-- A zero vector that stands for one a gap skipped (R125). -/
def zeroVec (c : Nat) : MVec := { codes := List.replicate (classK c) 0, scales := [0x7F, 0x7F], kind := 1, need := 0, frees := 0 }

/-- Vector v of a slice staged in the operand store, as the feeder reads it in its issue cycle (R129, R161). -/
def State.storeVec (s : State) (site r v : Nat) (step : Option Nat) : MVec × State :=
  let c := passClass (pAfmt r) (pWfmt r)
  let vb := vecBytes c (pWfmt r)
  let base := pWsOff r * 128
  let (bs, p, s) := s.opsBytes site (base + v * vb) vb step
  let sb := base + roundUp (pNfeat r * pPlanes r * vb) 128
  let nb := if fmtScaled (pWfmt r) then classBlocks c else 0
  let (sc, q, s) := s.opsBytes site (sb + v * nb) nb step
  (vecOf c (pWfmt r) bs (sc.map (·.toNat)) (p || q), s)

/-! ### Block sums -/

/-- A weight element of a vector; every element of a poisoned vector is poisoned (R162, log 94). -/
def MVec.elem (v : MVec) (wf i : Nat) : Elem :=
  if v.kind = 2 then .poison else elemOf wf (nth 0 v.codes i) (nth 0x7F v.scales (i / 32))

/-- The code of an activation element as the loader wrote it; 0x10000 for a poisoned one, 0x20000 for a masked position. -/
def MPlane.code (p : MPlane) (r c : Nat) : Nat := nth 0 (nth [] p.codes r) c

/-- The position is masked by predicate (R76, R389). -/
def MPlane.masked (p : MPlane) (r c : Nat) : Bool := decide (0x20000 ≤ p.code r c)

/-- An activation element of a plane at a row slot and column; a scale of 0x100 stands for a poisoned scale word. -/
def MPlane.elem (p : MPlane) (af r c : Nat) : Elem :=
  let scale := nth 0x7F (nth [] p.scales (r / 32)) c
  if p.masked r c then .num 0
  else if 0x10000 ≤ p.code r c ∨ (fmtScaled af ∧ 0x100 ≤ scale) then .poison
  else elemOf af (p.code r c) scale

/-- A plane with the element upsets of a pass in it. -/
def MPlane.upset (p : MPlane) (n : Nat) (u : List Upset) : MPlane :=
  u.foldl (fun p x => match x with
    | .planeElem pl row col code =>
      if pl = n then { p with codes := setNth p.codes row (setNth (nth [] p.codes row) col code.toNat) } else p
    | _ => p) p

/-- The disturbance of one block sum. -/
def sumDelta (u : List Upset) (f p b c : Nat) : Int :=
  u.foldl (fun d x => match x with
    | .blockSum f' p' b' c' e => if f' = f ∧ p' = p ∧ b' = b ∧ c' = c then d + e else d
    | _ => d) 0

/-- TSTAT bits that the products of two elements set (R99). -/
def pairStat (x y : Elem) : Nat :=
  if x = .nonfinite ∨ y = .nonfinite then 5 else if x = .poison ∨ y = .poison then 1 else 0

/-- What one column does with a vector: the contribution, its TSTAT, its check sums by block. -/
structure ColOut where
  add : Int
  ts : Nat
  sums : List Int
  deriving DecidableEq, Repr

/-- Add one contribution: none sets OVF and POISON (R93, R98). -/
def ColOut.plus (o : ColOut) (c : Option Int) : ColOut :=
  match c with
  | some x => { o with add := o.add + x }
  | none => { o with ts := o.ts ||| 3 }

/-- The parameters of a vector's evaluation. -/
structure VecEnv where
  af : Nat
  wf : Nat
  cls : Nat
  anchor : Int
  pl : MPlane
  v : MVec
  deriving DecidableEq, Repr

/-- Indices of a block of a class. -/
def blockIdx (cls b : Nat) : List Nat := (List.range (if cls = 2 then 16 else 32)).map (· + 32 * b)

/-- One block of one column (R89 to R92); `d` is a disturbance of the block sum. -/
def VecEnv.block (e : VecEnv) (c b : Nat) (d : Int) (o : ColOut) : ColOut :=
  let ids := blockIdx e.cls b
  let prods := ids.map fun i => (e.v.elem e.wf i).int * (e.pl.elem e.af i c).int
  let ts := ids.foldl (fun t i =>
    if e.pl.masked i c then t else t ||| pairStat (e.v.elem e.wf i) (e.pl.elem e.af i c)) o.ts
  let l := fmtLsb e.af + fmtLsb e.wf
  if e.cls = 2 then
    let cw := (prods ++ [d]).foldl (fun t x => t + roundTo x l (e.anchor - 4)) 0
    (prods ++ [d]).foldl (fun o x => o.plus (contribute x l e.anchor)) { o with ts := ts, sums := o.sums ++ [cw] }
  else
    let sum := prods.foldl (· + ·) d
    let ex := l + ((nth 0x7F (nth [] e.pl.scales b) c : Nat) : Int) + ((nth 0x7F e.v.scales b : Nat) : Int) - 254
    ({ o with ts := ts, sums := o.sums ++ [sum] }).plus (contribute sum ex e.anchor)

/-- One column of a vector. -/
def VecEnv.col (e : VecEnv) (c : Nat) (d : Nat → Int) : ColOut :=
  (List.range (classBlocks e.cls)).foldl (fun o b => e.block c b (d b) o) { add := 0, ts := 0, sums := [] }

/-- The two sides of a comparison agree (R141, R142). -/
def checkOk (cls : Nat) (x y : Int) : Bool := if cls = 2 then decide ((x - y).natAbs ≤ 512) else x == y

/-- The column check of a block (R138): none where an element is inexact (R143). -/
def VecEnv.colCheck (e : VecEnv) (b : Nat) (cols : List ColOut) : Option Bool :=
  let ids := blockIdx e.cls b
  let l := fmtLsb e.af + fmtLsb e.wf
  let lhs := cols.foldl (fun t o => t + nth 0 o.sums b) 0
  let acs := fun i => nth (0, true) e.pl.acs i
  let rhs := ids.foldl (fun t i =>
    let p := (e.v.elem e.wf i).int * (acs i).1
    t + (if e.cls = 2 then roundTo p l (e.anchor - 4) else p)) 0
  if ids.any fun i => !(acs i).2 then none else some (checkOk e.cls lhs rhs)

/-! ### Events of a pass -/

/-- An M-tile event that forbids the commit of the step it arose in. -/
def State.mEvent (s : State) (site b code a0 a1 a2 det : Nat) (step : Option Nat) : State :=
  s.raise site b code a0 a1 a2 det step

/-- An event of a task is logged once for the task, whichever tile it arises on (R98, R99, R143). -/
def State.firstOf (s : State) (launch : Option Nat) (task code : Nat) : Bool :=
  !s.prog.once.contains (launch.getD 0, task, code)

def State.noteOnce (s : State) (launch : Option Nat) (task code : Nat) : State :=
  { s with prog := { s.prog with once := (launch.getD 0, task, code) :: s.prog.once } }

/-- TALLY_OVF or TALLY_NONFINITE of a pass, once for its task; its output is task and feature (R98 to R100). -/
def State.tallyEvent (s : State) (site b code f : Nat) (e : CFail) : State :=
  if s.firstOf e.launch e.task code then
    (s.noteOnce e.launch e.task code).mEvent site b code e.task f 0 (e.task * 65536 + f) e.step
  else s.flag site b

/-- CS_INEXACT: comparisons skipped are counted, the event at most once per task (R143); it forbids nothing. -/
def State.csSkip (s : State) (site n : Nat) (e : CFail) : State :=
  if n = 0 then s
  else
    let s := s.setReg site 0x058 (satAdd 0xFFFFFFFF (s.regN site 0x058) n)
    if s.firstOf e.launch e.task 0x0108 then (s.noteOnce e.launch e.task 0x0108).report site 8 0x0108 e.task 0 0
    else s.flag site 8

/-! ### Failing checks (R149, R150) -/

/-- MTL_CS_LAST of a failure (R167). PLANE and BLOCK are 0 for a residue comparison, which covers a whole tally, and BLOCK for a parity
failure, which covers a whole vector: the rules name no value there (log 95). -/
def csWord (check plane feature block col : Nat) : Nat :=
  2 ^ 31 + check * 2 ^ 28 + plane % 16 * 2 ^ 24 + feature % 65536 * 2 ^ 8 + block * 2 ^ 7 + col

/-- A failing check of a pass in its place in the order of R150. -/
def MPass.fail (q : MPass) (cyc check plane feature block col group : Nat) : CFail :=
  { cyc, check, col, block, word := csWord check plane feature block col, group, pass := q.idx, task := q.task, launch := q.launch
    step := q.step }

/-- Another result of a pass's checks: an event of a feature, or comparisons skipped. -/
def MPass.note (q : MPass) (cyc check word group : Nat) : CFail :=
  { cyc, check, col := 0, block := 0, word, group, pass := q.idx, task := q.task, launch := q.launch, step := q.step }

/-- R150: by comb cycle, then the lowest CHECK, column and block. -/
def CFail.before (x y : CFail) : Bool :=
  let k := fun (f : CFail) => ((f.cyc * 16 + f.check) * 64 + f.col) * 2 + f.block
  decide (k x ≤ k y)

/-- Results in the order of R150. -/
def failOrder (l : List CFail) : List CFail := l.foldl (fun m a => m.takeWhile (·.before a) ++ a :: m.dropWhile (·.before a)) []

/-- A check fails (R149, R150). MTL_CS_LAST takes the failure unless an earlier one stands there; the event comes once for a group, and
again where ARITH_CHECK has been cleared since (log 95). A row check of the group whose failure stands there without a column gives it
its own. -/
def State.csFail (s : State) (site : Nat) (f : CFail) : State :=
  let t := s.mtile site
  let key := (f.pass, f.group)
  let new := !s.flagged site 0
  let w := s.regN site 0x048
  let s := if new then s.setReg site 0x048 f.word
    else if f.check = 1 ∧ t.loc = some key ∧ bits w 5 0 = 0x3F then s.setReg site 0x048 (putBits w 5 0 f.col) else s
  let s := s.updM site fun t => { t with
    failed := if t.failed.contains key then t.failed else t.failed ++ [key]
    loc := if new then (if f.col = 0x3F then some key else none) else t.loc }
  if new ∨ ¬t.failed.contains key then (s.flag site 0).forbid site 0x0101 f.task (s.regN site 0x048) 0 0 f.step else s

/-- One result of a check takes effect. -/
def State.checkResult (s : State) (site : Nat) (f : CFail) : State :=
  match f.check with
  | 8 => s.tallyEvent site 2 0x0103 f.word f
  | 9 => s.tallyEvent site 1 0x0102 f.word f
  | 10 => s.csSkip site f.word f
  | _ => s.csFail site f

/-- Every result of a check that has come by a comb cycle takes effect, in the order of R150. -/
def State.checksTo (s : State) (site now : Nat) : State :=
  let l := (s.mtile site).fails
  let s := s.updM site fun t => { t with fails := t.fails.filter fun f => decide (now < f.cyc) }
  (failOrder (l.filter fun f => decide (f.cyc ≤ now))).foldl (fun s f => s.checkResult site f) s

/-! ### The feeder -/

/-- An empty feature's tallies. -/
def zeroTals : List Tal := List.replicate 32 { val := 0, ts := 0, res := 0 }

/-- A pass at its start. -/
def passStart (rec_ : BitVec 128) (root task cmask cyc loads idx : Nat) (launch step : Option Nat) (u : List Upset) : MPass :=
  { rec_, root, task, launch, step, cmask, idx, loads, upsets := u, vecs := [], issued := 0, taken := 0, last := false, clk := cyc
    cur := zeroTals, feats := [], wcs := [], sums := [], seek := false, gapSeen := false, gapGroup := none, geom := false }

/-- The vectors of a pass (R122). -/
def MPass.total (q : MPass) : Nat := pNfeat q.rec_.toNat * pPlanes q.rec_.toNat

/-- Add a column's contribution to its tally (R145). -/
def Tal.add (t : Tal) (o : ColOut) : Tal :=
  { val := t.val + o.add, ts := t.ts ||| o.ts, res := (t.res + residueOf o.add) % resMod }

/-- Element-wise sum of two lists, the longer one's tail kept. -/
def addLists : List Int → List Int → List Int
  | [], l => l
  | l, [] => l
  | a :: s, b :: t => (a + b) :: addLists s t

/-- Put a value at an index of a list that grows as needed. -/
def putAt {α : Type} (d : α) : List α → Nat → (α → α) → List α
  | [], 0, f => [f d]
  | [], n + 1, f => d :: putAt d [] n f
  | a :: t, 0, f => f a :: t
  | a :: t, n + 1, f => a :: putAt d t n f

/-- What the row checks of a group find (R140): comparisons skipped, and those that fail. -/
structure RowOut where
  skipped : Nat
  fails : List (Nat × Nat × Nat)
  deriving DecidableEq, Repr

/-- The row check of one plane, block and column. -/
def rowOne (cls : Nat) (l a : Int) (af : Nat) (pl : MPlane) (w : List Int) (sums : List (List Int)) (p c b : Nat)
    (o : RowOut) : RowOut :=
  let ids := blockIdx cls b
  if ids.any fun i => !exact64 (nth 0 w i) then { o with skipped := o.skipped + 1 }
  else
    let lhs := ids.foldl (fun t i =>
      let x := nth 0 w i * (pl.elem af i c).int
      t + (if cls = 2 then roundTo x l (a - 4) else x)) 0
    if checkOk cls lhs (nth 0 (nth [] sums c) b) then o else { o with fails := o.fails ++ [(p, c, b)] }

/-- The row checks of a group, plane by plane. -/
def MPass.rowCheck (q : MPass) (set : PlaneSet) : RowOut :=
  let r := q.rec_.toNat
  let cls := passClass (pAfmt r) (pWfmt r)
  let l := fmtLsb set.fmt + fmtLsb (pWfmt r)
  (List.range (pPlanes r)).foldl (fun o p =>
    let pl := (nth { codes := [], scales := [], acs := [] } set.planes p).upset p q.upsets
    (List.range 32).foldl (fun o c => (List.range (classBlocks cls)).foldl
      (fun o b => rowOne cls l (pAnchor r) set.fmt pl (nth [] q.wcs p) (nth [] q.sums p) p c b o) o) o)
    { skipped := 0, fails := [] }

/-- Set POISON in a tally. -/
def Tal.taint (t : Tal) : Tal := { t with ts := putBits t.ts 0 0 1 }

/-- A group whose tallies are poisoned as a whole, failed checks apart (R125, R132, R156). -/
def MPass.tainted (q : MPass) (set : PlaneSet) (g : Nat) : Bool :=
  q.geom || set.poison || (match q.gapGroup with
    | some k => decide (k ≤ g)
    | none => false)

/-- A group of a pass as it enters the tally store; its emission may begin in the cycle after its last row-check result (R136). -/
def MPass.group (q : MPass) (slot g due : Nat) (feats : List (List Tal)) : TGroup :=
  { red := (pRed q.rec_.toNat + g) % 65536, root := q.root, task := q.task, step := q.step, slot, first := 32 * g, feats
    pass := q.idx, num := g, due }

/-- The end of a group (R136, R140): its row checks with their cycles (R134, R135), poison under R125, R132 and R156; the group enters
the tally store. The checksum-row vectors take the next P slots. -/
def State.endGroup (s : State) (site g : Nat) (q : MPass) : State :=
  let r := q.rec_.toNat
  let set := (s.mtile site).set (pPset r)
  let out := q.rowCheck set
  let last := q.clk + pPlanes r + 5
  let rows := out.fails.map fun x => q.fail (q.clk + x.1 + 6) 1 x.1 (32 * g) x.2.2 x.2.1 g
  let feats := if q.tainted set g then q.feats.map fun f => f.map Tal.taint else q.feats
  s.updM site fun t => { t with
    fails := t.fails ++ rows ++ (if out.skipped = 0 then [] else [q.note last 10 out.skipped g])
    groups := t.groups ++ [q.group t.slot g (last + 1) feats], slot := 1 - t.slot
    pass := t.pass.map fun p => { p with feats := [], wcs := [], sums := [], clk := p.clk + pPlanes r } }

/-- A vector meets its plane: the 32 columns' tallies and sums. -/
def stepCols (e : VecEnv) (u : List Upset) (f p : Nat) : List ColOut :=
  (List.range 32).map fun c => e.col c fun b => sumDelta u f p b c

/-- Tallies of a feature after a vector: masked columns stay zero (R133). -/
def addCols (mask : Nat) (cur : List Tal) (cols : List ColOut) : List Tal :=
  (List.range 32).map fun c =>
    let t := nth { val := 0, ts := 0, res := 0 } cur c
    if bit mask c then t.add (nth { add := 0, ts := 0, sums := [] } cols c) else t

/-- The live columns of a vector in which a TSTAT bit is set. -/
def statCols (mask b : Nat) (cols : List ColOut) : List Nat :=
  (List.range 32).filter fun c => bit mask c && bit (nth { add := 0, ts := 0, sums := [] } cols c).ts b

/-- What the checks of one vector issued at slot t find: parity at BCAST (t + 1); TALLY_NONFINITE, TALLY_OVF and the SCALE duplicates at
SCALE (t + 5; the cycle is the model's choice, log 95); the column check at t + 6 (R98, R99, R128, R134, R138, R143, R144). -/
def MPass.vecFails (q : MPass) (e : VecEnv) (f p g : Nat) (cols : List ColOut) : List CFail :=
  let t := q.clk
  let mask := pMask q.rec_.toNat
  let bs := List.range (classBlocks e.cls)
  let skipped := (bs.filter fun b => (e.colCheck b cols).isNone).length
  (if q.upsets.any fun x => x == .parity f p then [q.fail (t + 1) 4 p f 0 0x3F g] else [])
  ++ (((List.range 64).filter fun i => q.upsets.any fun x => x == .scaleDup f p (i % 2) (i / 2)).map fun i =>
      q.fail (t + 5) 3 p f (i % 2) (i / 2) g)
  ++ (if (statCols mask 2 cols).isEmpty then [] else [q.note (t + 5) 8 f g])
  ++ (if (statCols mask 1 cols).isEmpty then [] else [q.note (t + 5) 9 f g])
  ++ (bs.filter fun b => e.colCheck b cols == some false).map (fun b => q.fail (t + 6) 0 p f b 0x3F g)
  ++ (if skipped = 0 then [] else [q.note (t + 6) 10 skipped g])

/-- Tallies of a step poisoned by OVF or NONFINITE, by task, feature, column and code (R100). -/
def State.noteTaint (s : State) (step : Option Nat) (l : List (Nat × Nat × Nat × Nat)) : State :=
  match step with
  | none => s
  | some n => if l.isEmpty then s else s.updStep n fun x => { x with taints := x.taints ++ l.filter fun y => !x.taints.contains y }

/-- The feeder needs three cycles for two vectors of an FP6-weight stream pass (R110): the third, in which it issues nothing, comes after
every second vector. It is no bubble, since the feeder has no vector whole to issue (log 102). -/
def MPass.slow (q : MPass) : Bool :=
  let r := q.rec_.toNat
  decide (passClass (pAfmt r) (pWfmt r) = 1 ∧ (pWfmt r = 3 ∨ pWfmt r = 4)) && !pWsrc r && q.issued % 2 == 1

/-- The beats that an issued vector has freed; with its last vector the packet leaves the queue (R127). -/
def MTile.consume (t : MTile) (v : MVec) (more : Bool) : MTile :=
  { t with queue := if v.kind == 1 && more then t.queue else if more then (match t.queue with
      | p :: l => { p with used := v.frees } :: l
      | [] => []) else t.queue.drop 1 }

/-- Issue one vector at the pass's slot: its tallies, its checks (R98, R99, R122, R134, R138, R139). -/
def State.issue (s : State) (site : Nat) (q : MPass) (v : MVec) : State :=
  let t := s.mtile site
  let r := q.rec_.toNat
  let set := t.set (pPset r)
  let np := pPlanes r
  let f := q.issued / np
  let p := q.issued % np
  let g := f / 32
  let pl := (nth { codes := [], scales := [], acs := [] } set.planes p).upset p q.upsets
  let e : VecEnv := { af := set.fmt, wf := pWfmt r, cls := passClass (pAfmt r) (pWfmt r), anchor := pAnchor r, pl, v }
  let cols := stepCols e q.upsets f p
  let cur := addCols (pMask r) q.cur cols
  let endF := p + 1 == np
  let wi := (List.range (classK e.cls)).map fun i => (v.elem e.wf i).int
  let q' : MPass := { q with
    issued := q.issued + 1, vecs := q.vecs.drop 1, clk := q.clk + 1 + b2n q.slow
    cur := if endF then zeroTals else cur, feats := if endF then q.feats ++ [cur] else q.feats
    wcs := putAt [] q.wcs p fun l => addLists l wi
    sums := putAt [] q.sums p fun l => (List.range 32).map fun c =>
      addLists (nth [] l c) (nth { add := 0, ts := 0, sums := [] } cols c).sums }
  let s := s.updM site fun t =>
    { (if pWsrc r then t else t.consume v (!q'.vecs.isEmpty)) with pass := some q', fails := t.fails ++ q.vecFails e f p g cols }
  let s := s.noteTaint q.step ((statCols (pMask r) 1 cols).map (fun c => (q.task, f, c, 0x0102))
    ++ (statCols (pMask r) 2 cols).map fun c => (q.task, f, c, 0x0103))
  if endF ∧ (f % 32 = 31 ∨ f + 1 = pNfeat r) then s.endGroup site g q' else s

/-- Before its first vector a pass is compared with its set (R132). -/
def State.geomCheck (s : State) (site : Nat) (q : MPass) : State :=
  let r := q.rec_.toNat
  let set := (s.mtile site).set (pPset r)
  if set.planes.length = pPlanes r ∧ set.fmt = pAfmt r ∧ set.cls = passClass (pAfmt r) (pWfmt r) then s
  else
    let s := s.checksTo site q.clk
    let s := s.updM site fun t => { t with pass := some { q with geom := true } }
    s.mEvent site 7 0x0105 q.task (s.regN site 0x070) 0 0 q.step

/-- The next pass that waits starts, once the one before is done. -/
def State.nextPass (s : State) (site : Nat) : State :=
  let t := s.mtile site
  match t.pass, t.more with
  | none, q :: l =>
    let q := { q with clk := max q.clk t.clk }
    let r := q.rec_.toNat
    let s := s.setReg64 site 0x060 (r % 2 ^ 64)
    let s := s.setReg64 site 0x068 (r / 2 ^ 64)
    let s := if pWsrc r then s else s.setReg site 0x078 0
    let fl := q.upsets.filterMap fun u => match u with
      | .store x => some x
      | _ => none
    let s : State := { s with mem := { s.mem with ops := disturb opsDflt s.mem.ops fl } }
    s.updM site fun t => { t with pass := some q, more := l }
  | _, _ => s

/-- Every load of a set that was given before a pass is done (R117). -/
def MTile.loaded (t : MTile) (q : MPass) : Bool :=
  let b := pPset q.rec_.toNat
  (t.set b).ready && !(t.loads.any fun l => ldSet l.rec_.toNat == b && decide (l.idx < q.loads))

/-- A vector of the pass is whole: in the operand store (R129), or in the beats that have come (R127). -/
def MTile.hasVec (t : MTile) (q : MPass) : Bool :=
  pWsrc q.rec_.toNat || (match q.vecs with
    | [] => false
    | v :: _ => decide (v.need ≤ (match t.queue with
      | p :: _ => p.came
      | [] => 0)))

/-- The pass issues at a free slot: its set is complete (R117), a slot of the tally store is free for a new group (R136), a vector is
whole. -/
def MTile.mayIssue (t : MTile) (q : MPass) : Bool :=
  t.loaded q && !(q.issued % (32 * pPlanes q.rec_.toNat) == 0 && decide (2 ≤ t.groups.length)) && t.hasVec q

/-- A pass ends; the slot after its last one is free, and the set it read is free once that one has left MUL (R118, R134). -/
def MTile.endPass (t : MTile) (q : MPass) : MTile :=
  let t := { t with pass := none, clk := max t.clk q.clk }
  if pPset q.rec_.toNat then { t with freeB := q.clk + 2 } else { t with freeA := q.clk + 2 }

/-! ### The weight stream (R123 to R127) -/

/-- Fields of a weight packet's head (R123). -/
def wpFmt (h : Nat) : Nat := bits h 511 508
def wpBeats (h : Nat) : Nat := bits h 507 503
def wpLast (h : Nat) : Bool := bit h 502
def wpTask (h : Nat) : Nat := bits h 495 472
def wpSeq (h : Nat) : Nat := bits h 471 448

/-- The beats of a packet's body flits: two to a flit, beat 0 in bits [255:0]; an odd last one stands alone, and what stands beside it
is not looked at (R123). -/
def wpBody (p : MeshPkt) : List (BitVec 256) :=
  let l := (MeshPkt.body p).flatMap fun f => [BitVec.ofNat 256 f.pay.toNat, BitVec.ofNat 256 (f.pay.toNat / 2 ^ 256)]
  if wpBeats (MeshPkt.head p) + 1 = l.length then l.take (l.length - 1) else l

/-- Beats of a whole vector come in this many bytes; R124 asks for whole vectors and whole blocks. -/
def wpWhole (c wf beats : Nat) : Bool :=
  beats * 32 % vecBytes c wf == 0 && (!(wf == 3 || wf == 4) || beats % 3 == 0)

/-- The vectors of a packet, each with the beats that hold it whole and those that its issue frees. -/
def wpVecs (c wf : Nat) (p : WPkt) : List MVec :=
  let h := p.head.toNat
  let bs := p.beats.flatMap fun b => leBytes 32 b.toNat
  let vb := vecBytes c wf
  let nb := if fmtScaled wf then classBlocks c else 0
  (List.range (bs.length / vb)).map fun i =>
    { vecOf c wf ((bs.drop (i * vb)).take vb) ((List.range nb).map fun b => bits h (8 * (i * nb + b) + 7) (8 * (i * nb + b))) p.poison with
      need := (i * vb + vb + 31) / 32, frees := (i * vb + vb) / 32 }

/-- A packet opens a gap: it is discarded, its fault bit is set, the first of a pass is logged, the feeder seeks (R125, R126). -/
def State.gap (s : State) (site : Nat) (q : MPass) (fmt : Bool) (h : Nat) : State :=
  let s := (s.checksTo site (s.mtile site).clk).updM site fun t => { t with
    pass := some { q with seek := true, gapSeen := true }, queue := t.queue.drop 1 }
  let b := if fmt then 4 else 3
  if q.gapSeen then s.flag site b
  else if fmt then s.mEvent site 4 0x0107 q.task (wpFmt h) (wpBeats h) 0 q.step
  else s.mEvent site 3 0x0106 q.task (s.regN site 0x078) (wpSeq h) 0 q.step

/-- Accept a packet at its BEAT_SEQ: skipped vectors become zero vectors, and the group of the first of them is the first that is
poisoned (R125). -/
def State.takePkt (s : State) (site : Nat) (q : MPass) (p : WPkt) : State :=
  let h := p.head.toNat
  let r := q.rec_.toNat
  let c := passClass (pAfmt r) (pWfmt r)
  let vb := vecBytes c (pWfmt r)
  let at_ := min q.total (if q.seek then wpSeq h * 32 / vb else q.taken)
  let vecs := (List.replicate (at_ - q.taken) (zeroVec c) ++ wpVecs c (pWfmt r) p).take (q.total - q.taken)
  let s := s.setReg site 0x078 ((wpSeq h + p.beats.length) % 2 ^ 24)
  s.updM site fun t => { t with pass := some { q with
    vecs, taken := q.taken + vecs.length, seek := false, last := wpLast h
    gapGroup := if q.taken < at_ ∧ q.gapGroup.isNone then some (q.taken / (32 * pPlanes r)) else q.gapGroup } }

/-- A packet breaks R126. One whose body does not carry BEATS beats breaks it too: the rules name no other end for it (log 102). -/
def wpBad (q : MPass) (h n : Nat) : Bool :=
  let r := q.rec_.toNat
  wpFmt h != pWfmt r || wpBeats h == 0 || decide (24 < wpBeats h) || wpBeats h != n
    || !wpWhole (passClass (pAfmt r) (pWfmt r)) (pWfmt r) (wpBeats h)

/-- The packet at the head of the intake queue is dropped without an event. -/
def State.dropPkt1 (s : State) (site : Nat) (q : MPass) : State :=
  s.updM site fun t => { t with pass := some q, queue := t.queue.drop 1 }

/-- The feeder checks the packet at the head of the intake queue: its form first (R126), then its place in the stream (R125). While the
feeder seeks, it discards up to a packet of the task that is not behind. -/
def State.headPkt (s : State) (site : Nat) (q : MPass) (p : WPkt) : State :=
  let h := p.head.toNat
  let expect := s.regN site 0x078
  let ahead := (wpSeq h + 2 ^ 24 - expect) % 2 ^ 24
  let q := { q with last := wpLast h && wpTask h == q.task }
  if wpBad q h p.beats.length then s.gap site q true h
  else if q.seek then if wpTask h ≠ q.task ∨ 2 ^ 23 ≤ ahead then s.dropPkt1 site q else s.takePkt site q p
  else if wpTask h ≠ q.task ∨ wpSeq h ≠ expect then s.gap site q false h
  else s.takePkt site q p

/-- The packet that the feeder checks in a cycle: the pass has taken every vector of the one before, its LAST packet has not come, and the
packet's head flit has (R125, R127). -/
def MTile.toCheck (t : MTile) (q : MPass) : Option WPkt :=
  if pWsrc q.rec_.toNat || !q.vecs.isEmpty || q.last || decide (q.total ≤ q.taken) then none
  else match t.queue with
    | p :: _ => if p.at_ ≤ t.clk then some p else none
    | [] => none

/-- Beats in the intake queue (R127, R165). -/
def MTile.level (t : MTile) : Nat := sumNat (t.queue.map fun p => p.came - p.used)

/-- The first packet of the queue whose body has not come whole. -/
def MTile.coming (t : MTile) : Option WPkt := t.queue.find? fun p => decide (p.came < p.beats.length)

/-- The cycle from which the next body flit may enter the queue: one flit in a cycle, behind its head, and none while the queue has no
room for its beats (R127). -/
def MTile.nextFlit (t : MTile) : Option Nat :=
  match t.coming with
  | none => none
  | some p => if 64 < t.level + min 2 (p.beats.length - p.came) then none else some (max t.inAt (p.at_ + 1 + p.came / 2))

/-- A body flit enters the queue. -/
def MTile.flitIn (t : MTile) : MTile :=
  { t with
    inAt := t.clk + 1
    queue := (t.queue.takeWhile fun p => !decide (p.came < p.beats.length)) ++
      match t.queue.dropWhile fun p => !decide (p.came < p.beats.length) with
      | p :: l => { p with came := min p.beats.length (p.came + 2) } :: l
      | [] => [] }

/-! ### The engine (R117, R127, R129, R134 to R136) -/

/-- Cycles that the engine passes without an issue. -/
def State.mSkip (s : State) (site c : Nat) : State := s.updM site fun t => { t with clk := max t.clk c }

/-- Bubbles up to a cycle: each counts (R127). -/
def State.mBubble (s : State) (site c : Nat) : State :=
  let t := s.mtile site
  (s.setReg site 0x054 (satAdd 0xFFFFFFFF (s.regN site 0x054) (c - t.clk))).updM site fun t => { t with
    clk := max t.clk c, pass := t.pass.map fun p => { p with clk := max p.clk c } }

/-- One thing that the engine does in its next cycle, which lies before `lim`; a slot without a vector is a bubble from the time that
no command can come any more that fills it: a cycle before `now`, and for a set that is not complete one whose vector would have reached the
MUL stage before `now` (R117, R134). None where the engine has nothing to do before `lim`. -/
def State.mStep (s : State) (site now lim : Nat) : Option State :=
  let t := s.mtile site
  let c := t.clk
  if lim ≤ c then none
  else if (t.nextFlit.map fun f => decide (f ≤ c)) = some true then some (s.updM site fun t => t.flitIn)
  else
    let stop := match t.nextFlit with
      | some f => min lim f
      | none => lim
    match t.pass with
    | none => if t.more.isEmpty then some (s.mSkip site stop) else some (s.nextPass site)
    | some q =>
      if c < q.clk then some (s.mSkip site (min stop q.clk))
      else if q.issued = q.total then some ((s.wrapReg site 0x050).updM site fun t => t.endPass { q with clk := c })
      else match t.toCheck q with
        | some p => some (s.headPkt site q p)
        | none =>
          if t.mayIssue q then
            let s := (if q.issued = 0 then s.geomCheck site q else s).updM site fun t => { t with
              pass := t.pass.map fun q => { q with clk := c } }
            match (s.mtile site).pass with
            | none => none
            | some q =>
              let (v, s) := if pWsrc q.rec_.toNat then s.storeVec site q.rec_.toNat q.issued q.step else (nth (zeroVec 0) q.vecs 0, s)
              some (s.issue site q v)
          else
            let until_ := min stop (if t.loaded q then now else now - 2)
            if until_ ≤ c then none else some (s.mBubble site until_)

/-- The engine's cycles before `lim`, as far as they are decided. -/
def State.mGo (s : State) (site now lim : Nat) : Nat → State
  | 0 => s
  | n + 1 => match s.mStep site now lim with
    | some s => State.mGo s site now lim n
    | none => s

/-- More things than the engine can do with the passes and packets it has. -/
def MTile.work (t : MTile) : Nat :=
  8 + 4 * (sumNat (t.queue.map fun p => p.beats.length + 2) + sumNat ((t.pass.toList ++ t.more).map fun q => q.total + 4))

/-- What an M tile does in the cycles before one in which something happens to it, and the results of its checks by then. -/
def State.mAdvance (s : State) (site now : Nat) : State := (s.mGo site now now (s.mtile site).work).checksTo site now

/-- What it does up to that cycle and in it, once what happens to it has happened. -/
def State.runM (s : State) (site now : Nat) : State := (s.mGo site now (now + 1) (s.mtile site).work).checksTo site now

end Sys2Proof.Machine
end

