-- ==== Sys2Proof/Machine/Mtile.lean ====
section
/-! DEFINITION. The commands of M tiles (chapter 3): passes, weight packets, emission, load records and planes, the operand store. -/

namespace Sys2Proof.Machine

/-- The record with its anchor index replaced by the entry of the launch's anchor table (R374). -/
def anchored (rec_ : BitVec 128) (l : Launch) : BitVec 128 :=
  BitVec.ofNat 128 (putBits rec_.toNat 112 103 (nth 0 l.anchors (bits rec_.toNat 112 103)))

/-- PASS (R130, R131, R374). The record comes as the micro-program holds it. -/
def execPass (site : Nat) (w0 : DWord) (rec_ : BitVec 128) (cyc : Nat) (upsets : List Upset) (s : State) : Res :=
  onKind .m site (fun s =>
    if !s.mayRun site then s
    else
      let r := rec_.toNat
      let task := s.taskAt site
      if pPlanes r = 0 ∨ pNfeat r = 0 then s.mEvent site 6 0x0104 task 0 0 0 (s.stepAt site)
      else
        let s := s.mAdvance site cyc
        let l? := s.launchAt site
        let rec_ := match l? with
          | some l => anchored rec_ l
          | none => rec_
        (s.updM site fun t =>
          let q := passStart rec_ (s.physDest (w0.toNat % 65536)) task ((l?.map (·.cmask)).getD 0) cyc t.nLoads t.nPass
            (l?.map (·.id)) (l?.map (·.step)) upsets
          { t with more := t.more ++ [q], nPass := t.nPass + 1 }).runM site cyc) s

/-- WEIGHT_PACKET_INTAKE: a packet whose head flit comes in this cycle, its body flits in the next ones (R123, R125 to R127). One on
another channel than the response channel, or without one to twelve body flits, is no weight packet (log 102). -/
def execWeightPacketIntake (site : Nat) (pkt : MeshPkt) (cyc : Nat) (s : State) : Res :=
  onKind .m site (fun s =>
    let n := (MeshPkt.body pkt).length
    if !s.inRun site || hVc (MeshPkt.hdr pkt) ≠ 1 || n = 0 || 12 < n then s
    else
      let p : WPkt := { at_ := cyc, head := BitVec.ofNat 512 (MeshPkt.head pkt), beats := wpBody pkt, poison := MeshPkt.poisoned pkt
                        came := 0, used := 0 }
      ((s.mAdvance site cyc).updM site fun t => { t with queue := t.queue ++ [p] }).runM site cyc) s

/-! ### Emission (R136, R145, R259 to R261) -/

/-- ρ of a flit from the kept residues (R261). -/
def rhoKept (l : List Tal) : Nat :=
  (List.range 4).foldl (fun t j => (t + (j + 1) * (nth { val := 0, ts := 0, res := 0 } l j).res) % resMod) 0

/-- The payload of a reduction flit (R260). -/
def redPay (l : List Int) : Nat := (List.range 4).foldl (fun t j => t + tallyBits (nth 0 l j) * 2 ^ (128 * j)) 0

/-- TSTAT fields of a flit (R259). -/
def redStat (l : List Nat) : Nat := (List.range 4).foldl (fun t j => t + nth 0 l j % 8 * 2 ^ (61 + 3 * j)) 0

/-- The header lane of a reduction flit (R259). -/
def redLane (head : Bool) (dest red epoch off contrib stat res : Nat) : BitVec 128 :=
  BitVec.ofNat 128 ((if head then dest * 2 ^ 112 + red * 2 ^ 96 + 2 * 2 ^ 94 + epoch * 2 ^ 92 + 8 * 2 ^ 88 + off * 2 ^ 81
    + contrib * 2 ^ 73 else 0) + stat + res)

/-- The packet of one feature of a group (R260). -/
def redPkt (dest red epoch off : Nat) (ts : List Tal) : MeshPkt :=
  { flits := (List.range 8).map fun f =>
      let l := (ts.drop (4 * f)).take 4
      { lane := redLane (f == 0) dest red epoch off 1 (redStat (l.map (·.ts))) (rhoKept l)
        pay := BitVec.ofNat 512 (redPay (l.map (·.val))), poison := false }
    esc := false }

/-- Poison the tallies of a group from an index on. -/
def taintFrom (i : Nat) (feats : List (List Tal)) : List (List Tal) :=
  (List.range feats.length).map fun f =>
    (List.range 32).map fun c =>
      let t := nth { val := 0, ts := 0, res := 0 } (nth [] feats f) c
      if i ≤ 32 * f + c then t.taint else t

/-- Row and word of a tally's half in the tally store: eight tallies to a row in the order of R136, 128 rows to a slot (log 94). -/
def tallyRow (slot i : Nat) : Nat := 1280 + 128 * slot + i / 8
def tallyWord (i half : Nat) : Nat := 2 * (i % 8) + half

/-- What emission reads where a disturbance has changed a tally's stored bits: the tally under the code of its two words, whether a
word was corrected, and the words that are lost (R162). -/
def hitTally (slot : Nat) (h : Option (Nat × Tally)) (feats : List (List Tal)) : List (List Tal) × Nat × List (Nat × Nat × Nat) :=
  match h with
  | none => (feats, 0, [])
  | some (i, x) =>
    let t := nth { val := 0, ts := 0, res := 0 } (nth [] feats (i / 32)) (i % 32)
    let row := tallyRow slot i
    let rd := (List.range 2).map fun k =>
      let w := wordForm (bits (tallyBits t.val) (64 * k + 63) (64 * k)) row false
      wordDecode { w with data := w.data ^^^ BitVec.ofNat 64 (bits x.toNat (64 * k + 63) (64 * k)) } row
    let v := tallyInt (leNat (wordsBytes rd))
    let t' := { (if rd.any WordRead.poison then t.taint else t) with val := v }
    let fixed := (rd.filter fun r => match r with
      | .corrected _ => true
      | _ => false).length
    let lost := (List.range 2).filterMap fun k => match nth (.ok 0) rd k with
      | .bad syn _ => some (row, tallyWord i k, syn)
      | _ => none
    (setNth feats (i / 32) (setNth (nth [] feats (i / 32)) (i % 32) t'), fixed, lost)

/-- The index of the first tally whose residue disagrees with the kept one (R145). -/
def badResidue (feats : List (List Tal)) : Option Nat :=
  (List.range (32 * feats.length)).find? fun i =>
    let t := nth { val := 0, ts := 0, res := 0 } (nth [] feats (i / 32)) (i % 32)
    residueOf t.val != t.res

/-- Send a group's packets. -/
def State.sendGroup (s : State) (site : Nat) (g : TGroup) (feats : List (List Tal)) : State :=
  s.emits ((List.range feats.length).map fun f =>
    .mesh site (redPkt g.root g.red (s.epochOf (siteComb site)) f (nth [] feats f)))

/-- A tile that failed a check is FENCED, its work dropped (R149). -/
def State.fenceM (s : State) (site : Nat) : State :=
  (s.updM site fun t => { t.drop with loc := none }).fence site 0x0101

/-- A group of the tile has failed a check. -/
def MTile.groupFailed (t : MTile) (g : TGroup) : Bool := t.failed.contains (g.pass, g.num)

/-- The instance of a failed pass is gone, so that its group cannot grow: the group leaves poisoned, with features that never formed
as zeros, and the tile is FENCED (R149, log 26). -/
def State.emitRest (s : State) (site : Nat) : State :=
  let t := s.mtile site
  match t.pass with
  | none => s
  | some q =>
    let r := q.rec_.toNat
    let g := q.issued / pPlanes r / 32
    let n := min 32 (pNfeat r - 32 * g)
    let grp := q.group 0 g 0 ((fit zeroTals n q.feats).map fun f => f.map Tal.taint)
    if !t.groupFailed grp || (s.run site).inst.isSome then s else (s.sendGroup site grp grp.feats).fenceM site

/-- Corrected and lost words of the tally store that emission met (R162). -/
def State.tallyEcc (s : State) (site fixed : Nat) (lost : List (Nat × Nat × Nat)) (step : Option Nat) : State :=
  let s := (List.range fixed).foldl (fun s _ => s.incHalf site 0x05C 0) s
  lost.foldl (fun s e => s.opsUe site e.1 e.2.1 e.2.2 step) s

/-- The first cycle in which the last flit of a group can leave: eight flits to a feature, from the cycle after the last row-check result
on (R136). -/
def TGroup.lastFlit (g : TGroup) : Nat := g.due + 8 * g.feats.length - 1

/-- GROUP_EMIT: the oldest group of the tally store has left, its last flit in this cycle (R136, log 104); a residue that disagrees fails
the check of R145 from that flit on (R145, R149, R162). -/
def execGroupEmit (site cyc : Nat) (hit : Option (Nat × Tally)) (s : State) : Res :=
  onKind .m site (fun s =>
    let s := (s.mAdvance site cyc).runM site cyc
    match (s.mtile site).groups with
    | [] => s.emitRest site
    | g :: rest =>
      if cyc < g.lastFlit then s
      else
        let s := if rest.isEmpty then s else s.mAdvance site (cyc + 1)
        let (feats, fixed, lost) := hitTally g.slot hit g.feats
        let s := (s.updM site fun t => { t with groups := rest }).tallyEcc site fixed lost g.step
        if (s.mtile site).groupFailed g then (s.sendGroup site g (feats.map fun f => f.map Tal.taint)).fenceM site
        else match badResidue feats with
          | none => s.sendGroup site g feats
          | some i =>
            let s := s.csFail site {
              cyc, check := 2, col := i % 32, block := 0, word := csWord 2 0 (g.first + i / 32) 0 (i % 32), group := g.num, pass := g.pass
              task := g.task, launch := none, step := g.step }
            (s.sendGroup site g (taintFrom (i / 4 * 4) feats)).fenceM site) s

/-! ### Plane loads (R113 to R118, R152 to R158) -/

/-- The loader geometry in force (R164, R169, R170). -/
structure LdGeom where
  h : Nat
  w : Nat
  oh : Nat
  ow : Nat
  cs : Nat
  c : Nat
  n : Nat
  kh : Nat
  kw : Nat
  sy : Nat
  sx : Nat
  dy : Nat
  dx : Nat
  py : Nat
  px : Nat
  rowBase : Nat
  srowBase : Nat
  nbt : Nat
  bt : List Nat
  deriving DecidableEq, Repr

/-- The geometry that register words spell. -/
def geomOf (w : Nat → Nat) : LdGeom :=
  { h := bits (w 0x100) 31 16, w := bits (w 0x100) 15 0, oh := bits (w 0x104) 31 16, ow := bits (w 0x104) 15 0
    cs := bits (w 0x108) 31 16, c := bits (w 0x108) 15 0, n := bits (w 0x110) 31 16
    kh := bits (w 0x10C) 31 28, kw := bits (w 0x10C) 27 24, sy := bits (w 0x10C) 23 20, sx := bits (w 0x10C) 19 16
    dy := bits (w 0x10C) 15 12, dx := bits (w 0x10C) 11 8, py := bits (w 0x10C) 7 4, px := bits (w 0x10C) 3 0
    rowBase := bits (w 0x114) 31 18, srowBase := bits (w 0x114) 17 4, nbt := bits (w 0x114) 3 0
    bt := (List.range 4).map (fun i => bits (w 0x118) (8 * i + 6) (8 * i))
      ++ (List.range 4).map fun i => bits (w 0x11C) (8 * i + 6) (8 * i) }

/-- Some size of the geometry is 0 (R171). -/
def LdGeom.zero (g : LdGeom) : Bool :=
  [g.h, g.w, g.oh, g.ow, g.c, g.cs, g.n, g.kh, g.kw, g.sy, g.sx, g.dy, g.dx, g.nbt].contains 0

/-- What LOAD finds wrong with a record: 0 nothing, 1 PLANES 0, 2 the geometry (R158, R171). -/
def loadBad (g : LdGeom) (r : Nat) : Nat :=
  if ldPlanes r = 0 then 1
  else if 16 < ldPlanes r ∨ 7 < ldFmt r ∨ (ldMac2 r ∧ (ldFmt r < 3 ∨ 5 < ldFmt r)) ∨ bits r 6 0 ≠ 0
      ∨ (if ldFmt r ≤ 5 then ldK0 r % 32 ≠ 0 else ldK0 r % 16 ≠ 0) ∨ (ldFmt r ≤ 5 ∧ g.cs % 32 ≠ 0) ∨ g.zero then 2
  else 0

/-- The launch's masks and sizes as a load takes them (R388, R389). -/
def State.maskOf (s : State) (site : Nat) : Nat × Nat × Nat × Nat :=
  match s.launchAt site with
  | some l => (l.cmask, l.rmask, l.d0, l.d1)
  | none => (0, 0, 0, 0)

/-- A discarded record poisons its set, over every load of the set that still waits (R158, log 96). -/
def MTile.poisonSet (t : MTile) (b : Bool) : MTile :=
  { t.putSet b { t.set b with poison := true } with
    loads := t.loads.map fun l => if ldSet l.rec_.toNat == b then { l with bad := true } else l }

/-- LOAD (R157, R158). -/
def execLoad (site : Nat) (w0 rec_ : DWord) (s : State) : Res :=
  onKind .m site (fun s =>
    if !s.mayRun site then s
    else
      let r := rec_.toNat
      let task := s.taskAt site
      let bad := loadBad (geomOf (s.regN site)) r
      let poison := fun (s : State) => s.updM site fun t => t.poisonSet (ldSet r)
      if bad = 1 then (poison s).mEvent site 6 0x0104 task 1 0 0 (s.stepAt site)
      else if bad = 2 then (poison s).mEvent site 7 0x0105 task (s.regN site 0x070) 0 0 (s.stepAt site)
      else
        let (cm, rm, d0, d1) := s.maskOf site
        s.updM site fun t => { t with nLoads := t.nLoads + 1, loads := t.loads ++ [{
          rec_, cm := bit w0.toNat 1, rm := bit w0.toNat 0, cmask := cm, rmask := rm, d0, d1, task
          step := s.stepAt site, idx := t.nLoads, passes := t.nPass, started := false, bad := false }] }) s

/-- An element's place under R153: the element index, or none where it is not live. -/
def liveAt (g : LdGeom) (q k : Nat) : Option Nat :=
  let n := q / (g.oh * g.ow)
  let oy := q / g.ow % g.oh
  let ox := q % g.ow
  let c := k % g.cs
  let fo := k / g.cs
  let iy : Int := (oy * g.sy + fo / g.kw * g.dy : Nat) - (g.py : Int)
  let ix : Int := (ox * g.sx + fo % g.kw * g.dx : Nat) - (g.px : Int)
  if n < g.n ∧ fo < g.kh * g.kw ∧ c < g.c ∧ 0 ≤ iy ∧ iy < g.h ∧ 0 ≤ ix ∧ ix < g.w then
    some (((n * g.h + iy.toNat) * g.w + ix.toNat) * g.cs + c)
  else none

/-- The B tile and row of a byte of the element or scale array (R155). -/
def granule (g : LdGeom) (base a : Nat) : Nat × Nat := (nth 0 g.bt (a / 128 % g.nbt), base + a / 128 / g.nbt)

/-- The key of a row that the loader keeps: plane, place of its B tile in BT, row. -/
def rowKey (p n row : Nat) : Nat := (p * 64 + n) * 16384 + row % 16384

/-- A byte of the tensor as the loader has received it for a plane, checked against the row that it asked for (R343, R346): none where
its word is poisoned or uncorrectable. -/
def MTile.loadByte (t : MTile) (p : Nat) (g : LdGeom) (base a : Nat) : Option Nat :=
  let row := (base + a / 128 / g.nbt) % bufRows
  let ws := sget (fun _ => []) t.got (rowKey p (a / 128 % g.nbt) row)
  match ws[a % 128 / 8]? with
  | none => none
  | some w =>
    let r := wordDecode w row
    if r.poison then none else some (bits r.val (8 * (a % 8) + 7) (8 * (a % 8)))

/-- The bytes that hold element e of a tensor, first and last, and its bit within the first (R79, R155). -/
def elemSpan (f e : Nat) : Nat × Nat × Nat :=
  let n := fmtBits f
  match f with
  | 3 | 4 => (3 * (e / 4) + 6 * (e % 4) / 8, 3 * (e / 4) + (6 * (e % 4) + 5) / 8, 6 * (e % 4) % 8)
  | 5 => (e / 2, e / 2, 4 * (e % 2))
  | _ => (e * (n / 8), e * (n / 8) + n / 8 - 1, 0)

/-- An element code of the stored tensor (R79, R155): 0x10000 where a word of it is poisoned. -/
def MTile.loadElem (t : MTile) (p : Nat) (g : LdGeom) (f e : Nat) : Nat :=
  let (lo, hi, sh) := elemSpan f e
  let l := (List.range (hi + 1 - lo)).map fun i => t.loadByte p g g.rowBase (lo + i)
  if l.any Option.isNone then 0x10000
  else bits (leNat (l.map fun x => BitVec.ofNat 8 (x.getD 0))) (sh + fmtBits f - 1) sh

/-- A position that the launch's masks take out (R389). -/
def State.loadMasked (s : State) (l : MLoad) (q k : Nat) : Bool :=
  (l.cm && !s.maskBit l.cmask l.d0 q) || (l.rm && !s.maskBit l.rmask l.d1 k)

/-- The load's live element at a reduction index and position, masks included (R389). -/
def State.loadLive (s : State) (l : MLoad) (g : LdGeom) (q k : Nat) : Option Nat :=
  if s.loadMasked l q k then none else liveAt g q k

/-- One plane of a load (R76, R114, R115, R137, R153 to R155): a masked position is 0x20000, a lost scale 0x100. -/
def State.loadPlane (s : State) (site : Nat) (l : MLoad) (g : LdGeom) (p : Nat) : MPlane :=
  let r := l.rec_.toNat
  let f := ldFmt r
  let cls := ldClass r
  let kp := classK cls
  let t := s.mtile site
  let q := fun c => ldQ0 r + c
  let k := fun i => ldK0 r + kp * p + i
  let code := fun i c =>
    if s.loadMasked l (q c) (k i) then 0x20000
    else match liveAt g (q c) (k i) with
      | some e => t.loadElem p g f e
      | none => 0
  let scale := fun b c => if f ≤ 5 then
      match (blockIdx cls b).findSome? fun i => s.loadLive l g (q c) (k i) with
      | some e => (t.loadByte p g g.srowBase (e / 32)).getD 0x100
      | none => 0x7F
    else 0x7F
  let pl : MPlane := {
    codes := (List.range kp).map fun i => (List.range 32).map (code i)
    scales := (List.range (classBlocks cls)).map fun b => (List.range 32).map (scale b)
    acs := [] }
  { pl with acs := (List.range kp).map fun i =>
      let v := (List.range 32).foldl (fun t c => t + (pl.elem f i c).int) 0
      (v, if cls = 2 then exact64 v else true) }

/-- Some row that a load computes exceeds 16,383 (R156). -/
def State.loadRows (s : State) (l : MLoad) (g : LdGeom) : Bool :=
  let r := l.rec_.toNat
  let f := ldFmt r
  (List.range (classK (ldClass r) * ldPlanes r)).any fun i => (List.range 32).any fun c =>
    match s.loadLive l g (ldQ0 r + c) (ldK0 r + i) with
    | none => false
    | some e => decide (16383 < (granule g g.rowBase (elemSpan f e).2.1).2)
        || decide (f ≤ 5 ∧ 16383 < (granule g g.srowBase (e / 32)).2)

/-- A pass given before a load still reads the load's set (R118). -/
def MTile.reads (t : MTile) (l : MLoad) : Bool :=
  (t.pass.toList ++ t.more).any fun q => decide (q.idx < l.passes) && pPset q.rec_.toNat == ldSet l.rec_.toNat

/-- The cycle from which the last vector that read a set has left the MUL stage (R118, R134). -/
def MTile.freeAt (t : MTile) (b : Bool) : Nat := if b then t.freeB else t.freeA

/-- The set that a load writes, once its rows have come. -/
def State.loadSet (s : State) (site : Nat) (l : MLoad) : PlaneSet :=
  let g := geomOf (s.regN site)
  let r := l.rec_.toNat
  { fmt := ldFmt r, cls := ldClass r, planes := (List.range (ldPlanes r)).map (s.loadPlane site l g)
    ready := true, poison := s.loadRows l g || l.bad }

/-- The rows of each B tile of BT that plane p of a load reads, ascending: place in BT x 2^14 + row. -/
def State.planeRows (s : State) (l : MLoad) (g : LdGeom) (p : Nat) : List Nat :=
  let r := l.rec_.toNat
  let f := ldFmt r
  let kp := classK (ldClass r)
  let key := fun (base a : Nat) => a / 128 % g.nbt * 16384 + (base + a / 128 / g.nbt) % 16384
  let es := (List.range kp).flatMap fun i => (List.range 32).filterMap fun c =>
    s.loadLive l g (ldQ0 r + c) (ldK0 r + kp * p + i)
  ((es.foldl (fun m e =>
      let m := sput (sput m (key g.rowBase (elemSpan f e).1) ()) (key g.rowBase (elemSpan f e).2.1) ()
      if f ≤ 5 then sput m (key g.srowBase (e / 32)) () else m) ([] : Sparse Unit)).map (·.1))

/-- Every row that a load needs and that a B tile serves has come. -/
def State.loadCame (s : State) (site : Nat) (l : MLoad) : Bool :=
  let g := geomOf (s.regN site)
  let got := (s.mtile site).got
  (List.range (ldPlanes l.rec_.toNat)).all fun p => (s.planeRows l g p).all fun x =>
    (s.serving (siteComb site) (nth 0 g.bt (x / 16384))).isNone || (got.any fun e => e.1 == p * 64 * 16384 + x)

/-- A row reaches the loader of an M tile. -/
def State.loadRow (s : State) (site key : Nat) (ws : List RowWord) : State :=
  s.updM site fun t => { t with got := sset (fun _ => []) t.got key ws }

/-- A read response of a B tile brings rows to the loader that asked for them (R119, R338); TAG names plane and place in BT (log 96). -/
def State.loadAnswer (s : State) (site : Nat) (p : MeshPkt) : State :=
  let h := MeshPkt.head p
  let hd := MeshPkt.hdr p
  if siteKind site != .m || bits (hSrc hd) 15 14 == 2 || hVc hd != 1 || bits h 511 508 != 3 || bits h 448 437 != 16
      || !((s.mtile site).loads.any fun l => l.started) then s
  else
    let bad := MeshPkt.poisoned p
    (List.range (bits h 487 481)).foldl (fun s r =>
      let row := bits h 501 488 + r
      s.loadRow site (bits h 436 421 * 16384 + row % 16384) ((List.range 16).map fun w =>
        let f := nth { lane := 0, pay := 0, poison := true } (MeshPkt.body p) (2 * r + w / 8)
        wordForm (bits f.pay.toNat (64 * (w % 8) + 63) (64 * (w % 8))) row (f.poison || bad))) s

/-! ### Operand store -/

/-- OPS_DMA_WRITE: the row lands at the end of its cycle, after the feeder's read of that cycle (R160, R161). The tile port takes none
unless the tile is in RUN (R149, R779). -/
def execOpsDmaWrite (site row : Nat) (data : OpsRow) (src : BitVec 16) (s : State) : Res :=
  onUnit (isKind .m site && decide (row < opsRows)) (fun s =>
    if !s.inRun site then s else ((s.mAdvance site data.cyc).runM site data.cyc).opsRow site row data.data src.toNat false) s

end Sys2Proof.Machine
end

