-- ==== Sys2Proof/Machine/Xfer.lean ====
section
/-! DEFINITION. Transfers of tiles (R373, R375, R376, R416, R538, R540): their counters, the rows they bring, their answers. -/

namespace Sys2Proof.Machine

/-- A transfer starts on a completion counter; `left` units are to come, or to be acknowledged. -/
def State.startXfer (s : State) (site ctr kind addr row left : Nat) : State :=
  let id := s.prog.nextXfer
  let x : Xfer := { id, ctr, kind, addr, row, left, step := s.stepAt site, gone := false }
  ({ s with prog := { s.prog with nextXfer := id + 1 } } : State).updRun site fun r => { r with pend := r.pend ++ [x] }

/-- A completion counter counts (R376). -/
def State.countUp (s : State) (site ctr : Nat) : State :=
  s.updRun site fun r => { r with ctr := setNth r.ctr ctr ((nth 0 r.ctr ctr + 1) % 2 ^ 32) }

/-- RFLOW of a tile's own HBM requests: its counter above the eight flows that SEND uses. -/
def xferFlow (ctr : Nat) : Nat := 8 + ctr

/-- A half row of 64 bytes arrives at the operand store (R160); a row is logged with its first half to come. -/
def State.opsHalf (s : State) (site row half src : Nat) (first : Bool) (u : Nat × Bool) : State :=
  if 1280 ≤ row then if half = 0 || first then s.opsRange site row src else s
  else
    let ws := (List.range 16).map fun w => wordForm (bits u.1 (64 * (w % 8) + 63) (64 * (w % 8))) row u.2
    { s with mem := { s.mem with ops := putRow opsDflt opsRows s.mem.ops site row (if half = 0 then 0x00FF else 0xFF00) ws } }

/-- Change a transfer of a tile. -/
def State.updXfer (s : State) (site id : Nat) (f : Xfer → Xfer) : State :=
  s.updRun site fun r => { r with pend := r.pend.map fun x => if x.id = id then f x else x }

/-- Write packets that came for rows of a tile enter its hold queue one by one (R332). -/
def State.holdPkts (s : State) (site src mask : Nat) (partner : Bool) (p : BPkt) (rows : List (Nat × List RowWord)) : State :=
  (chunks 6 rows.length rows).foldl (fun s l =>
    s.bCome site (s.btile site).now (.rows l mask src (s.epochOf (siteComb site)) partner p)) s

/-- Units of a response packet reach the hold queue: whole rows, or the half of a row (R332). -/
def State.holdUnits (s : State) (site : Nat) (x : Xfer) (addr src : Nat) (units : List (Nat × Bool)) : State :=
  let at_ := fun i => x.row + (addr + 64 * i - x.addr) / 128
  let half := fun i => (addr + 64 * i - x.addr) % 128 / 64
  let words := fun i (lo hi : Nat × Bool) => (List.range 16).map fun w =>
    let u := if w < 8 then lo else hi
    wordForm (bits u.1 (64 * (w % 8) + 63) (64 * (w % 8))) (at_ i) u.2
  let get := fun i => nth (0, true) units i
  let whole := (List.range units.length).filter fun i => half i == 0 && decide (i + 1 < units.length)
  let lone := (List.range units.length).filter fun i => (half i == 0 && decide (i + 1 = units.length)) || (half i == 1 && i == 0)
  let p : BPkt := { noPkt with ctr := some x.id }
  let s := s.holdPkts site src 0xFFFF false p (whole.map fun i => (at_ i, words i (get i) (get (i + 1))))
  lone.foldl (fun s i =>
    s.holdPkts site src (if half i = 0 then 0x00FF else 0xFF00) false p [(at_ i, words i (get i) (get i))]) s

/-- Units reach the tile that asked for them, where its transfer puts them: the hold queue or the operand store. -/
def State.xferPut (s : State) (site : Nat) (x : Xfer) (addr src : Nat) (us : List (Nat × Bool)) : State :=
  let s := s.updXfer site x.id fun y => { y with left := y.left - us.length }
  if x.kind = 1 then s.holdUnits site x addr src us
  else if x.kind = 2 then
    (List.range us.length).foldl (fun s i =>
      let o := addr + 64 * i - x.addr
      s.opsHalf site (x.row + o / 128) (o % 128 / 64) src (i == 0) (nth (0, true) us i)) s
  else s

/-- Response packets of this device's HBM bring units: twelve to a packet (R540), each from the stack that holds its first unit. -/
def State.xferLocal (s : State) (site : Nat) (x : Xfer) (addr : Nat) (us : List (Nat × Bool)) : State :=
  (List.range ((us.length + 11) / 12)).foldl (fun s i =>
    let a := addr + 768 * i
    s.xferPut site x a (attDest (s.mapOf a).1) ((us.drop (12 * i)).take 12)) s

/-- An answer to a tile's own remote request arrives at its port (R538, R540, R600): units go where the transfer puts them, an
acknowledgement ends one packet of a SPILL; an answer without units ends a read, its rows discarded. -/
def State.xferAnswer (s : State) (site : Nat) (p : MeshPkt) : State :=
  let q := MeshPkt.head p
  let ctr := qRflow q - 8
  let hit := fun (x : Xfer) => x.ctr == ctr && x.left != 0 &&
    (if x.kind = 0 then qOp q == 4 else qOp q == 3 && decide (x.addr ≤ qAddr q ∨ qUnits q = 0))
  let h := MeshPkt.hdr p
  match (if qRflow q < 8 ∨ hVc h ≠ 1 ∨ bits (hSrc h) 15 14 ≠ 2 then none else (s.run site).pend.find? hit) with
  | none => s.loadAnswer site p
  | some x =>
    let us := (MeshPkt.body p).map fun f => (f.pay.toNat, f.poison || MeshPkt.poisoned p)
    if x.kind = 0 then
      let s := s.updXfer site x.id fun x => { x with left := x.left - 1 }
      s.updRun site fun r => { r with pend := r.pend.filter fun y => !(y.gone && y.left == 0) }
    else if us.isEmpty then s.updXfer site x.id fun x => { x with left := 0 }
    else s.xferPut site x (qAddr q) (hSrc h) us

/-- The rows of a transfer have all landed or been discarded. -/
def State.xferLanded (s : State) (site : Nat) (x : Xfer) : Bool :=
  let t := s.btile site
  x.left == 0 && !x.gone && (t.pkts.all fun p => p.ctr != some x.id || p.left == 0)
    && (t.waiting.all fun w => match w with
      | .rows _ _ _ _ _ p => p.ctr != some x.id
      | _ => true)

end Sys2Proof.Machine
end

