-- ==== Sys2Proof/Machine/Cache.lean ====
section
/-! DEFINITION. The KV cache (R466 to R469), what FILL and WFILL read and SPILL writes through it, and the writes that reach the pool from
the mesh and from BAR4 (R462, R467). -/

namespace Sys2Proof.Machine

/-! ### Segments (R466, R478) -/

/-- Bytes of a cached segment. -/
def segBytes : Nat := 4096

/-- KVS_CACHE_CFG of a comb. -/
def State.cacheCfg (s : State) (c : Nat) : Nat := s.regN pgKvs (0x080 + 4 * c)
def cfgFirst (w : Nat) : Nat := bits w 30 26
def cfgCount (w : Nat) : Nat := bits w 25 20
def cfgSeg0 (w : Nat) : Nat := bits w 18 10
def cfgSegs (w : Nat) : Nat := bits w 8 0

/-- Combs whose cache region is enabled, ascending. -/
def State.cacheCombs (s : State) : List Nat := (List.range 24).filter fun c => bit (s.cacheCfg c) 31

/-- The comb that holds segment k of page p. -/
def State.segComb (s : State) (p k : Nat) : Option Nat :=
  let l := s.cacheCombs
  if l.isEmpty then none else l[(p * (s.kvPageBytes / segBytes) + k) % l.length]?

/-- The page and segment of an address of the pool. -/
def State.segOf (s : State) (a : Nat) : Option (Nat × Nat) :=
  (s.kvPageOf a).map fun p => (p, (a - s.reg64 pgKvs 0x048) % s.kvPageBytes / segBytes)

/-- The address of a segment. -/
def State.segAddr (s : State) (p k : Nat) : Nat := s.reg64 pgKvs 0x048 + p * s.kvPageBytes + k * segBytes

/-- The B tile that holds a cached segment. -/
def State.segSite (s : State) (g : KvSeg) : Option Nat := s.serving g.comb (nth 0 (logicals .b) g.tile)

/-- The packets of a segment's cache write: its 32 rows, six to a packet. -/
def segPkts : Nat := 6

/-- The cache write of a segment has landed whole (R467). -/
def State.segValid (s : State) (g : KvSeg) : Bool :=
  match s.segSite g with
  | none => false
  | some site => ((s.btile site).pkts.filter fun p => p.ctr == some g.id && p.left == 0 && !p.lost).length == segPkts

def State.cached (s : State) (p k : Nat) : Option KvSeg := s.kv.cache.find? fun g => g.page == p && g.seg == k

/-- A segment leaves the cache; the record of its cache write goes with it. -/
def State.dropSeg (s : State) (g : KvSeg) : State :=
  let s : State := { s with kv := { s.kv with cache := s.kv.cache.filter fun x => x.id != g.id } }
  match s.segSite g with
  | none => s
  | some site => s.updB site fun t => { t with
      pkts := t.pkts.filter fun p => p.ctr != some g.id
      hold := t.hold.filter fun e => !(t.pkts.any fun p => p.ctr == some g.id && p.pkt == e.pkt)
      waiting := t.waiting.filter fun w => match w with
        | .rows _ _ _ _ _ p => p.ctr != some g.id
        | _ => true }

/-- A place for a segment in its comb: a free one, lowest first, else the least recently used (R466). -/
def State.segPlace (s : State) (c : Nat) : Option (Nat × Nat) × State :=
  let w := s.cacheCfg c
  let here := s.kv.cache.filter fun g => g.comb == c
  let all := (List.range (cfgCount w)).flatMap fun t => (List.range (cfgSegs w)).map fun k => (cfgFirst w + t, cfgSeg0 w + k)
  match all.find? fun x => !(here.any fun g => g.tile == x.1 && g.slot == x.2) with
  | some x => (some x, s)
  | none => match leastBy (·.used) here with
    | some g => (some (g.tile, g.slot), s.dropSeg g)
    | none => (none, s)

/-- The 64 units of a segment as memory holds them; none where one is poisoned or cannot be read. The units of a range have just been read or
written; the others are read for the install (R548, R549). -/
def State.segUnits (s : State) (p k a n : Nat) : Option (List (List Byte)) × State :=
  let at_ := fun i => s.segAddr p k + 64 * i
  let s := (List.range 64).foldl (fun s i => if a ≤ at_ i ∧ at_ i < a + 64 * n then s else (s.devUnit (at_ i) none).s) s
  ((List.range 64).mapM fun i => s.readUnit (at_ i), s)

/-- Rows of a segment's units. -/
def segRows (row : Nat) : List (List Byte) → List (Nat × List RowWord)
  | a :: b :: t =>
    (row, (List.range 16).map fun w => wordForm (leAt (a ++ b) (8 * w) 8) row false) :: segRows (row + 1) t
  | _ => []

/-- Install a segment of which a range of units was read or written, or write it again where it is held: its rows enter the hold queue and
need no window (R467). A segment that cannot be read whole from HBM is not installed. -/
def State.cachePut (s : State) (p k a n : Nat) : State :=
  match s.segComb p k with
  | none => s
  | some c =>
    if s.combClosed c || s.combOff c then s
    else
      let (us?, s) := s.segUnits p k a n
      match us? with
      | none => match s.cached p k with
        | some g => s.dropSeg g
        | none => s
      | some us =>
      let (place, s) := match s.cached p k with
        | some g => (some (g.tile, g.slot), s.dropSeg g)
        | none => s.segPlace c
      match place with
      | none => s
      | some (t, slot) =>
        let id := s.prog.nextXfer
        let g : KvSeg := { page := p, seg := k, comb := c, tile := t, slot, id, used := s.kv.tickUse }
        match s.segSite g with
        | none => s
        | some site =>
          let s : State := { s with
            prog := { s.prog with nextXfer := id + 1 }
            kv := { s.kv with cache := s.kv.cache ++ [g], tickUse := s.kv.tickUse + 1 } }
          s.holdPkts site (attDest (s.mapOf (s.segAddr p k)).1) 0xFFFF true { noPkt with ctr := some id } (segRows (32 * slot) us)

/-- The segments of the pool that a range touches. -/
def State.segsIn (s : State) (a len : Nat) : List (Nat × Nat) :=
  ((List.range ((a + len + 4095) / 4096 - a / 4096)).filterMap fun i => s.segOf (max a ((a / 4096 + i) * 4096)))

/-- Every write goes to HBM and to the cached segment when one is held (R467). -/
def State.cacheSync (s : State) (a len : Nat) : State :=
  (s.segsIn a len).foldl (fun s x => match s.cached x.1 x.2 with
    | some _ => s.cachePut x.1 x.2 (a / 64 * 64) ((a + len + 63) / 64 - a / 64)
    | none => s) s

/-! ### Reads and writes of a tile (R462, R467, R468) -/

/-- KV_CACHE_POISON (R468). -/
def State.cachePoison (s : State) (g : KvSeg) : State :=
  ((s.dropSeg g).incReg pgKvs 0x0E0).report pgKvs 2 0x0E03 g.page g.seg g.comb

/-- A read of a segment that HBM serves: counted, and the segment is installed where a step reads it (R467, R476). -/
def State.segMiss (s : State) (site : Nat) (x : Xfer) (src a n p k : Nat) (step : Option Nat) : State :=
  let (l, s) := s.tileRead src a n step
  let s := (s.incReg pgKvs 0x06C).xferLocal site x a l
  if step.isSome then s.cachePut p k a n else s

/-- A hit: the segment is used now. -/
def State.segUsed (s : State) (g : KvSeg) : State :=
  ({ s with kv := { s.kv with
    cache := s.kv.cache.map fun x => if x.id = g.id then { x with used := s.kv.tickUse } else x
    tickUse := s.kv.tickUse + 1 } } : State).incReg pgKvs 0x068

/-- A step's read of one piece of a range that lies within 4 KiB: a valid segment is read through AREAD of its B tile, anything else in
HBM (R467). -/
def State.kvPiece (s : State) (site : Nat) (x : Xfer) (src a n : Nat) (step : Option Nat) : State :=
  let a := match step with
    | some num => s.cowRead num (s.taskAt site) a
    | none => a
  match s.segOf a with
  | none =>
    let (l, s) := s.tileRead src a n step
    s.xferLocal site x a l
  | some (p, k) =>
    match s.cached p k with
    | some g => match s.segSite g, s.segValid g with
      | some b, true =>
        let o := a - s.segAddr p k
        let row := o / 128
        s.bCome b (s.btile b).now (.seg (32 * g.slot + row) ((o + 64 * n + 127) / 128 - row)
          { id := g.id, site, xfer := x.id, addr := a, units := n, step, src })
      | _, _ => s.segMiss site x src a n p k step
    | none => s.segMiss site x src a n p k step

/-- HBM serves a read that the cache does not (R467, R468, R469). -/
def State.segLost (s : State) (r : SegRead) : State :=
  match (s.run r.site).pend.find? fun x => x.id == r.xfer, s.segOf r.addr with
  | some x, some (p, k) => s.segMiss r.site x r.src r.addr r.units p k r.step
  | _, _ => s

/-- A read of a cached segment is whole: its units go to the tile that reads, or HBM serves it where a word is poisoned (R468) or the
segment has left the cache meanwhile. -/
def State.segDone (s : State) (r : SegRead) (halves : List (List Byte × Bool)) : State :=
  let us := ((halves.map fun h => (leNat h.1, h.2)).drop (r.addr % 128 / 64)).take r.units
  match s.kv.cache.find? fun g => g.id == r.id with
  | none => s.segLost r
  | some g =>
    if us.any fun u => u.2 then (s.cachePoison g).segLost r
    else match (s.run r.site).pend.find? fun x => x.id == r.xfer with
      | none => s
      | some x => (s.segUsed g).xferLocal r.site x r.addr us

/-- Pieces of n units from an address, cut at 4 KiB boundaries: address and units. -/
def cut4k (a n : Nat) : List (Nat × Nat) :=
  (List.range ((a + 64 * n + 4095) / 4096 - a / 4096)).map fun i =>
    let lo := max a ((a / 4096 + i) * 4096)
    let hi := min (a + 64 * n) ((a / 4096 + i + 1) * 4096)
    (lo, (hi - lo) / 64)

/-- The reads of a FILL or WFILL from this device's HBM, piece by piece. -/
def State.kvRead (s : State) (site : Nat) (x : Xfer) (a n : Nat) : State :=
  let src := s.ownDest site
  if a % 64 ≠ 0 then (s.tileRead src a n x.step).2.updXfer site x.id fun y => { y with left := 0 }
  else (cut4k a n).foldl (fun s e => s.kvPiece site x src e.1 e.2 x.step) s

/-- A step's write of a range for a SPILL of a task: a shared page is copied first, and a written segment is installed. -/
def State.kvWrite (s : State) (src task a : Nat) (units : List (Nat × Bool)) (step : Option Nat) : State :=
  if a % 64 ≠ 0 then s.tileWrite src a units step
  else (cut4k a units.length).foldl (fun s x =>
    let us := (units.drop ((x.1 - a) / 64)).take x.2
    let (t, s) := match step with
      | some num => s.cowTarget num task x.1
      | none => (x.1, s)
    let s := s.tileWrite src t us step
    match step, s.segOf t with
    | some _, some (p, k) => s.cachePut p k t x.2
    | _, _ => s.cacheSync t (64 * x.2)) s

/-- WFILL: rows travel from HBM into the weight region; its counter counts at FILL_DONE. -/
def execWfill (site : Nat) (w0 ofs : DWord) (cyc : Nat) (s : State) : Res :=
  onKind .m site (fun s =>
    if !s.mayRun site then s
    else
      let w := w0.toNat
      let n := bits w 47 32
      let ctr := bits w 2 0
      let row := bits w 31 16
      if n = 0 then s.countUp site ctr
      else
        let s := (s.mAdvance site cyc).runM site cyc
        let a := s.operand site (bits w 55 48) ofs.toNat
        let base := a % 2 ^ 40
        let x : Xfer := { id := s.prog.nextXfer, ctr, kind := 2, addr := base, row, left := 2 * n, step := s.stepAt site, gone := false }
        let s := s.startXfer site ctr 2 base row (2 * n)
        if s.isLocal a then s.kvRead site x base (2 * n) else s.remoteReads site a (128 * n) (xferFlow ctr)) s

/-! ### Writes that come from elsewhere -/

/-- HBM_WRITE (R462, R467, R535, R536, R539 to R543, R559). A tile's write is a step's: it installs the segments it touches. -/
def execHbmWrite (stack : Nat) (pkt : MeshPkt) (flips : List Flip) (s : State) : Res :=
  onUnit (decide (stack < 12)) (fun s =>
    let q := MeshPkt.head pkt
    let h := MeshPkt.hdr pkt
    let a := qAddr q
    let ack := fun (s : State) => if qAck q then s.hbmAnswer stack 4 q a (b2n ((s.stack stack).st != .run)) [] else s
    if hbmMalformed q (hLen h) then s.hbmFmt stack q (hSrc h)
    else if qOp q ≠ 2 then s
    else if qUnits q = 0 then if qAck q then s.hbmAnswer stack 4 q a 0 [] else s
    else if s.hbmSize ≤ a then ack (s.hbmUnmapped a (hSrc h) (s.reqStep (hSrc h)))
    else if s.rsvBase ≤ a ∧ ¬keeperSrc (hSrc h) then ack (s.hbmRsv a (hSrc h) (s.reqStep (hSrc h)))
    else
      let s := s.disturbHbm flips
      let bad := match pkt.flits with
        | f :: _ => f.poison
        | [] => false
      let (t, s) := match s.tileStep (hSrc h) with
        | some x => s.cowTarget x.1 x.2 a
        | none => (a, s)
      let s := (List.range (qUnits q)).foldl (fun s u =>
        let f := nth { lane := 0, pay := 0, poison := true } (MeshPkt.body pkt) u
        let x := t + 64 * u
        s.writeAt (s.mapOf t).1 x (qMask q) (leBytes 64 f.pay.toNat) (f.poison || bad) fun s k =>
          s.hbmUe (s.mapOf x).1 (s.mapOf x).2 3 k (s.reqStep (hSrc h))) s
      ack (if bits (hSrc h) 15 14 = 0 then (s.segsIn t (64 * qUnits q)).foldl (fun s x => s.cachePut x.1 x.2 t (qUnits q)) s
        else s.cacheSync t (64 * qUnits q))) s

/-- BAR4_WRITE (R564, R565, R652). -/
def execBar4Write (off : Nat) (data : List Byte) (poisoned : Bool) (s : State) : Res :=
  .next (
    let a := s.reg64 pgHbmDev 0x060 + off
    if s.bar4Size < off + data.length then s
    else if !s.bar4Open || decide (s.rsvBase < a + data.length) then s.winRange off 1
    else ((unitsOf a data.length).foldl (fun s u => s.devWrite u a data poisoned) s).cacheSync a data.length)

end Sys2Proof.Machine
end

