-- ==== Sys2Proof/Machine/Chunk.lean ====
section
/-! DEFINITION. Reduction chunks as accumulators keep them (R259 to R266, R271, R601). -/

namespace Sys2Proof.Machine

/-- Fields of a reduction header. -/
def rRed (h : Nat) : Nat := bits h 111 96
def rOff (h : Nat) : Nat := bits h 87 81
def rContrib (h : Nat) : Nat := bits h 79 73
def rStat (h : Nat) : Nat := bits h 72 61
def rRes (h : Nat) : Nat := bits h 60 0

/-- The tally j of a payload. -/
def payTally (p j : Nat) : Nat := bits p (128 * j + 127) (128 * j)

/-- A packet's tallies, TSTAT fields and residues by flit; a poisoned packet poisons every tally (R271). -/
def chunkOf (p : MeshPkt) : ChunkAcc :=
  let h := MeshPkt.hdr p
  let bad := MeshPkt.poisoned p
  { red := rRed h, off := rOff h, contrib := rContrib h
    vals := p.flits.flatMap fun f => (List.range 4).map fun j => tallyInt (payTally f.pay.toNat j)
    ts := p.flits.flatMap fun f => (List.range 4).map fun j => bits f.lane.toNat (63 + 3 * j) (61 + 3 * j) ||| b2n bad
    res := p.flits.map fun f => rRes f.lane.toNat }

/-- Element-wise combination of two lists, the longer one's tail kept. -/
def mergeBy {α : Type} (f : α → α → α) : List α → List α → List α
  | [], l => l
  | l, [] => l
  | a :: s, b :: t => f a b :: mergeBy f s t

/-- A chunk adds into an accumulator. -/
def ChunkAcc.add (a b : ChunkAcc) : ChunkAcc :=
  { a with contrib := a.contrib + b.contrib, vals := mergeBy (fun x y => tallyInt (tallyBits (x + y))) a.vals b.vals, ts := mergeBy (· ||| ·) a.ts b.ts
           res := mergeBy (fun x y => (x + y) % resMod) a.res b.res }

/-- ρ of a flit's tallies (R261). -/
def rhoOf (l : List Int) : Nat :=
  (List.range l.length).foldl (fun t j => (t + (j + 1) * residueOf (nth 0 l j)) % resMod) 0

/-- Every flit without POISON agrees with its residue (R266). -/
def ChunkAcc.agrees (c : ChunkAcc) : Bool :=
  (List.range c.res.length).all fun f =>
    (((c.ts.drop (4 * f)).take 4).any fun t => bit t 0) || rhoOf ((c.vals.drop (4 * f)).take 4) == nth 0 c.res f

/-- A chunk as the packet that carries it on, with residues recomputed from its sums (R260, R602). -/
def ChunkAcc.pkt (c : ChunkAcc) (dest epoch contrib : Nat) (poison : Bool) : MeshPkt :=
  { flits := (List.range c.res.length).map fun f =>
      let v := (c.vals.drop (4 * f)).take 4
      let ts := ((c.ts.drop (4 * f)).take 4).map fun t => t ||| b2n poison
      { lane := redLane (f == 0) dest c.red epoch c.off contrib (redStat ts) (rhoOf v)
        pay := BitVec.ofNat 512 (redPay v), poison := false }
    esc := false }

end Sys2Proof.Machine
end

