-- ==== Sys2Proof/Machine/Pipe.lean ====
section
/-! DEFINITION. The pipeline of B tiles by bank cycle (R311 to R327), the commands of B tiles (chapter 6), and the plane loader, whose
rows come through it (R117 to R120). -/

namespace Sys2Proof.Machine

/-! ### Bank cycles (R317, R321 to R326) -/

/-- The lowest port among the scheduled accesses of a kind to a bank in a bank cycle. -/
def winnerOf (l : List BAccess) (a : BAccess) : Nat :=
  minNat a.port ((l.filter fun b => b.write == a.write && !b.own && decide (b.port ≤ 4)
    && bankOf b.row == bankOf a.row).map (·.port))

/-- An access of a port that takes no part in collisions, or the winner of its bank. -/
def bankServed (l : List BAccess) (a : BAccess) : Bool := decide (5 ≤ a.port) || (!a.own && winnerOf l a == a.port)

/-- The packets of a SEND, each a mesh header, a head payload and its number of body flits (R336). -/
def State.seqSend (s : State) (site : Nat) : List (Nat × Nat × Nat) → List (Nat × Bool) → State
  | [], _ => s
  | (hdr, head, n) :: t, us => State.seqSend (s.inject site (mkPkt hdr head (us.take n))) site t (us.drop n)

/-- Pairs of halves as rows. -/
def pairRows : List (Nat × Bool) → List (List Byte × Bool)
  | a :: b :: t => (leBytes 64 a.1 ++ leBytes 64 b.1, a.2 || b.2) :: pairRows t
  | _ => []

/-- A transfer of the sequencer has read its rows: they go into packets, into the device's own HBM, or to the port that leads to another's
(R315, R373, R376). -/
def State.seqDone (s : State) (site : Nat) (j : SeqJob) : State :=
  let s := s.updB site fun t => { t with jobs := t.jobs.filter fun x => x.id != j.id }
  match j.out with
  | .send l => s.seqSend site l j.got
  | .local xfer base src step => (s.kvWrite src (s.taskAt site) base j.got step).updXfer site xfer fun x => { x with left := 0 }
  | .remote a rflow => s.remoteWrites site a rflow (pairRows j.got)

/-- A row reaches the sequencer's injection point (R315, R318). -/
def State.seqRow (s : State) (site id : Nat) (l : List WordRead) : State :=
  match (s.btile site).jobs.find? fun j => j.id == id with
  | none => s
  | some j =>
    let j' : SeqJob := { j with left := j.left - 1, got := j.got ++ (rowHalves l).map fun h => (leNat h.1, h.2) }
    if j'.left = 0 then s.seqDone site j'
    else s.updB site fun t => { t with jobs := t.jobs.map fun x => if x.id = id then j' else x }

/-- One read of a bank cycle: its row is delivered four cycles later to the side channel, there to the loader that asked for it, or to the
sequencer (R318, R346), poisoned in every word where it loses (R321). -/
def State.bankRead (s : State) (site : Nat) (l : List BAccess) (a : BAccess) : State :=
  let lost := !bankServed l a
  let (r, s) := if lost then ((List.range 16).map fun _ => WordRead.poisoned 0, s) else s.bReadRow site a.row 0 a.flips
  match a.job with
  | some id => s.seqRow site id r
  | none =>
    let ws := sideForm a.row r
    let s := s.emit (.row site a.port ws (a.cyc + 4) (poisonMask r))
    match a.load with
    | some (m, key) => s.loadRow m key ws
    | none => s

/-- One write of a bank cycle: it lands, or is discarded where it loses; a held row is then settled (R325, R335). -/
def State.bankWrite (s : State) (site : Nat) (l : List BAccess) (a : BAccess) : State :=
  if bankServed l a then
    let s := s.bWriteRow site a.row a.wmask a.words
    match a.job with
    | some k => s.bRowDone site k false
    | none => s
  else s

/-- The order in which one SELECT cycle reports: ascending port, a read before a write (log 33). -/
def BAccess.before (a b : BAccess) : Bool := decide (a.port < b.port) || (a.port == b.port && (!a.write || b.write))

/-- Accesses in that order. -/
def selOrder (l : List BAccess) : List BAccess := l.foldl (fun m a => m.takeWhile (·.before a) ++ a :: m.dropWhile (·.before a)) []

/-- The SELECT cycle before a bank cycle: losers and refused accesses are reported (R317, R318, R321, R322). -/
def State.bankSelect (s : State) (site c : Nat) : State :=
  let l := (s.btile site).pipe.filter fun a => a.cyc == c
  let s := s.updB site fun t => { t with pipe := t.pipe.map fun a => if a.cyc = c then { a with sel := true } else a }
  (selOrder (l.filter fun a => !a.sel && !bankServed l a)).foldl (fun s a =>
    s.collide site a.write a.own (if a.own then 0 else winnerOf l a) a.port a.row) s

/-- A bank cycle takes place: reads before writes (R326). -/
def State.bankCycle (s : State) (site c : Nat) : State :=
  let l := (s.btile site).pipe.filter fun a => a.cyc == c
  let s := s.updB site fun t => { t with pipe := t.pipe.filter fun a => a.cyc != c }
  let s := (l.filter fun a => !a.write).foldl (fun s a => s.bankRead site l a) s
  (l.filter fun a => a.write).foldl (fun s a => s.bankWrite site l a) s

/-- The bank cycles pending up to a comb cycle, ascending. -/
def BTile.due (t : BTile) (c : Nat) : List Nat :=
  ((t.pipe.filter fun a => decide (a.cyc ≤ c)).foldl (fun m a => sput m a.cyc ()) ([] : Sparse Unit)).map (·.1)

/-- Time passes at a tile: the cycles that the request at the head has waited are counted (R320), and what concerns earlier cycles
alone goes. -/
def State.bClock (s : State) (site c : Nat) : State :=
  let t := s.btile site
  let s := match t.reads with
    | q :: _ => if q.headAt < c ∧ s.bLive site then s.setReg site 0x060 (satAdd 0xFFFFFFFF (s.regN site 0x060) (c - q.headAt)) else s
    | [] => s
  s.updB site fun t => { t with
    now := max t.now c
    claims := t.claims.filter fun e => decide (c < e.1)
    wins := t.wins.filter fun e => decide (c ≤ e.2.1)
    reads := match t.reads with
      | q :: l => { q with headAt := max q.headAt c } :: l
      | [] => [] }

/-- Bring a tile to a comb cycle: every SELECT and bank cycle up to it takes place. -/
def State.bRun (s : State) (site c : Nat) : State :=
  let s := ((s.btile site).due c).foldl (fun s k => (s.bankSelect site k).bankCycle site k) s
  let s := ((s.btile site).due (c + 1)).foldl (fun s k => s.bankSelect site k) s
  s.bClock site c

/-- A request reaches the tile port. -/
def State.bArrive (s : State) (site cyc : Nat) (w : BWait) : State := (s.bRun site cyc).bCome site cyc w

/-- Every access in a tile's pipeline takes place, for a tile that stops (R349). -/
def State.bSettle (s : State) (site : Nat) : State := s.bRun site (maxNat ((s.btile site).pipe.map (·.cyc)))

/-! ### Scheduled ports (R312 to R318, R327) -/

/-- A scheduled port presents a read of a row or of an aligned pair, for a plane loader or not (R314, R316 to R318). -/
def State.present (s : State) (site port : Nat) (rows : List Nat) (cyc : Nat) (flips : List Flip) (load : Option (Nat × (Nat → Nat))) :
    State :=
  if !s.bLive site || !s.portUsed site port || (s.btile site).busy port (cyc + 2) then s
  else
    let acc := rows.map fun r => ({
      cyc := cyc + 2, port, write := false, row := r, words := [], wmask := 0, flips, own := !s.portBank site port r
      sel := false, job := none, load := load.map fun x => (x.1, x.2 r) } : BAccess)
    s.updB site fun t => { t with pipe := t.pipe ++ acc }

/-- SCHEDULED_READ (R316 to R318, R321). -/
def execScheduledRead (site port row : Nat) (pair : Bool) (cyc : Nat) (flips : List Flip) (s : State) : Res :=
  onUnit (schedOk site port row pair) (fun s =>
    (s.bRun site cyc).present site port (accessRows pair row) cyc flips none) s

/-- A word of a side-channel write as it is stored (R347). -/
def State.sideWord (s : State) (site row i : Nat) (w : RowWord) : RowWord × State :=
  match wordDecode w row with
  | .ok d | .corrected d => (wordForm d row false, s)
  | .poisoned d => (wordForm d row true, s)
  | .bad syn d => (wordForm d row true, s.bufUe site row i syn 3)

/-- The words of a side-channel write. -/
def State.sideWords (s : State) (site row : Nat) : List RowWord → Nat → List RowWord × State
  | [], _ => ([], s)
  | w :: t, i =>
    let (x, s) := s.sideWord site row i w
    let (l, s) := State.sideWords s site row t (i + 1)
    (x :: l, s)

/-- SCHEDULED_WRITE: 16 words, or 32 for an aligned pair (R316, R317, R322, R325, R327). -/
def execScheduledWrite (site port row : Nat) (words : List RowWord) (cyc : Nat) (s : State) : Res :=
  let pair := decide (16 < words.length)
  onUnit (schedOk site port row pair) (fun s =>
    let s := s.bRun site cyc
    if !s.bLive site || !s.portUsed site port || (s.btile site).busy port (cyc + 2) then s
    else
      (List.range (accessRows pair row).length).foldl (fun s k =>
        let r := nth 0 (accessRows pair row) k
        let own := !s.portBank site port r
        let (ws, s) := if own then ([], s) else s.sideWords site r ((words.drop (16 * k)).take 16) 0
        s.updB site fun t => { t with pipe := t.pipe ++ [{
          cyc := cyc + 2, port, write := true, row := r, words := ws, wmask := 0xFFFF, flips := [], own, sel := false, job := none, load := none }] }) s) s

/-! ### Mesh requests (R319, R320, R332, R336 to R340) -/

/-- B_READ (R319, R320, R336 to R339): a request whose OP is a write is none; a head of OP 5 is a partner read (R340). -/
def execBRead (site : Nat) (head : BitVec 512) (hdr : BitVec 128) (poison : Bool) (cyc : Nat) (s : State) : Res :=
  onKind .b site (fun s =>
    let h := hdr.toNat
    let q := head.toNat
    let w := BWait.read q (hSrc h) (hLen h) (hVc h) (hEpoch h) poison
    if !s.bLive site || bIsWrite q then s
    else if bOp q = 5 then
      match s.pairPort site (hSrc h) with
      | some p => if s.partnerOk site p (hVc h) (hSrc h) then s.bArrive site cyc (w (some p)) else s
      | none => s
    else s.bArrive site cyc (w none)) s

/-- PARTNER_READ (R340): OP 5, from the tile whose pairing with this one has lost the side channel of the port. -/
def execPartnerRead (site port : Nat) (head : BitVec 512) (hdr : BitVec 128) (poison : Bool) (cyc : Nat) (s : State) : Res :=
  onUnit (isKind .b site && decide (port < 4)) (fun s =>
    let h := hdr.toNat
    if !s.bLive site || bOp head.toNat != 5 || !s.partnerOk site port (hVc h) (hSrc h) then s
    else s.bArrive site cyc (.read head.toNat (hSrc h) (hLen h) (hVc h) (hEpoch h) poison (some port))) s

/-- B_WRITE (R332, R336, R337, R339): a request whose OP is a read is none; a head of OP 6 is a partner write (R340). -/
def execBWrite (site : Nat) (pkt : MeshPkt) (cyc : Nat) (s : State) : Res :=
  onKind .b site (fun s =>
    let h := MeshPkt.hdr pkt
    if !s.bLive site || bIsRead (MeshPkt.head pkt) then s
    else if bOp (MeshPkt.head pkt) = 6 then
      match s.pairPort site (hSrc h) with
      | some p => if s.partnerOk site p (hVc h) (hSrc h) then s.bArrive site cyc (.write pkt (some p)) else s
      | none => s
    else s.bArrive site cyc (.write pkt none)) s

/-- PARTNER_WRITE (R340): OP 6, from the tile whose pairing with this one has lost the side channel of the port. -/
def execPartnerWrite (site port : Nat) (pkt : MeshPkt) (cyc : Nat) (s : State) : Res :=
  onUnit (isKind .b site && decide (port < 4)) (fun s =>
    let h := MeshPkt.hdr pkt
    if !s.bLive site || bOp (MeshPkt.head pkt) != 6 || !s.partnerOk site port (hVc h) (hSrc h) then s
    else s.bArrive site cyc (.write pkt (some port))) s

/-- The row that the head request presents: read for its bank cycle, the one that follows, or refused by a partner's bank mask
(R319, R340). An uncorrectable word of a cached segment forbids no commit (R468). -/
def State.areadRow (s : State) (site : Nat) (q : BReadReq) (flips : List Flip) : List WordRead × State :=
  match q.port with
  | some p =>
    if s.portBank site p q.row then s.bReadRow site q.row 1 flips
    else ((List.range 16).map fun _ => WordRead.poisoned 0, s.collide site false true 0 p q.row)
  | none => s.bReadRow site q.row (if q.seg.isSome then 4 else 1) flips

/-- AREAD_ROW_PRESENT: the head request presents its next row once the bank's read port is free of scheduled reads (R319), one row in
a comb cycle (R312). Its bank cycle is the next, and reads what every earlier cycle left. -/
def execAreadRowPresent (site cyc : Nat) (flips : List Flip) (s : State) : Res :=
  onKind .b site (fun s =>
    let s := s.bRun site cyc
    let t := s.btile site
    match t.reads with
    | [] => s
    | q :: rest =>
      if !s.bLive site || t.busy 5 (cyc + 1) || t.claimed false q.row (cyc + 1) then s
      else
        let (l, s) := s.areadRow site q flips
        let got := q.got ++ (rowHalves l).map fun h => (h.1, h.2 || q.poison)
        let done := q.left = 1
        let full := q.seg.isNone ∧ (12 ≤ got.length ∨ done)
        let s := if full then s.bAnswer site q.reply q.rflow 3 q.first q.tag 0 (got.map fun g => (leNat g.1, g.2)) else s
        let q' : BReadReq := { q with row := q.row + 1, left := q.left - 1, got := if full then [] else got
                                      first := if full then q.row + 1 else q.first, headAt := cyc + 1 }
        let s := s.updB site fun t => { t with
          claims := t.claims ++ [(cyc + 1, 5, q.row)]
          reads := if done then rest.map fun x => { x with headAt := max x.headAt (cyc + 1) } else q' :: rest }
        if done then
          let s := match q.seg with
            | some r => s.segDone r got
            | none => s
          s.bRetry site cyc
        else s) s

/-- The first entry of the queue that a cycle may admit (R333, R340). -/
def State.bEligible (s : State) (site cyc : Nat) : List BHeld → List Nat → Option BHeld
  | [], _ => none
  | e :: t, older =>
    if !older.contains e.row && (e.partner || s.winOpen site e.row cyc) && !(s.btile site).claimed true e.row (cyc + 1)
        && decide (cyc ≤ e.arr + 4095) then some e
    else State.bEligible s site cyc t (older ++ [e.row])

/-- HOLD_ADMIT: at most one held row is admitted through AWRITE; it lands in the next bank cycle (R325, R333). -/
def execHoldAdmit (site cyc : Nat) (s : State) : Res :=
  onKind .b site (fun s =>
    let s := s.bRun site cyc
    if !s.bLive site || (s.btile site).busy 6 (cyc + 1) then s
    else match s.bEligible site cyc (s.btile site).hold [] with
      | none => s
      | some e =>
        let s := s.updB site fun t => { t with
          hold := t.hold.filter fun x => x != e
          pipe := t.pipe ++ [{ cyc := cyc + 1, port := 6, write := true, row := e.row, words := e.words, wmask := e.wmask
                               flips := [], own := false, sel := true, job := some e.pkt, load := none }] }
        s.bRetry site cyc) s

/-- The packet of a held row has its discard logged. -/
def BTile.logPkt (t : BTile) (k : Nat) : BTile :=
  { t with pkts := t.pkts.map fun p => if p.pkt = k then { p with logged := true } else p }

/-- DMA_WINDOW_TIMEOUT: entries held for 4,096 comb cycles are discarded; logged once per packet (R334). -/
def execDmaWindowTimeout (site cyc : Nat) (s : State) : Res :=
  onKind .b site (fun s =>
    let s := s.bRun site cyc
    let old := (s.btile site).hold.filter fun e => decide (e.arr + 4096 ≤ cyc)
    let s := s.updB site fun t => { t with hold := t.hold.filter fun e => !old.contains e }
    let s := old.foldl (fun s e =>
      let s := s.incReg site 0x05C
      let first := match (s.btile site).pkts.find? fun p => p.pkt == e.pkt with
        | some p => !p.logged
        | none => true
      let s := if first then s.raise site 1 0x0202 e.row e.src 0 0 (s.combStep site) else s.flag site 1
      (s.updB site fun t => t.logPkt e.pkt).bRowDone site e.pkt true) s
    if old.isEmpty then s else s.bRetry site cyc) s

/-! ### Scrub (R348) -/

/-- B_SCRUB_READ: one row every INTERVAL comb cycles; a row with a correctable or uncorrectable word waits for its
write-back. -/
def execBScrubRead (site cyc : Nat) (flips : List Flip) (s : State) : Res :=
  onKind .b site (fun s =>
    let s := s.bRun site cyc
    let iv := s.regN site 0x064 % 65536
    let t := s.btile site
    if !s.bLive site || iv == 0 || decide (cyc < t.scrubAt + iv) || t.busy 7 (cyc + 1)
        || t.claimed false t.scrubRow (cyc + 1) then s
    else
      let row := t.scrubRow
      let (l, s) := s.bReadRow site row 2 flips
      let dirty := l.any fun w => match w with
        | .corrected _ | .bad _ _ => true
        | _ => false
      s.updB site fun t => { t with
        claims := t.claims ++ [(cyc + 1, 7, row)]
        scrubRow := (row + 1) % bufRows, scrubAt := cyc
        scrubBack := if dirty then t.scrubBack ++ [(row, sideForm row l)] else t.scrubBack }) s

/-- B_SCRUB_WRITEBACK: the oldest row that waits is written in the next bank cycle that other ports leave free (R324, R326). -/
def execBScrubWriteback (site cyc : Nat) (s : State) : Res :=
  onKind .b site (fun s =>
    let s := s.bRun site cyc
    match (s.btile site).scrubBack with
    | [] => s
    | (row, ws) :: rest =>
      if !s.bLive site || (s.btile site).busy 7 (cyc + 1) || (s.btile site).claimed true row (cyc + 1) then s
      else s.updB site fun t => { t with
        scrubBack := rest
        pipe := t.pipe ++ [{ cyc := cyc + 1, port := 7, write := true, row, words := ws, wmask := 0xFFFF, flips := []
                             own := false, sel := true, job := none, load := none }] }) s

/-- The reads of cached segments that a tile has still to make. -/
def BTile.segReads (t : BTile) : List SegRead :=
  (t.reads.filterMap fun q => q.seg) ++ t.waiting.filterMap fun w => match w with
    | .seg _ _ r => some r
    | _ => none

/-- The comb enters PARKED: accesses complete, ports stop, windows close, held entries go (R349); a read of a cached segment goes to HBM
(R469). -/
def State.bPark (s : State) (site : Nat) : State :=
  let s := s.bSettle site
  let l := (s.btile site).segReads
  let s := (s.updB site fun t => { t with
    reads := [], hold := [], pkts := [], scrubBack := [], jobs := [], claims := [], waiting := [], wins := [] }).bClose site
  l.foldl State.segLost s

/-! ### The plane loader (R117 to R120, R278, R317, R340, R346) -/

/-- Aligned pairs of rows, and single ones, as a side channel delivers them in a cycle (R119, R314). -/
def rowPairs : List Nat → List (List Nat)
  | a :: b :: t => if a % 2 = 0 ∧ b = a + 1 then [a, b] :: rowPairs t else [a] :: rowPairs (b :: t)
  | [a] => [[a]]
  | [] => []

/-- Ascending runs of consecutive numbers, 96 at most. -/
def rowRuns : List Nat → List (Nat × Nat)
  | [] => []
  | a :: t => match rowRuns t with
    | (b, n) :: l => if a + 1 = b ∧ n < 96 then (a, n + 1) :: l else (a, 1) :: (b, n) :: l
    | [] => [(a, 1)]

/-- The side-channel port by which an M tile reads a B tile (R313). -/
def State.scPort (s : State) (m b : Nat) : Option Nat :=
  match s.served m, s.served b with
  | some lm, some lb => (List.range 4).find? fun p => portMate lb p == lm
  | _, _ => none

/-- The accesses that a load presents at one place of BT, plane by plane: plane and rows (R119). -/
def State.loadSeq (s : State) (l : MLoad) (g : LdGeom) (n : Nat) : List (Nat × List Nat) :=
  (List.range (ldPlanes l.rec_.toNat)).flatMap fun p =>
    (rowPairs ((s.planeRows l g p).filter (fun x => x / 16384 == n) |>.map (· % 16384))).map fun r => (p, r)

/-- Rows of a partner come over its side channel: one access in a comb cycle from the start of the load on, planes ascending, so that two
partners deliver their planes side by side (R119). -/
def State.loadSide (s : State) (site : Nat) (l : MLoad) (g : LdGeom) (n k port cyc : Nat) : State :=
  let seq := s.loadSeq l g n
  (List.range seq.length).foldl (fun s i =>
    let e := nth (0, []) seq i
    s.present k port e.2 (cyc + i) [] (some (site, rowKey e.1 n))) (s.bRun k cyc)

/-- Rows of another B tile are asked for over the mesh; partner reads where the pairing has lost its side channel (R37, R119, R340). The
fields that the rules leave to the loader are named in log 96. -/
def State.loadMesh (s : State) (site : Nat) (l : MLoad) (g : LdGeom) (n b : Nat) : State :=
  let c := siteComb site
  let op := if s.lostPair site b then 5 else 1
  (List.range (ldPlanes l.rec_.toNat)).foldl (fun s p =>
    (rowRuns ((s.planeRows l g p).filter (fun x => x / 16384 == n) |>.map (· % 16384))).foldl (fun s e =>
      s.inject site (mkPkt (mkHdr (siteDest c b) (s.ownDest site) (if op = 5 then 1 else 0) (s.epochOf c) 1 0 0 16 0)
        (op * 2 ^ 508 + e.1 * 2 ^ 488 + e.2 * 2 ^ 481 + s.ownDest site * 2 ^ 449 + 16 * 2 ^ 437 + (p * 64 + n) * 2 ^ 421) [])) s) s

/-- The reads of a load: by the side channel of a partner whose distance-table entry has SIDE set, else over the mesh (R119). -/
def State.loadReads (s : State) (site : Nat) (l : MLoad) (cyc : Nat) : State :=
  let g := geomOf (s.regN site)
  (List.range g.nbt).foldl (fun s n =>
    let b := nth 0 g.bt n
    match s.serving (siteComb site) b with
    | none => s
    | some k => match (if sidePair site k then s.scPort site k else none) with
      | some port => s.loadSide site l g n k port cyc
      | none => s.loadMesh site l g n b) s

/-- PLANE_LOAD_START: the load that waits starts once the last vector that reads its set has left the MUL stage (R118); its reads go
out. -/
def execPlaneLoadStart (site cyc : Nat) (s : State) : Res :=
  onKind .m site (fun s =>
    let s := (s.mAdvance site cyc).runM site cyc
    let t := s.mtile site
    match t.loads with
    | [] => s
    | l :: rest =>
      let b := ldSet l.rec_.toNat
      if l.started || t.reads l || decide (cyc < t.freeAt b) then s
      else
        let s := s.setReg64 site 0x070 l.rec_.toNat
        let s := s.updM site fun t => { t.putSet b { t.set b with ready := false } with
          loads := { l with started := true } :: rest, got := [] }
        let s := if s.loadRows l (geomOf (s.regN site)) then s.mEvent site 7 0x0105 l.task (s.regN site 0x070) 0 0 l.step else s
        s.loadReads site l cyc) s

/-- The B tiles of a comb that a load reads, up to a cycle. -/
def State.loadRun (s : State) (site cyc : Nat) : State :=
  let g := geomOf (s.regN site)
  ((g.bt.take g.nbt).filterMap (s.serving (siteComb site))).foldl (fun s k => s.bRun k cyc) s

/-- PLANE_LOAD_DONE: every row has come, a side channel's four cycles after its bank cycle (R318); the planes and their checksum columns
are formed and the set is complete (R117, R120). A vector that issued two cycles earlier reaches the MUL stage in this one (R134). -/
def execPlaneLoadDone (site cyc : Nat) (s : State) : Res :=
  onKind .m site (fun s =>
    match (s.mtile site).loads with
    | l :: rest =>
      if !l.started then s
      else
        let s := s.loadRun site (cyc - 4)
        if !s.loadCame site l then s
        else
          let s := s.mAdvance site cyc
          (s.updM site fun t => { t.putSet (ldSet l.rec_.toNat) (s.loadSet site l) with loads := rest, got := [] }).runM site cyc
    | [] => s) s

end Sys2Proof.Machine
end

