-- ==== Sys2Proof/Machine/Launch.lean ====
section
/-! DEFINITION. Launches, templates, foraging and instances (chapter 7, R372, R384 to R412, R738). -/

namespace Sys2Proof.Machine

/-! ### Taking a launch (R372, R394 to R397, R402) -/

/-- A slot that can serve launches: INSTALLED or ACTIVE. -/
def State.slotUsable (s : State) (n : Nat) : Bool := (s.slot n).st == .installed || (s.slot n).st == .active

/-- The slot a launch runs on: its own, or its FALLBACK while it is UNPLACED (R372). -/
def State.effSlot (s : State) (n : Nat) : Option Nat :=
  match (s.slot n).st with
  | .empty => none
  | .unplaced => match (s.slot n).img with
    | some im => if s.slotUsable im.fallback then some im.fallback else none
    | none => none
  | _ => some n

/-- Code 1 of R394: KIND, and the reserved fields of R384. -/
def launchForm (r : List Byte) : Bool :=
  leAt r 0 1 == 1 && leAt r 3 1 == 0 && bits (leAt r 56 2) 15 12 == 0 && leAt r 58 6 == 0 && leAt r 72 56 == 0

/-- An M-tile pair of R70. -/
def mPair (a w : Nat) : Bool :=
  (decide (1 ≤ a) && decide (a ≤ 5) && decide (1 ≤ w) && decide (w ≤ 5)) || (a == w && (a == 0 || a == 6 || a == 7))

/-- The function codes of R176; every other one is rejected at launch, with code 8 (log 29). -/
def sfnKnown (f : Nat) : Bool := decide (1 ≤ f ∧ f ≤ 0x0C) || decide (0x10 ≤ f ∧ f ≤ 0x17)

/-- A format code of one instruction breaks code 8 of R394. Code 0xF of a load record is left to R158. -/
def State.instrFmtBad (s : State) (i : DWord × List DWord) : Bool :=
  let op := bits i.1.toNat 63 56
  let w0 := (nth 0 i.2 0).toNat
  let w1 := (nth 0 i.2 1).toNat
  let rsv := fun n => decide (9 ≤ n) && decide (n ≤ 14)
  if op = 0x01 then
    let a := bits w1 63 60
    let w := bits w1 59 56
    !mPair a w || !s.licFmt a || !s.licFmt w
  else if op = 0x02 then
    let a := bits w0 63 60
    decide (8 ≤ a ∧ a ≤ 14) || !s.licFmt a
  else if op = 0x10 then
    let a := bits w0 41 38
    let b := bits w0 37 34
    rsv a || rsv b || !s.licFmt a || !s.licFmt b || !sfnKnown (bits i.1.toNat 55 48)
      || decide (65536 < bits i.1.toNat 47 31)
  else false

/-- What the checks of R394 find: the first code broken, or what the launch runs. -/
inductive Checked where
  | bad (code : Nat)
  | ok (slot bidx : Nat) (img : Image) (b : Bucket)
  deriving DecidableEq, Repr

/-- The bucket that a launch of a graph runs (R387), with its index in the graph. -/
def Image.pickBucket (im : Image) (g : Graph) (d0 d1 : Nat) : Option (Nat × Bucket) :=
  leastBy (fun b => b.2.d0 * b.2.d1) ((im.bucketsOf g).filter fun b => decide (d0 ≤ b.2.d0) && decide (d1 ≤ b.2.d1))

/-- Instances of a template (R401). -/
def instCount (t : Template) (ptrs : Nat) : Nat := if t.pstride = 0 then t.inst else t.inst * (ptrs / t.pstride)

/-- Instances of a bucket. -/
def Image.total (im : Image) (b : Bucket) (ptrs : Nat) : Nat := sumNat ((im.tmplsOf b).map fun t => instCount t.2 ptrs)

/-- The next free task ID of a step (R402); a launch of no step starts at 0. -/
def State.nextTask (s : State) (step : Nat) : Nat :=
  if step = 0 then 0 else match s.prog.nextTask.find? fun e => e.1 == step with
    | some e => e.2
    | none => 0

/-- A pass record with PLANES or NFEAT 0: the launch that would give it to a tile is rejected (R131, R416). -/
def zeroRecord (i : DWord × List DWord) : Bool :=
  let op := bits i.1.toNat 63 56
  let w0 := (nth 0 i.2 0).toNat
  let r := w0 + 2 ^ 64 * (nth 0 i.2 1).toNat
  op == 0x01 && (pPlanes r == 0 || pNfeat r == 0)

/-- A template's instructions in the code store of its home comb (R379, R399). -/
def State.tmplCode (s : State) (t : Template) : Option (List (DWord × List DWord)) :=
  codeAt (sget (fun _ => []) s.prog.code (s.physComb t.home)) t.code

/-- The checks 7 to 11 on the bucket that would run, after the zero fields of its code (code 5). -/
def State.bucketRule (s : State) (im : Image) (b : Bucket) (r : List Byte) (step : Nat) : Nat :=
  let ts := (im.tmplsOf b).map (·.2)
  let pc := leAt r 12 2
  let ac := leAt r 14 2
  let code := fun (t : Template) => (s.tmplCode t).getD []
  if ts.any fun t => (code t).any zeroRecord then 5
  else if 4194304 < b.contrib then 7
  else if ts.any fun t => (code t).any s.instrFmtBad then 8
  else if 4096 < pc ∨ (ts.any fun t => decide (1 ≤ t.pstride ∧ pc % t.pstride ≠ 0))
      ∨ (leAt r 64 8 = 0 ∧ ts.any fun t => bit t.flags 2) then 9
  else if 1024 < ac ∨ (ts.any fun t => decide (ac < t.amax)) then 10
  else if 16777216 < s.nextTask step + im.total b pc then 11
  else 0

/-- R394 in table order. -/
def State.checkLaunch (s : State) (l : LRec) : Checked :=
  let r := l.raw
  if ¬launchForm r then .bad 1
  else match s.effSlot (leAt r 1 1) with
    | none => .bad 2
    | some n =>
      match (s.slot n).img, decide ((s.slot n).st = .active) with
      | some im, true =>
        match im.graph? (leAt r 2 1), decide (leAt r 2 1 < im.ngraph) with
        | some g, true =>
          if leAt r 4 4 = 0 ∨ leAt r 8 4 = 0 then .bad 5
          else match im.pickBucket g (leAt r 4 4) (leAt r 8 4) with
            | none => .bad 6
            | some (i, b) =>
              let c := s.bucketRule im b r l.step
              if c = 0 then .ok n i im b else .bad c
        | _, _ => .bad 4
      | _, _ => .bad 3

/-- A step's launch is rejected: the step is abandoned for good and its streams enter FAULTED (R502, R776). -/
def State.rejectStep (s : State) (l : LRec) (code : Nat) : State :=
  if l.step = 0 then s
  else
    let s := (s.flag pgMrd 2).log pgMrd 0x0F02 l.step code 0 0
    s.abandonFrom l.step 0x0F03 true

/-- A rejected launch (R396): STATUS 2, LAUNCH_REJECT. -/
def State.rejectLaunch (s : State) (l : LRec) (code : Nat) : State :=
  let r := l.raw
  let s := s.record (leAt r 48 8) (doneRec 2 code 0xFF 0 0 0 0)
  let s := s.log pgMrd 0x0F03 code (leAt r 1 1) (leAt r 2 1) (if l.step = 0 then 0 else s.oldest)
  s.rejectStep l code

/-- The runs of a bucket's templates, with their first task IDs (R402). -/
def tmplRuns (ptrs : Nat) : List (Nat × Template) → Nat → List TmplRun
  | [], _ => []
  | (i, t) :: l, first =>
    { idx := i, first, total := instCount t ptrs, done := 0, released := false } :: tmplRuns ptrs l (first + instCount t ptrs)

/-- The reduction IDs that an instruction feeds (R130). -/
def passReds (i : DWord × List DWord) : List Nat :=
  let r := (nth 0 i.2 0).toNat + 2 ^ 64 * (nth 0 i.2 1).toNat
  if bits i.1.toNat 63 56 = 0x01 then (List.range ((pNfeat r + 31) / 32)).map fun g => (pRed r + g) % 65536 else []

/-- The reductions of a template: those its code feeds, and those it waits for (R403). -/
def State.tmplReds (s : State) (t : Template) : List Nat :=
  ((s.tmplCode t).getD []).flatMap passReds ++ ([t.dep0, t.dep1].filter fun d => bit d 31 && bit d 30).map (· % 65536)

/-- The reductions of a bucket's templates that have an instance. -/
def State.bucketReds (s : State) (im : Image) (b : Bucket) (ptrs : Nat) : List Nat :=
  ((im.tmplsOf b).filter fun t => decide (0 < instCount t.2 ptrs)).flatMap fun t => s.tmplReds t.2

/-- The reductions of a graph: those that a template of one of its buckets feeds or waits for (R404). -/
def State.graphReds (s : State) (im : Image) (g : Graph) : List Nat :=
  (im.bucketsOf g).flatMap fun b => (im.tmplsOf b.2).flatMap fun t => s.tmplReds t.2

/-- The sink entries of a graph re-arm as a launch of it starts (R404): those of the reductions of its code (log 27). -/
def State.rearm (s : State) (reds : List Nat) : State :=
  let rt := s.rt.map fun e => (e.1, { e.2 with
    acc := e.2.acc.filter fun a => !reds.contains a.red, doneCh := e.2.doneCh.filter fun d => !reds.contains d.1 })
  let ports := s.tre.ports.map fun e => (e.1, { e.2 with
    acc := e.2.acc.filter fun a => !reds.contains a.red, doneCh := e.2.doneCh.filter fun d => !reds.contains d.1 })
  { s with rt := rt.filter fun e => decide (e.2 ≠ rtDflt e.1)
           tre := { s.tre with ports := ports.filter fun e => decide (e.2 ≠ tpDflt e.1) } }

/-- Change a launch. -/
def State.updLaunch (s : State) (id : Nat) (f : Launch → Launch) : State :=
  { s with prog := { s.prog with launches := s.prog.launches.map fun l => if l.id = id then f l else l } }

/-- The last instance of a launch completes (R397, R738): its record; a launch of no step leaves task dispatch. -/
def State.finishLaunch (s : State) (id : Nat) : State :=
  match s.launch? id with
  | none => s
  | some l =>
    let n := sumNat (l.tmpls.map (·.total))
    let s := s.record l.done (doneRec (if n = 0 then 1 else 0) 0 (if n = 0 then 0xFF else l.bucket) n l.first l.start
      (if n = 0 then 0 else s.dev.chrono))
    let s := s.endLaunch l l.energy
    let s := s.updLaunch id fun l => { l with finished := true, energy := 0 }
    if l.step = 0 then { s with prog := { s.prog with launches := s.prog.launches.filter fun x => x.id != id } }.markBoundary else s

/-- Take a checked launch: its lists are read, its templates get their task IDs. -/
def State.startLaunch (s : State) (l : LRec) (slot bidx : Nat) (im : Image) (b : Bucket) : State :=
  let r := l.raw
  let served := if l.step = 0 then none else some l.step
  let pc := leAt r 12 2
  let ac := leAt r 14 2
  let first := s.nextTask l.step
  let tot := im.total b pc
  let p := s.fetch (leAt r 32 8) (8 * pc) served
  let a := p.s.fetch (leAt r 40 8) (2 * ac) served
  let mask := fun (s : State) (a bits : Nat) => if a = 0 then s else s.noteRead a ((bits + 7) / 8) served
  let s := mask (mask a.s (leAt r 16 8) b.d0) (leAt r 24 8) b.d1
  let id := s.prog.nextLaunch
  let x : Launch := {
    id, step := l.step, role := l.role, slot, graph := leAt r 2 1, bucket := bidx, d0 := leAt r 4 4, d1 := leAt r 8 4
    ptrs := (List.range pc).map fun i => leAt p.data (8 * i) 8 % 2 ^ 48
    anchors := (List.range ac).map fun i => leAt a.data (2 * i) 2 % 1024
    cmask := leAt r 16 8, rmask := leAt r 24 8, map := leAt r 64 8 % 2 ^ 48, done := leAt r 48 8
    job := leAt r 56 2 % 4096, first, tasks := tot, tmpls := tmplRuns pc (im.tmplsOf b) first, reds := (s.bucketReds im b pc).map fun r => (r, false)
    start := 0, started := false, finished := false, energy := l.nj }
  let s : State := { s with prog := { s.prog with
    launches := s.prog.launches ++ [x], nextLaunch := id + 1
    nextTask := if l.step = 0 then s.prog.nextTask
      else (l.step, first + tot) :: s.prog.nextTask.filter fun e => e.1 != l.step
    armed := s.prog.armed ++ (s.bucketReds im b pc).filter fun r => !s.prog.armed.contains r } }
  let s := s.rearm ((im.graph? (leAt r 2 1)).elim [] (s.graphReds im))
  if tot = 0 then s.finishLaunch id else s

/-- A launch of a graph waits for the one before it (R404). -/
def State.graphBusy (s : State) (l : LRec) : Bool :=
  match s.effSlot (leAt l.raw 1 1) with
  | none => false
  | some n => s.prog.launches.any fun x => !x.finished && x.slot == n && x.graph == leAt l.raw 2 1

/-- A switch holds launches back once the step before it is done (R379, step 2): one of a step already begun still runs. -/
def State.switchHolds (s : State) (l : LRec) : Bool :=
  (s.prog.cur.isSome || !s.prog.ahead.isEmpty) &&
    !(l.step != 0 && s.prog.launches.any fun x => x.step == l.step)

/-- LAUNCH: task dispatch takes the launch record at the head of its queue (R394, R404). -/
def execLaunch (s : State) : Res :=
  match s.prog.dq with
  | .launch l :: rest =>
    if s.switchHolds l || s.graphBusy l then .next s
    else
      let s : State := { s with prog := { s.prog with dq := rest } }
      match s.checkLaunch l with
      | .bad c => .next (s.rejectLaunch l c)
      | .ok n i im b => .next (s.startLaunch l n i im b)
  | _ => .next s

/-! ### Pools (R400 to R403, R406) -/

/-- The pool of an instance in its comb: 0 to 3 the M quarters, 4 the S pool, 5 + i the queue of the i-th B site. -/
def poolOf (t : Template) (j : Nat) : Nat :=
  if t.kind = 0 then j % 4 else if t.kind = 1 then 4 else 5 + t.elig.log2

def poolKey (comb p : Nat) : Nat := comb * 64 + p

def poolDflt (_ : Nat) : List Inst := []
def State.pool (s : State) (comb p : Nat) : List Inst := sget poolDflt s.prog.pools (poolKey comb p)

def State.setPool (s : State) (comb p : Nat) (l : List Inst) : State :=
  { s with prog := { s.prog with pools := sset poolDflt s.prog.pools (poolKey comb p) l } }

/-- A DEP field is satisfied in a launch (R403). -/
def Launch.depMet (l : Launch) (d : Nat) : Bool :=
  if !bit d 31 then true
  else if bit d 30 then l.reds.any fun r => r.1 == d % 65536 && r.2
  else l.tmpls.any fun t => t.idx == d % 65536 && t.released && t.done == t.total

/-- TEMPLATE_RELEASE: the instances of a template enter the pools together (R401, R403, R406). -/
def execTemplateRelease (launch tmpl : Nat) (s : State) : Res :=
  match s.launch? launch with
  | none => .next s
  | some l =>
    match l.tmpls.find? fun t => t.idx == tmpl, ((s.slot l.slot).img.bind fun im => im.tasks[tmpl]?) with
    | some r, some t =>
      if r.released || !l.depMet t.dep0 || !l.depMet t.dep1 then .next s
      else
        let c := s.physComb t.home
        let s := s.updLaunch launch fun l => { l with
          tmpls := l.tmpls.map fun x => if x.idx = tmpl then { x with released := true } else x }
        .next ((List.range r.total).foldl (fun s j =>
          let p := poolOf t j
          s.setPool c p (s.pool c p ++ [{ launch, tmpl, j, task := r.first + j, comb := c }])) s)
    | _, _ => .next s

/-! ### Foraging (R406 to R411) -/

/-- The index of a logical site among its kind (ELIG of R399). -/
def kindIdx (l : Nat) : Nat := ((logicals (kindOf l)).takeWhile fun x => x != l).length

/-- The template of an instance in a pool. -/
def State.tmplFor (s : State) (i : Inst) : Option Template :=
  (s.launch? i.launch).bind fun l => s.tmplOf l i

/-- A tile's logical index of its kind is in ELIG of an instance. -/
def State.elig (s : State) (l : Nat) (i : Inst) : Bool :=
  match s.tmplFor i with
  | some t => bit t.elig (kindIdx l)
  | none => false

def State.isGang (s : State) (i : Inst) : Bool :=
  match s.tmplFor i with
  | some t => bit t.flags 1
  | none => false

/-- A MIRROR instance of a graph whose MIRROR set holds a comb, in a steal domain that reaches it from its own (R407, R408). -/
def State.mirrorFor (s : State) (c : Nat) (i : Inst) : Bool :=
  match s.launch? i.launch, s.tmplFor i with
  | some l, some t =>
    match (s.slot l.slot).img.bind fun im => im.graph? l.graph with
    | some g => bit t.flags 0 && bit g.mirror (s.placeComb c)
        && (g.steal == 2 || (g.steal == 1 && c / 4 == i.comb / 4))
    | none => false
  | _, _ => false

/-- The quarter of a logical M site (the four pools of a comb). -/
def quarter (l : Nat) : Nat := 2 * b2n (decide (5 ≤ l / 12)) + b2n (decide (6 ≤ l % 12))

/-- The home site of an M pool. -/
def poolHome (p : Nat) : Nat := nth 0 [0, 6, 60, 66] p

/-- A tile's own pool. -/
def ownPool (l : Nat) : Nat :=
  match kindOf l with
  | .m => quarter l
  | .b => 5 + kindIdx l
  | _ => 4

/-- The order of the other pools of a comb: hops to the home site in the active generation of the distance
table, then number (R51, R407). -/
def State.otherPools (s : State) (site l : Nat) : List Nat :=
  if kindOf l != .m then []
  else
    let rank := fun p => s.distEntry s.die.distNew (siteComb site) l (poolHome p) % 256 * 4 + p
    let ps := (List.range 4).filter fun p => p != quarter l
    (sortNats (ps.map rank)).map (· % 4)
where
  /-- Ascending order. -/
  sortNats (l : List Nat) : List Nat := (l.foldl (fun m n => sput m n ()) ([] : Sparse Unit)).map (·.1)

/-- The order of the other combs: grid distance, seams, index (R407). The pools of a PARKED comb are among them: R411 lets MIRROR
instances leave those by stealing, where the comment in R407's code passes them over (log 107). -/
def State.otherCombs (s : State) (c : Nat) : List Nat :=
  let rank := fun d => (combDist c d * 16 + seamCross (mkSite c 0) (mkSite d 0)) * 32 + d
  let ds := (List.range 24).filter fun d => d != c && !s.combOff d
  ((ds.foldl (fun m d => sput m (rank d) ()) ([] : Sparse Unit)).map fun e => e.1 % 32)

/-- Pools of another comb that hold instances of a kind. -/
def kindPools (k : Kind) : List Nat :=
  match k with
  | .m => [0, 1, 2, 3]
  | .b => (List.range 32).map (· + 5)
  | _ => [4]

/-- What foraging takes: the comb and pool, and the instance. -/
def State.forageFor (s : State) (site l : Nat) : Option (Nat × Nat × Inst) :=
  let c := siteComb site
  let own := ownPool l
  let ok := fun i => s.elig l i && !s.isGang i
  match (s.pool c own).find? ok with
  | some i => some (c, own, i)
  | none =>
    match (s.otherPools site l).findSome? fun p => ((s.pool c p).reverse.find? ok).map fun i => (c, p, i) with
    | some x => some x
    | none =>
      (s.otherCombs c).findSome? fun d => (kindPools (kindOf l)).findSome? fun p =>
        ((s.pool d p).reverse.find? fun i => ok i && s.mirrorFor c i).map fun i => (d, p, i)

/-- A GANG instance at the head of an M pool of the comb keeps a tile idle (R409). -/
def State.gangWaits (s : State) (c l : Nat) : Bool :=
  (List.range 4).any fun p => match s.pool c p with
    | i :: _ => s.isGang i && kindOf l == .m && s.elig l i
    | [] => false

/-- A pass of the tile, or a group it holds, has failed a check: the tile is about to be FENCED (R149). -/
def MTile.failing (t : MTile) : Bool := !t.failed.isEmpty || t.fails.any fun f => decide (f.check < 8)

/-- A tile may take an instance: RUN, none running, its comb's program epoch not halted (R213, R407), no check failed (R149, R151). -/
def State.idle (s : State) (site : Nat) : Bool :=
  s.inRun site && (s.run site).inst.isNone && !s.prog.halted.contains (siteComb site)
    && !s.combClosed (siteComb site) && !s.combOff (siteComb site) && !(s.mtile site).failing

/-- An instance starts on a tile: its counters are zero (R376); what an instance that is gone left there is dropped (log 97). -/
def State.startInst (s : State) (site : Nat) (i : Inst) : State :=
  let s := s.updRun site fun r => { r with
    inst := some i, ctr := [0, 0, 0, 0, 0, 0, 0, 0], wait := none, ended := false
    pend := (r.pend.filter fun x => x.kind == 0 && x.left != 0).map fun x => { x with gone := true } }
  let s := s.updM site fun t => t.drop
  s.updLaunch i.launch fun l => if l.started then l else { l with started := true, start := s.dev.chrono }

/-- FORAGE (R407 to R412). -/
def execForage (site : Nat) (s : State) : Res :=
  onUnit (isSite site && siteKind site != .w) (fun s =>
    match s.served site with
    | none => s
    | some l =>
      if !s.idle site || s.gangWaits (siteComb site) l then s
      else match s.forageFor site l with
        | none => s
        | some (d, p, i) => (s.setPool d p ((s.pool d p).filter fun x => x != i)).startInst site i) s

/-- GANG_START: every tile in ELIG of the GANG instance at a pool's head is idle; it starts on all of them (R409). -/
def execGangStart (comb pool : Nat) (s : State) : Res :=
  onUnit (decide (comb < 24 ∧ pool < 4)) (fun s =>
    match s.pool comb pool with
    | [] => s
    | i :: rest =>
      let sites := ((logicals .m).filter fun l => s.elig l i).map fun l => s.serving comb l
      if s.isGang i && (sites.all fun x => match x with
          | some t => s.idle t
          | none => false) then
        (sites.filterMap id).foldl (fun s t => s.startInst t i) (s.setPool comb pool rest)
      else s) s

/-! ### Waiting and completion (R376, R377, R405) -/

/-- WAIT: the micro-program is held until a counter reaches a value (R377). -/
def execWait (site : Nat) (w0 : DWord) (s : State) : Res :=
  onUnit (isSite site && siteKind site != .w) (fun s =>
    let c := bits w0.toNat 50 48
    let v := w0.toNat % 2 ^ 32
    if !s.mayRun site then s
    else if v ≤ nth 0 (s.run site).ctr c then s
    else s.updRun site fun r => { r with wait := some (c, v) }) s

/-- WAIT_RELEASE: the counter has reached the value waited for. -/
def execWaitRelease (site : Nat) (s : State) : Res :=
  onUnit (isSite site && siteKind site != .w) (fun s =>
    match (s.run site).wait with
    | none => s
    | some (c, v) => if v ≤ nth 0 (s.run site).ctr c then s.updRun site fun r => { r with wait := none } else s) s

/-- NOP (R373). -/
def execNop (site : Nat) (s : State) : Res := onUnit (isSite site && siteKind site != .w) (fun s => s) s

/-- END: the instance's code has run (R373, R405). -/
def execEndCode (site : Nat) (s : State) : Res :=
  onUnit (isSite site && siteKind site != .w) (fun s =>
    if s.mayRun site then s.updRun site fun r => { r with ended := true } else s) s

/-- The tile has nothing of its instance left to send (R405). -/
def State.tileQuiet (s : State) (site : Nat) : Bool :=
  let t := s.mtile site
  match siteKind site with
  | .m => t.pass.isNone && t.more.isEmpty && t.groups.isEmpty
  | .b => (s.btile site).jobs.isEmpty
  | _ => true

/-- An instance of a template is done; the last one ends the launch (R397). -/
def State.countDone (s : State) (i : Inst) : State :=
  let s := s.updLaunch i.launch fun l => { l with
    tmpls := l.tmpls.map fun t => if t.idx = i.tmpl then { t with done := t.done + 1 } else t }
  match s.launch? i.launch with
  | none => s
  | some l => if l.tmpls.all fun t => t.done == t.total then s.finishLaunch l.id else s

/-- INSTANCE_COMPLETE (R405). A gang's instance is done with its last tile. -/
def execInstanceComplete (site cyc : Nat) (s : State) : Res :=
  onUnit (isSite site && siteKind site != .w) (fun s =>
    let r := s.run site
    match r.inst with
    | none => s
    | some i =>
      let s := if siteKind site == .m then (s.mAdvance site cyc).runM site cyc
        else if siteKind site == .b then s.bRun site cyc else s
      if r.ended = false ∨ r.wait ≠ none ∨ s.tileQuiet site = false then s
      else
        let s := s.updRun site fun r => { r with inst := none, ended := false }
        if (s.prog.runs.any fun e => e.2.inst == some i) then s else s.countDone i) s

/-- A sink entry completes (R266, R403): satisfied in the unfinished launches that name its RED. -/
def State.redDone (s : State) (red : Nat) : State :=
  { s with prog := { s.prog with launches := s.prog.launches.map fun l =>
      if l.finished then l else { l with reds := l.reds.map fun r => if r.1 = red then (red, true) else r } } }

end Sys2Proof.Machine
end

