-- ==== Sys2Proof/Machine/Wag.lean ====
section
/-! DEFINITION. W tiles (chapter 4, R200 to R215, R900): pairing of steer words with data groups, copies to the outputs,
merge order, failures. -/

namespace Sys2Proof.Machine

/-! ### A halted program epoch (R213, R296, R382) -/

/-- A comb's program epoch halts: it starts no further task, and a FLUSH switch to the ACTIVE slot is queued ahead. -/
def State.haltComb (s : State) (c : Nat) : State :=
  let s : State := if s.prog.halted.contains c then s else { s with prog := { s.prog with halted := s.prog.halted ++ [c] } }
  s.queueSwitch true

/-! ### The tile -/

def wiDflt (_ : Nat) : WInput := { st := 0, next := 0, held := [], remain := 0, halted := false, ord := 0, early := [] }
def wtDflt (_ : Nat) : WTile := { ins := [], groups := [], hist := [], turn := [], handled := [], clk := 0, wait := [] }

def State.wtile (s : State) (site : Nat) : WTile := sget wtDflt s.wt site
def State.updW (s : State) (site : Nat) (f : WTile → WTile) : State := { s with wt := supd wtDflt s.wt site f }
def WTile.input (t : WTile) (i : Nat) : WInput := sget wiDflt t.ins i
def WTile.updIn (t : WTile) (i : Nat) (f : WInput → WInput) : WTile := { t with ins := supd wiDflt t.ins i f }

/-- Fields of a steer word (R200). -/
def swSeq (w : Nat) : Nat := bits w 63 52
def swEpoch (w : Nat) : Nat := bits w 51 50
def swFwd (w : Nat) : Bool := bit w 49
def swOut (w : Nat) : Nat := bits w 39 24
def swCount (w : Nat) : Nat := bits w 23 15

/-- Input and output configuration (R224, R225). -/
def State.wIn (s : State) (site i : Nat) : Nat := s.regN site (0x100 + 4 * i)
def State.wOut (s : State) (site n : Nat) : Nat := s.regN site (0x140 + 4 * n)

/-- The input that a flow selects (R900). -/
def State.wInputOf (s : State) (site flow : Nat) : Option Nat :=
  (List.range 16).find? fun i => bit (s.wIn site i) 31 && bits (s.wIn site i) 27 16 == flow

/-- Entries in use (R205): held items, the steer word of a group in FORWARDING, a packet held before it paired. -/
def WTile.entries (t : WTile) : Nat :=
  sumNat (t.ins.map fun e => e.2.held.length + b2n (e.2.st == 3)) + (t.groups.filter fun g => g.own && g.sent == 0).length

/-- A malformed steer word (R203). -/
def State.steerBad (s : State) (site w : Nat) : Bool :=
  decide (256 < swCount w) || bit w 48 || bits w 14 0 != 0
    || (setBits 16 (swOut w)).any fun n => !bit (s.wOut site n) 31

/-! ### Injection (R207 to R211) -/

/-- The header of a copy: the output's destination and flow, the tile's own address; MCT and DN are 0 at injection (R242). -/
def State.wHdr (s : State) (site n h : Nat) : Nat :=
  let o := s.wOut site n
  putBits (putBits (putBits (putBits (putBits h 86 86 0) 55 55 0) 127 112 (s.physDest (o % 65536))) 111 96 (s.ownDest site)) 83 72 (bits o 27 16)

/-- A packet with another header. -/
def withHdr (p : MeshPkt) (h : Nat) : MeshPkt :=
  match p.flits with
  | [] => p
  | f :: t => { p with flits := { f with lane := BitVec.ofNat 128 h } :: t }

/-- The single-flit packet of a forwarded steer word on the control channel; SEQ is the steer word's (R242). -/
def State.steerPkt (s : State) (site n : Nat) (w : DWord) : MeshPkt :=
  mkPkt (mkHdr (s.physDest (s.wOut site n % 65536)) (s.ownDest site) 3 (s.epochOf (siteComb site)) 1 0 0
    (bits (s.wOut site n) 27 16) (swSeq w.toNat)) w.toNat []

/-- Outputs that get a forwarded steer word: those it selects whose WIN is 1 (R208). -/
def State.fwdOuts (s : State) (site w : Nat) : List Nat :=
  if swFwd w then (setBits 16 (swOut w)).filter fun n => bit (s.wOut site n) 29 else []

/-- Two entries are the same group: one input never has two pending groups with one SEQ. -/
def WGroup.same (g x : WGroup) : Bool := x.input == g.input && x.word == g.word

/-- An output still needs packets of a group, or its steer word. -/
def WGroup.needs (g : WGroup) (n : Nat) : Bool :=
  if g.count = 0 then g.fwdLeft.contains n
  else bit (swOut g.word.toNat) n && !(g.sent + 1 == g.count && !g.pkts.isEmpty && !g.left.contains n)

/-- A group has begun at an output and is not done there. -/
def State.wBegun (s : State) (site : Nat) (g : WGroup) (n : Nat) : Bool :=
  g.count != 0 && g.needs n &&
    (g.sent != 0 || !g.left.contains n || ((s.fwdOuts site g.word.toNat).contains n && !g.fwdLeft.contains n))

/-- The input whose turn it is at an ordered output: the first enabled one from its turn on, with wrap (R210). -/
def State.turnOf (s : State) (site n : Nat) : Option Nat :=
  let t := sget (fun _ => 0) (s.wtile site).turn n
  ((List.range 16).map fun k => (t + k) % 16).find? fun i => bit (s.wIn site i) 31

/-- How many groups of an input an output has handled. -/
def WTile.handledAt (t : WTile) (n i : Nat) : Nat := sget (fun _ => 0) t.handled (n * 16 + i)

/-- The output takes or passes the next group of an input: the turn goes on (R210). -/
def State.wPass (s : State) (site n i : Nat) : State :=
  s.updW site fun t => { t with turn := sset (fun _ => 0) t.turn n ((i + 1) % 16)
                                handled := supd (fun _ => 0) t.handled (n * 16 + i) (· + 1) }

/-- Pass the turns whose groups have paired and do not select an ordered output. -/
def State.wTurns (s : State) (site n : Nat) : Nat → State
  | 0 => s
  | fuel + 1 =>
    match s.turnOf site n with
    | none => s
    | some i =>
      let k := (s.wtile site).handledAt n i
      match (s.wtile site).hist.find? fun h => h.1 == i && h.2.1 == k with
      | some h => if bit h.2.2 n then s else State.wTurns (s.wPass site n i) site n fuel
      | none => s

/-- The output may carry a packet of the group next (R208, R210): at an ordered output the group whose turn it is, a
control event between groups; elsewhere the group that paired first. -/
def State.wGranted (s : State) (site n : Nat) (g : WGroup) : Bool :=
  if bit (s.wOut site n) 30 then
    if g.count = 0 then !((s.wtile site).groups.any fun x => s.wBegun site x n)
    else s.turnOf site n == some g.input && (s.wtile site).handledAt n g.input == g.ord
  else match (s.wtile site).groups.find? fun x => x.needs n with
    | some x => g.same x
    | none => false

/-- Replace a group. -/
def WTile.putGroup (t : WTile) (g : WGroup) : WTile :=
  { t with groups := t.groups.map fun x => if g.same x then g else x }

/-- A group is done. -/
def WTile.endGroup (t : WTile) (g : WGroup) : WTile := { t with groups := t.groups.filter fun x => !g.same x }

/-- A group's first waiting packet has gone to every output: the next one, or the group's end. -/
def State.wNext (s : State) (site : Nat) (g : WGroup) : State :=
  let g' : WGroup := { g with pkts := g.pkts.drop 1, sent := g.sent + 1, left := setBits 16 (swOut g.word.toNat) }
  s.updW site fun t => if g'.sent = g.count then t.endGroup g else t.putGroup g'

/-- The cycle in which a group's next thing can go: a forwarded steer word from the first injection cycle on, a copy from the second cycle
after its packet's arrival on (R207, R208). A packet that goes nowhere needs no cycle of the injector. -/
def State.wWhen (s : State) (site : Nat) (g : WGroup) : Option Nat :=
  let free := (s.wtile site).clk
  match g.fwdLeft, g.pkts, g.left with
  | n :: _, _, _ => if s.wGranted site n g then some (max (g.paired + 1) free) else none
  | [], (_, arr) :: _, n :: _ => if s.wGranted site n g then some (max (arr + 2) free) else none
  | [], (_, arr) :: _, [] => some (arr + 1)
  | [], [], _ => none

/-- Copy the first waiting packet of a group to its next output. -/
def State.wCopy (s : State) (site at_ : Nat) (g : WGroup) (p : MeshPkt) (n : Nat) : State :=
  let s := s.emit (.steer site n (withHdr p (s.wHdr site n (MeshPkt.hdr p))) at_)
  let g' : WGroup := { g with left := g.left.drop 1 }
  let s := s.updW site fun t => { t.putGroup g' with clk := at_ + p.flits.length }
  let s := if bit (s.wOut site n) 30 ∧ g.sent + 1 = g.count then s.wPass site n g.input else s
  if g'.left.isEmpty then s.wNext site g' else s

/-- Send a group's steer word to the next of its W-tile inputs; a control event ends with the last. -/
def State.wFwd (s : State) (site at_ : Nat) (g : WGroup) (n : Nat) : State :=
  let s := s.emit (.steer site n (s.steerPkt site n g.word) at_)
  let g' : WGroup := { g with fwdLeft := g.fwdLeft.drop 1 }
  s.updW site fun t => { (if g.count = 0 ∧ g'.fwdLeft.isEmpty then t.endGroup g else t.putGroup g') with clk := at_ + 1 }

/-- A group's next thing goes: its steer words first, then its packets (R208). -/
def State.wStep (s : State) (site at_ : Nat) (g : WGroup) : State :=
  match g.fwdLeft, g.pkts, g.left with
  | n :: _, _, _ => s.wFwd site at_ g n
  | [], (p, _) :: _, n :: _ => s.wCopy site at_ g p n
  | [], _ :: _, [] => s.wNext site g
  | [], [], _ => s

/-! ### Failures (R212 to R214) -/

/-- WAG_SEQ_LAST (R222). -/
def wagLast (event input expected received : Nat) : Nat :=
  2 ^ 31 + event * 2 ^ 28 + input * 2 ^ 24 + expected % 4096 * 2 ^ 12 + received % 4096

/-- STEER_SEQ or STEER_FMT: recorded, the input halts, the comb's program epoch halts (R205, R213). The SEQ that a replayed step must
repeat (R214) is the expected one: the rule does not say which of the two it means (log 105). -/
def State.steerFail (s : State) (site input event expected received : Nat) (w : DWord) : State :=
  let s := s.setReg site 0x058 (wagLast event input expected received)
  let s := s.updW site fun t => t.updIn input fun x => { x with halted := true }
  let s := s.flag site event
  let s := s.forbid site (if event = 0 then 0x0401 else 0x0403) (s.regN site 0x058)
    (if event = 0 then 0 else w.toNat / 2 ^ 32) (if event = 0 then 0 else w.toNat % 2 ^ 32)
    (input * 4096 + expected % 4096) none
  s.haltComb (siteComb site)

/-- Count a discarded item or copy of the tile. -/
def State.flushed (s : State) (site : Nat) : State := s.incReg (pgRouter site) 0x058

/-- A flow that no input accepts (R900). -/
def State.wUnroutable (s : State) (site h : Nat) : State :=
  let s := s.incReg (pgRouter site) 0x054
  s.raise (pgRouter site) 2 0x0504 (hDest h) (hSrc h) 0 0 (s.pktStep h)

/-! ### Pairing (R204 to R206) -/

/-- A group takes its place in the order of pairing; of two that pair in one cycle the lower input's comes first (R210). -/
def WTile.addGroup (t : WTile) (g : WGroup) : WTile :=
  let late := (t.groups.reverse.takeWhile fun x => x.paired == g.paired && decide (g.input < x.input)).length
  let k := t.groups.length - late
  { t with groups := t.groups.take k ++ [g] ++ t.groups.drop k }

/-- Consume a pure control event (R202): its forwarded copies wait their turn among the groups (R208). -/
def State.wControl (s : State) (site i cyc : Nat) (w : DWord) : State :=
  let s := s.incReg site 0x050
  match s.fwdOuts site w.toNat with
  | [] => s
  | l =>
    let g : WGroup := { input := i, ord := 0, word := w, pkts := [], sent := 0, left := [], fwdLeft := l, last := cyc + 1
                        own := false, count := 0, paired := cyc + 1 }
    s.updW site fun t => t.addGroup g

/-- Control events at the head of an input's held steer words are consumed (R204, R205). -/
def State.wHeads (s : State) (site i cyc : Nat) : Nat → State
  | 0 => s
  | fuel + 1 =>
    let x := (s.wtile site).input i
    match x.st, x.held with
    | 1, .steer w _ :: t =>
      if swCount w.toNat = 0 then
        let s := s.updW site fun y => y.updIn i fun x => { x with held := t, st := if t.isEmpty then 0 else 1 }
        State.wHeads (s.wControl site i cyc w) site i cyc fuel
      else s
    | _, _ => s

/-- The packets of a group are complete: it counts as forwarded, or as consumed without (R202, R220). -/
def State.wDone (s : State) (site : Nat) (w : DWord) : State :=
  if swOut w.toNat = 0 then s.incReg site 0x054 else s.wrapReg site 0x04C

/-- A group's last packet has come: the pairing is freed (R205). -/
def State.wFree (s : State) (site i cyc : Nat) : State :=
  let s := s.updW site fun t => t.updIn i fun x => { x with st := if x.held.isEmpty then 0 else 1, remain := 0 }
  s.wHeads site i cyc ((s.wtile site).input i).held.length

/-- A steer word pairs with a packet (R205, R207). -/
def State.wPair (s : State) (site i cyc : Nat) (w : DWord) (p : MeshPkt) (own : Bool) : State :=
  let x := (s.wtile site).input i
  let rem := swCount w.toNat - 1
  let g : WGroup := { input := i, ord := x.ord, word := w, pkts := [(p, cyc)], sent := 0
                      left := setBits 16 (swOut w.toNat), fwdLeft := s.fwdOuts site w.toNat, last := cyc + 1, own, count := rem + 1
                      paired := cyc + 1 }
  let s := s.updW site fun t =>
    { (t.updIn i fun x => { x with st := 3, remain := rem, ord := x.ord + 1 }).addGroup g with
      hist := t.hist ++ [(i, x.ord, swOut w.toNat)] }
  if rem = 0 then (s.wDone site w).wFree site i cyc else s

/-- The SEQ of the group that an input is forwarding. -/
def WTile.groupOf (t : WTile) (i : Nat) : Option WGroup :=
  t.groups.find? fun g => g.input == i && g.count != 0 && g.ord + 1 == (t.input i).ord

/-- The SEQ that a data packet at an input must carry (R204, R222): of the group in FORWARDING, of the oldest held steer word, or of
the steer word that comes next. -/
def WTile.expects (t : WTile) (i : Nat) : Nat :=
  let x := t.input i
  match x.st, t.groupOf i, x.held with
  | 3, some g, _ => swSeq g.word.toNat
  | 1, _, .steer w _ :: _ => swSeq w.toNat
  | _, _, _ => x.next

/-- A steer word, arrived in cycle `arr`, is taken at an input in cycle `cyc`. -/
def State.steerIn (s : State) (site i : Nat) (w : DWord) (arr cyc : Nat) : State :=
  let x := (s.wtile site).input i
  let v := w.toNat
  if s.steerBad site v then s.steerFail site i 2 x.next (swSeq v) w
  else if swEpoch v ≠ s.epochOf (siteComb site) ∨ swSeq v ≠ x.next then s.steerFail site i 0 x.next (swSeq v) w
  else
    let s := s.updW site fun t => t.updIn i fun x => { x with next := (x.next + 1) % 4096 }
    let hold := fun (st : Nat) => s.updW site fun t => t.updIn i fun x => { x with held := x.held ++ [.steer w arr], st := st }
    match x.st with
    | 0 => if swCount v = 0 then s.wControl site i cyc w else hold 1
    | 2 =>
      if swCount v = 0 then s.wControl site i cyc w
      else match x.held with
        | .data p a :: _ =>
          if hSeq (MeshPkt.hdr p) % 4096 = swSeq v then
            -- a packet that came in the same comb cycle was in no entry (R206)
            (s.updW site fun t => t.updIn i fun x => { x with held := [] }).wPair site i cyc w p (a != arr)
          else s.steerFail site i 0 (swSeq v) (hSeq (MeshPkt.hdr p)) w
        | _ => hold 1
    | st => hold st

/-- A data packet, arrived in cycle `arr`, is taken at an input in cycle `cyc`. -/
def State.dataIn (s : State) (site i : Nat) (p : MeshPkt) (arr cyc : Nat) : State :=
  let x := (s.wtile site).input i
  let q := hSeq (MeshPkt.hdr p) % 4096
  let want := (s.wtile site).expects i
  if hEpoch (MeshPkt.hdr p) ≠ s.epochOf (siteComb site) then s.steerFail site i 0 want q 0
  else match x.st, x.held with
    | 0, _ => s.updW site fun t => t.updIn i fun x => { x with held := [.data p arr], st := 2 }
    | 1, .steer w _ :: t =>
      if q = want then
        (s.updW site fun y => y.updIn i fun x => { x with held := t }).wPair site i cyc w p false
      else s.steerFail site i 0 want q 0
    | 3, _ =>
      match (s.wtile site).groupOf i with
      | none => s
      | some g =>
        if q = want then
          let s := s.updW site fun t => (t.putGroup { g with pkts := g.pkts ++ [(p, cyc)], last := cyc }).updIn i fun x =>
            { x with remain := x.remain - 1 }
          if x.remain = 1 then (s.wDone site g.word).wFree site i cyc else s
        else s.steerFail site i 0 want q 0
    | _, _ => s

/-- A DRAIN switch is under way that a comb has not made yet (R291). -/
def State.draining (s : State) (c : Nat) : Bool :=
  match s.prog.cur with
  | some w => !w.sw.flush && !w.combs.contains c
  | none => false

/-- Arrival of a held item. -/
def WItem.arr : WItem → Nat
  | .steer _ a => a
  | .data _ a => a

/-- SEQ of a held item. -/
def WItem.seq : WItem → Nat
  | .steer w _ => swSeq w.toNat
  | .data p _ => hSeq (MeshPkt.hdr p) % 4096

/-- Epoch of an item. -/
def WItem.epoch : WItem → Nat
  | .steer w _ => swEpoch w.toNat
  | .data p _ => hEpoch (MeshPkt.hdr p)

/-- Two items travel on the same virtual channel of the tile port: steer words on the control channel, data on another. -/
def WItem.alike : WItem → WItem → Bool
  | .steer _ _, .steer _ _ | .data _ _, .data _ _ => true
  | _, _ => false

/-- An item needs an entry of its own as it is taken (R205, R206). -/
def WInput.needs (x : WInput) : WItem → Bool
  | .steer w _ =>
    if swSeq w.toNat ≠ x.next then false
    else match x.st with
      | 0 => swCount w.toNat != 0
      | 2 => decide (1 < swCount w.toNat)
      | _ => true
  | .data _ _ => x.st == 0

/-- A data packet's steer word came in the same comb cycle and waits first on its channel: the two pair, and neither takes an entry
(R206). -/
def WInput.mates (x : WInput) (steer : Option WItem) : WItem → Bool
  | .data p a => match steer with
    | some (.steer w b) => x.st == 0 && b == a && swSeq w.toNat == x.next && swCount w.toNat == 1
        && hSeq (MeshPkt.hdr p) % 4096 == swSeq w.toNat
    | _ => false
  | .steer _ _ => false

/-- The steer word that waits first on the control channel. -/
def WTile.firstSteer (t : WTile) : Option (Nat × WItem) := t.wait.find? fun e => match e.2 with
  | .steer _ _ => true
  | .data _ _ => false

/-- An input in DATA_HELD takes no further data packet: it waits in the tile port's queue until the held one has paired (R205). -/
def WInput.shuts (x : WInput) : WItem → Bool
  | .data _ _ => x.st == 2
  | .steer _ _ => false

/-- Every packet of an earlier item of the channel has gone on, an entry is free where one is needed (R209), and an item of the next
epoch finds its place (R215, R292). -/
def State.wAdmits (s : State) (site i : Nat) (before : List (Nat × WItem)) (item : WItem) : Bool :=
  let t := s.wtile site
  let x := t.input i
  let steer := t.firstSteer.filter fun e => s.wInputOf site (hFlow e.1) == some i
  let next := s.draining (siteComb site) && item.epoch == (s.epochOf (siteComb site) + 1) % 4
  !(before.any fun e => e.2.alike item)
    && (x.halted || if next then !x.early.any item.alike
      else !x.shuts item && (decide (t.entries < 64) || !x.needs item || x.mates (steer.map (·.2)) item))

/-- The tile takes an item at its input; one of the next epoch waits for the switch (R215, R292), and a halted input discards
it. -/
def State.wTake (s : State) (site i cyc : Nat) (item : WItem) : State :=
  let c := siteComb site
  if ((s.wtile site).input i).halted then s.flushed site
  else if s.draining c ∧ item.epoch = (s.epochOf c + 1) % 4 then
    s.updW site fun t => t.updIn i fun x => { x with early := x.early ++ [item] }
  else match item with
    | .steer w a => s.steerIn site i w a cyc
    | .data p a => s.dataIn site i p a cyc

/-- The items that wait in the input queue are taken as far as they can be, the oldest of a channel first. -/
def State.wRetry (s : State) (site cyc : Nat) : Nat → State
  | 0 => s
  | fuel + 1 =>
    let l := (s.wtile site).wait
    match (List.range l.length).findSome? fun k => match l.drop k with
        | (h, item) :: _ => match s.wInputOf site (hFlow h) with
          | some i => if s.wAdmits site i (l.take k) item then some (k, i, item) else none
          | none => none
        | [] => none with
    | none => s
    | some (k, i, item) =>
      State.wRetry ((s.updW site fun t => { t with wait := l.take k ++ l.drop (k + 1) }).wTake site i cyc item) site cyc fuel

/-- Retry every waiting item. -/
def State.wSettle (s : State) (site cyc : Nat) : State := s.wRetry site cyc (s.wtile site).wait.length

/-- The injector's things up to a cycle, each at its time, the earliest first and of those of one cycle the group that paired first; items
that waited for an entry are taken as it frees (R207 to R210). -/
def State.wPump (s : State) (site last : Nat) : Nat → State
  | 0 => s
  | fuel + 1 =>
    let free := (s.wtile site).clk
    let s := if free < last then s.wSettle site free else s
    let s := ((List.range 16).filter fun n => bit (s.wOut site n) 30).foldl (fun s n => s.wTurns site n 64) s
    match leastBy (·.1) ((s.wtile site).groups.filterMap fun g => (s.wWhen site g).map fun a => (a, g)) with
    | none => s
    | some (at_, g) => if last < at_ then s else State.wPump (s.wStep site at_ g) site last fuel

/-- A bound on what the injector can do: every copy of every packet and steer word, held and waiting ones among them. -/
def WTile.work (t : WTile) : Nat :=
  2 + 17 * (sumNat (t.groups.map fun g => g.pkts.length + 2) + 3 * sumNat (t.ins.map fun e => e.2.held.length) + 3 * t.wait.length)

/-- The tile comes to a cycle: what pairs later can begin no earlier than two cycles after it (R207). -/
def State.wRun (s : State) (site cyc : Nat) : State :=
  (s.wPump site (cyc + 1) (s.wtile site).work).updW site fun t => { t with clk := max t.clk (cyc + 2) }

/-- An item reaches the tile by its flow (R900). One that the tile cannot take stays in the tile port's input queue (R209). -/
def State.wArrive (s : State) (site h : Nat) (item : WItem) (cyc : Nat) : State :=
  match s.wInputOf site (hFlow h) with
  | none => s.wUnroutable site h
  | some _ => ((s.wRun site cyc).updW site fun t => { t with wait := t.wait ++ [(h, item)] }).wSettle site cyc

/-- An epoch marker of a flow (R215, R291): PK 1. -/
def State.wMarker (s : State) (site h : Nat) : State :=
  s.updR site fun r => { r with markers := if r.markers.contains (hFlow h, hEpoch h) then r.markers else r.markers ++ [(hFlow h, hEpoch h)] }

/-- STEER_WORD_ARRIVE (R203 to R206, R271, R900). The payload of a poisoned one must not be used (R231): the tile takes no steer word, and
the next one fails its SEQ (log 105). -/
def execSteerWordArrive (site : Nat) (hdr : BitVec 128) (w : DWord) (poison : Bool) (cyc : Nat) (s : State) : Res :=
  onKind .w site (fun s =>
    if !s.inRun site then s.flushed site
    else if hPk hdr.toNat = 1 then s.wMarker site hdr.toNat
    else if poison then s
    else s.wArrive site hdr.toNat (.steer w cyc) cyc) s

/-- WAG_DATA_ARRIVE (R201, R204 to R206, R900). -/
def execWagDataArrive (site : Nat) (pkt : MeshPkt) (cyc : Nat) (s : State) : Res :=
  onKind .w site (fun s =>
    let h := MeshPkt.hdr pkt
    if !s.inRun site then s.flushed site
    else if hPk h = 1 then s.wMarker site h
    else s.wArrive site h (.data pkt cyc) cyc) s

/-- STEER_ORPHAN is logged and the step cannot commit (R212). WAG_SEQ_LAST shows RECEIVED 0: R222 gives the event no second SEQ (log 105). -/
def State.orphan (s : State) (site i seq : Nat) : State :=
  let s := s.setReg site 0x058 (wagLast 1 i seq 0)
  s.raise site 1 0x0402 i seq 0 (i * 4096 + seq) none

/-- The steer word of a group in FORWARDING is discarded: the packets that have come still go out, and ordered outputs that
have all they will get pass the group (R210, R212). -/
def State.wCut (s : State) (site : Nat) (g : WGroup) : State :=
  let mask := match g.pkts with
    | [] => 0
    | [_] => sumNat (g.left.map fun n => 2 ^ n)
    | _ => swOut g.word.toNat
  s.updW site fun t =>
    { (if g.pkts.isEmpty then t.endGroup g
       else t.putGroup { g with count := g.sent + g.pkts.length }) with
      hist := t.hist.map fun h => if h.1 = g.input ∧ h.2.1 = g.ord then (h.1, h.2.1, mask) else h }

/-- STEER_ORPHAN: an item that an input has held for more than 65,536 comb cycles is discarded (R212): the steer word of the group
in FORWARDING, counted from its last packet, or the oldest item that has not paired, counted from its arrival. -/
def execSteerOrphan (site input cyc : Nat) (s : State) : Res :=
  onUnit (isKind .w site && decide (input < 16)) (fun s =>
    let s := s.wRun site cyc
    let x := (s.wtile site).input input
    let old := fun (a : Nat) => decide (a + 65536 < cyc)
    let group := ((s.wtile site).groupOf input).filter fun g => x.st == 3 && old g.last
    if x.halted then s
    else match group, x.held with
      | some g, _ =>
        (((s.wCut site g).orphan site input (swSeq g.word.toNat)).wFree site input cyc).wSettle site cyc
      | none, a :: t =>
        if old a.arr then
          let s := s.updW site fun y => y.updIn input fun x =>
            { x with held := t, st := if x.st = 3 then 3 else if t.isEmpty then 0 else x.st }
          ((s.orphan site input a.seq).wHeads site input cyc t.length).wSettle site cyc
        else s
      | none, [] => s) s

/-! ### Epoch switch (R215) -/

/-- In DRAIN mode every enabled input has passed its marker and holds nothing (R215, R291). -/
def State.wDrained (s : State) (site : Nat) : Bool :=
  let e := s.epochOf (siteComb site)
  (List.range 16).all fun i => !bit (s.wIn site i) 31 ||
    (let x := (s.wtile site).input i
     (s.router site).markers.contains (bits (s.wIn site i) 27 16, e) && x.held.isEmpty && x.st == 0
      && ((s.wtile site).groups.all fun g => g.input != i)
      && (s.wtile site).wait.all fun w => s.wInputOf site (hFlow w.1) != some i || w.2.epoch != e)

/-- Items and copies that a FLUSH switch discards: held items, the steer word of a group in FORWARDING among them, the copies of
paired packets not begun, and the items of the old epoch that wait in the input queue. -/
def WTile.flushCount (t : WTile) (epoch : Nat) : Nat :=
  sumNat (t.ins.map fun e => e.2.held.length + b2n (e.2.st == 3)) + sumNat (t.groups.map fun g =>
    if g.pkts.isEmpty then 0 else g.left.length + (g.pkts.length - 1) * (setBits 16 (swOut g.word.toNat)).length)
    + (t.wait.filter fun w => w.2.epoch != epoch).length

/-- The tile's inputs switch to an epoch in a comb cycle: SEQ 0, halts end, copies begun complete, items of that epoch are taken (R215,
R900). -/
def State.wSwitch (s : State) (site cyc : Nat) : State :=
  let s := s.wPump site cyc (s.wtile site).work
  let t := s.wtile site
  let e := s.epochOf (siteComb site)
  let early := t.ins.flatMap fun e => e.2.early.map fun a => (e.1, a)
  let s := (List.range (t.flushCount e)).foldl (fun s _ => s.flushed site) s
  let s := s.updW site fun t => { wtDflt site with clk := t.clk, wait := t.wait.filter fun w => w.2.epoch == e }
  let s := early.foldl (fun s x => s.wTake site x.1 cyc x.2) s
  s.wSettle site cyc

end Sys2Proof.Machine
end

