-- ==== Sys2Proof/Machine/TreathOut.lean ====
section
/-! DEFINITION. What leaves through a Treath port (chapter 11): routing of the device's own packets (R596, R597),
and what the mesh hands to the port: remote requests, their answers, reduction chunks (R598 to R603). -/

namespace Sys2Proof.Machine

/-! ### Packets -/

/-- PMASK of a mesh packet. -/
def pmaskOf (p : MeshPkt) : Nat :=
  sumNat ((List.range p.flits.length).map fun i => b2n ((nth { lane := 0, pay := 0, poison := false } p.flits i).poison) * 2 ^ i)

/-! ### Routing -/

/-- TRL_NO_ROUTE of a packet of this device's own: its step is left without what it carried, so that step cannot commit (R591, R599). -/
def State.ownNoRoute (s : State) (p what : Nat) (step : Option Nat) : State :=
  (s.trlDrop p).raise (pgTrl p) 10 0x0A0C p what 0 0 step

/-- Forward a packet toward its device, or answer one; `via` is the port at which it came, `chk` that its class is checked against the
slice masks. -/
def State.trlSend (s : State) (via flow : Nat) (chk : Bool) (h : THead) (body : TBody) : State :=
  match s.egress h.dst h.src flow with
  | none => s.trlNoRoute via h.dst
  | some p => s.trlOut p chk h body

/-- A packet of this device's own, in a checked class, for a step (R597, R638). -/
def State.trlOwn (s : State) (via dst cls slice flow : Nat) (p : MeshPkt) (step : Option Nat) : State :=
  let h : THead := { dst, src := s.ownDev, slice, cls, hops := 0, len := p.flits.length, pmask := pmaskOf p }
  if !s.inSlice || !s.idValid then s.sliceViol via h
  else match s.egress dst s.ownDev flow with
    | none => s.ownNoRoute via dst step
    | some e => s.trlOut e true h (.mesh p)

/-! ### Remote requests and their answers (R598 to R600) -/

/-- The logical device in a request's head payload. -/
def qLogical (q : Nat) : Nat := bits q 344 337

/-- Replace the head payload of a packet and its header lane. -/
def reHead (p : MeshPkt) (hdr head : Nat) : MeshPkt :=
  match p.flits with
  | [] => p
  | f :: t => { p with flits := { f with lane := BitVec.ofNat 128 hdr, pay := BitVec.ofNat 512 head } :: t }

/-- A request of this device for another one's HBM (R599). -/
def State.remoteRequest (s : State) (port : Nat) (p : MeshPkt) : State :=
  let q := MeshPkt.head p
  let l := qLogical q
  let step := s.reqStep (hSrc (MeshPkt.hdr p))
  match s.remapDev l with
  | none =>
    let s := if qOp q = 1 ∨ (qOp q = 2 ∧ qAck q) then
        s.hbmAnswer (16 + port) (if qOp q = 1 then 3 else 4) q (qAddr q) 2 []
      else s
    s.ownNoRoute port l step
  | some d => s.trlOwn port d 1 s.sliceId (hFlow (MeshPkt.hdr p)) p step

/-- A request needs a remote-request entry (R600). -/
def needsEntry (q : Nat) : Bool := qOp q == 1 || (qOp q == 2 && qAck q)

/-- The lowest free remote-request entry of a port (log 21). -/
def State.freeEntry (s : State) (p : Nat) : Option Nat :=
  (List.range 1024).find? fun i => !(s.tre.rrt.any fun e => e.port == p && e.tag == i)

/-- A request waits in the receive buffer for a remote-request entry (R600). -/
def State.mustWait (s : State) (p : Nat) (m : MeshPkt) : Bool :=
  !(s.tport p).rxq.isEmpty || (needsEntry (MeshPkt.head m) && (s.freeEntry p).isNone)

/-- Units of a receive buffer are free again: their credit goes back with the next LINK packet (R584, R588). -/
def State.freeRx (s : State) (p chan units : Nat) : State :=
  s.updTP p fun t => { t with back := supd (fun _ => 0) t.back chan (· + units) }

/-- MEM_REQ at its destination (R600): a read, or a write with ACK set, takes an entry; the request enters the mesh. -/
def State.serveRemote (s : State) (p : Nat) (h : THead) (m : MeshPkt) : State :=
  let q := MeshPkt.head m
  let old := MeshPkt.hdr m
  let stack := (s.mapOf (qAddr q)).1
  let hdr := (mkHdr (attDest stack) (attDest (16 + p)) 0 s.devEpoch (hLen old) 0 0 0 0).toNat
  let clear := putBits q 344 337 0
  if !needsEntry q then s.attInject (16 + p) (reHead m hdr clear)
  else
    let i := (s.freeEntry p).getD 0
    let e : RemoteEntry := { port := p, tag := i, srcDev := h.src, reply := qReply q, rflow := qRflow q, origTag := qTag q
                             slice := h.slice, left := if qOp q = 1 then qUnits q else 0 }
    let s : State := { s with tre := { s.tre with rrt := s.tre.rrt ++ [e] } }
    s.attInject (16 + p) (reHead m hdr (putBits (putBits (putBits clear 454 439 (attDest (16 + p))) 438 427 0) 426 411 i))

/-- The requests that waited are served, in order, as far as entries are free. -/
def State.servePending (s : State) (p : Nat) : Nat → State
  | 0 => s
  | fuel + 1 =>
    match (s.tport p).rxq with
    | [] => s
    | (h, m) :: t =>
      if needsEntry (MeshPkt.head m) && (s.freeEntry p).isNone then s
      else State.servePending (((s.updTP p fun x => { x with rxq := t }).freeRx p 0 (tUnits 1 (.mesh m))).serveRemote p h m) p fuel

/-- The answer to a served request goes back with the stored fields; the entry frees with the last unit (R600). -/
def State.remoteAnswer (s : State) (port : Nat) (p : MeshPkt) : State :=
  let q := MeshPkt.head p
  match s.tre.rrt.find? fun e => e.port == port && e.tag == qTag q with
  | none => s.trlDrop port
  | some e =>
    let h := MeshPkt.hdr p
    let hdr := putBits (putBits h 127 112 e.reply) 83 72 e.rflow
    let r := reHead p hdr (putBits q 426 411 e.origTag)
    let left := e.left - qUnits q
    let done := left == 0 || qUnits q == 0
    let rrt := s.tre.rrt.filter fun x => !(x.port == port && x.tag == e.tag)
    let s : State := { s with tre := { s.tre with rrt := if done then rrt else rrt ++ [{ e with left }] } }
    (s.trlOwn port e.srcDev 2 e.slice e.rflow r none).servePending port (s.tport port).rxq.length

/-! ### Hive sinks (R601 to R603) -/

/-- Hive sink entry n of a port. -/
def State.hsink (s : State) (p n : Nat) : Nat := s.reg64 (pgTrl p) (0x100 + 8 * n)

def State.hsinkFor (s : State) (p red : Nat) : Option Nat :=
  ((List.range 16).map (s.hsink p)).find? fun e => bit e 63 && bits e 47 32 == red

/-- A failure at a hive sink, for the step whose chunks carry the RED: kind 0 residue, 1 RED_COUNT, 2 RED_UNKNOWN (R602, R603). The
port has no register of R302; the argument has that register's form (log 38). -/
def State.hiveFail (s : State) (p kind red off : Nat) (step : Option Nat) : State :=
  if kind = 0 then s.raise (pgTrl p) 12 0x0A0E p red off 0 step
  else s.forbid (pgTrl p) (0x0506 + kind) (2 ^ 31 + kind * 2 ^ 29 + off * 65536 + red) 0 0 0 step

/-- A chunk leaves for its root, or enters this device's own mesh when the root is here. -/
def State.hiveSend (s : State) (p e contrib : Nat) (c : ChunkAcc) (poison : Bool) (step : Option Nat) : State :=
  let dest := bits e 15 0
  let tdev := bits e 62 55
  let r := c.pkt dest s.devEpoch contrib poison
  if s.inSlice && tdev == s.myLogical then s.attInject (16 + p) (c.pkt (s.physDest dest) s.devEpoch contrib poison)
  else match s.remapDev tdev with
    | none => s.ownNoRoute p tdev step
    | some d => s.trlOwn p d 3 s.sliceId 0 r step

/-- A chunk of a hive sink is complete. -/
def State.hiveDone (s : State) (p : Nat) (c : ChunkAcc) : State :=
  s.updTP p fun t => { t with
    acc := t.acc.filter fun x => !(x.red == c.red && x.off == c.off)
    doneCh := if t.doneCh.contains (c.red, c.off) then t.doneCh else t.doneCh ++ [(c.red, c.off)] }

/-- The accumulator open for a chunk. -/
def TPort.accOf (t : TPort) (c : ChunkAcc) : Option ChunkAcc := t.acc.find? fun x => x.red == c.red && x.off == c.off

/-- A chunk must wait: all eight accumulators of the port are taken (R265, R601). -/
def State.hiveFull (s : State) (p : Nat) (c : ChunkAcc) : Bool :=
  let t := s.tport p
  match s.hsinkFor p c.red with
  | none => false
  | some e => decide (c.off < bits e 31 24) && !t.doneCh.contains (c.red, c.off) && (t.accOf c).isNone && decide (8 ≤ t.acc.length)

/-- A reduction chunk at a hive sink that can take it (R601 to R603). -/
def State.hiveTake (s : State) (p : Nat) (pkt : MeshPkt) : State :=
  let t := s.tport p
  let c := chunkOf pkt
  let step := s.redStep c.red
  match s.hsinkFor p c.red with
  | none => s.hiveFail p 2 c.red c.off step
  | some e =>
    if bits e 31 24 ≤ c.off then s.hiveFail p 2 c.red c.off step
    else if t.doneCh.contains (c.red, c.off) then (s.hiveSend p e c.contrib c true step).hiveFail p 1 c.red c.off step
    else
      let n := match t.accOf c with
        | some x => x.add c
        | none => c
      if n.contrib < bits e 54 48 then
        s.updTP p fun t => { t with acc := (t.acc.filter fun x => !(x.red == c.red && x.off == c.off)) ++ [n] }
      else if n.contrib = bits e 54 48 then
        let s := (s.hiveDone p n).hiveSend p e n.contrib n (!n.agrees) step
        if n.agrees then s else s.hiveFail p 0 c.red c.off step
      else ((s.hiveDone p n).hiveSend p e n.contrib n true step).hiveFail p 1 c.red c.off step

/-- The chunks that waited are taken, the oldest that finds a place first. -/
def State.hiveRetry (s : State) (p : Nat) : Nat → State
  | 0 => s
  | fuel + 1 =>
    match (s.tport p).waiting.find? fun m => !s.hiveFull p (chunkOf m) with
    | none => s
    | some m => State.hiveRetry ((s.updTP p fun t => { t with waiting := t.waiting.erase m }).hiveTake p m) p fuel

/-- A reduction packet reaches a Treath attachment (R601 to R603). With all eight accumulators in use it waits. -/
def State.hiveChunk (s : State) (p : Nat) (pkt : MeshPkt) : State :=
  if s.hiveFull p (chunkOf pkt) then s.updTP p fun t => { t with waiting := t.waiting ++ [pkt] }
  else (s.hiveTake p pkt).hiveRetry p (s.tport p).waiting.length

/-- A packet leaves the mesh at a Treath attachment. -/
def State.toTreath (s : State) (p : Nat) (pkt : MeshPkt) : State :=
  match hVc (MeshPkt.hdr pkt) with
  | 0 => s.remoteRequest p pkt
  | 1 => s.remoteAnswer p pkt
  | 2 => s.hiveChunk p pkt
  | _ => s.emit (.attach (16 + p) pkt)

end Sys2Proof.Machine
end

