-- ==== Sys2Proof/Machine/Mesh.lean ====
section
/-! DEFINITION. The mesh (chapter 5): flit CRC, routing tables, lanes, combining, guards, sinks, links, deadlock. A packet that
a tile port accepts leaves as an output; the tile's own command then takes it (log 34). -/

namespace Sys2Proof.Machine

/-! ### Flits (R231, R232) -/

/-- One bit of the flit CRC. -/
def crc16Bit (c : Nat) (b : Bool) : Nat :=
  if bit c 15 != b then (2 * c % 65536) ^^^ 0x8BB7 else 2 * c % 65536

/-- The lowest `n` bits of a value, most significant first. -/
def crc16 : Nat → Nat → Nat → Nat
  | 0, _, c => c
  | n + 1, v, c => crc16 n v (crc16Bit c (bit v n))

/-- The flit CRC over control bits 22 to 16, the header lane when L is 1, and the payload. -/
def flitCrc (ctl lane pay : Nat) : Nat :=
  let c := crc16 7 (bits ctl 22 16) 0xFFFF
  crc16 512 pay (if bit ctl 21 then crc16 128 lane c else c)

def fEsc (f : Flit) : Bool := bit f.ctl.toNat 22
def fL (f : Flit) : Bool := bit f.ctl.toNat 21
def fVc (f : Flit) : Nat := bits f.ctl.toNat 20 19
def fType (f : Flit) : Nat := bits f.ctl.toNat 18 17
def fPoison (f : Flit) : Bool := bit f.ctl.toNat 16
def fGood (f : Flit) : Bool := flitCrc f.ctl.toNat f.lane.toNat f.pay.toNat == bits f.ctl.toNat 15 0

/-- A flit as a router sends it, with its CRC computed again (R233). -/
def sendFlit (esc l : Bool) (vc type : Nat) (p : PFlit) : Flit :=
  let c := (b2n esc * 64 + b2n l * 32 + vc * 8 + type * 2 + b2n p.poison) * 65536
  let lane := if l then p.lane else 0
  { ctl := BitVec.ofNat 23 (c + flitCrc c lane.toNat p.pay.toNat), lane, pay := p.pay }

/-! ### Routing tables (R246 to R252) -/

/-- An entry that does not route. -/
def noRoute : Nat := 0x39F8

/-- A valid route entry. -/
def rteWord (port up dn : Nat) (esc : Bool) : Nat := 0x8000 + b2n esc * 0x4000 + port * 0x800 + up * 64 + dn * 8

/-- The Keeper's entry from a router to a site (R250): XY on the normal lane up to the first obstacle. -/
def State.kEntry (s : State) (a b last : Nat) : Nat :=
  if s.physHole b then noRoute
  else if a = b then rteWord last last last false
  else
    let e := s.escOf a b false
    if s.blocked a (xyPort a b) then rteWord 7 e.1 e.2 true else rteWord (xyPort a b) e.1 e.2 false

/-- The router of a comb that an XY path from a site reaches first. -/
def clampSite (a c : Nat) : Nat :=
  let x0 := 12 * combCol c
  let y0 := 10 * combRow c
  siteAt (min (x0 + 11) (max x0 (siteX a))) (min (y0 + 9) (max y0 (siteY a)))

/-- The Keeper's entry for a comb: XY towards its nearest router; where that one is a hole, to a live one on the escape lane from the first
router on whose XY path the hole comes next (R250). -/
def State.kComb (s : State) (a c : Nat) : Nat :=
  let b := clampSite a c
  if siteComb a = c ∨ 23 < c ∨ s.combOff c then noRoute
  else if s.physHole b then
    match ((List.range 120).map (mkSite c)).find? fun x => !s.physHole x with
    | none => noRoute
    | some x =>
      let e := s.escOf a x false
      if s.blocked a (xyPort a b) then rteWord 7 e.1 e.2 true else rteWord (xyPort a b) e.1 e.2 false
  else s.kEntry a b 0

/-- The Keeper's entry for an attachment: its nearest live router, then port EDGE. -/
def State.kAtt (s : State) (a n : Nat) : Nat :=
  match leastBy (dist a) ((attRouters n).filter fun r => !s.physHole r) with
  | none => noRoute
  | some r => s.kEntry a r 5

/-- The Keeper's entry for a logical site of the router's comb (R249). -/
def State.kLog (s : State) (a l : Nat) : Nat :=
  match s.serving (siteComb a) l with
  | some p => s.kEntry a p 0
  | none => noRoute

/-- The out-links of a router that may carry flits, and the UP bits (R300). -/
def State.kCfg (s : State) (a : Nat) : Nat :=
  sumNat ((List.range 4).map fun i => b2n (s.upLink a (i + 1)) * 2 ^ (8 + i))
    + sumNat ((List.range 4).map fun i => b2n (s.linkUp a (i + 1)) * 2 ^ (4 + i))

/-- The Keeper's table word at an offset of an MSH_ page; none where it writes none. -/
def State.kMsh (s : State) (a off : Nat) : Option Nat :=
  let two := fun (f : Nat → Nat) (base : Nat) => some (f ((off - base) / 2) + 65536 * f ((off - base) / 2 + 1))
  if off = 0x048 then some (s.kCfg a)
  else if off < 0x100 then none
  else if off ≤ 0x1D4 then two (s.kLog a) 0x100
  else if off ≤ 0x2C4 then two (fun p => s.kEntry a (mkSite (siteComb a) p) 0) 0x1D8
  else if off ≤ 0x2F4 then two (s.kComb a) 0x2C8
  else if off ≤ 0x30C ∨ (0x318 ≤ off ∧ off ≤ 0x338) then two (s.kAtt a) 0x2F8
  else none

/-- The state that the Keeper's tables of an epoch were built from (R252, R254, R36): of the active epoch, of the next one, and, in the
copy not yet written again, of the one before. -/
def State.routeView (s : State) (epoch : Nat) : State :=
  let d := (epoch + 4 - s.prog.switches % 4) % 4
  let loaded := s.shadow.any (·.loaded)
  let src := if d = 0 then (s.die.routes, s.die.routeLinks)
    else if d = 1 || loaded then (s.die.routesNext, s.die.routeLinksNext) else (s.die.routesPrev, s.die.routeLinksPrev)
  let v := src.1.view s
  { v with
    die := { v.die with linkOff := src.2 }
    regs := applyWords (s.regs.filter fun e => !isRemapKey e.1) src.1.remap }

/-- The header of a held packet. -/
def CSlot.hdr (c : CSlot) : Nat :=
  match c.pkt with
  | [] => 0
  | f :: _ => f.lane.toNat

/-- The headers of the packets in a lane: the one that is leaving, then those in the queue. -/
def RLane.hdrs (l : RLane) : List Nat :=
  ((l.got.take 1).map fun f => f.lane.toNat) ++ (l.q.filter (·.head)).map fun x => x.f.lane.toNat

/-- A router holds a packet of an epoch (R253). -/
def Router.holds (r : Router) (epoch : Nat) : Bool :=
  (r.lanes.any fun e => e.2.hdrs.any fun h => hEpoch h == epoch) || r.slots.any fun e => hEpoch (CSlot.hdr e.2) == epoch

/-- The state of an MSH_ page's other copy (R253, R298): 0 free, 1 committed for the next epoch, 2 still routing the last: a comb has
not switched, or a packet of that epoch remains in the router. A page whose commit was refused is not committed (R254). -/
def State.copyState (s : State) (a : Nat) : Nat :=
  let old := if (s.router a).holds ((s.epochOf (siteComb a) + 3) % 4) then 2 else 0
  if (s.page (pgRouter a)).pending then 1
  else match s.shadow with
    | some w => if w.combs.contains (siteComb a) then 2 else if w.loaded && !w.left.contains (pgRouter a) then 1 else old
    | none => old

/-- A word of a router's tables in the copy for an epoch (R252): what a commit wrote, else what the Keeper writes. -/
def State.mshWord (s : State) (a off epoch : Nat) : Nat :=
  let p := pgRouter a
  let k := regKey p off
  let own := match (if epoch != s.epochOf (siteComb a) then sfind s.staged k else none) with
    | some w => some w
    | none => sfind s.regs k
  match own with
  | some w => w.toNat
  | none => match (s.routeView epoch).kMsh a off with
    | some w => w
    | none => (regReset p off).toNat

/-- A 16-bit entry of a table that begins at an offset. -/
def State.mshEntry (s : State) (a base n epoch : Nat) : Nat :=
  bits (s.mshWord a (base + n / 2 * 4) epoch) (16 * (n % 2) + 15) (16 * (n % 2))

/-- The EDGE port of a router leads to the Keeper complex. -/
def isKeeperEdge (a : Nat) : Bool := attOf a == some 33

/-- What routing answers: the output ports, the escape lane, and the header's DN and MCT. -/
structure Routed where
  mask : Nat
  esc : Bool
  dn : Bool
  mct : Bool
  deriving DecidableEq, Repr

/-- The port of a route entry (R247). -/
def State.viaEntry (s : State) (a e epoch : Nat) (esc dn mct : Bool) : Routed :=
  if !bit e 15 then ⟨0, esc, dn, mct⟩
  else
    let esc := esc || bit e 14
    let p := if !esc then bits e 13 11 else if dn then bits e 5 3 else bits e 8 6
    if p = 7 then ⟨0, esc, dn, mct⟩
    else
      let up := decide (1 ≤ p ∧ p ≤ 4) && bit (s.mshWord a 0x048 epoch) (7 + p)
      ⟨2 ^ p, esc, dn || (esc && !up), mct⟩

/-- `route` (R247). -/
def State.route (s : State) (a dest epoch : Nat) (esc dn mct : Bool) : Routed :=
  let c := siteComb a
  match bits dest 15 14 with
  | 1 =>
    if bits dest 12 8 = c then
      let g := s.mshEntry a 0x400 (dest % 256) epoch
      if !bit g 15 then ⟨0, esc, dn, mct⟩
      else if !mct && siteIdx a != bits g 6 0 then s.viaEntry a (s.mshEntry a 0x1D8 (bits g 6 0) epoch) epoch esc dn mct
      else ⟨bits g 13 8, esc || bit g 14, dn, true⟩
    else s.viaEntry a (s.mshEntry a 0x2C8 (bits dest 12 8) epoch) epoch esc dn mct
  | 2 => s.viaEntry a (s.mshEntry a 0x2F8 (bits dest 5 0) epoch) epoch esc dn mct
  | k =>
    if bits dest 11 7 ≠ c then s.viaEntry a (s.mshEntry a 0x2C8 (bits dest 11 7) epoch) epoch esc dn mct
    else if k = 0 then s.viaEntry a (s.mshEntry a 0x100 (bits dest 6 0) epoch) epoch esc dn mct
    else s.viaEntry a (s.mshEntry a 0x1D8 (bits dest 6 0) epoch) epoch esc dn mct

/-- A destination lies in a comb. -/
def destIn (dest c : Nat) : Bool :=
  match bits dest 15 14 with
  | 1 => bits dest 12 8 == c
  | 2 => false
  | _ => bits dest 11 7 == c

/-! ### Reports -/

/-- A packet is discarded and counted (MSH_DROP_COUNT). -/
def State.dropPkt (s : State) (a : Nat) : State := s.incReg (pgRouter a) 0x054

/-- A packet is lost without an event of its own; the step that holds it cannot commit (R273, R289, R782). -/
def State.losePkt (s : State) (a h : Nat) : State :=
  (s.dropPkt a).blame ((s.pktStep h).getD s.oldest) { page := pgRouter a, code := 0, a0 := 0, a1 := 0, a2 := 0, det := 0 }

/-- A link that faces an OFF comb (R290). -/
def State.facesOff (s : State) (a port : Nat) : Bool :=
  match neighbour a port with
  | some n => s.combOff (siteComb n)
  | none => false

/-- LINK_DOWN: kind 0 a run of CRC failures, 1 silence (R273); a link that faces an OFF comb is not logged (R290). -/
def State.linkDown (s : State) (a port kind : Nat) : State :=
  if (s.router a).down.contains port then s
  else
    let s := s.updR a fun r => { r with down := r.down ++ [port] }
    if s.facesOff a port then s else s.raise (pgRouter a) 1 0x0503 port kind 0 0 none

/-- The Keeper takes a link out after FLIT_CRC in two attempts of one step (R784): its bridge where it is a seam link. -/
def State.cutLink (s : State) (a port : Nat) : State :=
  let s : State := match bridgeAt a port with
    | some b => if s.die.seamOff.contains b then s else { s with die := { s.die with seamOff := s.die.seamOff ++ [b] } }
    | none => { s with die := { s.die with linkOff := s.die.linkOff ++ [(a, port)] } }
  s.queueSwitch true

/-- FLIT_CRC on this input in an earlier attempt of a step in flight. -/
def State.crcAgain (s : State) (a port : Nat) : Bool :=
  s.mrd.steps.any fun st => st.past.any fun l => l.any fun f => f.page == pgRouter a && f.code == 0x0501 && f.a0 == port

/-- The oldest step in flight with its attempt: a replay is a step of its own for R272. -/
def State.oldestTry (s : State) : Nat × Nat := (s.oldest, ((s.step? s.oldest).map (·.attempts)).getD 0)

/-- A flit fails its CRC at an input (R272, R273, R307). -/
def State.crcFail (s : State) (a port vc : Nat) : State :=
  let s := s.incReg (pgRouter a) 0x050
  let s := match bridgeAt a port with
    | some b => (s.incHalf (pgSeam b) 0x048 (if port = 4 ∨ port = 1 then 0 else 16)).flag (pgSeam b) 1
    | none => s
  let run := sget (fun _ => 0) (s.router a).crcRun port + 1
  let s := s.updR a fun r => { r with crcRun := sset (fun _ => 0) r.crcRun port run }
  let n := s.oldestTry
  let s := if (s.router a).crcStep = some n then s.flag (pgRouter a) 0
    else
      let again := s.crcAgain a port
      let s := s.updR a fun r => { r with crcStep := some n }
      let s := s.raise (pgRouter a) 0 0x0501 port vc 0 port none
      if again then s.cutLink a port else s
  if run = 32 then s.linkDown a port 0 else s

/-! ### Guards (R274 to R277) -/

/-- What the guard table says of a packet: SEQ expected where it was checked, and the table afterwards. -/
structure Guarded where
  want : Option Nat
  tab : List (Nat × Nat × Nat)
  deriving DecidableEq, Repr

/-- Check a SEQ against a guard table of 64 entries keyed by SRC and FLOW. -/
def guardCheck (tab : List (Nat × Nat × Nat)) (h : Nat) : Guarded :=
  let rest := tab.filter fun g => !(g.1 == hSrc h && g.2.1 == hFlow h)
  match tab.find? fun g => g.1 == hSrc h && g.2.1 == hFlow h with
  | some g => ⟨some ((g.2.2 + 1) % 65536), rest ++ [(hSrc h, hFlow h, hSeq h)]⟩
  | none => if 64 ≤ tab.length then ⟨none, tab⟩ else ⟨some 0, tab ++ [(hSrc h, hFlow h, hSeq h)]⟩

/-- A SEQ that differs: MSH_SEQ_LAST, SEQ_GAP (R276, R301). -/
def State.seqGap (s : State) (a h want : Nat) : State :=
  let p := pgRouter a
  let s := s.setReg64 p 0x060 (2 ^ 63 + hFlow h * 2 ^ 48 + hSrc h * 2 ^ 32 + want * 65536 + hSeq h)
  s.raise p 3 0x0505 (s.regN p 0x064) (s.regN p 0x060) 0 0 (s.pktStep h)

/-- A packet with POISON in its flits. -/
def poisonPkt (p : MeshPkt) : MeshPkt := { p with flits := p.flits.map fun f => { f with poison := true } }

/-- The guard of a destination: the packet as it is delivered. `edge` is the attachment of the router. -/
def State.guardPkt (s : State) (a : Nat) (edge : Bool) (p : MeshPkt) : MeshPkt × State :=
  let h := MeshPkt.hdr p
  if hVc h = 2 ∨ !hGuard h then (p, s)
  else
    let r := s.router a
    let g := guardCheck (if edge then r.eguard else r.guard) h
    let s := s.updR a fun r => if edge then { r with eguard := g.tab } else { r with guard := g.tab }
    match g.want with
    | none => (p, s.incReg (pgRouter a) 0x06C)
    | some w => if w = hSeq h then (p, s) else (poisonPkt p, s.seqGap a h w)

/-- A seal checked at a destination closes its flow there for the step (R275). -/
def State.sealDone (s : State) (h : Nat) : State :=
  let k := sealKey (hSrc h) (hDest h) (hFlow h)
  { s with mrd := { s.mrd with steps := go k s.mrd.steps } }
where
  /-- The oldest step that uses the flow. -/
  go (k : Nat × Nat) : List StepRec → List StepRec
    | [] => []
    | st :: t => if st.seals.contains k then { st with seals := st.seals.erase k } :: t else st :: go k t

/-- The tile ports that a destination reaches: those of a group's tree (R255), one otherwise. -/
def State.destCount (s : State) (dest epoch : Nat) : Nat :=
  if bits dest 15 14 = 1 then
    max 1 (((List.range 120).map (mkSite (bits dest 12 8))).filter fun a =>
      let g := s.mshEntry a 0x400 (dest % 256) epoch
      bit g 15 && bit g 8).length
  else 1

/-- A packet in its epoch reaches the tile port: guard, marker, seal, or delivery to the tile (R274 to R276, R291). -/
def State.portIn (s : State) (a : Nat) (p : MeshPkt) : State :=
  let (p, s) := s.guardPkt a false p
  let h := MeshPkt.hdr p
  if hVc h ≠ 2 ∧ hPk h = 1 then
    s.updR a fun r => { r with markers := if r.markers.contains (hFlow h, hEpoch h) then r.markers
                                          else r.markers ++ [(hFlow h, hEpoch h)] }
  else if hVc h ≠ 2 ∧ hPk h = 2 then s.sealDone h
  else (s.emit (.deliver a p)).xferAnswer a p

/-- The tile port of a router accepts packets (R244, R289, R782). -/
def State.portOpenFor (s : State) (a dest : Nat) : Bool :=
  !s.combClosed (siteComb a) && (s.inRun a || bits dest 15 14 == 3)

/-- A packet of the next epoch reaches a tile port that drains (R292). -/
def State.isEarly (s : State) (a h : Nat) : Bool :=
  s.draining (siteComb a) && hEpoch h == (s.epochOf (siteComb a) + 1) % 4

/-- A whole packet reaches the tile port; in DRAIN mode one of the next epoch waits for the switch (R292). -/
def State.deliver (s : State) (a : Nat) (p : MeshPkt) : State :=
  let h := MeshPkt.hdr p
  if !s.portOpenFor a (hDest h) then s.losePkt a h
  else if s.isEarly a h then s.updR a fun r => { r with early := r.early ++ [p] }
  else s.portIn a p

/-- A whole packet reaches the attachment of an edge router. -/
def State.toAttach (s : State) (a : Nat) (p : MeshPkt) : State :=
  let (p, s) := s.guardPkt a true p
  let h := MeshPkt.hdr p
  if hVc h ≠ 2 ∧ hPk h = 2 then s.sealDone h
  else
    let n := (attOf a).getD 0
    if 16 ≤ n ∧ n < 32 then s.toTreath (n - 16) p else s.emit (.attach n p)

/-! ### Sinks (R265 to R268) -/

/-- Sink entry n of a site. -/
def State.sinkEntry (s : State) (a n : Nat) : Nat := s.reg64 (pgRouter a) (0x600 + 8 * n)

/-- The valid entry that has a RED. -/
def State.sinkFor (s : State) (a red : Nat) : Option Nat :=
  ((List.range 64).map (s.sinkEntry a)).find? fun e => bit e 63 && bits e 47 32 == red

def seExpect (e : Nat) : Nat := bits e 31 25
def seChunks (e : Nat) : Nat := bits e 24 17
def seBase (e : Nat) : Nat := bits e 13 0

/-- A sink failure: MSH_RED_LAST and its event (R302). -/
def State.redFail (s : State) (a kind red off : Nat) : State :=
  let p := pgRouter a
  let s := s.setReg p 0x068 (2 ^ 31 + kind * 2 ^ 29 + off * 65536 + red)
  s.raise p (4 + kind) (0x0506 + kind) (s.regN p 0x068) 0 0 0 (s.redStep red)

/-- The four rows of a chunk in the stored form (R87). -/
def ChunkAcc.rows (c : ChunkAcc) (poison : Bool) : List (List Byte) :=
  (List.range 4).map fun r => (List.range 8).flatMap fun i =>
    let t := nth 0 c.ts (8 * r + i) ||| b2n poison
    leBytes 16 (tallyStore (tallyBits (nth 0 c.vals (8 * r + i))) t)

/-- The sink's tile has room for a chunk's rows: four free entries of a B tile's hold queue (R266, R332). -/
def State.sinkRoom (s : State) (a : Nat) : Bool :=
  siteKind a != .b || decide (4 ≤ (s.btile a).holdFree)

/-- The sink writes the rows of a chunk. -/
def State.sinkWrite (s : State) (a e off : Nat) (rows : List (List Byte)) : State :=
  let base := seBase e + 4 * off
  let l := (List.range 4).map fun r => (base + r, rowForm (base + r) (nth [] rows r) false)
  if siteKind a == .b then
    s.bHoldRows a (s.ownDest a) (s.epochOf (siteComb a)) (s.btile a).now l 0xFFFF false noPkt
  else { s with mem := { s.mem with sst := l.foldl (fun m x =>
      putRow sstDflt sstRows m a (x.1 % sstRows) 0xFFFF (rowForm (x.1 % sstRows) (nth [] rows (x.1 - base)) false)) s.mem.sst } }

/-- A chunk is complete; with the entry's last one the reduction is (R266, R403). -/
def State.chunkDone (s : State) (a e red off : Nat) : State :=
  let s := s.updR a fun r => { r with
    acc := r.acc.filter fun c => !(c.red == red && c.off == off)
    doneCh := if r.doneCh.contains (red, off) then r.doneCh else r.doneCh ++ [(red, off)] }
  if ((s.router a).doneCh.filter fun d => d.1 == red).length = seChunks e then s.redDone red else s

/-- The accumulator open for a chunk. -/
def Router.accOf (r : Router) (c : ChunkAcc) : Option ChunkAcc := r.acc.find? fun x => x.red == c.red && x.off == c.off

/-- A chunk must wait at the sink: all 16 accumulators are taken, or the tile cannot take its rows (R265, R266). -/
def State.sinkFull (s : State) (a : Nat) (c : ChunkAcc) : Bool :=
  let r := s.router a
  match s.sinkFor a c.red with
  | none => false
  | some e => decide (c.off < seChunks e)
      && (!s.sinkRoom a || (!r.doneCh.contains (c.red, c.off) && (r.accOf c).isNone && decide (16 ≤ r.acc.length)))

/-- A chunk reaches a sink that can take it (R265 to R267). -/
def State.sinkChunk (s : State) (site : Nat) (c : ChunkAcc) : State :=
  let r := s.router site
  match s.sinkFor site c.red with
  | none => s.redFail site 2 c.red c.off
  | some e =>
    if seChunks e ≤ c.off then s.redFail site 2 c.red c.off
    else if r.doneCh.contains (c.red, c.off) then
      (s.sinkWrite site e c.off (c.rows true)).redFail site 1 c.red c.off
    else
      let n := match r.accOf c with
        | some x => x.add c
        | none => c
      if n.contrib < seExpect e then
        s.updR site fun r => { r with
          acc := (r.acc.filter fun x => !(x.red == c.red && x.off == c.off)) ++ [n] }
      else if n.contrib = seExpect e then
        let ok := n.agrees
        let s := (s.sinkWrite site e c.off (n.rows (!ok))).chunkDone site e c.red c.off
        if ok then s else s.redFail site 0 c.red c.off
      else ((s.sinkWrite site e c.off (n.rows true)).chunkDone site e c.red c.off).redFail site 1 c.red c.off

/-- The chunks that waited are taken, the oldest that finds a place first. -/
def State.sinkRetryGo (s : State) (a : Nat) : Nat → State
  | 0 => s
  | fuel + 1 =>
    match (s.router a).waiting.find? fun p => !s.sinkFull a (chunkOf p) with
    | none => s
    | some p =>
      State.sinkRetryGo ((s.updR a fun r => { r with waiting := r.waiting.erase p }).sinkChunk a (chunkOf p)) a fuel

def State.sinkRetry (s : State) (a : Nat) : State := s.sinkRetryGo a (s.router a).waiting.length

/-- SINK_CHUNK_RECEIVE (R265 to R267, R289). A chunk that finds no accumulator waits in the tile port, which returns no credit
meanwhile. -/
def execSinkChunkReceive (site : Nat) (pkt : MeshPkt) (s : State) : Res :=
  onUnit (isSite site) (fun s =>
    if !s.portOpenFor site 0 then s.losePkt site (MeshPkt.hdr pkt)
    else if s.sinkFull site (chunkOf pkt) then s.updR site fun r => { r with waiting := r.waiting ++ [pkt] }
    else (s.sinkChunk site (chunkOf pkt)).sinkRetry site) s

/-- Every sink entry of the old epoch is complete (R291): of those that a launch of the epoch re-armed; one that no launch armed gets no
chunk, and no wait for it could end (log 74). -/
def State.sinkDrained (s : State) (a : Nat) : Bool :=
  let r := s.router a
  r.acc.isEmpty && r.waiting.isEmpty && ((List.range 64).all fun n =>
    let e := s.sinkEntry a n
    !bit e 63 || !s.prog.armed.contains (bits e 47 32)
      || (r.doneCh.filter fun d => d.1 == bits e 47 32).length == seChunks e)

/-- A mask of a list of bit numbers. -/
def maskOfList (l : List Nat) : Nat := sumNat (l.map fun i => 2 ^ i)

/-! ### Links, crossings and credit (R228, R229, R280 to R285) -/

/-- An out-port of a router carries flits (R273, R290, R300). -/
def State.outOpen (s : State) (a port epoch : Nat) : Bool :=
  if port = 0 then true
  else if port = 5 then (attOf a).isSome && !(s.router a).down.contains 5
  else (neighbour a port).isSome && !(s.router a).down.contains port && !s.facesOff a port
    && bit (s.mshWord a 0x048 epoch) (3 + port)

/-- A port leads over a comb crossing (R280). -/
def isCrossing (a port : Nat) : Bool :=
  match neighbour a port with
  | some n => siteComb n != siteComb a
  | none => false

/-- The flits that a lane of an input queue holds: 12 normal, 4 escape (R229). -/
def laneCap (lane : Nat) : Nat := if lane % 2 = 1 then 4 else 12

/-- Flits sent on a lane of an output whose credit has not come back. -/
def Router.out (r : Router) (port lane : Nat) : Nat := sget (fun _ => 0) r.sent (port * 8 + lane)

/-- A crossing queue has an entry for a lane: one of its own two, or one of the 16 that the lanes share (R280). -/
def Router.crossRoom (r : Router) (port lane : Nat) : Bool :=
  decide (r.out port lane < 2) || decide (sumNat ((List.range 8).map fun l => r.out port l - 2) < 16)

/-- A W tile returns no credit on a channel: an item of it waits, all 64 entries are taken, a packet of it is held without its steer word,
or a paired packet of it that took no entry has copies to come (R205, R209). -/
def WTile.blocks (t : WTile) (vc : Nat) : Bool :=
  let on := fun (i : WItem) => match i with
    | .steer _ _ => vc == 3
    | .data p _ => hVc (MeshPkt.hdr p) == vc
  (t.wait.any fun e => on e.2) || decide (64 ≤ t.entries) || (t.ins.any fun e => e.2.st == 2 && e.2.held.any on)
    || t.groups.any fun g => (g.pkts.drop (b2n (g.own && g.sent == 0))).any fun p => hVc (MeshPkt.hdr p.1) == vc

/-- The tile port returns no credit on a channel in a cycle: its early buffer is full, chunks wait at its sink or all 16 accumulators are
taken, requests wait at a B tile or its AREAD queue is full, a W tile or an M tile's intake queue takes nothing (R127, R205, R209, R265,
R292, R320, R332). The tile is looked at as its own clock leaves it in that cycle. -/
def State.portBlocked (s : State) (a t vc : Nat) : Bool :=
  let r := s.router a
  (r.early.any fun p => hVc (MeshPkt.hdr p) == vc) || (vc == 2 && (!r.waiting.isEmpty || decide (16 ≤ r.acc.length)))
    || (match siteKind a with
      | .b =>
        let b := (s.bRun a t).btile a
        (b.waiting.any fun w => w.vc == vc) || (vc == 0 && decide (8 ≤ b.reads.length))
      | .w => ((s.wRun a t).wtile a).blocks vc
      | .m => vc == 1 && decide (63 ≤ ((s.mAdvance a t).mtile a).level)
      | .s => false)

/-- An attachment returns no credit on a channel: chunks wait at a hive sink, or its eight accumulators are taken (R265, R601). -/
def State.attBlocked (s : State) (a vc : Nat) : Bool :=
  match attOf a with
  | some n =>
    let p := s.tport (n - 16)
    decide (16 ≤ n ∧ n < 32) && vc == 2 && (!p.waiting.isEmpty || decide (8 ≤ p.acc.length))
  | none => false

/-- The far side of an out-port has room for a flit of a lane in a cycle. -/
def State.laneRoom (s : State) (a t port lane : Nat) : Bool :=
  let r := s.router a
  if port = 0 then decide (r.out 0 lane < laneCap lane) || !s.portBlocked a t (lane / 2)
  else if port = 5 then decide (r.out 5 lane < laneCap lane) || !s.attBlocked a (lane / 2)
  else if isCrossing a port then r.crossRoom port lane
  else decide (r.out port lane < laneCap lane)

/-- A flit goes out on a lane: its credit is open, and a crossing queue holds it. A tile port or an attachment that takes flits returns
each credit at once. -/
def State.spend (s : State) (a t port lane : Nat) (f : Flit) : State :=
  let taken := (port == 0 && !s.portBlocked a t (lane / 2)) || (port == 5 && !s.attBlocked a (lane / 2))
  s.updR a fun r => { r with
    sent := sset (fun _ => 0) r.sent (port * 8 + lane) (if taken then 0 else r.out port lane + 1)
    cross := if isCrossing a port then supd listDflt r.cross port fun q => q ++ [f] else r.cross }

/-- A credit return arrives at a port (R228, R284): VALID, VC and ESC. -/
def State.takeCredit (s : State) (a port : Nat) (c : BitVec 4) : State :=
  if bit c.toNat 3 then
    s.updR a fun r => { r with sent := supd (fun _ => 0) r.sent (port * 8 + c.toNat % 8) (· - 1) }
  else s

/-- A place in the queue of an input is free again: its credit goes back over the link. At a crossing the crossing queue has returned it
already. -/
def State.giveBack (s : State) (a port lane : Nat) : State :=
  if 5 < port ∨ isCrossing a port then s else s.updR a fun r => { r with credits := r.credits ++ [(port, lane)] }

/-- A crossing queue without the oldest flit of a lane. -/
def takeFlit (lane : Nat) (q : List Flit) : List Flit :=
  match q.find? (fun f => fVc f * 2 + b2n (fEsc f) == lane) with
  | some f => q.erase f
  | none => q.drop 1

/-- A flit has come over a crossing: it leaves the crossing's queue, and its credit goes back (R280). -/
def State.crossed (s : State) (a port lane : Nat) : State :=
  if !isCrossing a port then s
  else match neighbour a port with
    | none => s
    | some n =>
      let s := s.updR n fun r => { r with cross := supd listDflt r.cross (opposite port) (takeFlit lane) }
      s.updR a fun r => { r with credits := r.credits ++ [(port, lane)] }

/-- The beats of a flit (R283): the data wires, and the control wires but for the credit return. -/
def beatsOf (f : Flit) : List (BitVec 256 × Nat) :=
  let c := f.ctl.toNat
  let lo := BitVec.ofNat 256 (f.pay.toNat % 2 ^ 256)
  let hi := BitVec.ofNat 256 (f.pay.toNat / 2 ^ 256)
  let first := bits c 22 21 * 2 ^ 10 + bits c 20 16 * 2 ^ 5 + bits c 15 11
  let second := bits c 10 0 * 2
  if fL f then [(BitVec.ofNat 256 f.lane.toNat, first), (lo, second), (hi, 0)] else [(lo, first), (hi, second)]

/-- How many beats the flit has that a first beat begins. -/
def beatCount (l : List (BitVec 256 × BitVec 16)) : Nat :=
  match l with
  | b :: _ => if bit b.2.toNat 10 then 3 else 2
  | [] => 2

/-- The flit of its beats (R283, R285). -/
def flitOf (l : List (BitVec 256 × BitVec 16)) : Flit :=
  let d := fun i => (nth ((0 : BitVec 256), (0 : BitVec 16)) l i).1.toNat
  let c := fun i => (nth ((0 : BitVec 256), (0 : BitVec 16)) l i).2.toNat
  let ctl := BitVec.ofNat 23 (bits (c 0) 11 10 * 2 ^ 21 + bits (c 0) 9 5 * 2 ^ 16 + bits (c 0) 4 0 * 2 ^ 11 + bits (c 1) 11 1)
  if beatCount l = 3 then { ctl, lane := BitVec.ofNat 128 (d 0 % 2 ^ 128), pay := BitVec.ofNat 512 (d 1 + d 2 * 2 ^ 256) }
  else { ctl, lane := 0, pay := BitVec.ofNat 512 (d 0 + d 1 * 2 ^ 256) }

/-- The functional wire of a bridge that carries a bit of a beat (R285): data bits, then control bits, in the direction from the west or
north side; the opposite direction follows in the same order. -/
def beatWire (back : Bool) (control : Bool) (n : Nat) : Nat := (if back then 272 else 0) + (if control then 256 else 0) + n

/-- An idle flit (R234). -/
def idleFlit : Flit := sendFlit false false 0 0 { lane := 0, pay := 0, poison := false }

/-- The next credit that a port returns in the form of R284, and the state without it. -/
def State.nextCredit (s : State) (a port : Nat) : Nat × State :=
  match (s.router a).credits.find? fun c => c.1 == port with
  | some c => (8 + c.2, s.updR a fun r => { r with credits := r.credits.erase c })
  | none => (0, s)

/-- What an out-port carries in a cycle: a flit or an idle one, with a credit return, in beats over a seam (R228, R234, R283). -/
def State.portOut (s : State) (a port : Nat) (f : Option Flit) : State :=
  let w := f.getD idleFlit
  if (bridgeAt a port).isSome && isCrossing a port then
    (beatsOf w).foldl (fun s b =>
      let (c, s) := s.nextCredit a port
      s.emit (.beat a port b.1 (BitVec.ofNat 16 (c * 2 ^ 12 + b.2)))) s
  else
    let (c, s) := s.nextCredit a port
    s.emit (.flit a port w (BitVec.ofNat 4 c))

/-! ### Queues and packets -/

def laneDflt (_ : Nat) : RLane := { drop := false, left := 0, q := [], outs := 0, escOut := false, hold := false, got := [] }

def State.updLane (s : State) (a k : Nat) (f : RLane → RLane) : State :=
  s.updR a fun r => { r with lanes := supd laneDflt r.lanes k f }

def Router.lane (r : Router) (k : Nat) : RLane := sget laneDflt r.lanes k

/-- Complete packets of a mask go to the tile port and the attachment. -/
def State.finish (s : State) (a mask : Nat) (p : MeshPkt) : State :=
  let s := if bit mask 0 then s.deliver a p else s
  if bit mask 5 then s.toAttach a p else s

/-- UNROUTABLE (R248). -/
def State.unroutable (s : State) (a h : Nat) : State :=
  (s.dropPkt a).raise (pgRouter a) 2 0x0504 (hDest h) (hSrc h) 0 0 (s.pktStep h)

/-- A header with DN and MCT as routing leaves them; a reduction header keeps DN in bit 80 (R242, R259). -/
def routedHdr (h : Nat) (r : Routed) : Nat :=
  if hVc h = 2 then putBits h 80 80 (b2n r.dn) else putBits (putBits h 55 55 (b2n r.dn)) 86 86 (b2n r.mct)

/-- DN and MCT of a header. -/
def hDn (h : Nat) : Bool := if hVc h = 2 then bit h 80 else bit h 55
def hMct (h : Nat) : Bool := hVc h != 2 && bit h 86

/-- The combine slots as an input of the outputs: a packet that leaves them, or passes through them, queues there (log 100). -/
def slotPort : Nat := 6

/-- Queue a whole packet at an input that has no link: one that combining held. -/
def State.sendWhole (s : State) (a : Nat) (fl : List PFlit) (esc : Bool) (cyc : Nat) : State :=
  match fl with
  | [] => s
  | f :: t =>
    let h := f.lane.toNat
    let r := s.route a (hDest h) (hEpoch h) esc (hDn h) (hMct h)
    if r.mask = 0 then s.unroutable a h
    else
      let x : QFlit := { f := { f with lane := BitVec.ofNat 128 (routedHdr h r) }, head := true, l := true, arr := cyc, outs := r.mask
                         escOut := r.esc, hold := false, last := t.isEmpty }
      let body := (List.range t.length).map fun i =>
        ({ f := nth { lane := 0, pay := 0, poison := false } t i, head := false, l := true, arr := cyc, outs := 0, escOut := false
           hold := false, last := i + 1 == t.length } : QFlit)
      s.updLane a (slotPort * 8 + 4 + b2n esc) fun l => { l with q := l.q ++ x :: body }

/-! ### Combining (R262 to R264) -/

/-- WINDOW of a router. -/
def State.window (s : State) (a : Nat) : Nat := s.regN (pgRouter a) 0x04C % 256

/-- A router holds reduction packets. -/
def State.combines (s : State) (a : Nat) : Bool := s.window a != 0 && !s.combParked (siteComb a)

/-- Packets that may combine: DEST, RED, OFF, LEN and EPOCH agree. -/
def sameChunk (x y : Nat) : Bool :=
  hDest x == hDest y && rRed x == rRed y && rOff x == rOff y && hLen x == hLen y && hEpoch x == hEpoch y

/-- Two flits of chunks add. -/
def addFlit (x y : PFlit) : PFlit :=
  let a := x.lane.toNat
  let b := y.lane.toNat
  let lane := putBits (putBits a 72 61 (rStat a ||| rStat b)) 60 0 ((rRes a + rRes b) % resMod)
  { lane := BitVec.ofNat 128 lane
    pay := BitVec.ofNat 512 ((List.range 4).foldl (fun t j =>
      t + (payTally x.pay.toNat j + payTally y.pay.toNat j) % 2 ^ 128 * 2 ^ (128 * j)) 0)
    poison := x.poison || y.poison }

/-- Two packets combine: flits add, and CONTRIB in the head. -/
def addPkts : List PFlit → List PFlit → List PFlit
  | f :: t, g :: u =>
    let h := addFlit f g
    let n := rContrib f.lane.toNat + rContrib g.lane.toNat
    { h with lane := BitVec.ofNat 128 (putBits h.lane.toNat 79 73 n) } :: (List.zip t u).map fun e => addFlit e.1 e.2
  | l, [] => l
  | [], l => l

def cslotDflt (_ : Nat) : CSlot := { pkt := [], esc := false, deadline := 0 }

/-- A whole reduction packet, whose last flit came in cycle `came`, at a router that holds it: it joins a held one, takes a slot, or passes
through where none is free or the comb is in transit mode meanwhile (R262 to R264, R289). -/
def State.combine (s : State) (a : Nat) (fl : List PFlit) (esc : Bool) (came cyc : Nat) : State :=
  let r := s.router a
  let h := match fl with
    | [] => 0
    | f :: _ => f.lane.toNat
  if !s.combines a then s.sendWhole a fl esc cyc
  else match r.slots.find? fun e =>
      decide (came < e.2.deadline) && sameChunk (CSlot.hdr e.2) h && decide (rContrib (CSlot.hdr e.2) + rContrib h ≤ 127) with
    | some e =>
      (s.updR a fun r => { r with slots := sset cslotDflt r.slots e.1 { e.2 with pkt := addPkts e.2.pkt fl } }).incReg
        (pgRouter a) 0x05C
    | none =>
      match (List.range 4).find? fun i => (sfind r.slots i).isNone with
      | some i => s.updR a fun r => { r with
          slots := sset cslotDflt r.slots i { pkt := fl, esc, deadline := came + s.window a } }
      | none => s.sendWhole a fl esc cyc

/-! ### Arbitration (R230, R238, R239, R257) -/

/-- A flit at the front of a lane that can go: the lane, the open ports it goes to, the ports it was routed to that are closed, its lane at
the outputs. -/
structure LaneCand where
  key : Nat
  ports : Nat
  closed : Nat
  esc : Bool
  x : QFlit
  deriving DecidableEq, Repr

def LaneCand.input (c : LaneCand) : Nat := c.key / 8
def LaneCand.vc (c : LaneCand) : Nat := c.key / 2 % 4
def LaneCand.lane (c : LaneCand) : Nat := c.vc * 2 + b2n c.esc

/-- The header of the packet at the front of a lane. -/
def RLane.cur (l : RLane) (x : QFlit) : Nat := if x.head then x.f.lane.toNat else MeshPkt.hdr { flits := l.got, esc := false }

/-- The front flit of a lane where its packet owns, or finds free, the lane of each of its outputs and each has room (R239, R257). -/
def State.laneCand (s : State) (a t k : Nat) (l : RLane) : Option LaneCand :=
  match l.q with
  | [] => none
  | x :: _ =>
    if t ≤ x.arr || (if x.head then x.hold else l.hold) then none
    else
      let mask := if x.head then x.outs else l.outs
      let esc := if x.head then x.escOut else l.escOut
      let h := l.cur x
      let lane := k / 2 % 4 * 2 + b2n esc
      let ports := (setBits 6 mask).filter fun p => s.outOpen a p (hEpoch h)
      let free := fun p => !x.head || (sfind (s.router a).own (p * 8 + lane)).isNone
      let full := x.head && bit mask 0 && s.isEarly a h && (s.router a).early.any fun e => hVc (MeshPkt.hdr e) == hVc h
      if !full && ports.all fun p => free p && s.laneRoom a t p lane then
        some { key := k, ports := maskOfList ports, closed := mask - maskOfList ports, esc, x }
      else none

/-- The flit that an output port chooses (R238): the control channel, then the other channels in turn; the escape lane before the normal
one; the inputs in turn. -/
def Router.choose (r : Router) (port : Nat) (l : List LaneCand) : Option LaneCand :=
  let l := l.filter fun c => bit c.ports port
  let ctl := l.filter fun c => c.vc == 3
  let pool :=
    if !ctl.isEmpty then ctl
    else
      let last := sget (fun _ => 0) r.rrVc port
      let vcs := ((List.range 3).map fun i => (last + i) % 3).filter fun v => l.any fun c => c.vc == v
      match vcs with
      | [] => []
      | v :: _ => l.filter fun c => c.vc == v
  let esc := pool.filter fun c => c.esc
  let lane := if esc.isEmpty then pool else esc
  match lane with
  | [] => none
  | c :: _ =>
    let last := sget (fun _ => 0) r.rrIn (port * 8 + c.lane)
    ((List.range 7).map fun i => (last + i) % 7).findSome? fun i => lane.find? fun c => c.input == i

/-- The flits that go in a cycle: each that all of its ports choose; where none is, the choice of the lowest port goes alone (log 100). -/
def Router.grants (r : Router) (l : List LaneCand) : List LaneCand :=
  let picks := (List.range 6).filterMap fun p => (r.choose p l).map fun c => (p, c)
  let all := l.filter fun c => (setBits 6 c.ports).all fun p => picks.contains (p, c)
  if all.isEmpty then (picks.take 1).map (·.2) else all

/-- A flit leaves its input: its lanes and turns, its credit, its packet's end (R230, R239). -/
def State.leave (s : State) (a t : Nat) (c : LaneCand) : State :=
  let l := (s.router a).lane c.key
  let got := (if c.x.head then [] else l.got) ++ [c.x.f]
  let s := (setBits 6 c.closed).foldl (fun s _ => s.losePkt a (MeshPkt.hdr { flits := got, esc := c.esc })) s
  let s := s.updLane a c.key fun l => { l with
    q := l.q.drop 1, hold := false, escOut := c.esc && !c.x.last, outs := if c.x.last then 0 else c.ports
    got := if c.x.last then [] else got }
  let s := s.updR a fun r => { r with
    own := if c.x.last then r.own.filter fun e => e.2 != c.key + 1
      else (setBits 6 c.ports).foldl (fun m p => sput m (p * 8 + c.lane) (c.key + 1)) r.own
    rrVc := (setBits 6 c.ports).foldl (fun m p => if c.vc = 3 then m else sset (fun _ => 0) m p ((c.vc + 1) % 3)) r.rrVc
    rrIn := (setBits 6 c.ports).foldl (fun m p => sset (fun _ => 0) m (p * 8 + c.lane) ((c.input + 1) % 7)) r.rrIn }
  let f := sendFlit c.esc c.x.l c.vc (if c.x.head then 1 else 2) c.x.f
  let s := (setBits 6 c.ports).foldl (fun s p => s.spend a t p c.lane f) s
  let s := s.giveBack a c.input (c.key % 8)
  if c.x.last && got.length == hLen (l.cur c.x) then s.finish a c.ports { flits := got, esc := c.esc } else s

/-- A flit of a packet that the router holds leaves its queue; with the last one the packet meets the combine slots. -/
def State.gather (s : State) (a t k : Nat) : State :=
  let l := (s.router a).lane k
  match l.q with
  | [] => s
  | x :: _ =>
    let got := (if x.head then [] else l.got) ++ [x.f]
    let s := s.updLane a k fun l => { l with q := l.q.drop 1, hold := !x.last, got := if x.last then [] else got }
    let s := s.giveBack a (k / 8) (k % 8)
    if x.last && got.length == hLen (l.cur x) then s.combine a got (decide (k % 2 = 1)) x.arr t else s

/-- The mesh links that leave a router. What its tile port and its attachment get leaves it as whole packets (log 34). -/
def outLinks (a : Nat) : List Nat := [1, 2, 3, 4].filter fun p => (neighbour a p).isSome

/-- One cycle of a router, and whether anything moved (R228, R230, R238, R239). -/
def State.meshCycle (s : State) (a t : Nat) : Bool × State :=
  let lanes := (s.router a).lanes
  let cands := lanes.filterMap fun e => s.laneCand a t e.1 e.2
  let lost := cands.filter fun c => c.ports == 0
  let go := (s.router a).grants (cands.filter fun c => c.ports != 0)
  let held := (lanes.filter fun e => match e.2.q with
    | x :: _ => decide (x.arr < t) && (if x.head then x.hold else e.2.hold)
    | [] => false).map (·.1)
  let back := (s.router a).credits
  let s := (lost ++ go).foldl (fun s c => s.leave a t c) s
  let s := held.foldl (fun s k => s.gather a t k) s
  let s := (outLinks a ++ [0, 5].filter fun p => back.any fun c => c.1 == p).foldl (fun s p => s.portOut a p (((go.find? fun c => bit c.ports p).filter fun _ => p != 0 && p != 5).map fun c =>
    sendFlit c.esc c.x.l c.vc (if c.x.head then 1 else 2) c.x.f)) s
  (!(lost.isEmpty && go.isEmpty && held.isEmpty && back.isEmpty), s)

/-- Run a router to a cycle; where nothing moves nothing will before the next arrival. -/
def State.meshRun (s : State) (a cyc : Nat) : Nat → State
  | 0 => s
  | fuel + 1 =>
    let t := (s.router a).now + 1
    if cyc < t then s
    else
      let (moved, s) := s.meshCycle a t
      let s := s.updR a fun r => { r with now := t }
      if moved then State.meshRun s a cyc fuel else s

/-- Flits and credits that a router has to move. -/
def Router.work (r : Router) : Nat := 4 * sumNat (r.lanes.map fun e => e.2.q.length) + r.credits.length + 4

/-- The router's clock comes to a cycle: all that its outputs send up to it (R230), and then, in the cycles left, idle flits on every
link (R234). -/
def State.meshTo (s : State) (a cyc : Nat) : State :=
  let s := s.meshRun a cyc (s.router a).work
  let rest := cyc - (s.router a).now
  (if rest = 0 then s else s.emit (.idle a rest)).updR a fun r => { r with now := max r.now cyc }

/-- COMBINE_WINDOW_EXPIRE (R262). -/
def execCombineWindowExpire (site slot cyc : Nat) (s : State) : Res :=
  onUnit (isSite site && decide (slot < 4)) (fun s =>
    let s := s.meshTo site cyc
    match sfind (s.router site).slots slot with
    | none => s
    | some c =>
      if cyc < c.deadline then s
      else
        (s.updR site fun r => { r with slots := serase r.slots slot }).sendWhole site c.pkt c.esc cyc) s

/-! ### FLIT_RECEIVE -/

/-- The lane of a flit at an input. -/
def laneKey (port : Nat) (f : Flit) : Nat := port * 8 + fVc f * 2 + b2n (fEsc f)

/-- A packet that has not come whole ends here: another head flit has come on its lane (R270). -/
def State.cutLane (s : State) (a k : Nat) : State :=
  let l := (s.router a).lane k
  if l.left = 0 then s
  else match l.q.reverse with
    | x :: t => s.updLane a k fun l => { l with left := 0, q := t.reverse ++ [{ x with last := true }] }
    | [] => (s.updLane a k fun l => { l with left := 0, outs := 0, escOut := false, hold := false, got := [] }).updR a fun r =>
      { r with own := r.own.filter fun e => e.2 != k + 1 }

/-- Flits of a lane are discarded up to its next head flit (R245, R270). -/
def State.dropLane (s : State) (a k : Nat) : State :=
  (s.updLane a k fun l => { l with drop := true, left := 0 }).giveBack a (k / 8) (k % 8)

/-- A malformed head flit (R245). -/
def headBadFor (a port : Nat) (f : Flit) : Bool :=
  let h := f.lane.toNat
  let vc := hVc h
  hLen h == 0 || decide (13 < hLen h) || vc != fVc f || destReserved (hDest h)
    || (bits (hDest h) 15 14 == 3 && (port == 0 || (port == 5 && !isKeeperEdge a)))
    || (if vc = 2 then decide (8 < hLen h)
        else bits h 54 0 != 0 || hPk h == 3 || destReserved (hSrc h) || bits (hSrc h) 15 14 == 1 || bits (hSrc h) 15 14 == 3)

/-- A packet's head takes its place in a queue. -/
def State.enqueue (s : State) (a k cyc : Nat) (f : PFlit) (h outs : Nat) (esc hold : Bool) : State :=
  s.updLane a k fun l => { l with
    drop := false, left := hLen h - 1
    q := l.q ++ [{ f, head := true, l := true, arr := cyc, outs, escOut := esc, hold, last := hLen h == 1 }] }

/-- A head flit whose CRC holds (R245 to R248, R263, R293, R294). -/
def State.headIn (s : State) (a port cyc : Nat) (f : Flit) : State :=
  let k := laneKey port f
  let h := f.lane.toNat
  let c := siteComb a
  let act := s.epochOf c
  let s := s.cutLane a k
  if headBadFor a port f then
    ((s.dropPkt a).dropLane a k).raise (pgRouter a) 0 0x0502 port (h / 2 ^ 96) 0 0 (s.pktStep h)
  else if hEpoch h = (act + 2) % 4 then
    (s.dropLane a k).raise (pgRouter a) 7 0x0509 port (hEpoch h) act 0 (s.pktStep h)
  else if hEpoch h = (act + 3) % 4 ∧ s.prog.flushed.contains c ∧ destIn (hDest h) c then
    (s.dropLane a k).incReg (pgRouter a) 0x058
  else
    let p : PFlit := { lane := f.lane, pay := f.pay, poison := fPoison f }
    if hVc h = 2 ∧ s.combines a then s.enqueue a k cyc p h 0 (fEsc f) true
    else
      let r := s.route a (hDest h) (hEpoch h) (fEsc f) (hDn h) (hMct h)
      if r.mask = 0 then (s.unroutable a h).dropLane a k
      else s.enqueue a k cyc { p with lane := BitVec.ofNat 128 (routedHdr h r) } h r.mask r.esc false

/-- A body flit queues behind its head, with POISON where its CRC failed (R270). -/
def State.bodyIn (s : State) (a port cyc : Nat) (f : Flit) (good : Bool) : State :=
  let k := laneKey port f
  let l := (s.router a).lane k
  if l.drop || l.left == 0 then s.giveBack a port (k % 8)
  else s.updLane a k fun l => { l with
    left := l.left - 1
    q := l.q ++ [{ f := { lane := f.lane, pay := f.pay, poison := fPoison f || !good }, head := false, l := fL f, arr := cyc
                   outs := 0, escOut := false, hold := false, last := l.left == 1 }] }

/-- An input port of a router exists (R227). -/
def portExists (a port : Nat) : Bool :=
  port == 0 || (decide (port ≤ 4) && (neighbour a port).isSome) || (port == 5 && (attOf a).isSome)

/-- The queue of a flit's lane has a place for it; idle flits take none (R229). -/
def State.takes (s : State) (a port : Nat) (f : Flit) : Bool :=
  (fType f != 1 && fType f != 2)
    || decide (((s.router a).lane (laneKey port f)).q.length < laneCap (fVc f * 2 + b2n (fEsc f)))

/-- A flit arrives at an input: its CRC is checked first (R233, R285), and a flit whose lane has no room is not taken (R229, R245 to R248,
R270 to R274, R289 to R294). -/
def State.flitIn (s : State) (a port cyc : Nat) (f : Flit) : State :=
  let lane := fVc f * 2 + b2n (fEsc f)
  let room := s.takes a port f
  if fGood f then
    let s := s.updR a fun r => { r with crcRun := serase r.crcRun port }
    if !room then s
    else if fType f = 1 then (s.crossed a port lane).headIn a port cyc f
    else if fType f = 2 then (s.crossed a port lane).bodyIn a port cyc f true
    else s
  else
    let s := s.crcFail a port (fVc f)
    if fType f = 1 then ((s.crossed a port lane).cutLane a (laneKey port f)).dropLane a (laneKey port f)
    else if fType f = 2 && room then (s.crossed a port lane).bodyIn a port cyc f false
    else s

/-- A port leads over a seam bridge: its link carries beats (R283). -/
def isSeamPort (a port : Nat) : Bool := decide (1 ≤ port ∧ port ≤ 4) && (bridgeAt a port).isSome

/-- What a link brings in a cycle: its credit return, and a flit or a beat. The receiving side of a bridge frames beats by counting
them (R285). -/
def State.takeWord (s : State) (a port cyc : Nat) : LinkIn → State
  | .flit f c =>
    if isSeamPort a port then s
    else
      (s.takeCredit a port c).flitIn a port cyc f
  | .beat d c =>
    if !isSeamPort a port then s
    else
      let s := s.takeCredit a port (BitVec.ofNat 4 (bits c.toNat 15 12))
      let l := sget listDflt (s.router a).beats port ++ [(d, c)]
      if l.length < beatCount l then s.updR a fun r => { r with beats := sset listDflt r.beats port l }
      else
        (s.updR a fun r => { r with beats := serase r.beats port }).flitIn a port cyc (flitOf l)

/-- FLIT_RECEIVE: an input link of a router brings a flit or a beat. The router's outputs first send what they can up to that cycle
(R228 to R230, R238, R239), and a sink takes the chunks that waited and now find a place. -/
def execFlitReceive (site port : Nat) (word : LinkIn) (cyc : Nat) (s : State) : Res :=
  onUnit (isSite site && portExists site port) (fun s =>
    if s.physHole site then s else ((s.meshTo site cyc).takeWord site port cyc word).sinkRetry site) s

/-- LINK_SILENCE: no flit on an input link for 256 comb cycles of the sending side (R273, R290). -/
def execLinkSilence (site port : Nat) (s : State) : Res :=
  onUnit (isSite site && decide (1 ≤ port) && portExists site port) (fun s =>
    if s.physHole site then s else s.linkDown site port 1) s

/-! ### Seals and markers (R275, R291) -/

/-- SEAL: the source of a guarded flow seals it at the end of a step (R275). -/
def execSealFlow (site : Nat) (dest : BitVec 16) (flow : BitVec 12) (s : State) : Res :=
  onUnit (isSite site) (fun s =>
    match (s.router site).flows.find? fun f => f.dest == dest.toNat && f.flow == flow.toNat && f.guard with
    | none => s
    | some f =>
      let n := s.useFlow site dest.toNat flow.toNat f.step true
      n.2.inject site (mkPkt (mkHdr dest.toNat (s.ownDest site) 3 (s.epochOf (siteComb site)) 1 1 2 flow.toNat n.1) 0 [])) s

/-- The flows that a tile sends in an epoch: those it has used, and the outputs of a W tile. -/
def State.sourceFlows (s : State) (a : Nat) : List (Nat × Nat × Bool) :=
  ((s.router a).flows.map fun f => (f.dest, f.flow, f.guard)) ++
    if siteKind a == .w then
      ((List.range 16).filter fun n => bit (s.wOut a n) 31).map fun n =>
        (s.physDest (s.wOut a n % 65536), bits (s.wOut a n) 27 16, false)
    else []

/-- A tile that has ended its use of its flows in the old epoch sends an epoch marker on each (R291): PK 1, LEN 1, a zero payload, on
the control channel. A W tile has ended it when each of its inputs has passed its own marker (R215). -/
def State.sendMarkers (s : State) (a : Nat) : State :=
  if (s.router a).marked || s.physHole a || !s.inRun a || (siteKind a == .w && !s.wDrained a) then s
  else
    (s.sourceFlows a).foldl (fun s f =>
      let n := s.useFlow a f.1 f.2.1 0 f.2.2
      (if f.2.2 then n.2 else s).inject a
        (mkPkt (mkHdr f.1 (s.ownDest a) 3 (s.epochOf (siteComb a)) 1 (b2n f.2.2) 1 f.2.1 n.1) 0 []))
      (s.updR a fun r => { r with marked := true })

/-! ### Deadlock (R295, R296) -/

/-- The flits that an input port holds on a channel (R297). -/
def Router.occ1 (r : Router) (port vc : Nat) : Nat := (r.lane (port * 8 + vc * 2)).q.length + (r.lane (port * 8 + vc * 2 + 1)).q.length

/-- MSH_VC_OCC of an input port (R297): the snapshot while one is held (R296). -/
def Router.occWord (r : Router) (port : Nat) : Nat :=
  if r.occ.isEmpty then sumNat ((List.range 4).map fun v => r.occ1 port v * 2 ^ (8 * v)) else nth 0 r.occ port

/-- A router holds its occupancy as a snapshot (R296). -/
def Router.snap (r : Router) : Router := { r with occ := (List.range 5).map r.occWord }

/-- DEADLOCK_SUSPECT is clear in every router of a comb: its snapshot ends (R299). -/
def State.endSnap (s : State) (c : Nat) : State :=
  let l := (List.range 120).map (mkSite c)
  if l.any fun a => bit (s.regN (pgRouter a) 0x044) 9 then s else l.foldl (fun s a => s.updR a fun r => { r with occ := [] }) s

/-- Tasks pending in a comb: instances in its pools and on its tiles. -/
def State.tasksPending (s : State) (c : Nat) : Nat :=
  sumNat ((s.prog.pools.filter fun e => e.1 / 64 == c).map fun e => e.2.length)
    + (s.prog.runs.filter fun e => siteComb e.1 == c && e.2.inst.isSome).length

/-- DEADLOCK_SUSPECT: 1,048,576 comb cycles without a start, a completion or a flit of the epoch (R295, R296). -/
def execDeadlockSuspect (comb : Nat) (s : State) : Res :=
  onUnit (decide (comb < 24)) (fun s =>
    let n := s.tasksPending comb
    if n = 0 then s
    else
      let s := (List.range 120).foldl (fun s p =>
        (s.flag (pgRouter (mkSite comb p)) 9).updR (mkSite comb p) Router.snap) s
      let s := s.forbid (pgRouter (mkSite comb 0)) 0x050B comb (s.epochOf comb) n comb none
      s.haltComb comb) s

/-! ### A comb's routers at an epoch switch (R252, R274, R292, R293) -/

/-- The tile port takes the packets that waited for the epoch. -/
def State.portEarly (s : State) (a : Nat) : State :=
  let l := (s.router a).early
  l.foldl (fun s p => s.portIn a p) (s.updR a fun r => { r with early := [] })

/-- Whether each flit of a queue belongs to a packet that is discarded: `cur` for the packet whose head has left. -/
def goneFlits (gone : Nat → Bool) : Bool → List QFlit → List (QFlit × Bool)
  | _, [] => []
  | cur, x :: t =>
    let g := if x.head then gone x.f.lane.toNat else cur
    (x, g) :: goneFlits gone g t

/-- The packet at the front of a lane has begun to leave and is discarded. -/
def RLane.curGone (l : RLane) (gone : Nat → Bool) : Bool :=
  match l.got with
  | f :: _ => gone f.lane.toNat
  | [] => false

/-- A lane without the packets that are discarded; the rest of one that still arrives is discarded too. -/
def RLane.flush (l : RLane) (gone : Nat → Bool) : RLane :=
  let marks := goneFlits gone (l.curGone gone) l.q
  let lastGone := match marks.getLast? with
    | some x => x.2
    | none => l.curGone gone
  let cut := lastGone && l.left != 0
  { l with
    q := (marks.filter fun x => !x.2).map (·.1), drop := l.drop || cut, left := if cut then 0 else l.left
    outs := if l.curGone gone then 0 else l.outs, escOut := l.escOut && !l.curGone gone, hold := l.hold && !l.curGone gone
    got := if l.curGone gone then [] else l.got }

/-- FLUSH discards what a router holds of the old epoch for its comb (R293). -/
def State.flushRouter (s : State) (a old : Nat) : State :=
  let c := siteComb a
  let gone := fun (h : Nat) => hEpoch h == old && destIn (hDest h) c
  let r := s.router a
  let n := (r.slots.filter fun e => gone (CSlot.hdr e.2)).length
    + (r.waiting.filter fun p => gone (MeshPkt.hdr p)).length + sumNat (r.lanes.map fun e => (e.2.hdrs.filter gone).length)
  let freed := r.lanes.flatMap fun e =>
    ((goneFlits gone (e.2.curGone gone) e.2.q).filter (·.2)).map fun _ => e.1
  let s := freed.foldl (fun s k => s.giveBack a (k / 8) (k % 8)) s
  let s := s.updR a fun r => { r with
    slots := r.slots.filter fun e => !gone (CSlot.hdr e.2)
    waiting := r.waiting.filter fun p => !gone (MeshPkt.hdr p)
    own := r.own.filter fun o => !(r.lane (o.2 - 1)).curGone gone
    lanes := (r.lanes.map fun e => (e.1, e.2.flush gone)).filter fun e => decide (e.2 ≠ laneDflt e.1)
    acc := [] }
  (List.range n).foldl (fun s _ => s.incReg (pgRouter a) 0x058) s

/-- The two copies of a router's tables change places; staged words no commit named are the Keeper's again (R252). -/
def State.swapTables (s : State) (a : Nat) : State :=
  let p := pgRouter a
  let st := s.stagedOf p
  if (s.page p).pending then
    let old := (st.map fun e => (e.1, sget regDflt s.regs e.1)).filter fun e =>
      !(isKeeperWord (e.1 / 0x1000) (e.1 % 0x1000) && e.2 == 0xFFFFFFFF)
    let s := s.applyPage p
    { s with staged := old.foldl (fun m e => sput m e.1 e.2) s.staged }
  else if (s.page p).dirty = 0 then { s with staged := s.staged.filter fun e => e.1 / 0x1000 != p }
  else s

/-- A router switches with its comb. -/
def State.rSwitch (s : State) (a old : Nat) (flush : Bool) : State :=
  let s := if flush then s.flushRouter a old else s
  let s := s.swapTables a
  let s := s.updR a fun r => { r with guard := [], eguard := [], markers := [], flows := [], doneCh := [], marked := false }
  s.portEarly a

end Sys2Proof.Machine
end

