-- ==== Sys2Proof/Machine/Checks.lean ====
section
/-! DEFINITION. The agreement checks of the pages that take effect at an epoch boundary (R682, step 4): M, W and B tiles and routers. The
Keeper's commits at a switch pass them too. -/

namespace Sys2Proof.Machine

/-! ### Reserved fields -/

/-- The bits of an ST register that a "reserved field" rule lets a commit set; every bit where no such rule exists. -/
def stMask (p off : Nat) : Nat :=
  let full := 2 ^ 32 - 1
  match pageClass p with
  | .buf => if off = 0x064 then 0xFFFF else if 0x180 ≤ off then 0x81FF01FF else full
  | .wag => if off < 0x140 then 0x8FFF0000 else 0xEFFFFFFF
  | .msh =>
    if off = 0x048 then 0xFF0 else if off = 0x04C then 0xFF
    else if off < 0x400 then 0xF9F8F9F8
    else if off < 0x600 then 0xFF7FFF7F
    else if off % 8 = 4 then 0x8000FFFF else 0xFFFE3FFF
  | .int => if off = 0x048 then 0xC0000000 else full
  | .kvs => if 0x080 ≤ off ∧ off ≤ 0x0DC then 0xFFF7FDFF else full
  | .mrd =>
    if off = 0x048 then 0xFFFC0000 else if off = 0x064 then 0x3FF else if off = 0x06C then 0xF801FFFF
    else if off = 0x074 then 0xFFFFFF00 else full
  | .mrdCls => if off % 32 = 0 then 0xFFFF else if off % 32 = 0x14 then 0xFF else full
  | .hbmDev => if off = 0x05C then 0xFFFF else if off = 0x064 then 0xFF else full
  | .trl => if 0x100 ≤ off ∧ off % 8 = 0 then 0xFF00FFFF else full
  | .rte =>
    if off = 0x048 then 0xC00001FF else if off = 0x04C then 0xBFFFFFFF else if off = 0x054 then 0x8000FFFF
    else if 0x0C0 ≤ off ∧ off ≤ 0x0CC then 0x8000FFFF
    else if 0x200 ≤ off ∧ off < 0x400 then 0x80FF80FF
    else if 0x400 ≤ off then 0xF00FFFFF else full
  | .pci => if off = 0x048 then 0x800007FF else full
  | .clk => if off = 0x048 then 0x80FFFFFF else full
  | .cmb => if off = 0x050 then 0x3 else if off = 0x054 then 0x3F3F else full
  | .pwr => if off = 0x04C then 0xFFFF else full
  | .ldg => if off = 0x048 then 0xC0000000 else full
  | .dfmDev => if off = 0x068 then 0xE0FF00FF else full
  | _ => full

/-- No staged word of a page sets a reserved bit. -/
def State.rsvOk (s : State) (p : Nat) : Bool :=
  (s.stagedOf p).all fun e => (e.2.toNat &&& stMask p (e.1 % 4096)) == e.2.toNat

/-! ### Tiles and routers -/

/-- OH or OW of R171. -/
def outDim (n pad dil k stride : Nat) : Option Nat :=
  if n + 2 * pad < dil * (k - 1) + 1 ∨ stride = 0 then none else some ((n + 2 * pad - dil * (k - 1) - 1) / stride + 1)

/-- R171. -/
def State.mtlOk (s : State) (p : Nat) : Bool :=
  let g := geomOf (s.stgN p)
  let rsv := fun (w : Nat) => bit w 31 || bit w 23 || bit w 15 || bit w 7
  let word := fun (i : Nat) => s.stgN p (0x118 + i / 4 * 4)
  !g.zero && decide (g.nbt ≤ 8) && decide (g.c ≤ g.cs) && g.cs % 16 == 0
    && outDim g.h g.py g.dy g.kh g.sy == some g.oh && outDim g.w g.px g.dx g.kw g.sx == some g.ow
    && (List.range g.nbt).all fun i =>
        decide (nth 0 g.bt i < 108) && kindOf (nth 0 g.bt i) == .b && !rsv (word i)

/-- R226. -/
def State.wagOk (s : State) (p : Nat) : Bool :=
  let i := fun (n : Nat) => s.stgN p (0x100 + 4 * n)
  let o := fun (n : Nat) => s.stgN p (0x140 + 4 * n)
  let outBad := fun (w : Nat) =>
    (bit w 31 && (destReserved (w % 65536)
      || (bits w 15 14 == 0 && s.logHole (s.physComb (bits w 11 7)) (bits w 6 0))))
    || (bit w 29 && bits w 15 14 == 1)
  s.rsvOk p
    && !(anyPair (fun a b => bits a 27 16 == bits b 27 16) (((List.range 16).map i).filter fun w => bit w 31))
    && !((List.range 16).any fun n => outBad (o n))

/-- A port that a route entry may not name (R303). -/
def portBad (site cfg p : Nat) : Bool :=
  p == 6 || (p == 5 && (attOf site).isNone) || (decide (1 ≤ p) && decide (p ≤ 4) && !bit cfg (3 + p))

/-- A route entry breaks R303. -/
def rteBad (site cfg e : Nat) : Bool :=
  let dn := bits e 5 3
  bit e 15 && (portBad site cfg (bits e 13 11) || portBad site cfg (bits e 8 6) || portBad site cfg dn
    || (decide (1 ≤ dn) && decide (dn ≤ 4) && bit cfg (7 + dn)))

/-- A multicast entry breaks R303. -/
def mcBad (cfg e : Nat) : Bool :=
  bit e 15 && (decide (119 < bits e 6 0) || (List.range 4).any fun i => bit e (9 + i) && !bit cfg (4 + i))

/-- R303, over the staged words and the table words, the Keeper's own included, that they leave. -/
def State.mshOk (s : State) (p : Nat) : Bool :=
  let site := p - 3072
  let other := (s.epochOf (siteComb site) + 1) % 4
  let w := fun (o : Nat) => match sfind s.staged (regKey p o) with
    | some x => x.toNat
    | none => s.mshWord site o other
  let cfg := w 0x048
  let halves := fun (o : Nat) => [w o % 65536, w o / 65536]
  let sink := fun (n : Nat) => w (0x600 + 8 * n) + 2 ^ 32 * w (0x604 + 8 * n)
  let sinks := (List.range 64).map sink
  s.rsvOk p
    && ((List.range 146).all fun i => !((halves (0x100 + 4 * i)).any (rteBad site cfg)))
    && ((List.range 128).all fun i => !((halves (0x400 + 4 * i)).any (mcBad cfg)))
    && !(sinks.any fun e => bit e 63 && sinkBad (siteKind site) e)
    && !anyPair (fun a b => bits a 47 32 == bits b 47 32) (sinks.filter fun e => bit e 63)

/-- The agreement check of a page of a comb. -/
def State.tileAgrees (s : State) (p : Nat) : Bool :=
  match pageClass p with
  | .mtl => s.mtlOk p
  | .wag => s.wagOk p
  | .msh => s.mshOk p
  | .buf => s.rsvOk p
  | _ => true

end Sys2Proof.Machine
end

