-- ==== Sys2Proof/Machine/Fp32.lean ====
section
/-! DEFINITION. FP32 arithmetic of the S tiles (R97, R176): correctly rounded operations, and the primitives that the
manual bounds by an accuracy: the exact result is enclosed to some 2^-400, and which value within the bound a tile
returns is a free value (log 28). Codes are the 32 bits as a number. -/

namespace Sys2Proof.Machine

/-! ### Codes -/

def fNanC : Nat := 0x7FC00000
def fInfC (neg : Bool) : Nat := 0x7F800000 + b2n neg * 2 ^ 31
def fNeg (c : Nat) : Bool := bit c 31
def fIsNan (c : Nat) : Bool := decide (0x7F800000 < c % 2 ^ 31)
def fIsInf (c : Nat) : Bool := c % 2 ^ 31 == 0x7F800000
def fIsZero (c : Nat) : Bool := c % 2 ^ 31 == 0

/-- A finite value in units of 2^-149. -/
def fInt (c : Nat) : Int := elemInt 8 c

/-- A magnitude m · 2^a with a sign, rounded to nearest even (R97). -/
def fRound (neg : Bool) (m : Nat) (a : Int) : Nat :=
  let c := (toFloat (m : Int) a 8).code
  c % 2 ^ 31 + b2n neg * 2 ^ 31

/-- The negative of a value. -/
def fNegate (c : Nat) : Nat := if bit c 31 then c - 2 ^ 31 else c + 2 ^ 31

def fAdd (x y : Nat) : Nat :=
  if fIsNan x ∨ fIsNan y then fNanC
  else if fIsInf x then (if fIsInf y ∧ fNeg x ≠ fNeg y then fNanC else x)
  else if fIsInf y then y
  else
    let s := fInt x + fInt y
    if s = 0 then (if fNeg x ∧ fNeg y then 2 ^ 31 else 0) else fRound (decide (s < 0)) s.natAbs (-149)

def fSub (x y : Nat) : Nat := if fIsNan y then fNanC else fAdd x (fNegate y)

def fMul (x y : Nat) : Nat :=
  let n := fNeg x != fNeg y
  if fIsNan x ∨ fIsNan y then fNanC
  else if fIsInf x ∨ fIsInf y then (if fIsZero x ∨ fIsZero y then fNanC else fInfC n)
  else fRound n ((fInt x).natAbs * (fInt y).natAbs) (-298)

def fFma (x y z : Nat) : Nat :=
  let n := fNeg x != fNeg y
  if fIsNan x ∨ fIsNan y ∨ fIsNan z then fNanC
  else if fIsInf x ∨ fIsInf y then
    (if fIsZero x ∨ fIsZero y ∨ (fIsInf z ∧ fNeg z ≠ n) then fNanC else fInfC n)
  else if fIsInf z then z
  else
    let s := fInt x * fInt y + fInt z * 2 ^ 149
    if s = 0 then
      (if (fInt x = 0 ∨ fInt y = 0) ∧ n ∧ fNeg z then 2 ^ 31 else 0)
    else fRound (decide (s < 0)) s.natAbs (-298)

def fDiv (x y : Nat) : Nat :=
  let n := fNeg x != fNeg y
  if fIsNan x ∨ fIsNan y then fNanC
  else if fIsInf x then (if fIsInf y then fNanC else fInfC n)
  else if fIsInf y then b2n n * 2 ^ 31
  else if fIsZero y then (if fIsZero x then fNanC else fInfC n)
  else
    let a := (fInt x).natAbs * 2 ^ 400
    let b := (fInt y).natAbs
    fRound n (2 * (a / b) + b2n (a % b != 0)) (-401)

/-- The integer square root, bit by bit. -/
def isqrtGo : Nat → Nat → Nat → Nat
  | 0, _, r => r
  | b + 1, n, r => isqrtGo b n (if (r + 2 ^ b) * (r + 2 ^ b) ≤ n then r + 2 ^ b else r)

def isqrt (n : Nat) : Nat := isqrtGo (n.log2 / 2 + 1) n 0

def fSqrt (x : Nat) : Nat :=
  if fIsNan x then fNanC
  else if fIsZero x then x
  else if fNeg x then fNanC
  else if fIsInf x then x
  else
    let n := 2 * (fInt x).natAbs * 2 ^ 200
    let r := isqrt n
    fRound false (2 * r + b2n (r * r != n)) (-176)

/-- Ordering of two values that are no NaN, infinities included; equal zeros (R189). -/
def fKey (c : Nat) : Int := if fIsInf c then (if fNeg c then -(2 ^ 300 : Int) else 2 ^ 300) else fInt c

def fLt (x y : Nat) : Bool := !fIsNan x && !fIsNan y && decide (fKey x < fKey y)

def fMax (x y : Nat) : Nat :=
  if fIsNan x ∨ fIsNan y then fNanC
  else if fKey x < fKey y then y else if fKey y < fKey x then x else if fNeg x then y else x

def fMin (x y : Nat) : Nat :=
  if fIsNan x ∨ fIsNan y then fNanC
  else if fKey x < fKey y then x else if fKey y < fKey x then y else if fNeg x then x else y

/-- A natural number as FP32. -/
def fOfNat (n : Nat) : Nat := fRound false n 0

/-! ### Enclosures: fixed point with 512 fraction bits -/

def fxP : Nat := 512
def fxOne : Int := 2 ^ 512
def fxMul (a b : Int) : Int := a * b / fxOne
def fxDiv (a b : Int) : Int := a * fxOne / b

/-- Σ z^(2n+1) / (2n+1) with signs `sg`, at q fraction bits. -/
def oddSeries (q : Nat) (sg : Bool) (z : Int) : Nat → Nat → Int → Int → Int
  | 0, _, _, acc => acc
  | fuel + 1, n, pw, acc =>
    oddSeries q sg z fuel (n + 1) (pw * z / 2 ^ q * z / 2 ^ q)
      (if sg ∧ n % 2 = 1 then acc - pw / (2 * n + 1 : Nat) else acc + pw / (2 * n + 1 : Nat))

def fxLn2 : Int := 2 * oddSeries fxP false (fxOne / 3) 170 0 (fxOne / 3) 0

/-- π at 712 fraction bits (Machin's formula). -/
def piQ : Int :=
  let q := 712
  16 * oddSeries q true (2 ^ q / 5) 160 0 (2 ^ q / 5) 0 - 4 * oddSeries q true (2 ^ q / 239) 60 0 (2 ^ q / 239) 0

/-- Σ r^n / n! over every, the even or the odd n. -/
def expSeries (r : Int) : Nat → Nat → Int → Int → Int
  | 0, _, _, acc => acc
  | fuel + 1, n, t, acc => expSeries r fuel (n + 1) (fxMul t r / (n + 1 : Nat)) (acc + t)

def sinSeries (r : Int) : Nat → Nat → Int → Int → Int
  | 0, _, _, acc => acc
  | fuel + 1, n, t, acc => sinSeries r fuel (n + 2) (-(fxMul (fxMul t r) r) / ((n + 1) * (n + 2) : Nat)) (acc + t)

/-- e^x as m · 2^e for a fixed-point x. -/
def fxExp (x : Int) : Int × Int :=
  if 300 * fxOne < x then (1, 500)
  else if x < -(400 * fxOne) then (1, -700)
  else
    let k := x / fxLn2
    (expSeries (x - k * fxLn2) 140 0 fxOne 0, k - 512)

/-- A pair m · 2^e in fixed point. -/
def fxOf (p : Int × Int) : Int :=
  let k := p.2 + 512
  if 0 ≤ k then p.1 * 2 ^ k.toNat else p.1 / 2 ^ (-k).toNat

/-- 1 / (1 + e^-x). -/
def fxSigmoid (x : Int) : Int :=
  if 300 * fxOne < x then fxOne - 1 else if x < -(290 * fxOne) then 1
  else fxDiv fxOne (fxOne + fxOf (fxExp (-x)))

/-- Σ of the error function's positive series. -/
def erfSeries (x : Int) : Nat → Nat → Int → Int → Int
  | 0, _, _, acc => acc
  | fuel + 1, n, t, acc => erfSeries x fuel (n + 1) (2 * fxMul (fxMul t x) x / (2 * n + 3 : Nat)) (acc + t)

def fxErf (x : Int) : Int :=
  if 13 * fxOne < x then fxOne - 1 else if x < -(13 * fxOne) then 1 - fxOne
  else
    let rootPi : Int := isqrt ((piQ / 2 ^ 200).toNat * 2 ^ 512)
    fxDiv (2 * fxMul (fxOf (fxExp (-(fxMul x x)))) (erfSeries x 1400 0 x 0)) rootPi

/-- Sine of x · 2^-149 at a quadrant offset. -/
def fxSin (i : Int) (quad : Int) : Int :=
  let big := i * 2 ^ 563
  let h := piQ / 2
  let k := big / h
  let r := (big - k * h) / 2 ^ 200
  let c := sinSeries r 80 0 fxOne 0
  let s := sinSeries r 80 1 r 0
  match ((k + quad) % 4).toNat with
  | 0 => s
  | 1 => c
  | 2 => -s
  | _ => -c

/-- Natural logarithm of i · 2^-149, i above 0. -/
def fxLn (i : Nat) : Int :=
  let l := i.log2
  let m : Int := (i * 2 ^ fxP / 2 ^ l : Nat)
  let z := fxDiv (m - fxOne) (m + fxOne)
  2 * oddSeries fxP false z 180 0 z 0 + ((l : Int) - 149) * fxLn2

/-- The primitives that R176 bounds by an accuracy. -/
inductive Prim where
  | rsqrt | exp | exp2 | ln | log2 | sin | cos | tanh | sigmoid | erf | geluErf | geluTanh | silu
  deriving DecidableEq, Repr

/-- Accuracy in ulp (R176), and the key of the free value. -/
def Prim.ulp : Prim → Nat
  | .tanh | .sigmoid | .erf => 2
  | .geluErf | .geluTanh | .silu => 3
  | _ => 1

def Prim.key : Prim → Nat
  | .rsqrt => 0 | .exp => 1 | .exp2 => 2 | .ln => 3 | .log2 => 4 | .sin => 5 | .cos => 6 | .tanh => 7 | .sigmoid => 8
  | .erf => 9 | .geluErf => 10 | .geluTanh => 11 | .silu => 12

/-- The exact result for a finite operand, enclosed: m · 2^e. -/
def Prim.exact (p : Prim) (c : Nat) : Int × Int :=
  let i := fInt c
  let x := i * 2 ^ 363
  let far := fun (n : Int) (v : Int) (f : Unit → Int) => if n * fxOne < x then (i, (-149 : Int)) else if x < -(n * fxOne) then (v, -512) else (f (), -512)
  match p with
  | .rsqrt => ((2 ^ 887 : Int) / (isqrt (2 * i.natAbs * 2 ^ 600) : Nat), -512)
  | .exp => fxExp x
  | .exp2 =>
    if 400 * fxOne < x then (1, 500) else if x < -(400 * fxOne) then (1, -700)
    else (expSeries (fxMul (x - x / fxOne * fxOne) fxLn2) 140 0 fxOne 0, x / fxOne - 512)
  | .ln => (fxLn i.natAbs, -512)
  | .log2 => (fxDiv (fxLn i.natAbs) fxLn2, -512)
  | .sin => (fxSin i 0, -512)
  | .cos => (fxSin i 1, -512)
  | .tanh => (2 * fxSigmoid (2 * x) - fxOne, -512)
  | .sigmoid => (fxSigmoid x, -512)
  | .erf => (fxErf x, -512)
  | .geluErf => far 20 (-1) fun _ =>
      fxMul (x / 2) (fxOne + fxErf (fxDiv x (isqrt (2 * 2 ^ 1024) : Nat)))
  | .geluTanh => far 30 (-1) fun _ =>
      let y := fxMul (isqrt ((fxDiv (2 * 2 ^ 200 * fxOne) piQ).toNat * 2 ^ 512) : Nat) (x + fxMul (fxMul x x) x * 44715 / 1000000)
      fxMul x (fxSigmoid (2 * y))
  | .silu => far 290 (-1) fun _ => fxMul x (fxSigmoid x)

/-- The ulp of a finite FP32 value, in units of 2^-149 (R176). -/
def fUlp (c : Nat) : Nat := 2 ^ ((fInt c).natAbs.log2 - 23)

/-- A finite FP32 value lies within b of its own ulp of m · 2^e (R176). -/
def withinUlp (m e : Int) (b c : Nat) : Bool :=
  let k := e + 149
  if 0 ≤ k then decide ((fInt c - m * 2 ^ k.toNat).natAbs ≤ b * fUlp c)
  else decide ((fInt c * 2 ^ (-k).toNat - m).natAbs ≤ b * fUlp c * 2 ^ (-k).toNat)

/-- The FP32 values in order: −0 and +0 both at 0. -/
def fOrd (c : Nat) : Int := if fNeg c then -((c % 2 ^ 31 : Nat) : Int) else (c % 2 ^ 31 : Nat)

def fOfOrd (neg : Bool) (o : Int) : Nat := o.natAbs + b2n (if o = 0 then neg else decide (o < 0)) * 2 ^ 31

/-- The finite FP32 values within b ulp of an exact result m · 2^e: they lie next to its correct rounding, which is the one
value left where the result exceeds every finite one. -/
def ulpCands (m e : Int) (b : Nat) : List Nat :=
  let neg := decide (m < 0)
  let r := fRound neg m.natAbs e
  let l := (((List.range 17).map fun k => fOrd r + ((k : Int) - 8)).filter fun o => decide (o.natAbs < 0x7F800000)).map (fOfOrd neg)
  let l := l.filter (withinUlp m e b)
  if fIsInf r || l.isEmpty then r :: l else l

/-- The value that a free ordinal selects among those within b ulp of an exact result m · 2^e. -/
def pickWithin (m e : Int) (b free : Nat) : Nat :=
  let l := ulpCands m e b
  nth 0 l (free % l.length)

/-- A primitive at an operand outside the finite ones of its domain: a value, or none where the manual and IEEE 754 state
none (log 28). -/
def Prim.special (p : Prim) (c : Nat) : Option Nat :=
  if fIsNan c then some fNanC
  else match p with
    | .rsqrt => if fIsZero c then some (fInfC (fNeg c)) else if fNeg c then some fNanC else if fIsInf c then some 0 else none
    | .ln | .log2 => if fIsZero c then some (fInfC true) else if fNeg c then some fNanC else if fIsInf c then some c else none
    | .exp | .exp2 => if fIsInf c then some (if fNeg c then 0 else c) else none
    | .sin | .cos => if fIsInf c then some fNanC else none
    | .tanh | .erf => if fIsInf c then some (0x3F800000 + b2n (fNeg c) * 2 ^ 31) else none
    | .sigmoid => if fIsInf c then some (if fNeg c then 0 else 0x3F800000) else none
    | _ => if fIsInf c then some (if fNeg c then Config.sPrim p.key c % 2 ^ 32 else c) else none

/-- A primitive (R176): the same bits on every S tile (R96), within its accuracy. -/
def Prim.eval (p : Prim) (c : Nat) : Nat :=
  match p.special c with
  | some v => v
  | none =>
    let (m, e) := p.exact c
    pickWithin m e p.ulp (Config.sPrim p.key c)

/-! ### Draws (R187) -/

def rotl64 (x b : Nat) : Nat := (x * 2 ^ b + x / 2 ^ (64 - b)) % 2 ^ 64

/-- The four words of SipHash. -/
structure Sip where
  v0 : Nat
  v1 : Nat
  v2 : Nat
  v3 : Nat
  deriving DecidableEq, Repr

def Sip.round (s : Sip) : Sip :=
  let a0 := (s.v0 + s.v1) % 2 ^ 64
  let a1 := rotl64 s.v1 13 ^^^ a0
  let a0 := rotl64 a0 32
  let a2 := (s.v2 + s.v3) % 2 ^ 64
  let a3 := rotl64 s.v3 16 ^^^ a2
  let b0 := (a0 + a3) % 2 ^ 64
  let b3 := rotl64 a3 21 ^^^ b0
  let b2 := (a2 + a1) % 2 ^ 64
  let b1 := rotl64 a1 17 ^^^ b2
  { v0 := b0, v1 := b1, v2 := rotl64 b2 32, v3 := b3 }

/-- Compress one 64-bit word. -/
def Sip.word (s : Sip) (m : Nat) : Sip :=
  let t := ({ s with v3 := s.v3 ^^^ m } : Sip).round.round
  { t with v0 := t.v0 ^^^ m }

/-- SipHash-2-4 of a 16-byte message of two words. -/
def sipHash (k0 k1 m0 m1 : Nat) : Nat :=
  let s : Sip := { v0 := k0 ^^^ 0x736f6d6570736575, v1 := k1 ^^^ 0x646f72616e646f6d, v2 := k0 ^^^ 0x6c7967656e657261
                   v3 := k1 ^^^ 0x7465646279746573 }
  let s := ((s.word m0).word m1).word (16 * 2 ^ 56)
  let t := ({ s with v2 := s.v2 ^^^ 0xFF } : Sip).round.round.round.round
  t.v0 ^^^ t.v1 ^^^ t.v2 ^^^ t.v3

/-- `draw` (R187): FP32 in [0, 1). -/
def draw (seed : BitVec 128) (pos d : Nat) : Nat :=
  fRound false (sipHash (seed.toNat % 2 ^ 64) (seed.toNat / 2 ^ 64) (pos % 2 ^ 64) (d % 2 ^ 64) / 2 ^ 40) (-24)

end Sys2Proof.Machine
end

