-- ==== Sys2Proof/Machine/Sfu.lean ====
section
/-! DEFINITION. S tiles (chapter 4, R172 to R199): the store, widening, the functions of R176, requantisation, sampling,
speculative verification, and the shadow check. -/

namespace Sys2Proof.Machine

/-! ### Store (R162, R172) -/

/-- Read a word of the S store; an uncorrectable one is counted and logged as STORE_UE. -/
def State.sstWord (s : State) (site w : Nat) : WordRead × State :=
  let row := w / 16 % sstRows
  let r := wordDecode (getWord sstDflt s.mem.sst (wordKey sstRows site row (w % 16))) row
  match r with
  | .ok _ => (r, s)
  | .corrected _ => (r, s.incHalf site 0x054 0)
  | .poisoned _ => (r, s)
  | .bad syn _ =>
    let s := (s.incHalf site 0x054 16).flag site 4
    (r, s.forbidUe site 0x0305 row (w % 16) syn row (s.stepAt site))

def State.sstWords (s : State) (site : Nat) : Nat → Nat → List WordRead × State
  | _, 0 => ([], s)
  | w, n + 1 =>
    let (r, s) := s.sstWord site w
    let (l, s) := State.sstWords s site (w + 1) n
    (r :: l, s)

/-- Bytes of the store from a byte offset, with whether a word of them is poisoned. -/
def State.sstBytes (s : State) (site ofs len : Nat) : List Byte × Bool × State :=
  let w0 := ofs / 8
  let n := if len = 0 then 0 else (ofs + len - 1) / 8 + 1 - w0
  let (l, s) := s.sstWords site w0 n
  (((wordsBytes l).drop (ofs % 8)).take len, l.any WordRead.poison, s)

/-- Write bytes into the store from a word boundary; the rest of the last word is zero. -/
def State.sstPut (s : State) (site ofs : Nat) (bs : List Byte) : State :=
  let ws := chunks 8 bs.length bs
  { s with mem := { s.mem with sst := (List.range ws.length).foldl (fun m i =>
      let w := ofs / 8 + i
      let row := w / 16 % sstRows
      putWord sstDflt m (wordKey sstRows site row (w % 16)) (wordForm (leNat (nth [] ws i)) row false)) s.mem.sst } }

/-! ### Operand vectors (R173, R174) -/

/-- An element of an operand vector: its FP32 code, its exact value i · 2^e, poison, whether the
conversion to FP32 overflowed, whether it is a tally, which requantises directly (R183). -/
structure SElem where
  c : Nat
  i : Int
  e : Int
  poison : Bool
  ovf : Bool
  direct : Bool
  deriving DecidableEq, Repr

/-- An FP32 value as an element. -/
def sElemF (c : Nat) : SElem := { c, i := fInt c, e := -149, poison := false, ovf := false, direct := false }

/-- A poisoned element; no operation orders or rounds it, and it counts as +0 where one is evaluated (R107, R174). -/
def sElemBad : SElem := { sElemF 0 with poison := true }

/-- The poisoned code of FP32 (R107). -/
def poisonWord : Nat := 0x7F800001

/-- A stored FP32 value. -/
def sElem32 (c : Nat) : SElem := if c = poisonWord then sElemBad else sElemF c

/-- The NaN, or infinity with a sign, that a non-finite element widens to (R173). -/
def widenNonfinite (f code : Nat) : Nat :=
  match f with
  | 2 => if code % 128 = 0x7C then fInfC (bit code 7) else fNanC
  | 6 => if code % 2 ^ 15 = 0x7F80 then fInfC (bit code 15) else fNanC
  | 7 => if code % 2 ^ 15 = 0x7C00 then fInfC (bit code 15) else fNanC
  | _ => fNanC

/-- The sign of an element code. -/
def elemSign (f code : Nat) : Bool := if f = 0 then bit code 7 else let (m, e, _) := fmtShape f; bit code (m + e)

/-- A stored element widened to FP32 (R173); an element whose code is minus zero widens to −0 (log 98). -/
def widen (f code scale : Nat) : SElem :=
  if f = 8 then sElem32 code
  else match elemOf f code scale with
    | .poison => sElemBad
    | .nonfinite => sElemF (if fmtScaled f ∧ scale = 0xFF then fNanC else widenNonfinite f code)
    | .num i =>
      let e := fmtLsb f + (if fmtScaled f then (scale : Int) - 127 else 0)
      let v := toFloat i e 8
      { c := fRound (elemSign f code && decide (i ≤ 0)) i.natAbs e, i, e, poison := false, ovf := v.ovf, direct := false }

/-- A stored tally converted at an anchor (R88, R101, R107). -/
def widenTally (t : Nat) (anchor : Int) : SElem :=
  let (v, ts) := tallyLoad t
  if bit ts 0 then sElemBad
  else
    let x := toFloat (tallyInt v) anchor 8
    { c := x.code, i := tallyInt v, e := anchor, poison := false, ovf := x.ovf, direct := true }

/-- Bytes of n elements of a format. -/
def vecLen (f n : Nat) : Nat :=
  if f = 3 ∨ f = 4 then (n + 3) / 4 * 3 else if f = 5 then (n + 1) / 2 else n * (fmtBits f / 8)

/-- The byte offset of a scaled vector's scales: after its elements, at the next row (log 30). -/
def scaleOfs (row f n : Nat) : Nat := row * 128 + roundUp (vecLen f n) 128

/-- Read an operand vector. -/
def State.sVector (s : State) (site row f n : Nat) (anchor : Int) : List SElem × State :=
  let (bs, bad, s) := s.sstBytes site (row * 128) (vecLen f n)
  let (sc, bad2, s) := if fmtScaled f then s.sstBytes site (scaleOfs row f n) ((n + 31) / 32) else ([], false, s)
  let l := (List.range n).map fun i =>
    if 9 ≤ f then widenTally (leAt bs (16 * i) 16) anchor
    else widen f (elemCode f bs i) (leAt sc (i / 32) 1)
  (if bad || bad2 then l.map fun _ => sElemBad else l, s)

/-! ### Requantisation (R182 to R186) -/

/-- eb of R182, and the largest finite magnitude in units of the format's LSB weight (R71, R186). -/
def ebOf (f : Nat) : Int :=
  match f with
  | 1 => 8 | 2 => 15 | 3 => 4 | 4 => 2 | 5 => 2
  | _ => 6

def maxUnits (f : Nat) : Nat :=
  match f with
  | 1 => 229376 | 2 => 3758096384 | 3 => 448 | 4 => 60 | 5 => 12
  | _ => 127

/-- An element's exact magnitude exceeds the largest finite one under a scale (R186). -/
def saturates (x : SElem) (f scale : Nat) : Bool :=
  let k := x.e - ((scale : Int) - 127) - fmtLsb f
  if 0 ≤ k then decide (maxUnits f < x.i.natAbs * 2 ^ k.toNat) else decide (maxUnits f * 2 ^ (-k).toNat < x.i.natAbs)

/-- A requantised block: scale, codes, saturations, whether it held an infinity or a NaN. -/
structure RBlock where
  scale : Nat
  codes : List Nat
  sat : Nat
  nonfinite : Bool
  deriving DecidableEq, Repr

/-- Requantise a block of up to 32 elements. -/
def requantBlock (f : Nat) (l : List SElem) (poison : Bool) : RBlock :=
  if poison then { scale := 0xFF, codes := l.map fun _ => 0, sat := 0, nonfinite := false }
  else if (l.any fun (x : SElem) => fIsNan x.c || (fIsInf x.c && !x.direct)) then
    { scale := 0xFF, codes := l.map fun _ => 2 ^ fmtBits f - 1, sat := 0, nonfinite := true }
  else
    let top : Option Int := l.foldl (fun (m : Option Int) (x : SElem) =>
      if x.i = (0 : Int) then m else
        let v := (x.i.natAbs.log2 : Int) + x.e
        match m with
        | some y => some (max y v)
        | none => some v) none
    match top with
    | none => { scale := 0x7F, codes := l.map fun _ => 0, sat := 0, nonfinite := false }
    | some t =>
      let x := (max 0 (min 254 (t - ebOf f + 127))).toNat
      { scale := x, codes := l.map fun y => (toElem y.i y.e f x).code, sat := (l.filter fun y => saturates y f x).length
        nonfinite := false }

/-! ### Writing results -/

/-- An S-tile event is logged once for its task (R103, R185). -/
def State.sOnce (s : State) (site task code : Nat) (f : State → State) : State :=
  let l := (s.run site).inst.map (·.launch)
  if s.firstOf l task code then f (s.noteOnce l task code) else s

/-- CONV_OVF at the first element that overflowed (R103). Its output feature is the element's index in the operand or output vector: an
SFN names no other feature (log 105). -/
def State.sOvf (s : State) (site task : Nat) (l : List Bool) : State :=
  match (List.range l.length).find? fun i => nth false l i with
  | none => s
  | some i => s.sOnce site task 0x0306 fun s => s.log site 0x0306 task i 0 0

/-- An element converted to a floating format (R107, R108). -/
def floatConv (f : Nat) (poison : Bool) (x : SElem) : Conv :=
  if poison then ⟨poisonCode f, false, false⟩
  else if fIsNan x.c then ⟨nanCode f, false, false⟩
  else if f = 8 then ⟨x.c, false, false⟩
  else if fIsInf x.c then ⟨encF (fNeg x.c) ((fmtP f).emax + (fmtP f).bias + 1) 0 f, false, false⟩
  else toFloat (fInt x.c) (-149) f

/-- Write a vector in a floating format. -/
def State.writeFloat (s : State) (site task row f : Nat) (l : List SElem) (poison : Bool) : State :=
  let cs := l.map (floatConv f poison)
  (s.sstPut site (row * 128) (packCodes f (cs.map (·.code)))).sOvf site task (cs.map (·.ovf))

/-- The blocks of a vector in a scaled format. -/
def scaledBlocks (f : Nat) (l : List SElem) (poison : Bool) : List RBlock := (chunks 32 l.length l).map fun b => requantBlock f b poison

/-- Write a vector in a scaled format (R182 to R186): only the codes of its elements where the last block is not whole (log 98). -/
def State.writeScaled (s : State) (site task row f : Nat) (l : List SElem) (poison : Bool) : State :=
  let bl := scaledBlocks f l poison
  let s := s.sstPut site (row * 128) (packCodes f (bl.flatMap (·.codes)))
  let s := s.sstPut site (scaleOfs row f l.length) (bl.map fun b => BitVec.ofNat 8 b.scale)
  let s := s.setReg site 0x050 (satAdd 0xFFFFFFFF (s.regN site 0x050) (sumNat (bl.map (·.sat))))
  match (List.range bl.length).find? fun i => (nth { scale := 0, codes := [], sat := 0, nonfinite := false } bl i).nonfinite with
  | none => s
  | some i => s.sOnce site task 0x0302 fun s => (s.flag site 1).log site 0x0302 task i 0 0

/-- A value in the tally format: a conversion the manual does not give, one free value for each value and anchor, so that a
replay stores the same tallies (R4, log 30). A poisoned vector's TSTAT is POISON alone (log 98). -/
def tallyOut (anchor : Int) (poison : Bool) (x : SElem) : Nat := if poison then tallyStore 0 1 else Config.toTally x.c anchor

/-- Write a vector as tallies. -/
def State.writeTally (s : State) (site row : Nat) (anchor : Int) (l : List SElem) (poison : Bool) : State :=
  s.sstPut site (row * 128) (l.flatMap fun x => leBytes 16 (tallyOut anchor poison x))

def State.writeVec (s : State) (site task row f : Nat) (anchor : Int) (l : List SElem) (poison : Bool) : State :=
  if f ≤ 5 then s.writeScaled site task row f l poison
  else if f ≤ 8 then s.writeFloat site task row f l poison
  else s.writeTally site row anchor l poison

/-- What a vector is written as: the codes and scales of a scaled format, codes of a floating one, tallies word by word (R195). -/
def outWords (f : Nat) (anchor : Int) (l : List SElem) (poison : Bool) : List Nat :=
  if f ≤ 5 then
    let bl := scaledBlocks f l poison
    (bl.flatMap fun b => b.codes) ++ bl.map fun b => b.scale
  else if f ≤ 8 then l.map fun x => (floatConv f poison x).code
  else l.flatMap fun x => (List.range 4).map fun i => bits (tallyOut anchor poison x) (32 * i + 31) (32 * i)

/-- Write 32-bit words into the store: FP32 values or token IDs (log 31). A poisoned result holds the poisoned code in each. -/
def State.putWords (s : State) (site ofs : Nat) (l : List Nat) (poison : Bool) : State :=
  s.sstPut site ofs (l.flatMap fun w => leBytes 4 (if poison then poisonWord else w))

/-- Where the token IDs of a vector of values stand: at the next 128-byte boundary after them (log 31). -/
def idsOfs (row f n : Nat) : Nat :=
  roundUp (if fmtScaled f then scaleOfs row f n + (n + 31) / 32 else row * 128 + (if f = 9 then 16 * n else vecLen f n)) 128

/-! ### Functions on vectors -/

/-- Insert into an order: `lt a b` says that a comes before b. -/
def insBy {α : Type} (lt : α → α → Bool) (x : α) : List α → List α
  | [] => [x]
  | a :: t => if lt a x then a :: insBy lt x t else x :: a :: t

/-- The order of R189: descending value, then ascending token ID. -/
def candBefore (a b : Nat × Nat) : Bool := fLt b.2 a.2 || (!fLt a.2 b.2 && decide (a.1 < b.1))

/-- Candidates (token ID, value) in order. -/
def candSort (l : List (Nat × Nat)) : List (Nat × Nat) := l.foldl (fun m x => insBy candBefore x m) []

/-- Top-k in that order; K = 0 takes every token. -/
def topK (l : List (Nat × Nat)) (k : Nat) : List (Nat × Nat) := if k = 0 then candSort l else (candSort l).take k

/-- The sums so far of a list, in order. -/
def cumSums (l : List Nat) : List Nat :=
  (l.foldl (fun (acc : List Nat × Nat) x => let c := fAdd acc.2 x; (acc.1 ++ [c], c)) ([], 0)).1

/-- The first index of a list with a property. -/
def firstIdx {α : Type} (f : α → Bool) (l : List α) : Option Nat :=
  let n := (l.takeWhile fun x => !f x).length
  if n < l.length then some n else none

/-- A sampled token with its log-probability, or non-finite (R190, R191). -/
inductive Sampled where
  | tok (w lp : Nat)
  | nonfinite
  deriving DecidableEq, Repr

/-- `sample` (R190) over the live logits (token ID, value). -/
def sampleTok (z : List (Nat × Nat)) (tau k p : Nat) (seed : BitVec 128) (pos : Nat) : Sampled :=
  if (z.any fun x => fIsNan x.2) || z.all fun x => x.2 == fInfC true then .nonfinite
  else if fIsZero tau then
    match candSort z with
    | x :: _ => .tok x.1 0
    | [] => .nonfinite
  else
    let y := z.map fun x => (x.1, fDiv x.2 tau)
    if y.any fun x => x.2 == fInfC false || fIsNan x.2 then .nonfinite
    else
      let l := topK y k
      match l with
      | [] => .nonfinite
      | (_, m) :: _ =>
        let e := l.map fun x => Prim.exp.eval (fSub x.2 m)
        let cum := cumSums e
        let top := fun n => nth 0 cum (n - 1)
        let n := if fLt p 0x3F800000 then
            let goal := fMul p (top l.length)
            match firstIdx (fun c => !fLt c goal) cum with
            | some j => j + 1
            | none => l.length
          else l.length
        let t := fMul (draw seed pos 0) (top n)
        let j := match firstIdx (fun c => fLt t c) (cum.take n) with
          | some j => j
          | none => n - 1
        let w := nth (0, 0) l j
        .tok w.1 (fSub (fSub w.2 m) (Prim.ln.eval (top n)))

/-- A probability of a distribution; 0 for a token outside it. -/
def probOf (d : Dist) (v : Nat) : Nat :=
  match d.find? fun e => e.1 == v with
  | some e => e.2.toNat
  | none => 0

/-- Choose from weights by a draw (R192): the first whose cumulative weight exceeds t, else the last above zero. -/
def chooseBy (l : List (Nat × Nat)) (u : Nat) : Option Nat :=
  let o := candSort l
  let cum := cumSums (o.map (·.2))
  let t := fMul u (nth 0 cum (cum.length - 1))
  match firstIdx (fun c => fLt t c) cum with
  | some j => some (nth (0, 0) o j).1
  | none => ((o.filter fun x => fLt 0 x.2).getLast?).map (·.1)

/-- What a verification finds: accepted drafts, then the token emitted with its log-probability. -/
structure Verified where
  accepted : List Nat
  last : Option (Nat × Nat)
  bad : Bool
  deriving DecidableEq, Repr

/-- R192, draft by draft. `z` are the logits of the position after the drafts. The residual r ranges over the tokens that p[j] lists: a token
outside it has p 0 and so no residual above zero; a NaN of q[j] at such a token is not met (log 105). -/
def verifyGo (seed : BitVec 128) (pos : Nat) (z : List (Nat × Nat)) (tau k tp : Nat) :
    List Nat → List Dist → List Dist → Nat → List Nat → Verified
  | [], _, _, j, acc =>
    match sampleTok z tau k tp seed (pos + j) with
    | .tok w lp => { accepted := acc, last := some (w, lp), bad := false }
    | .nonfinite => { accepted := acc, last := none, bad := true }
  | x :: xs, qs, ps, j, acc =>
    let q := qs.headD []
    let p := ps.headD []
    if fLt (fMul (draw seed (pos + j) 1) (probOf q x)) (probOf p x) then
      verifyGo seed pos z tau k tp xs qs.tail ps.tail (j + 1) (acc ++ [x])
    else
      let r := p.map fun e => (e.1, fMax 0 (fSub e.2.toNat (probOf q e.1)))
      let pl := p.map fun e => (e.1, e.2.toNat)
      if (r.any fun e => fIsNan e.2) || pl.any fun e => fIsNan e.2 then { accepted := acc, last := none, bad := true }
      else
        let sum := (cumSums ((candSort r).map (·.2))).getLastD 0
        let w := if fLt 0 sum then chooseBy r (draw seed (pos + j) 2) else chooseBy pl (draw seed (pos + j) 2)
        { accepted := acc, last := w.map fun w => (w, Config.draftLp seed.toNat (pos + j) w % 2 ^ 32), bad := false }

/-- What an operation yields: the output vector, the row state of a softmax (m, l, O, O / l), the token IDs that go with the vector,
tokens (position, token, log-probability), steer words, whether a result is non-finite (R191). -/
structure SEval where
  vec : List Nat
  rows : List Nat
  ids : List Nat
  toks : List (Nat × Nat × Nat)
  steer : List DWord
  bad : Bool
  deriving DecidableEq, Repr

def evalVec (v : List Nat) : SEval := { vec := v, rows := [], ids := [], toks := [], steer := [], bad := false }

/-- A non-finite result of n values with token IDs: all of them poisoned (R107, R191). -/
def evalBad (n : Nat) : SEval := { evalVec (List.replicate n 0) with ids := List.replicate n 0, bad := true }

/-- A value of an operand list. -/
def wAt (l : List Word) (i : Nat) : Nat := (nth 0 l i).toNat

/-- An element-wise function on the live positions; a masked one yields +0 (log 31). -/
def pointwise (x : List Nat) (live : Nat → Bool) (f : Nat → Nat → Nat) : List Nat :=
  (List.range x.length).map fun i => if live i then f i (nth 0 x i) else 0

/-- `compare`: the manual states no result but for a NaN operand; a free value (log 31). -/
def fCompare (x y : Nat) : Nat := if fIsNan x ∨ fIsNan y then fNanC else Config.sPrim 13 (x * 2 ^ 32 + y) % 2 ^ 32

/-- The softmax block step (R178, R179): p, then m, l, O and O / l. -/
def softmaxStep (x : List Nat) (live : Nat → Bool) (first : Bool) (m l : Nat) (o ob : List Nat) : SEval :=
  let m := if first then fInfC true else m
  let l := if first then 0 else l
  let o := if first then ob.map fun _ => 0 else o
  let ids := (List.range x.length).filter live
  let fin := fun (m l : Nat) (o p : List Nat) =>
    let out := o.map fun v => if fIsZero l ∧ m = fInfC true then 0 else fDiv v l
    ({ evalVec p with rows := [m, l] ++ o ++ out } : SEval)
  match ids with
  | [] => fin m l o (x.map fun _ => 0)
  | _ =>
    let mb := ids.foldl (fun a i => fMax a (nth 0 x i)) (fInfC true)
    let mn := fMax m mb
    let f := Prim.exp.eval (fSub m mn)
    let p := pointwise x live fun _ v => Prim.exp.eval (fSub v mn)
    let ps := ids.foldl (fun a i => fAdd a (nth 0 p i)) 0
    fin mn (fFma l f ps) ((List.range o.length).map fun i => fFma (nth 0 o i) f (nth 0 ob i)) p

/-- RMS and layer normalisation (R180). n counts the live positions: the rule does not say whether a masked one counts (log 105). -/
def rmsNorm (x : List Nat) (live : Nat → Bool) (g : List Word) (eps : Nat) : List Nat :=
  let ids := (List.range x.length).filter live
  let ss := ids.foldl (fun a i => fFma (nth 0 x i) (nth 0 x i) a) 0
  let r := Prim.rsqrt.eval (fAdd (fDiv ss (fOfNat ids.length)) eps)
  pointwise x live fun i v => fMul (fMul v r) (wAt g i)

def layerNorm (x : List Nat) (live : Nat → Bool) (g b : List Word) (eps : Nat) : List Nat :=
  let ids := (List.range x.length).filter live
  let n := fOfNat ids.length
  let mu := fDiv (ids.foldl (fun a i => fAdd a (nth 0 x i)) 0) n
  let sv := ids.foldl (fun a i => let d := fSub (nth 0 x i) mu; fFma d d a) 0
  let r := Prim.rsqrt.eval (fAdd (fDiv sv n) eps)
  pointwise x live fun i v => fFma (fMul (fSub v mu) r) (wAt g i) (wAt b i)

/-- Rotary encoding (R181). -/
def rotary (x : List Nat) (fr : List Word) (pos : Nat) : List Nat :=
  let fp := fOfNat pos
  (List.range x.length).map fun k =>
    let i := k / 2
    let ang := fMul fp (wAt fr i)
    let c := Prim.cos.eval ang
    let sn := Prim.sin.eval ang
    let a := nth 0 x (2 * i)
    let b := nth 0 x (2 * i + 1)
    if k % 2 = 0 then fFma a c (fNegate (fMul b sn)) else fFma b c (fMul a sn)

/-- The token IDs of the elements of an operation that selects among them (R189). -/
def sopIds : SOp → List Word
  | .topk ids _ _ _ | .sample ids _ _ _ _ _ _ | .verify ids _ _ _ _ _ _ _ _ _ _ _ _ => ids
  | _ => []

/-- An S operation on its operand vector (R176 to R193). -/
def evalOp (op : SOp) (x : List Nat) (live : Nat → Bool) : SEval :=
  let un := fun (f : Nat → Nat) => evalVec (pointwise x live fun _ v => f v)
  let bin := fun (y : List Word) (f : Nat → Nat → Nat) => evalVec (pointwise x live fun i v => f v (wAt y i))
  let cand := ((List.range x.length).filter live).map fun i => (wAt (sopIds op) i, nth 0 x i)
  match op with
  | .add y => bin y fAdd
  | .sub y => bin y fSub
  | .mul y => bin y fMul
  | .fma y z => evalVec (pointwise x live fun i v => fFma v (wAt y i) (wAt z i))
  | .div y => bin y fDiv
  | .recip => un fun v => fDiv 0x3F800000 v
  | .sqrt => un fSqrt
  | .rsqrt => un Prim.rsqrt.eval
  | .exp => un Prim.exp.eval
  | .exp2 => un Prim.exp2.eval
  | .ln => un Prim.ln.eval
  | .log2 => un Prim.log2.eval
  | .sin => un Prim.sin.eval
  | .cos => un Prim.cos.eval
  | .tanh => un Prim.tanh.eval
  | .sigmoid => un Prim.sigmoid.eval
  | .erf => un Prim.erf.eval
  | .geluErf => un Prim.geluErf.eval
  | .geluTanh => un Prim.geluTanh.eval
  | .silu => un Prim.silu.eval
  | .max y => bin y fMax
  | .min y => bin y fMin
  | .compare y => bin y fCompare
  | .softmax first m l o ob => softmaxStep x live first m.toNat l.toNat (o.map (·.toNat)) (ob.map (·.toNat))
  | .rmsNorm g eps => evalVec (rmsNorm x live g eps.toNat)
  | .layerNorm g b eps => evalVec (layerNorm x live g b eps.toNat)
  | .rotary fr pos => evalVec (pointwise (rotary x fr pos) live fun _ v => v)
  | .topk _ k _ _ =>
    if cand.any fun c => fIsNan c.2 then evalBad (if k = 0 then cand.length else min k cand.length)
    else
      let l := topK cand k
      { evalVec (l.map (·.2)) with ids := l.map (·.1) }
  | .sample _ tau k p seed pos _ =>
    match sampleTok cand tau.toNat k p.toNat seed pos with
    | .tok w lp => { evalVec [lp] with ids := [w], toks := [(pos, w, lp)] }
    | .nonfinite => evalBad 1
  | .verify _ seed pos _ drafts q p tau k tp words _ _ =>
    let v := verifyGo seed pos cand tau.toNat k tp.toNat drafts q p 0 []
    let n := v.accepted.length
    let last := match v.last with
      | some (w, lp) => [(pos + n, w, lp)]
      | none => []
    let toks := ((List.range n).map fun i =>
      let w := nth 0 v.accepted i
      (pos + i, w, Config.draftLp seed.toNat (pos + i) w % 2 ^ 32)) ++ last
    let rest := if v.bad then [0] else []
    { evalVec (toks.map (fun t => t.2.2) ++ rest) with
      ids := toks.map (fun t => t.2.1) ++ rest, toks, bad := v.bad
      steer := (List.range drafts.length).map fun i =>
        let w := (nth 0 words i).toNat
        BitVec.ofNat 64 (if i < n then w else putBits w 39 24 0) }
  | .requant _ => evalVec x

/-- The operands of a selection with +0 for each poisoned one: it counts as +0 where it is evaluated, and the poison is the result's alone
(R107, log 105). -/
def cleanOp : SOp → SOp
  | .sample ids tau k p seed pos st => .sample ids (cleanW tau) k (cleanW p) seed pos st
  | .verify ids seed pos st dr q p tau k tp ws dest flow =>
    .verify ids seed pos st dr (q.map cleanD) (p.map cleanD) (cleanW tau) k (cleanW tp) ws dest flow
  | op => op
where
  /-- A word. -/
  cleanW (w : Word) : Word := if w.toNat = poisonWord then 0 else w
  /-- A distribution. -/
  cleanD (d : Dist) : Dist := d.map fun e => (e.1, cleanW e.2)

/-- The function code of an operation (R176). -/
def sopCode : SOp → Nat
  | .add _ | .sub _ | .mul _ => 0x01
  | .fma _ _ => 0x02
  | .div _ | .recip => 0x03
  | .sqrt => 0x04
  | .rsqrt => 0x05
  | .exp | .exp2 => 0x06
  | .ln | .log2 => 0x07
  | .sin | .cos => 0x08
  | .tanh | .sigmoid => 0x09
  | .erf => 0x0A
  | .geluErf | .geluTanh | .silu => 0x0B
  | .max _ | .min _ | .compare _ => 0x0C
  | .softmax _ _ _ _ _ => 0x10
  | .rmsNorm _ _ => 0x11
  | .layerNorm _ _ _ => 0x12
  | .rotary _ _ => 0x13
  | .topk _ _ _ _ => 0x14
  | .sample _ _ _ _ _ _ _ => 0x15
  | .verify _ _ _ _ _ _ _ _ _ _ _ _ _ => 0x16
  | .requant _ => 0x17

/-- The stream and position of an operation that selects tokens. -/
def sopWhere : SOp → Nat × Nat
  | .topk _ _ pos st => (st, pos)
  | .sample _ _ _ _ _ pos st => (st, pos)
  | .verify _ _ pos st _ _ _ _ _ _ _ _ _ => (st, pos)
  | _ => (0, 0)

/-- A further operand of an operation is poisoned at a live position of a vector of length n (R107, R174). -/
def sopPoisoned (op : SOp) (n : Nat) (live : Nat → Bool) : Bool :=
  let p := fun (w : Word) => w.toNat == poisonWord
  let at_ := fun (l : List Word) => (List.range n).any fun i => live i && wAt l i == poisonWord
  let any := (List.range n).any live
  match op with
  | .add y | .sub y | .mul y | .div y | .max y | .min y | .compare y => at_ y
  | .fma y z => at_ y || at_ z
  | .softmax first m l o ob => (!first && (p m || p l || o.any p)) || (any && ob.any p)
  | .rmsNorm g eps => any && (at_ g || p eps)
  | .layerNorm g b eps => any && (at_ g || at_ b || p eps)
  | .rotary fr _ => (List.range n).any fun i => live i && wAt fr (i / 2) == poisonWord
  | .sample _ tau _ tp _ _ _ => p tau || p tp
  | .verify _ _ _ _ _ q d tau _ tp _ _ _ => p tau || p tp || (q ++ d).any fun l => l.any fun e => p e.2
  | _ => false

/-! ### Shadow check (R194 to R199) -/

/-- The S sites that serve a comb's S indices, lowest first, that are in RUN. -/
def State.sRun (s : State) (comb : Nat) : List Nat :=
  ((logicals .s).filterMap fun l => s.serving comb l).filter s.inRun

/-- The S index of a site within its comb: of the logical site it serves, else its place among the S sites. -/
def State.sIdx (s : State) (site : Nat) : Nat :=
  match s.served site with
  | some l => kindIdx l
  | none => sIndex (siteIdx site)

/-- The first S tile in RUN of a comb after an S index, with wrap, that a test admits. -/
def State.sAfter (s : State) (comb idx : Nat) (ok : Nat → Bool) : Option Nat :=
  let l := (s.sRun comb).filter ok
  match l.find? fun t => decide (idx < s.sIdx t) with
  | some t => some t
  | none => l.head?

/-- The first S tile in RUN of the other combs in the order of R407, step 3. -/
def State.sElsewhere (s : State) (comb : Nat) (skip : List Nat) (ok : Nat → Bool) : Option Nat :=
  (s.otherCombs comb).findSome? fun d => if skip.contains d then none else ((s.sRun d).filter ok).head?

/-- The partner of R195. -/
def State.partnerOf (s : State) (site : Nat) : Option Nat :=
  let ok := fun t => t != site
  match s.sAfter (siteComb site) (s.sIdx site) ok with
  | some t => some t
  | none => s.sElsewhere (siteComb site) [] ok

/-- The arbiter of R198. -/
def State.arbiterOf (s : State) (site partner : Nat) : Option Nat :=
  let ok := fun t => t != site && t != partner
  match s.sAfter (siteComb partner) (s.sIdx partner) ok with
  | some t => some t
  | none =>
    let own := if siteComb partner = siteComb site then none else ((s.sRun (siteComb site)).filter ok).head?
    match own with
    | some t => some t
    | none => s.sElsewhere (siteComb site) [siteComb partner] ok

/-- The counters before an operation (R194): whether it is shadowed, and the tile after. -/
def STile.before (t : STile) (step : Option Nat) : Bool × STile :=
  let new := step.toList.filter fun n => !t.steps.contains n
  let t := { t with steps := t.steps ++ new }
  if t.opc == 63 || (!new.isEmpty && t.sts == 63) then
    (true, { t with opc := 0, sts := 0, shadowedIn := t.shadowedIn ++ step.toList.filter fun n => !t.shadowedIn.contains n })
  else (false, { t with opc := t.opc + 1 })

/-- A tile reference of R219. -/
def State.sRef (s : State) (site : Nat) : Nat := siteComb site * 8 + s.sIdx site % 8

/-- Enter an operation for its shadow run. -/
def State.addShadow (s : State) (site func task : Nat) (out : SOut) (step : Option Nat) : State :=
  match s.partnerOf site with
  | none => s
  | some p =>
    let x : Shadow := { func, task, out, partner := p, pout := none, arb := none, step := step.getD 0, stalled := false }
    let s := s.updS site fun t => { t with shadows := t.shadows ++ [x] }
    match step with
    | some n => s.updStep n fun st => { st with shadows := st.shadows + 1 }
    | none => s

/-! ### The commands -/

/-- A non-finite result (R191): SAMPLE_NONFINITE once for the task; every stream it arises in is handled as under R100. -/
def State.sampleBad (s : State) (site task stream pos : Nat) : State :=
  let l := (s.run site).inst.map (·.launch)
  let step := s.stepAt site
  let det := stream * 2 ^ 21 + pos
  if s.firstOf l task 0x0303 then (s.noteOnce l task 0x0303).raise site 2 0x0303 task stream pos det step
  else s.blame (step.getD s.oldest) { page := site, code := 0x0303, a0 := task, a1 := stream, a2 := pos, det }

/-- Tokens that an operation sampled join the step's results. -/
def State.addToks (s : State) (step : Option Nat) (stream : Nat) (l : List (Nat × Nat × Nat)) : State :=
  match step with
  | some n => s.updStep n fun st => { st with results := st.results ++ l.map fun t =>
      { stream, pos := t.1, token := t.2.1, lp := w32 t.2.2 } }
  | none => s

/-- The steer words of a verification go to the W-tile input that its task names, on the control channel (R193, R200). -/
def State.sendSteers (s : State) (site : Nat) (op : SOp) (l : List DWord) : State :=
  match op with
  | .verify _ _ _ _ _ _ _ _ _ _ _ dest flow =>
    let e := s.epochOf (siteComb site)
    l.foldl (fun s w => s.inject site (mkPkt (mkHdr (s.physDest dest.toNat) (s.ownDest site) 3 e 1 0 0 flow
      (bits w.toNat 63 52)) (putBits w.toNat 51 50 e) [])) s
  | _ => s

/-- What an SFN writes (R107, R173 to R193): the output vector at its row in the output format, the token IDs after it, the row state of a
softmax, as 32-bit words m, l, O, O / l in this order from the parameter row: no rule places it (log 105). -/
def State.sWrite (s : State) (site task w1 : Nat) (anchor : Int) (op : SOp) (xs : List SElem) (ev : SEval) (poison : Bool) : State :=
  let row := bits w1 52 42
  let f := bits w1 37 34
  let s := match op with
    | .requant f => s.writeScaled site task row (if f ≤ 5 then f else 0) xs poison
    | _ => s.writeVec site task row f anchor (ev.vec.map sElemF) poison
  let s := if ev.ids.isEmpty then s else s.putWords site (idsOfs row f ev.vec.length) ev.ids poison
  if ev.rows.isEmpty then s else s.putWords site (bits w1 10 0 * 128) ev.rows poison

/-- The output that a shadow run compares (R195): what is written, bit for bit, in its format, with the row state, token IDs,
log-probabilities and steer words. -/
def shadowOut (w1 : Nat) (anchor : Int) (op : SOp) (xs : List SElem) (ev : SEval) (poison : Bool) : SOut :=
  let f := bits w1 37 34
  let p := fun (l : List Nat) => if poison then l.map fun _ => poisonWord else l
  let vec := match op with
    | .requant f => outWords (if f ≤ 5 then f else 0) anchor xs poison
    | _ => outWords f anchor (ev.vec.map sElemF) poison
  { vals := (vec ++ p ev.rows ++ p ev.ids ++ ev.toks.map (fun (t : Nat × Nat × Nat) => t.2.2)
      ++ ev.steer.flatMap (fun (w : DWord) => [w.toNat / 2 ^ 32, w.toNat % 2 ^ 32])).map w32
    poison, toks := ev.toks.map fun k => k.2.1 }

/-- The anchor of an operation's tally operands and tally output: the entry of the launch's table that its word names (R374). -/
def State.sAnchor (s : State) (site w1 : Nat) : Int :=
  match s.launchAt site with
  | some l => signed 10 (nth 0 l.anchors (bits w1 33 24))
  | none => 0

/-- A position is in force under the launch's masks that the operation's word selects (R173, R389). -/
def State.sLive (s : State) (site w0 i : Nat) : Bool :=
  let (cm, rm, d0, d1) := s.maskOf site
  (!bit w0 1 || s.maskBit cm d0 i) && (!bit w0 0 || s.maskBit rm d1 i)

/-- An operation on its operands: what they and its own parameters poison, its result, its shadow run, its steer words, its tokens (R107,
R173, R178, R191, R193 to R195). -/
def State.sApply (s : State) (site w1 : Nat) (op : SOp) (anchor : Int) (live : Nat → Bool) (xs : List SElem) : State :=
  let task := s.taskAt site
  let step := s.stepAt site
  let ev := evalOp (cleanOp op) (xs.map (·.c)) live
  let poison := xs.any (·.poison) || sopPoisoned op xs.length live || ev.bad
  let s := s.sOvf site task (xs.map fun x => x.ovf && !(sopCode op == 0x17 && x.direct))
  let (sh, t) := (s.stile site).before step
  let s := s.updS site fun _ => t
  let out := shadowOut w1 anchor op xs ev poison
  let s := if sh then s.addShadow site (sopCode op) task out step else s
  let s := (s.wrapReg site 0x04C).sWrite site task w1 anchor op xs ev poison
  let s := if ev.toks.isEmpty then s else s.emit (Out.sval site out)
  let s := s.sendSteers site op ev.steer
  if ev.bad then s.sampleBad site task (sopWhere op).1 (sopWhere op).2
  else if poison then s
  else s.addToks step (sopWhere op).1 ev.toks

/-- SFN (R173 to R193, R373, R390). A length above 65,536 and an operation of another function code than the word's are no
instruction of R373: they have no effect (log 98). -/
def execSfn (site : Nat) (w0 w1 : DWord) (op : SOp) (flips : List Flip) (s : State) : Res :=
  onKind .s site (fun s =>
    let n := bits w0.toNat 47 31
    if !s.mayRun site || decide (65536 < n) || bits w0.toNat 55 48 != sopCode op then s
    else if n = 0 then s.raise site 3 0x0304 (s.taskAt site) (sopCode op) 0 0 (s.stepAt site)
    else
      let s : State := { s with mem := { s.mem with sst := disturb sstDflt s.mem.sst flips } }
      let anchor := s.sAnchor site w1.toNat
      let (x, s) := s.sVector site (bits w1.toNat 63 53) (bits w1.toNat 41 38) n anchor
      let live := s.sLive site w0.toNat
      s.sApply site w1.toNat op anchor live ((List.range n).map fun i => if live i then nth (sElemF 0) x i else sElemF 0)) s

/-- Change the first open shadow that a test picks; none removes it. -/
def updShadow (p : Shadow → Bool) (f : Shadow → Option Shadow) : List Shadow → List Shadow
  | [] => []
  | x :: t => if p x then (f x).toList ++ t else x :: updShadow p f t

/-- A shadow comparison of a step is complete (R197). -/
def State.shadowDone (s : State) (step : Nat) : State := s.updStep step fun st => { st with shadows := st.shadows - 1 }

/-- SFU_SHADOW_LAST (R219). -/
def State.shadowWord (s : State) (verdict : Nat) (x : Shadow) (arb : Nat) : Nat :=
  2 ^ 31 + verdict * 2 ^ 29 + x.func * 2 ^ 16 + arb * 2 ^ 8 + s.sRef x.partner

/-- SHADOW_COMPARE: the partner's output meets the tile's own, bit for bit (R195, R197, R198). Where no tile can be the arbiter the
comparison ends with the mismatch: no verdict fences a tile (log 98). Until the verdict SFU_SHADOW_LAST and the event show VERDICT 0, and
ARBITER 0 where there is none: R219 names no value for them (log 105). -/
def execShadowCompare (site : Nat) (out : SOut) (s : State) : Res :=
  onKind .s site (fun s =>
    let p := fun (x : Shadow) => x.pout.isNone
    match (s.stile site).shadows.find? p with
    | none => s
    | some x =>
      if x.out = out then
        (s.updS site fun t => { t with shadows := updShadow p (fun _ => none) t.shadows }).shadowDone x.step
      else
        let arb := s.arbiterOf site x.partner
        let next := fun (x : Shadow) => arb.map fun a => { x with pout := some out, arb := some a }
        let s := s.updS site fun t => { t with shadows := updShadow p next t.shadows }
        let s := s.setReg site 0x05C (s.shadowWord 0 x ((arb.map s.sRef).getD 0))
        let s := s.setReg site 0x060 x.task
        s.raise site 0 0x0301 x.task (s.regN site 0x05C) 0 0 (if x.step = 0 then none else some x.step)) s

/-- ARBITER_VERDICT: the third run decides by majority (R198); the outvoted tile, or all three, enter FENCED. -/
def execArbiterVerdict (site : Nat) (out : SOut) (s : State) : Res :=
  onKind .s site (fun s =>
    let p := fun (x : Shadow) => x.pout.isSome && x.arb.isSome
    match (s.stile site).shadows.find? p with
    | none => s
    | some x =>
      let arb := x.arb.getD 0
      let v := if out = x.out then 0 else if x.pout = some out then 1 else 2
      let s := s.updS site fun t => { t with shadows := updShadow p (fun _ => none) t.shadows }
      let s := s.setReg site 0x05C (s.shadowWord v x (s.sRef arb))
      let l := if v = 0 then [x.partner] else if v = 1 then [site] else [site, x.partner, arb]
      l.foldl (fun s k => s.fence k 0x0301) s) s

/-- SHADOW_STALL: a shadowed operation of this tile is not complete after 16,384 comb cycles; its partner holds its own
work and counts it (R196). -/
def execShadowStall (site : Nat) (s : State) : Res :=
  onKind .s site (fun s =>
    let p := fun (x : Shadow) => x.pout.isNone && !x.stalled
    match (s.stile site).shadows.find? p with
    | none => s
    | some x =>
      (s.updS site fun t => { t with shadows := updShadow p (fun x => some { x with stalled := true }) t.shadows }).incReg x.partner 0x064) s

end Sys2Proof.Machine
end

