-- ==== Sys2Proof/Machine/Programs.lean ====
section
/-! DEFINITION. What micro-programs do at a B tile (R373 to R376), and epoch switches (R378 to R383, R215, R252 to R254,
R256 to R258, R291 to R293, R352, R869). -/

namespace Sys2Proof.Machine

/-! ### B instructions -/

/-- A B tile's micro-program goes on, in a comb that is not parked. -/
def State.bRuns (s : State) (site : Nat) : Bool := s.bLive site && s.mayRun site

/-- WIN: the window governs admissions from the next cycle on (R328, R329, R373). -/
def execWin (site : Nat) (w0 : DWord) (cyc : Nat) (s : State) : Res :=
  onKind .b site (fun s =>
    if !s.bRuns site then s
    else
      let s := s.bRun site cyc
      let n := bits w0.toNat 52 48
      (s.updB site fun t => { t with wins := t.wins ++ [(n, cyc, s.bWin site n)] }).setReg site (0x100 + 4 * n) (w0.toNat % 2 ^ 32)) s

/-- Fields of FILL and SPILL. -/
def fRow (w : Nat) : Nat := bits w 47 34
def fRows (w : Nat) : Nat := bits w 33 23
def fCtr (w : Nat) : Nat := bits w 2 0

/-- FILL (R373, R375, R376, R416, R466 to R468): rows travel from HBM into the hold queue; its counter counts at FILL_DONE. -/
def execFill (site : Nat) (w0 ofs : DWord) (cyc : Nat) (s : State) : Res :=
  onKind .b site (fun s =>
    let w := w0.toNat
    let n := fRows w
    if !s.bRuns site then s
    else if n = 0 then s.countUp site (fCtr w)
    else
      let s := s.bRun site cyc
      let a := s.operand site (bits w 55 48) ofs.toNat
      let base := a % 2 ^ 40
      let x : Xfer := { id := s.prog.nextXfer, ctr := fCtr w, kind := 1, addr := base, row := fRow w, left := 2 * n, step := s.stepAt site
                        gone := false }
      let s := s.startXfer site (fCtr w) 1 base (fRow w) (2 * n)
      if s.isLocal a then s.kvRead site x base (2 * n) else s.remoteReads site a (128 * n) (xferFlow (fCtr w))) s

/-- SPILL (R315, R373, R375, R376, R416, R462, R463, R467): rows that port SEQ reads travel to HBM; into another device's, each write
packet is acknowledged. -/
def execSpill (site : Nat) (w0 ofs : DWord) (cyc : Nat) (s : State) : Res :=
  onKind .b site (fun s =>
    let w := w0.toNat
    let n := fRows w
    if !s.bRuns site then s
    else if n = 0 then s.countUp site (fCtr w)
    else
      let s := s.bRun site cyc
      let a := s.operand site (bits w 55 48) ofs.toNat
      let base := a % 2 ^ 40
      let out := if s.isLocal a then SeqOut.local s.prog.nextXfer base (s.ownDest site) (s.stepAt site)
                 else SeqOut.remote a (xferFlow (fCtr w))
      (s.startXfer site (fCtr w) 0 base (fRow w) (if s.isLocal a then 1 else (writeCuts base (2 * n)).length)).seqRead site (fRow w) n
        (s.stepAt site) out) s

/-- A write request to a B tile (R336), six rows at most. -/
def bWriteHead (ack row rows reply rflow : Nat) : Nat :=
  2 * 2 ^ 508 + ack * 2 ^ 507 + row % 2 ^ 14 * 2 ^ 488 + rows * 2 ^ 481 + 0xFFFF * 2 ^ 465 + reply * 2 ^ 449 + rflow * 2 ^ 437

/-- The mesh header and head payload of one packet of a SEND, which takes the next SEQ of its flow (R274), with its number of body
flits. -/
def State.sendPkt (s : State) (site dest flow guard ack row rows ctr : Nat) : (Nat × Nat × Nat) × State :=
  let own := s.ownDest site
  let step := (s.stepAt site).getD 0
  let (seq, s) := s.useFlow site dest flow step (guard == 1)
  let s := if guard = 1 then s.openSeal step own dest flow (s.destCount dest (s.epochOf (siteComb site))) else s
  (((mkHdr dest own 0 (s.epochOf (siteComb site)) (1 + 2 * rows) guard 0 flow seq).toNat, bWriteHead ack row rows own ctr, 2 * rows), s)

/-- The packets of a SEND of n rows: six rows to a packet, and the last one asks for the acknowledgement. -/
def State.sendPkts (s : State) (site dest flow guard ack row n ctr : Nat) : List (Nat × Nat × Nat) × State :=
  let k := (n + 5) / 6
  (List.range k).foldl (fun acc i =>
    let (p, s) := acc.2.sendPkt site dest flow guard (if i + 1 = k then ack else 0) (row + 6 * i) (min 6 (n - 6 * i)) ctr
    (acc.1 ++ [p], s)) ([], s)

/-- SEND (R274, R315, R335, R373, R376, R416): rows that port SEQ reads go to another B tile. -/
def execSend (site : Nat) (w0 w1 : DWord) (cyc : Nat) (s : State) : Res :=
  onKind .b site (fun s =>
    let w := w0.toNat
    let v := w1.toNat
    let n := bits w 33 27
    if !s.bRuns site then s
    else if n = 0 then (if bit w 25 then s.countUp site (fCtr w) else s)
    else
      let (l, s) := (s.bRun site cyc).sendPkts site (s.physDest (bits v 63 48)) (bits v 33 22) (bitN w 26) (bitN w 25) (bits v 47 34) n (fCtr w)
      s.seqRead site (fRow w) n (s.stepAt site) (.send l)) s

/-- FILL_DONE: the oldest transfer of a counter that is complete counts (R376). -/
def execFillDone (site ctr cyc : Nat) (s : State) : Res :=
  onUnit (isSite site && siteKind site != .w && decide (ctr < 8)) (fun s =>
    let s := if siteKind site == .b then s.bRun site cyc else s
    match (s.run site).pend.find? fun x => x.ctr == ctr && s.xferLanded site x with
    | none => s
    | some x =>
      let s := s.updRun site fun r => { r with pend := r.pend.filter fun y => y.id != x.id }
      let s := s.updB site fun t => { t with pkts := t.pkts.filter fun p => p.ctr != some x.id }
      s.countUp site ctr) s

/-- WRITE_ACK_RECEIVE: the acknowledgement of a SEND counts on the counter that bits [2:0] of RFLOW name (R376). -/
def execWriteAckReceive (site : Nat) (rflow : BitVec 12) (_stat : BitVec 2) (s : State) : Res :=
  onKind .b site (fun s =>
    if (s.run site).inst.isNone then s else s.countUp site (rflow.toNat % 8)) s

/-! ### Taking a switch record (R379, R385) -/

/-- The code of R394 that a switch record breaks: 1 its form, 2 its slot; 0 none. The switch of a device without an ACTIVE
slot keeps the null configuration (log 20). -/
def State.switchRule (s : State) (r : SwitchRec) : Nat :=
  if !r.ok then 1 else if r.slot = nullSlot ∨ s.slotUsable r.slot then 0 else 2

/-- Task dispatch acts on a switch record: the shadow copies may be written already (R379, steps 1 and 2). -/
def State.takeSwitch (s : State) (r : SwitchRec) : State :=
  let c := s.switchRule r
  if c ≠ 0 then (s.record r.done (doneRec 2 c 0xFF 0 0 0 0)).log pgMrd 0x0F03 c r.slot 0 0
  else match s.prog.pre.filter fun w => decide (w.sw = r) with
    | some w => { s with prog := { s.prog with cur := some { w with since := s.dev.chrono }, pre := none } }
    | none =>
      let s := s.dropShadow
      { s with prog := { s.prog with cur := some { sw := r, loaded := false, since := s.dev.chrono, combs := [], left := [] } } }

/-- SWITCH_RECORD: task dispatch takes the switch at the head: the Keeper's own first, then its queue's (R379, R382, R385). -/
def execSwitchRecord (s : State) : Res :=
  if s.prog.cur.isSome then .next s
  else
    match s.prog.ahead, s.prog.dq with
    | r :: t, _ => .next (({ s with prog := { s.prog with ahead := t } } : State).takeSwitch r)
    | [], .switch r :: t => .next (({ s with prog := { s.prog with dq := t } } : State).takeSwitch r)
    | _, _ => .next s

/-! ### The shadow configuration (R252, R256 to R258, R362, R367, R368, R371, R379) -/

/-- The combs that take part in a switch: those not OFF (R793). -/
def State.liveCombs (s : State) : List Nat := (List.range 24).filter fun c => !s.combOff c

/-- The site that serves a logical index after the next boundary, a pending remap commit included (R63). -/
def State.servingNext (s : State) (comb l : Nat) : Option Nat :=
  let e := if (s.page (pgDfm comb)).pending then s.stgN (pgDfm comb) (0x100 + 4 * l) else s.remap comb l
  if bit e 15 then none else some (mkSite comb (bits e 6 0))

/-- The site whose page takes a configuration value: the one that serves now, whose values R869 carries over, else the next. -/
def State.servingPage (s : State) (comb l : Nat) : Option Nat :=
  match s.serving comb l with
  | some p => some p
  | none => s.servingNext comb l

/-- Stage one PAGE record (R367, R368). -/
def State.stagePage (s : State) (comb : Nat) (w : DWord) : State :=
  match s.servingPage comb (bits w.toNat 55 48) with
  | some p => s.stage p (bits w.toNat 47 32) (w.toNat % 2 ^ 32)
  | none => s

/-- A router of a multicast tree: its ports in the tree, and whether a packet reaches it on the escape lane and with DN 1. -/
structure TreeNode where
  ports : Nat
  esc : Bool
  dn : Bool
  deriving DecidableEq, Repr

/-- A hop that a branch adds to a tree: router, port, the next router, and how a packet reaches that one. -/
structure TreeHop where
  site : Nat
  port : Nat
  next : Nat
  esc : Bool
  dn : Bool
  deriving DecidableEq, Repr

/-- A tree with the hops of a branch, which ends at a member's tile port. -/
def addHops (t : Sparse TreeNode) (hops : List TreeHop) (member : Nat) : Sparse TreeNode :=
  let t := hops.foldl (fun (t : Sparse TreeNode) h =>
    let n := (sfind t h.site).getD ⟨0, false, false⟩
    sput (sput t h.site { n with ports := n.ports ||| 2 ^ h.port }) h.next ⟨0, h.esc, h.dn⟩) t
  let n := (sfind t member).getD ⟨0, false, false⟩
  sput t member { n with ports := n.ports ||| 1 }

/-- One branch of a multicast tree (R258): XY to the first obstacle, or to a router whose branches turn to the escape lane, and by the
escape tree from there, inside the comb (R255). Where it comes back to a router of the tree it goes on from that router: each router is
reached in one way. -/
def State.graft (s : State) (turn : List Nat) (member : Nat) : Nat → Sparse TreeNode → List TreeHop → Nat → TreeNode → Sparse TreeNode
  | 0, t, _, _, _ => t
  | fuel + 1, t, hops, a, n =>
    if a = member then addHops t hops member
    else
      let esc := n.esc || turn.contains a || s.blocked a (xyPort a member)
      let e := s.escOf a member true
      let p := if !esc then xyPort a member else if n.dn then e.2 else e.1
      match neighbour a p with
      | none => t
      | some x => match sfind t x with
        | some y => State.graft s turn member fuel t [] x y
        | none =>
          let dn := n.dn || (esc && !bit (s.kCfg a) (7 + p))
          State.graft s turn member fuel t (hops ++ [⟨a, p, x, esc, dn⟩]) x ⟨0, esc, dn⟩

/-- The tree of a group from its root. A router where one branch turns to the escape lane turns all its branches: its entry has one ESC
bit (R255). -/
def State.groupTree (s : State) (root : Nat) (members : List Nat) : Nat → List Nat → Sparse TreeNode × List Nat
  | 0, turn => ([], turn)
  | fuel + 1, turn =>
    let t := members.foldl (fun t m => s.graft turn m 480 t [] root ((sfind t root).getD ⟨0, false, false⟩)) [(root, ⟨0, false, false⟩)]
    let new := (t.filter fun e => !e.2.esc && !turn.contains e.1 && (setBits 6 e.2.ports).any fun p =>
      ((neighbour e.1 p).bind (sfind t)).any (·.esc)).map (·.1)
    if new.isEmpty then (t, turn) else State.groupTree s root members fuel (turn ++ new)

/-- A multicast entry as `route` reads it: VALID, ESC, MASK, ROOT. -/
def mcWord (esc : Bool) (mask root : Nat) : Nat := 0x8000 + b2n esc * 0x4000 + mask * 256 + root

/-- Stage one 16-bit entry of a group table. -/
def State.stageGroup (s : State) (site g e : Nat) : State :=
  let p := pgRouter site
  let off := 0x400 + g / 2 * 4
  s.stage p off (putBits (s.stgN p off) (16 * (g % 2) + 15) (16 * (g % 2)) e)

/-- Stage one group in every live router of its comb. -/
def State.stageMcast (s : State) (comb : Nat) (group : Nat) (members : List Nat) : State :=
  let sites := (members.filter fun m => m != 0xFF).filterMap fun m => s.servingNext comb m
  match sites with
  | [] => s
  | root :: _ =>
    let (tree, turn) := s.groupTree root sites 120 []
    ((List.range 120).map (mkSite comb)).foldl (fun s r =>
      if s.physHole r then s
      else
        let n := (sfind tree r).getD ⟨0, false, false⟩
        s.stageGroup r group (mcWord (n.esc || turn.contains r) n.ports (siteIdx root))) s

/-- Stage one sink entry (R268). -/
def State.stageSink (s : State) (comb l entry : Nat) (w : DWord) : State :=
  match s.servingNext comb l with
  | some p =>
    let s := s.stage (pgRouter p) (0x600 + 8 * entry) (w.toNat % 2 ^ 32)
    s.stage (pgRouter p) (0x604 + 8 * entry) (w.toNat / 2 ^ 32)
  | none => s

/-- Group and sink entries of the old configuration that a new one does not name are clear. -/
def State.clearTables (s : State) : State :=
  (s.regs.filter fun e => decide (regKey 3072 0 ≤ e.1) && decide (e.1 < regKey 5952 0) && decide (0x400 ≤ e.1 % 4096)
    && decide (e.1 % 4096 < 0x800)).foldl (fun s e => s.stage (e.1 / 4096) (e.1 % 4096) 0) s

/-- The content of an image in the shadow copies of the combs that hold it. -/
def State.stageImage (s : State) (im : Image) (map : List Nat) : State :=
  let ph := fun p => nth p map p
  let s := im.pages.foldl (fun s e => s.stagePage (ph e.1) e.2) s
  let s := im.mcast.foldl (fun s e => s.stageMcast (ph e.1) e.2.1 e.2.2) s
  im.sinks.foldl (fun s e => s.stageSink (ph e.1) e.2.1 e.2.2.1 e.2.2.2) s

/-- The Keeper commits a page for the switch: PENDING, or refused by its agreement check (R171, R226, R303, R361, R682). -/
def State.commitPage (s : State) (p : Nat) : State := if s.tileAgrees p then s.keeperCommit p else s.keeperRefused p

/-- Every configuration page of the live combs is committed (R304, R379). -/
def State.commitCombs (s : State) : State :=
  s.liveCombs.foldl (fun s c => ((List.range 120).map (mkSite c)).foldl (fun s k =>
    let s := s.commitPage (pgRouter k)
    if siteKind k == .s || (s.stagedOf k).isEmpty then s else s.commitPage k) s) s

/-- The remap commits that take effect with the switch, as the next epoch's tables see them. -/
def State.nextRemaps (s : State) : Sparse Word :=
  ((List.range 24).filter fun c => (s.page (pgDfm c)).pending).foldl
    (fun r c => applyWords r (s.stagedOf (pgDfm c))) s.regs

/-- No shadow copy is in use (R253). -/
def State.shadowFree (s : State) : Bool :=
  s.liveCombs.all fun c => (List.range 120).all fun i => s.copyState (mkSite c i) == 0

/-- The code stores of an image's combs by a comb map (R379, step 1). -/
def Image.codeStores (im : Image) (map : List Nat) : Sparse (List DWord) :=
  (List.range 24).foldl (fun m p => if (im.codeOf p).isEmpty then m else sset (fun _ => []) m (nth p map p) (im.codeOf p)) []

/-- The switch that task dispatch makes next: the Keeper's own first, then the first record in its queue. -/
def State.nextSwitch (s : State) : Option SwitchRec :=
  match s.prog.ahead with
  | r :: _ => some r
  | [] => s.prog.dq.findSome? fun r => match r with
    | .switch x => some x
    | .launch _ => none

/-- The shadow copies are written: routes from the present defect map, then the image and the code stores. The router pages whose commit
is refused hold the switch back (R254). -/
def State.loadShadow (s : State) (w : Switching) (im : Option Image) : State :=
  let next := ({ s with regs := s.nextRemaps } : State).distSnap (s.regN pgDfmDev 0x048 + 1)
  let s : State := { s with die := { s.die with routesNext := next, routeLinksNext := s.die.linkOff } }
  let s := s.clearTables
  let map := (s.slot w.sw.slot).next
  let s := match im with
    | some im => s.stageImage im map
    | none => s
  let s := s.commitCombs
  let left := (s.liveCombs.flatMap fun c => (List.range 120).map fun k => pgRouter (mkSite c k)).filter fun p => !(s.page p).pending
  let w : Switching := { w with loaded := true, left }
  { s with prog := { s.prog with
      cur := s.prog.cur.map fun _ => w, pre := if s.prog.cur.isSome then none else some w
      codeNext := im.elim [] fun im => im.codeStores map } }

/-- A CRC failure abandons the switch and empties the slot (R380). -/
def State.switchCrc (s : State) (w : Switching) : State :=
  let s := s.log (pgKpr 0) 0x1502 w.sw.slot 0 0 0
  let s := s.updSlot w.sw.slot fun _ => slotDflt 0
  let s := s.record w.sw.done (doneRec 2 0 0xFF 0 0 0 0)
  if s.prog.cur.isSome then { s with prog := { s.prog with cur := none } }
  else match s.prog.ahead with
    | _ :: t => { s with prog := { s.prog with ahead := t } }
    | [] => { s with prog := { s.prog with dq := s.prog.dq.erase (.switch w.sw) } }

/-- Step 1 of R379 for a switch, once the shadow copies are free in every comb: the image's CRC is verified, the copies are written. -/
def State.stepOne (s : State) (w : Switching) : State :=
  if !s.shadowFree then s
  else if w.sw.slot = nullSlot then s.loadShadow w none
  else
    let x := s.slot w.sw.slot
    match x.img with
    | none => s.switchCrc w
    | some im =>
      let s := s.noteRead x.addr im.size none
      match s.dram x.addr im.size with
      | none => s.switchCrc w
      | some b =>
        if headBad b || crcBad b then s.switchCrc w
        else (s.updSlot w.sw.slot fun y => { y with img := some (imageOf b) }).loadShadow w (some (imageOf b))

/-- SWITCH_SHADOW_LOAD (R364, R379, R380): for the switch under way, or for the next one as soon as its record is queued. -/
def execSwitchShadowLoad (s : State) : Res :=
  match s.prog.cur, s.nextSwitch with
  | some w, _ => .next (if w.loaded then s else s.stepOne w)
  | none, some r =>
    if s.switchRule r ≠ 0 || s.prog.pre.any fun w => decide (w.sw = r) then .next s
    else .next (s.dropShadow.stepOne { sw := r, loaded := false, since := s.dev.chrono, combs := [], left := [] })
  | none, none => .next s

/-! ### A comb switches (R215, R291 to R293, R330, R352, R743, R785, R869) -/

/-- Every tile port of a comb may switch under DRAIN. -/
def State.combDrained (s : State) (c : Nat) : Bool :=
  ((List.range 120).map (mkSite c)).all fun k =>
    s.physHole k || (s.sinkDrained k && (siteKind k != .w || s.wDrained k) && (siteKind k != .b || s.bDrained k))

/-- The staged words of a tile's ST registers. -/
def stOffsets (p : Nat) : List Nat :=
  ((pageClass p).rows.filter fun r => r.acc == .st).flatMap fun r => (List.range ((r.hi - r.lo) / 4 + 1)).map fun i => r.lo + 4 * i

/-- The new serving page takes the active ST values of the former one (R869). -/
def State.carryPage (s : State) (old new : Nat) : State :=
  (stOffsets old).foldl (fun s o => s.setReg new o (s.regN old o)) s

/-- The state of a tile, or for a PARKED one the state that it had and takes again (R779). -/
def TileSt.resting (t : TileSt) : TileState := if t.st == .parked then t.before else t.st

/-- A tile's state changes; that of a PARKED tile is the one it takes when its comb leaves PARKED (R779). -/
def State.restAs (s : State) (k : Nat) (t : TileState) : State :=
  if (s.tile k).st == .parked then s.updTile k fun x => { x with before := t } else s.tileTo k t

/-- A logical index passes from one site to another at a switch: values are carried, the new site enters RUN, the former
one, if it was in RUN, becomes a free spare, or enters QUARANTINE for its in-field test (R785, R828, R869). -/
def State.handOver (s : State) (old new : Option Nat) : State :=
  let s := match old, new with
    | some o, some n => s.carryPage o n
    | _, _ => s
  let s := match old with
    | some o =>
      if (s.tile o).resting != .run then s
      else if (s.tile o).rotating then s.restAs o .quarantine
      else (s.restAs o .benched).updTile o fun t => { t with bench := [.spare] }
    | none => s
  match new with
  | some n =>
    let st := (s.tile n).resting
    if st == .quarantine || (st == .benched && (s.tile n).bench == [.spare]) then
      (s.restAs n .run).updTile n fun t => { t with bench := [], home := none, rotating := false }
    else s
  | none => s

/-- The comb on a side of another in the comb grid, by gateway: N, E, S, W (R48). -/
def combBeside (c dir : Nat) : Option Nat :=
  (List.range 24).find? fun d => combDist c d == 1 && (match dir with
    | 0 => combRow d + 1 == combRow c
    | 1 => combCol d == combCol c + 1
    | 2 => combRow d == combRow c + 1
    | _ => combCol d + 1 == combCol c)

/-- The hops from a comb's nearest M site to the next comb, by the distance table's gateway entries (R47 to R49). -/
def State.gateHops (s : State) (c dir : Nat) : Nat :=
  minNat 255 ((logicals .m).map fun l => s.distEntry s.die.distNew c l (108 + dir) % 256)

/-- The distances of all combs from one, over gateway entries of the distance table (R44, log 99). -/
def State.combHops (s : State) (c : Nat) : List Nat :=
  let edges := (List.range 24).flatMap fun x => (List.range 4).filterMap fun d =>
    (combBeside x d).map fun y => (x, y, s.gateHops x d)
  (List.range 24).foldl (fun l _ => edges.foldl (fun l e =>
    if e.2.2 = 255 then l else setNth l e.2.1 (min (nth 0 l e.2.1) (nth 0 l e.1 + e.2.2))) l)
    ((List.range 24).map fun x => if x = c then 0 else 2 ^ 20)

/-- One licence-benched M tile returns to RUN when an M site becomes a hole: of the same comb, else of the nearest by the distance
table, the lower comb at a tie. It passes through QUARANTINE in that commit (R44, R779, log 99). -/
def State.licenceReturn (s : State) (comb : Nat) : State :=
  let cand := fun c => ((logicals .m).filterMap fun l => s.serving c l).find? fun p =>
    (s.tile p).st == .benched && (s.tile p).bench == [.licence] && decide (s.baseN ≤ s.fmaxOf p)
  let d := s.combHops comb
  match leastBy (fun c => nth 0 d c * 32 + c) ((List.range 24).filter fun c => !s.combOff c && (cand c).isSome) with
  | none => s
  | some c => match cand c with
    | none => s
    | some p => (s.toQuarantine p).tileTo p .run

/-- M tiles in service beyond the licence's count, once a hole is filled again, are benched: the highest comb first, and in it the
highest logical index (R43). -/
def State.licRest (s : State) : State :=
  let sites := (List.range 24).reverse.flatMap fun c => (logicals .m).reverse.map fun l => (c, l)
  let holes := (sites.filter fun x => s.logHole x.1 x.2).length
  let held := (sites.filter fun x => match s.serving x.1 x.2 with
    | some p => !s.logHole x.1 x.2 && (s.tile p).resting == .benched && (s.tile p).bench == [.licence]
    | none => false).length
  let can := sites.filterMap fun x => if s.combOff x.1 then none else (s.serving x.1 x.2).filter s.inRun
  (can.take (1536 - s.licM - holes - held)).foldl (fun s p =>
    (s.tileTo p .benched).updTile p fun t => { t with bench := [.licence] }) s

/-- The remap commit of a comb takes effect (R63, R785). -/
def State.applyRemap (s : State) (c : Nat) : State :=
  if !(s.page (pgDfm c)).pending then s
  else
    let before := (List.range 108).map fun l => s.serving c l
    let words := (List.range 108).map fun l => s.remap c l
    let s := s.applyPage (pgDfm c)
    let s := if (List.range 108).any fun l => s.remap c l != nth 0 words l then s.wrapReg (pgDfm c) 0x048 else s
    let s := (List.range 108).foldl (fun s l =>
      if nth none before l = s.serving c l then s else s.handOver (nth none before l) (s.serving c l)) s
    let s := (s.die.reinstStaged.filter fun x => siteComb x.1 == c).foldl (fun s x =>
      if s.serving c x.2 == some x.1 && (s.tile x.1).st == .quarantine then
        (s.tileTo x.1 .run).updTile x.1 fun t => { t with bench := [], home := none }
      else s) s
    let s : State := { s with die := { s.die with
      reinst := s.die.reinst.filter fun x => siteComb x.1 != c || !s.die.reinstStaged.contains x
      reinstStaged := s.die.reinstStaged.filter fun x => siteComb x.1 != c } }
    let lost := (logicals .m).filter fun l => (nth none before l).isSome && (s.serving c l).isNone
    (lost.foldl (fun s _ => s.licenceReturn c) s).licRest

/-- A comb leaves PARKED: its tiles return to the state they held (R743, R779). -/
def State.unpark (s : State) (c : Nat) : State :=
  let s := s.updComb c fun x => { x with st := .run, parkCause := 0, thermN := 33, cool := 0, coolIv := 0, throttled := false }
  let s := ((List.range 120).map (mkSite c)).foldl (fun s k =>
    if (s.tile k).st == .parked then s.tileTo k (s.tile k).before else s) s
  (s.flag pgThm 2).log (pgKpr 0) 0x1403 c (s.comb c).temp 0 0

/-- A comb parked for heat has been cool for 100 ms (R743). -/
def State.mayUnpark (s : State) (c : Nat) : Bool :=
  let x := s.comb c
  x.st == .parked && x.parkCause == 1 && x.cool != 0 && decide (x.cool + 100000000 ≤ s.dev.chrono)

/-- The DATA rows of a comb are written (R379, step 4); a comb that stays PARKED performs no access (R349, R350). -/
def State.writeData (s : State) (c : Nat) (im : Image) (map : List Nat) : State :=
  im.data.foldl (fun s e =>
    if nth e.1 map e.1 ≠ c then s
    else
      let (kl, row, n, bs) := e.2
      match s.serving c (kl / 4) with
      | none => s
      | some k =>
        if kl % 4 = 1 then
          (List.range n).foldl (fun s i =>
            let r := (row + i) % bufRows
            s.bWriteRow k r 0xFFFF ((List.range 16).map fun w => wordForm (leAt bs (128 * i + 8 * w) 8) r false)) s
        else s.sstPut k (128 * row) bs) s

/-- A comb that the new image does not use holds the null configuration: the staged registers of its tile pages at their reset values
(R362). Without an image the combs keep what they hold (log 20). -/
def State.nullConfig (s : State) (c n : Nat) : State :=
  let x := s.slot n
  match x.img with
  | none => s
  | some im =>
    if (setBits 24 im.footprint).any fun p => nth p x.next p == c then s
    else { s with regs := s.regs.filter fun e =>
      let p := e.1 / 4096
      !(decide (p < 2880) && siteComb p == c && isStaged (pageClass p) (e.1 % 4096)) }

/-- Every live comb has switched: the switch is complete. -/
def State.finishSwitch (s : State) (w : Switching) : State :=
  let n := w.sw.slot
  let s := if n = nullSlot then s
    else
      let s := match s.activeSlot with
        | some o => if o = n then s else s.updSlot o fun x => { x with st := .installed }
        | none => s
      s.updSlot n fun x => { x with st := .active, map := x.next }
  let s : State := { s with
    prog := { s.prog with cur := none, switches := s.prog.switches + 1, armed := [] }
    die := { s.die with
      routesPrev := s.die.routes, routes := s.die.routesNext, routeLinksPrev := s.die.routeLinks, routeLinks := s.die.routeLinksNext } }
  let s := s.record w.sw.done (doneRec 0 0 0xFF 0 0 0 0)
  let l := s.die.remapWait
  let s : State := { s with die := { s.die with remapWait := [] } }
  let s := l.foldl (fun s e => s.stageChosen e.1 e.2.1 e.2.2.toNat) s
  if !l.isEmpty && !s.switchQueued then s.queueSwitch false else s

/-- One comb moves to the next epoch. The tile pages of a comb that stays PARKED keep their commits for the switch at which it
leaves (R874). -/
def State.switchComb (s : State) (w : Switching) (c cyc : Nat) (flush : Bool) : State :=
  let old := s.epochOf c
  let sites := (List.range 120).map (mkSite c)
  let s := sites.foldl (fun s k => if siteKind k == .b then s.bRun k cyc else s) s
  let w : Switching := { w with combs := w.combs ++ [c] }
  let s : State := { s with prog := { s.prog with
    cur := some w, halted := s.prog.halted.filter (· != c)
    code := sset (fun _ => []) s.prog.code c (sget (fun _ => []) s.prog.codeNext c)
    flushed := (s.prog.flushed.filter (· != c)) ++ (if flush then [c] else []) } }
  let leaves := !flush && s.mayUnpark c
  let stays := s.combParked c && !leaves
  let shut := s.combClosed c && !leaves
  let s := if stays then s else sites.foldl (fun s k => if (s.page k).pending then s.applyPage k else s) (s.nullConfig c w.sw.slot)
  let s := sites.foldl (fun s k => if siteKind k == .b then s.bSwitch k old cyc flush else s) s
  let s := s.applyRemap c
  let s := if shut then s else sites.foldl (fun s k => if siteKind k == .b then s.bWindows k else s) s
  let s := (if leaves then s.unpark c else s).distWrite
  let s := sites.foldl (fun s k => s.rSwitch k old flush) s
  let s := sites.foldl (fun s k => if siteKind k == .w then s.wSwitch k cyc else s) s
  let s := match (if shut then none else (s.slot w.sw.slot).img) with
    | some im => s.writeData c im (s.slot w.sw.slot).next
    | none => s
  let s := s.review
  if s.liveCombs.all w.combs.contains then s.finishSwitch w else s

/-- A comb may switch: every router page of the device has committed its tables, nothing of the old epoch runs, and it has not switched
(R254, R379). -/
def State.switchReady (s : State) (w : Switching) (c : Nat) : Bool :=
  w.loaded && (w.left.all fun p => (s.page p).pending) && !s.combOff c && !w.combs.contains c && s.prog.launches.isEmpty

/-- COMB_EPOCH_SWITCH (R378, R379). In DRAIN mode the tiles of the comb that have ended their use of the old epoch's flows first send their
markers (R291); the comb switches once every tile port may. -/
def execCombEpochSwitch (comb cyc : Nat) (s : State) : Res :=
  onUnit (decide (comb < 24)) (fun s =>
    match s.prog.cur with
    | none => s
    | some w =>
      if !s.switchReady w comb then s
      else if w.sw.flush then s.switchComb w comb cyc true
      else
        let s := ((List.range 120).map (mkSite comb)).foldl (fun s k =>
          (if siteKind k == .w then s.wRun k cyc else s).sendMarkers k) s
        if s.combDrained comb then s.switchComb w comb cyc false else s) s

/-- EPOCH_DRAIN_TIMEOUT (R381). -/
def execEpochDrainTimeout (comb cyc : Nat) (s : State) : Res :=
  onUnit (decide (comb < 24)) (fun s =>
    match s.prog.cur with
    | none => s
    | some w =>
      if s.switchReady w comb && !w.sw.flush && w.sw.limit != 0 && decide (w.since + 1000 * w.sw.limit ≤ s.dev.chrono) then
        (s.log (pgCmb comb) 0x1503 comb (s.epochOf comb) 0 0).switchComb w comb cyc true
      else s) s

end Sys2Proof.Machine
end

