-- ==== Sys2Proof/Machine/Clocks.lean ====
section
/-! DEFINITION. Clocks, brake, Sprint, gnomons, temperature, isolation, power and the Ledger (chapter 13). -/

namespace Sys2Proof.Machine

/-! ### Targets (R698, R699) -/

/-- fmax_min of a comb (R699); with no tile in RUN it limits nothing. -/
def State.fmaxMin (s : State) (c : Nat) : Nat :=
  minNat 144 ((((List.range 120).map (mkSite c)).filter s.inRun).map s.fmaxOf)

/-- The combs across the crossings of a comb (R16). -/
def combNbrs (c : Nat) : List Nat := (List.range 24).filter fun b => combDist c b == 1

/-- The frequency code that a limit register leaves (R746, R750). -/
def State.ceilOf (s : State) (c : Nat) : Nat := min (s.limitN pgClk 0x04C) (s.limitN (pgCmb c) 0x048)

/-- `comb_target` without the drag. -/
def State.rawTarget (s : State) (held : Bool) (c : Nat) : Nat :=
  let x := s.comb c
  if x.st == .off then 0
  else if x.st == .parked || x.parking then 33
  else
    let n := if !s.steady && held then s.sprintN else s.baseN
    let n := min n (min (s.ceilOf c) (s.fmaxMin c))
    let n := min n (min x.thermN (min x.gnomN s.clk.capN))
    max (if s.clk.brake then min n s.brakeN else n) 33

/-- One pass of the drag over every crossing. -/
def dragPass (t : List Nat) : List Nat :=
  (List.range 24).map fun a => (combNbrs a).foldl (fun v b => if nth 0 t b = 0 then v else min v (4 * nth 0 t b)) (nth 0 t a)

def drag : Nat → List Nat → List Nat
  | 0, t => t
  | n + 1, t => drag n (dragPass t)

/-- The target codes of all combs (R698). -/
def State.targets (s : State) (held : Bool) : List Nat := drag 24 ((List.range 24).map (s.rawTarget held))

/-! ### STEADY_DEPART (R722) -/

/-- The code an input holds a comb to, by SOURCE of CMB_LAST_CHANGE: a ceiling, the thermal loop, the forced cap, the brake. -/
def State.departCode (s : State) (c cause : Nat) : Nat :=
  match cause with
  | 0 => s.ceilOf c
  | 2 => (s.comb c).thermN
  | 3 => s.clk.capN
  | _ => if s.clk.brake then s.brakeN else 144

def State.departOne (s : State) (c cause : Nat) : State :=
  let v := s.departCode c cause
  let known := (s.comb c).departed.contains cause
  if v < s.baseN then
    if known then s
    else (s.updComb c fun x => { x with departed := x.departed ++ [cause] }).report pgClk 2 0x1303 c cause v
  else s.updComb c fun x => { x with departed := x.departed.filter (· != cause) }

def State.departs (s : State) : State :=
  (List.range 24).foldl (fun s c =>
    if s.steady && !s.combOff c && !s.combClosed c then [0, 2, 3, 5].foldl (fun s k => s.departOne c k) s
    else s.updComb c fun x => { x with departed := [] }) s

/-! ### Scheduling changes (R705 to R712) -/

/-- CMB_LAST_CHANGE (R754). -/
def State.lastChange (s : State) (c src res sync fr to_ : Nat) : State :=
  s.setReg (pgCmb c) 0x068 (src * 2 ^ 29 + res * 2 ^ 27 + sync * 2 ^ 26 + fr % 256 * 256 + to_ % 256)

/-- The RESULT of a comb's last change. -/
def State.changeResult (s : State) (c res : Nat) : State :=
  s.setReg (pgCmb c) 0x068 (putBits (s.regN (pgCmb c) 0x068) 28 27 res)

/-- A comb has a change under way, or one that a merged change will make (R708). -/
def State.combMoves (s : State) (c : Nat) : Bool :=
  (s.comb c).localCh.isSome || (s.clk.sync.any fun ch => ch.moves.any fun m => m.1 == c)
    || (s.clk.again.isSome && (s.comb c).nom != (s.comb c).tgt)

/-- The pages whose commit waited for changes settle once each comb involved has switched or recorded its result (R712). -/
def State.settleWaiting (s : State) : State :=
  let (l, rest) := s.clk.waiting.partition fun x => !(x.2.any s.combMoves)
  let s : State := { s with clk := { s.clk with waiting := rest } }
  l.foldl (fun s x => s.updPage x.1 fun g => { g with pending := false, results := settle g.results }) s

/-- The combs whose targets differ in two states. -/
def State.retargeted (s t : State) : List Nat :=
  let a := s.targets s.clk.held
  let b := t.targets t.clk.held
  (List.range 24).filter fun c => nth 0 a c != nth 0 b c

/-- A commit that has taken effect stays PENDING until the combs whose targets it moved from those of `old` are done (R712). -/
def State.holdCommit (s old : State) (p : Nat) : State :=
  let g := old.page p
  let s := s.updPage p fun x => { x with pending := true, results := g.results }
  { s with clk := { s.clk with waiting := s.clk.waiting.filter (fun x => x.1 != p) ++ [(p, old.retargeted s)] } }

/-- A comb's local change that has not switched is cancelled (R709). -/
def State.cancelLocal (s : State) (c : Nat) : State :=
  if (s.comb c).localCh.isSome then (s.updComb c fun x => { x with localCh := none }).changeResult c 3 else s

/-- T of a change decided at count D (R707). -/
def syncCount (d : Nat) : Nat := (d + 25000 + 1023) / 1024 * 1024

/-- Schedule a synchronised change decided at a count. -/
def State.scheduleSync (s : State) (d src : Nat) (moves : List (Nat × Nat)) (grant : Bool) : State :=
  let near := moves.flatMap fun m => m.1 :: combNbrs m.1
  let s := near.foldl State.cancelLocal s
  let s := moves.foldl (fun s m => s.lastChange m.1 src 1 1 (s.comb m.1).nom m.2) s
  let falls := moves.any fun m => decide (m.2 ≤ (s.comb m.1).nom)
  let ch : SyncChange := { at_ := syncCount d, moves := moves.map fun m => (m.1, m.2, src), fell := !falls, failed := [], grant }
  { s with clk := { s.clk with sync := some ch } }

/-- Combs that face no seam bridge (R705). -/
def noSeam (c : Nat) : Bool := c == 0 || c == 5 || c == 18 || c == 23

/-- The change that the targets ask for (R698, R705 to R709): local, synchronised, or merged into the next one. `d` is the
count of the decision, `force` that the change is synchronised whatever it moves. -/
def State.schedule (s : State) (d src : Nat) (force grant : Bool) : State :=
  let ts := s.targets s.clk.held
  let s := (List.range 24).foldl (fun s c => s.updComb c fun x => { x with tgt := nth 0 ts c }) s
  let s := s.departs
  let want := fun (c : Nat) =>
    let x := s.comb c
    x.st != .off && (x.parking || (match x.localCh with
      | some l => l.1 != x.tgt
      | none => x.nom != x.tgt))
  let moves := ((List.range 24).filter want).map fun c => (c, (s.comb c).tgt)
  match s.clk.sync with
  | some ch =>
    let goal := fun (c : Nat) => match ch.moves.find? fun m => m.1 == c with
      | some m => m.2.1
      | none => (s.comb c).nom
    if moves.any (fun m => goal m.1 != m.2) || ((List.range 24).any fun c => !s.combOff c && goal c != (s.comb c).tgt) then
      { s with clk := { s.clk with again := match s.clk.again with
        | some (5, n) => some (5, n)
        | _ => some (src, d) } }
    else s
  | none =>
    match moves with
    | [] => s
    | [m] =>
      if noSeam m.1 && !force && src != 4 && src != 5 && !(s.comb m.1).parking then
        (s.updComb m.1 fun x => { x with localCh := some (m.2, src) }).lastChange m.1 src 1 0 (s.comb m.1).nom m.2
      else s.scheduleSync d src moves grant
    | _ => s.scheduleSync d src moves grant

/-- Recompute the targets for a source and settle commits that moved nothing. -/
def State.retarget (s : State) (src : Nat) (force : Bool) : State :=
  (s.schedule s.dev.chrono src force false).settleWaiting

/-- COMB_TARGET (R698). -/
def execCombTarget (s : State) : Res := .next (s.whenB (s.dev.running && s.live) fun s => s.retarget 0 false)

/-! ### Switching (R287, R704, R706, R707, R711) -/

/-- Two codes keep 4:1 (R286). -/
def ratioOk (a b : Nat) : Bool := decide (a ≤ 4 * b) && decide (b ≤ 4 * a)

/-- The code a comb runs at once the moves of a list have switched. -/
def State.codeAfter (s : State) (l : List (Nat × Nat × Nat)) (c : Nat) : Nat :=
  match l.find? fun m => m.1 == c with
  | some m => m.2.1
  | none => (s.comb c).nom

/-- The neighbours against which a move breaks 4:1. -/
def State.breaks (s : State) (l : List (Nat × Nat × Nat)) (m : Nat × Nat × Nat) : List Nat :=
  (combNbrs m.1).filter fun b => !s.combOff b && !ratioOk m.2.1 (s.codeAfter l b)

/-- The moves of a list that may switch together. -/
def State.mayMove (s : State) : Nat → List (Nat × Nat × Nat) → List (Nat × Nat × Nat)
  | 0, l => l
  | n + 1, l =>
    let l' := l.filter fun m => (s.breaks l m).isEmpty
    if l'.length = l.length then l else State.mayMove s n l'

/-- A refused change is reported at each crossing it would break, from the west or north side (R287). -/
def State.reportXing (s : State) (c code b : Nat) : State :=
  let nb := (s.comb b).nom
  ((List.range 120).map (mkSite c)).foldl (fun s k => [1, 2, 3, 4].foldl (fun s p =>
    match neighbour k p with
    | none => s
    | some n =>
      if siteComb n ≠ b then s
      else
        let mine := p == 2 || p == 3
        let own := if mine then code else nb
        let far := if mine then nb else code
        match bridgeAt k p with
        | some br => s.report (pgSeam br) 0 0x0601 br own far
        | none => s.report (pgRouter (if mine then k else n)) 8 0x050A (if mine then p else opposite p) own far) s) s

/-- A move that does not happen. -/
def State.refuseMove (s : State) (l : List (Nat × Nat × Nat)) (m : Nat × Nat × Nat) : State :=
  (s.breaks l m).foldl (fun s b => s.reportXing m.1 m.2.1 b) (s.changeResult m.1 2)

/-- A comb switches to its other ADPLL (R704). -/
def State.doSwitch (s : State) (m : Nat × Nat × Nat) : State :=
  let s := if (s.comb m.1).nom = m.2.1 then s
    else (s.updComb m.1 fun x => { x with nom := m.2.1, adpll := 1 - x.adpll }).wrapReg (pgCmb m.1) 0x064
  s.changeResult m.1 0

/-- LOCAL_CHANGE_SWITCH (R287, R706). -/
def execLocalChangeSwitch (comb : Nat) (s : State) : Res :=
  onUnit (decide (comb < 24)) (fun s =>
    match (s.comb comb).localCh with
    | none => s
    | some (code, src) =>
      let m := (comb, code, src)
      let s := s.updComb comb fun x => { x with localCh := none }
      (if (s.breaks [m] m).isEmpty then s.doSwitch m else s.refuseMove [m] m).settleWaiting) s

/-- The staged and committed entries of units that were to return to a comb are discarded (R786). -/
def State.dropReturns (s : State) (c : Nat) : State :=
  let p := pgDfm c
  let offs := (s.die.reinstStaged.filter fun x => siteComb x.1 == c).map fun x => regKey p (0x100 + 4 * x.2)
  if offs.isEmpty then s
  else
    let s : State := { s with staged := s.staged.filter fun e => !offs.contains e.1 }
    let s := if (s.stagedOf p).isEmpty then (s.dropStaged p).updPage p fun g => { g with pending := false } else s
    s.dropShadow

/-- A comb is PARKED from the falling count of its change (R742, R779, R786): a DRAIN switch carries the new routes (R383). -/
def State.toParked (s : State) (c : Nat) : State :=
  let s := (s.dropReturns c).updComb c fun x => { x with st := .parked, parking := false }
  let s := ((List.range 120).map (mkSite c)).foldl (fun s k =>
    let t := (s.tile k).st
    if t == .run || t == .benched || t == .fenced || t == .quarantine then
      let keep := if (s.die.reinst.any fun x => x.1 == k) then TileState.quarantine else t
      (s.tileTo k .parked).updTile k fun x => { x with before := keep }
    else s) s
  let s : State := { s with die := { s.die with
    standIns := s.die.standIns.filter fun x => x.comb != c
    reinst := s.die.reinst.filter fun x => siteComb x.1 != c
    reinstStaged := s.die.reinstStaged.filter fun x => siteComb x.1 != c } }
  if s.switchQueued then s else s.queueSwitch false

/-- The combs that one change parks: one commit, and one step of DFM_DIST_GEN (R50, R742). -/
def State.parkAll (s : State) (l : List Nat) : State :=
  if l.isEmpty then s else (l.foldl State.toParked s).distWrite

/-- The pending change is complete: the count, a Sprint grant, and the change merged meanwhile (R708, R725). -/
def State.syncDone (s : State) (ch : SyncChange) : State :=
  let s := s.wrapReg pgClk 0x068
  let again := s.clk.again
  let s : State := { s with clk := { s.clk with
    sync := none, again := none, sprint := if ch.grant && s.clk.held then 2 else s.clk.sprint } }
  match again with
  | some (src, d) => (s.schedule (if src = 5 then d else s.dev.chrono) src false (s.clk.held && s.clk.sprint == 1)).settleWaiting
  | none => s.settleWaiting

/-- The moves of a change that fall, or that rise, and take part. -/
def State.movesOf (s : State) (ch : SyncChange) (rise : Bool) : List (Nat × Nat × Nat) :=
  ch.moves.filter fun m => !s.combOff m.1 && !ch.failed.contains m.1 && decide ((s.comb m.1).nom < m.2.1) == rise

/-- Make the moves that keep 4:1 and refuse the others. -/
def State.makeMoves (s : State) (l : List (Nat × Nat × Nat)) : State :=
  let ok := s.mayMove 24 l
  let bad := l.filter fun m => !ok.contains m
  let s := bad.foldl (fun s m => s.refuseMove (m :: ok) m) s
  ok.foldl State.doSwitch s

/-- SYNC_FALL_SWITCH (R707). -/
def execSyncFallSwitch (s : State) : Res :=
  match s.clk.sync with
  | none => .next s
  | some ch =>
    if ch.fell ∨ s.dev.chrono < ch.at_ then .next s
    else
      let falls := s.movesOf ch false
      let rises := s.movesOf ch true
      let s := s.makeMoves falls
      let s := s.parkAll ((falls.filter fun m => (s.comb m.1).parking && (s.comb m.1).nom == m.2.1).map (·.1))
      if rises.isEmpty then .next (s.syncDone ch)
      else .next { s with clk := { s.clk with sync := some { ch with fell := true, moves := rises } } }

/-- SYNC_RISE_SWITCH (R707, R711). -/
def execSyncRiseSwitch (s : State) : Res :=
  match s.clk.sync with
  | none => .next s
  | some ch =>
    if !ch.fell ∨ s.dev.chrono < ch.at_ + 2048 then .next s
    else .next ((s.makeMoves (s.movesOf ch true)).syncDone ch)

/-- CLK_LOCK_FAIL (R711): the idle ADPLL of a comb with a change under way did not lock. -/
def execClkLockFail (comb : Nat) (s : State) : Res :=
  onUnit (decide (comb < 24)) (fun s =>
    let x := s.comb comb
    let rep := fun (s : State) (code : Nat) =>
      ((s.changeResult comb 2).flag (pgCmb comb) 1).report pgClk 1 0x1302 comb (1 - x.adpll) code
    match x.localCh, s.clk.sync with
    | some l, _ => (rep (s.updComb comb fun x => { x with localCh := none }) l.1).settleWaiting
    | none, some ch =>
      match ch.moves.find? fun m => m.1 == comb with
      | some m =>
        if ch.failed.contains comb then s
        else rep { s with clk := { s.clk with sync := some { ch with failed := ch.failed ++ [comb] } } } m.2.1
      | none => s
    | none, none => s) s

/-! ### Sprint and the brake (R722 to R725, R735, R736) -/

/-- A request for Sprint (R725). -/
def State.sprintRequest (s : State) : State :=
  let refuse := fun (r : Nat) => ({ s with clk := { s.clk with sprint := 3, reason := r } } : State)
  if s.steady then refuse 1
  else if s.clk.brake then refuse 2
  else if s.clk.capN ≠ 144 then refuse 3
  else
    let ts := s.targets true
    if (List.range 24).any fun c => decide ((s.comb c).nom < nth 0 ts c) then
      let s : State := { s with clk := { s.clk with held := true, sprint := 1, reason := 0 } }
      (s.incReg pgClk 0x064).schedule s.dev.chrono 4 true true
    else refuse 4

/-- Sprint is released (R725). -/
def State.sprintRelease (s : State) : State :=
  if s.clk.held then
    ({ s with clk := { s.clk with held := false, sprint := 0 } } : State).retarget 4 true
  else s

/-- The brake is asserted (R710, R735). -/
def State.brakeOn (s : State) : State :=
  s.whenB (!s.clk.brake) fun s =>
    let now := s.dev.chrono
    let lowered := ((List.range 24).filter fun c => !s.combOff c && decide (s.brakeN < (s.comb c).nom)).map fun c => (c, s.brakeN)
    let held := s.clk.held
    let s : State := { s with
      clk := { s.clk with brake := true, held := false, sprint := if held then 0 else s.clk.sprint } }
    let s := (s.report pgPwr 1 0x1202 lowered.length 0 0).departs
    match s.clk.sync with
    | some ch =>
      if now < ch.at_ then
        let s := ch.moves.foldl (fun s m => s.changeResult m.1 3) s
        let s : State := { s with clk := { s.clk with sync := none, again := none } }
        if lowered.isEmpty then s.retarget 0 true
        else
          let s := s.scheduleSync now 5 lowered false
          { s with clk := { s.clk with again := some (0, now) } }
      else { s with clk := { s.clk with again := some (5, now) } }
    | none =>
      if lowered.isEmpty then (if held then s.retarget 4 true else s)
      else
        let s := s.scheduleSync now 5 lowered false
        if held then { s with clk := { s.clk with again := some (4, now) } } else s

/-- PWR_BRAKE: PWR_BRAKE_N is asserted (R735); before the start instant only the pin changes. -/
def execPwrBrake (s : State) : Res :=
  let s : State := { s with dev := { s.dev with brakeIn := true } }
  .next (s.whenB s.dev.running State.brakeOn)

/-- BRAKE_RELEASE (R736). -/
def execBrakeRelease (s : State) : Res :=
  let s : State := { s with dev := { s.dev with brakeIn := false } }
  .next (s.whenB (s.clk.brake && s.dev.keeper) fun s =>
    ({ s with clk := { s.clk with brake := false } } : State).retarget 5 true)

/-! ### Tile fmax (R720, R721, R724) -/

/-- Bench every tile in service below BASE_N (R720). -/
def State.benchFmax (s : State) : State :=
  let slow := fun k => s.inRun k && decide (s.fmaxOf k < s.baseN)
  let serving := (List.range 24).flatMap fun c => (List.range 108).filterMap fun l => (s.serving c l).filter slow
  (serving ++ (List.range 2880).filter fun k => slow k && !serving.contains k).foldl (fun s k =>
    (s.leaveRun k .benched).updTile k fun t => { t with bench := [.fmax] }) s

/-- Tiles benched only for fmax that meet BASE_N return through QUARANTINE (R721). -/
def State.releaseFmax (s : State) : State :=
  ((List.range 2880).filter fun k =>
    (s.tile k).st == .benched && (s.tile k).bench == [.fmax] && decide (s.baseN ≤ s.fmaxOf k)).foldl State.toQuarantine s

/-- A commit that changes MODE or BASE_N waits for a tick without a step in flight (R724). -/
def State.clkModeStaged (s : State) : Bool :=
  bits (s.stgN pgClk 0x048) 31 16 != bits (s.regN pgClk 0x048) 31 16

/-- The CLK_ page's commit takes effect (R720 to R724). -/
def State.applyClkCfg (s : State) : State :=
  let base := s.baseN
  let was := s.steady
  let moved := s.clkModeStaged
  let old := s
  let s := s.applyPage pgClk
  let s : State := if was = s.steady then s
    else { s with clk := { s.clk with
      capN := if s.steady then 144 else s.clk.capN, held := false, sprint := 0, overIv := 0, underIv := 0 } }
  let s := if was = s.steady then s
    else s.setReg pgPwr 0x040 (putBits (putBits (s.regN pgPwr 0x040) 30 30 (b2n (s.clk.capN != 144))) 29 29 0)
  let s := if base < s.baseN then s.benchFmax else if s.baseN < base then s.releaseFmax else s
  (s.holdCommit old pgClk).retarget 0 moved

/-! ### Gnomons (R715 to R718) -/

/-- CMB_MARGIN0 to 3. -/
def State.setMargins (s : State) (c : Nat) (codes : List Nat) : State :=
  (List.range 4).foldl (fun s m => s.setReg (pgCmb c) (0x070 + 4 * m)
    (sumNat ((List.range 4).map fun i => nth 0 codes (4 * m + i) % 64 * 256 ^ i))) s

/-- WARN and RELAX of a comb. -/
def State.warn (s : State) (c : Nat) : Nat := bits (s.regN (pgCmb c) 0x054) 5 0
def State.relax (s : State) (c : Nat) : Nat := bits (s.regN (pgCmb c) 0x054) 13 8

/-- STRETCH_START (R716, R717). -/
def execStretchStart (comb : Nat) (codes : List Nat) (s : State) : Res :=
  onUnit (decide (comb < 24)) (fun s =>
    if !s.combOff comb && codes.any fun x => decide (x ≤ s.warn comb) then
      (s.setMargins comb codes).updComb comb fun x => { x with stretching := true }
    else s) s

/-- STRETCH_END (R716): `skipped` edges were skipped. -/
def execStretchEnd (comb : Nat) (codes : List Nat) (skipped : Nat) (s : State) : Res :=
  onUnit (decide (comb < 24)) (fun s =>
    if (s.comb comb).stretching && codes.all fun x => decide (s.warn comb < x) then
      let s := (s.setMargins comb codes).updComb comb fun x => { x with stretching := false }
      s.setReg (pgCmb comb) 0x060 (satAdd 0xFFFFFFFF (s.regN (pgCmb comb) 0x060) skipped)
    else s) s

/-- The minder of a comb's frame works (R18, R768). -/
def State.minded (s : State) (c : Nat) : Bool := !bit s.dev.minderLost (c / 4)

/-- A minder acts, so it no longer restarts (log 44). -/
def State.minderActs (s : State) (frame : Nat) : State :=
  { s with dev := { s.dev with minderDown := putBits s.dev.minderDown frame frame 0 } }

/-- A request of the gnomon loop waits for its result. -/
def State.gnomWaits (s : State) (c : Nat) : Bool :=
  (s.comb c).localCh.isSome || s.clk.again.isSome || match s.clk.sync with
    | some ch => ch.moves.any fun m => m.1 == c
    | none => false

/-- A request for gnom_n, none while another waits. -/
def State.gnomRequest (s : State) (c v : Nat) : State :=
  if s.gnomWaits c then s else (s.updComb c fun x => { x with gnomN := v }).retarget 1 false

/-- GNOMON_SHORTFALL marks a suspect unit once 1 ms has accumulated (R718). -/
def State.shortfallCheck (s : State) (c : Nat) : State :=
  if (s.comb c).shortfall < 1000 then s
  else
    let s := s.report (pgCmb c) 2 0x0702 c (s.comb c).nom (s.comb c).vtrim
    ((s.updComb c fun x => { x with shortfall := 0 }).strikeComb c 0x0702).retarget 0 false

/-- GNOMON_LOOP (R718). -/
def execGnomonLoop (comb : Nat) (stretched : Bool) (minMargin powerW : Nat) (s : State) : Res :=
  onUnit (decide (comb < 24)) (fun s =>
    if s.combOff comb || !s.minded comb then s
    else
      let s := (s.minderActs (comb / 4)).updComb comb fun x => { x with marginMin := minMargin % 64 }
      let x := s.comb comb
      let s :=
        if stretched then
          let s := s.updComb comb fun x => { x with calm := 0 }
          if x.vtrim < 12 ∧ powerW < 125 then s.updComb comb fun x => { x with vtrim := x.vtrim + 1 }
          else if !s.steady ∧ 33 < x.gnomN then s.gnomRequest comb (x.nom - 1)
          else s.updComb comb fun x => { x with shortfall := x.shortfall + 10 }
        else if s.relax comb ≤ minMargin then
          if x.calm + 1 = 10000 then
            let s := s.updComb comb fun x => { x with calm := 0, shortfall := 0 }
            if 0 < x.vtrim then s.updComb comb fun x => { x with vtrim := x.vtrim - 1 }
            else if x.gnomN < 144 then s.gnomRequest comb (x.gnomN + 1)
            else s
          else s.updComb comb fun x => { x with calm := x.calm + 1, shortfall := 0 }
        else s.updComb comb fun x => { x with calm := 0 }
      s.shortfallCheck comb) s

/-! ### Temperature (R740 to R745) -/

/-- THROTTLE, the effective THM_LIMIT (R741). -/
def State.throttleT (s : State) : Nat := s.limitN pgThm 0x048

/-- A step holds a task of a comb. -/
def State.stepInComb (s : State) (num c : Nat) : Bool :=
  s.prog.launches.any fun l => l.step == num && (match (s.slot l.slot).img with
      | some im => l.tmpls.any fun t => t.total != 0 && match im.tasks[t.idx]? with
        | some x => s.physComb x.home == c
        | none => false
      | none => false)
    || s.prog.runs.any fun e => siteComb e.1 == c && s.stepAt e.1 == some num

/-- The comb is parked (R742): its ports close, the steps that hold a task of it cannot commit, its B tiles keep their rows in
retention, its cached segments go, and one synchronised change brings it to code 33. `cause` 1 is heat, 2 a lost minder. -/
def State.parkComb (s : State) (c cause : Nat) : State :=
  if s.combOff c || s.combClosed c then s
  else
    let hit := (s.mrd.steps.map (·.num)).filter fun n => s.stepInComb n c
    let old := s.oldest
    let s := s.updComb c fun x => { x with parking := true, parkCause := cause }
    let s := if cause = 1 then
        ((s.flag (pgCmb c) 4).flag pgThm 1).log (pgKpr 0) 0x1402 c (s.comb c).temp 0 (if hit.isEmpty then 0 else old)
      else s
    let f : Forbid := { page := pgKpr 0, code := if cause = 1 then 0x1402 else 0x0802, a0 := c, a1 := (s.comb c).temp, a2 := 0, det := c }
    let s := hit.reverse.foldl (fun s n => s.blame n f) s
    let s := (((List.range 120).map (mkSite c)).filter fun k => siteKind k == .b).foldl State.bPark s
    (s.dropCache c).retarget 2 true

/-- CMB_TSENSE0 to 3 and CMB_TEMP. -/
def State.setSensors (s : State) (c : Nat) (l : List Nat) : State :=
  let s := (List.range 4).foldl (fun s m => s.setReg (pgCmb c) (0x080 + 4 * m)
    (sumNat ((List.range 4).map fun i => nth 0 l (4 * m + i) % 256 * 256 ^ i))) s
  let t := maxNat ((List.range 16).map fun i => nth 0 l i % 256)
  let hot := ((List.range 16).find? fun i => nth 0 l i % 256 == t).getD 0
  (s.setReg (pgCmb c) 0x058 (t * 2 ^ 24 + hot * 2 ^ 16)).updComb c fun x => { x with temp := t }

/-- TEMP_SAMPLE (R715, R742, R743). -/
def execTempSample (comb : Nat) (sensors : List Nat) (s : State) : Res :=
  onUnit (decide (comb < 24)) (fun s =>
    if s.combOff comb || !s.minded comb then s
    else
      let s := s.setSensors comb sensors
      let x := s.comb comb
      let cool := decide (x.temp ≤ 90) && decide (x.temp + 5 ≤ s.throttleT)
      let s := s.updComb comb fun x => { x with
        hot := if 105 ≤ x.temp then x.hot + 1 else 0
        cool := if cool then (if x.cool = 0 then s.dev.chrono else x.cool) else 0 }
      let s := if 2 ≤ (s.comb comb).hot then s.parkComb comb 1 else s
      if s.mayUnpark comb && !s.switchQueued then s.queueSwitch false else s) s

/-- One comb in the 1 ms thermal loop (R740). -/
def State.throttleComb (s : State) (c : Nat) : State :=
  let x := s.comb c
  let lim := s.throttleT
  if lim ≤ x.temp then
    let n := max 33 (min x.thermN x.nom - 2)
    let s := s.updComb c fun x => { x with thermN := n, coolIv := 0, throttled := true }
    if x.throttled then s else ((s.flag pgThm 0).flag (pgCmb c) 3).log (pgCmb c) 0x1401 c x.temp n 0
  else if x.temp + 3 ≤ lim then
    s.updComb c fun x => { x with coolIv := x.coolIv + 1
                                  thermN := if 10 ≤ x.coolIv + 1 ∧ x.thermN < 144 then x.thermN + 1 else x.thermN }
  else s.updComb c fun x => { x with coolIv := 0 }

/-- Combs that the thermal loop no longer holds leave throttle. -/
def State.leaveThrottle (s : State) : State :=
  let a := s.targets s.clk.held
  let free := ((List.range 24).filter fun c => (s.comb c).throttled).filter fun c =>
    nth 0 ((s.updComb c fun x => { x with thermN := 144 }).targets s.clk.held) c ≤ nth 0 a c
  free.foldl (fun s c => s.updComb c fun x => { x with throttled := false }) s

/-- THERMAL_LOOP (R740): the 1 ms interval of a frame's minder. -/
def execThermalLoop (frame : Nat) (s : State) : Res :=
  onUnit (decide (frame < 6)) (fun s =>
    if bit s.dev.minderLost frame then s
    else
      let s := s.minderActs frame
      let l := ((List.range 4).map fun i => 4 * frame + i).filter fun c => !s.combOff c && !s.combParked c
      let s := l.foldl State.throttleComb s
      s.leaveThrottle.retarget 2 false) s

/-! ### Loss of a comb (R727, R371, R744, R792 to R794) -/

/-- A comb is OFF: no clock, no tiles, no contents, no part in a pending change or a return to service (R779, R786, R793, R794). -/
def State.combLost (s : State) (c : Nat) : State :=
  let s := (s.dropReturns c).updComb c fun x => { x with
    st := .off, nom := 0, tgt := 0, localCh := none, parking := false, parkCause := 0, stretching := false, throttled := false
    departed := [] }
  let sites := (List.range 120).map (mkSite c)
  let s := sites.foldl (fun s k => s.tileTo k .off) s
  let s := (sites.filter fun k => siteKind k == .b).foldl State.bZero s
  let s : State := { s with
    die := { s.die with
      standIns := s.die.standIns.filter fun x => x.comb != c
      reinst := s.die.reinst.filter fun x => siteComb x.1 != c
      reinstStaged := s.die.reinstStaged.filter fun x => siteComb x.1 != c
      remapWait := s.die.remapWait.filter fun x => x.1 != c }
    bt := s.bt.filter fun e => siteComb e.1 != c
    mt := s.mt.filter fun e => siteComb e.1 != c
    wt := s.wt.filter fun e => siteComb e.1 != c
    rt := s.rt.filter fun e => siteComb e.1 != c
    clk := { s.clk with sync := s.clk.sync.map fun ch => { ch with moves := ch.moves.filter fun m => m.1 != c } } }
  s.dropCache c

/-- Placement combs of a lost physical comb move to the lowest free one; without one the slot is UNPLACED (R371). The
new map is the slot's next one: it takes effect at the next switch to the slot. It stays a permutation of the 24 combs. -/
def State.replaceComb (s : State) (c n : Nat) : State :=
  let x := s.slot n
  match x.img with
  | none => s
  | some im =>
    let used := fun (p : Nat) => bit im.footprint p
    let place := fun (q : Nat) => ((List.range 24).find? fun p => nth p x.next p == q).getD q
    if !used (place c) then s
    else match (List.range 24).find? fun q => !s.combOff q && !used (place q) with
      | some q => s.updSlot n fun y => { y with next := setNth (setNth y.next (place c) q) (place q) c }
      | none => if x.st == .empty then s else s.updSlot n fun y => { y with st := .unplaced }

/-- A switch under way that waited only for the lost comb is complete (R793). -/
def State.switchWithout (s : State) : State :=
  match s.prog.cur with
  | some w => if w.loaded && !w.combs.isEmpty && s.liveCombs.all w.combs.contains then s.finishSwitch w else s
  | none => s

/-- COMB_ISOLATED (R41, R727, R728, R792 to R794). -/
def execCombIsolated (comb : Nat) (undervolt : Bool) (s : State) : Res :=
  onUnit (decide (comb < 24)) (fun s =>
    if s.combOff comb then s
    else
      let old := s.oldest
      let lost := ((List.range 120).map (mkSite comb)).filter fun k => !s.die.holes.contains k
      let m := ((logicals .m).filter fun l => s.mInService comb l).length
      let s := ((s.flag (pgCmb comb) 0).flag pgPwr 2).setReg pgPwr 0x040 (putBits (s.regN pgPwr 0x040) comb comb 1)
      let s := s.log (pgCmb comb) 0x0701 comb (b2n undervolt) 0 old
      let s := s.abandonAll { page := pgCmb comb, code := 0x0701, a0 := comb, a1 := b2n undervolt, a2 := 0, det := comb }
      let s := s.combLost comb
      let s := (List.range 64).foldl (fun s n => s.replaceComb comb n) s
      let s := (s.distWrite.queueSwitch true).switchWithout
      let s := (List.range m).foldl (fun s _ => s.licenceReturn comb) s
      (s.attachAll lost).review) s

/-- THERMAL_TRIP (R744, R763): a comparator cuts every comb; the Keeper logs it at the next start. -/
def execThermalTrip (comb sensor temp : Nat) (s : State) : Res :=
  onUnit (decide (comb < 24) && decide (sensor < 16)) (fun s =>
    if temp < 115 ∨ s.dev.tripLatched then s
    else
      let s : State := { s with dev := { s.dev with
        thermtrip := true, tripLatched := true, tripNew := true
        tripLast := w32 (2 ^ 31 + comb * 2 ^ 24 + sensor * 2 ^ 20 + temp % 256) } }
      ((List.range 24).foldl State.combLost s).failWith 3) s

/-- SENSE_FALLBACK (R729). -/
def execSenseFallback (comb : Nat) (opened : Bool) (s : State) : Res :=
  onUnit (decide (comb < 24)) (fun s =>
    if s.combOff comb || (s.comb comb).sense then s
    else (s.updComb comb fun x => { x with sense := true }).report (pgCmb comb) 5 0x0703 comb (b2n opened) 0) s

/-! ### Power (R730 to R734) -/

/-- The effective power cap in watts (R734). -/
def State.capW (s : State) : Nat := s.limitN pgPwr 0x048
/-- CAP_HYST. -/
def State.capHyst (s : State) : Nat := s.regN pgPwr 0x04C % 2 ^ 16

/-- cap_n takes a value; PWR_CAP_N and CAPPING follow. -/
def State.setCapN (s : State) (n : Nat) : State :=
  let s : State := { s with clk := { s.clk with capN := n } }
  (s.setReg pgPwr 0x064 n).setReg pgPwr 0x040 (putBits (s.regN pgPwr 0x040) 30 30 (b2n (n != 144)))

/-- Step 2 of R732. -/
def State.capDown (s : State) : State :=
  s.setCapN (max 33 (min s.clk.capN (maxNat ((List.range 24).map fun c => (s.comb c).nom)) - 1))

/-- CAP_LOOP (R732, R733) for a new value of P. -/
def State.capLoop (s : State) (p : Nat) : State :=
  let cap := s.capW
  let low := decide (p + s.capHyst < cap)
  if !s.steady then
    if cap < p ∧ s.clk.held then s.sprintRelease
    else if cap < p then s.capDown.retarget 3 true
    else if low ∧ s.clk.capN < 144 then (s.setCapN (s.clk.capN + 1)).retarget 3 true
    else s
  else if s.forced then
    let under := if low then s.clk.underIv + 1 else 0
    let s : State := { s with clk := { s.clk with underIv := under } }
    if under = 100 then
      let s : State := { s with clk := { s.clk with underIv := 0, overIv := 0 } }
      let s := s.setCapN 144
      (s.setReg pgPwr 0x040 (putBits (s.regN pgPwr 0x040) 29 29 0)).retarget 3 true
    else if cap < p then s.capDown.retarget 3 true
    else s
  else
    let n := if 11 * cap < 10 * p then s.clk.overIv + 1 else 0
    let s : State := { s with clk := { s.clk with overIv := n } }
    if n = 20 then
      let s : State := { s with clk := { s.clk with overIv := 0, underIv := 0 } }
      let s := s.setReg pgPwr 0x040 (putBits (s.regN pgPwr 0x040) 29 29 1)
      (s.report pgPwr 0 0x1201 p cap 0).capDown.retarget 3 true
    else s

/-- VIN_RANGE and PWR_INPUT_RANGE (R757, R758). -/
def State.vinRange (s : State) (core aux : Nat) : State :=
  let out := decide (core < 1700) || decide (1900 < core)
  let was := bit (s.regN pgPwr 0x040) 28
  let s := s.setReg pgPwr 0x040 (putBits (s.regN pgPwr 0x040) 28 28 (b2n out))
  if out && !was then s.report pgPwr 3 0x1203 core aux 0 else s

/-! ### Ledger (R737 to R739) -/

/-- What one interval gives: comb energy, energy by job, the rest. -/
structure Interval where
  s : State
  combs : Nat
  jobs : Sparse Nat
  deriving DecidableEq, Repr

/-- The job of a launch that is under way, or that ended in the interval. -/
def State.jobOf (s : State) (id : Nat) : Option Nat :=
  match s.ldg.ended.find? fun x => x.id == id with
  | some x => some x.job
  | none => (s.launch? id).map (·.job)

/-- Energy of a launch that is under way, or that ended in the interval. -/
def State.addEnergy (s : State) (id nj : Nat) : State :=
  if s.ldg.ended.any fun x => x.id == id then
    { s with ldg := { s.ldg with ended := s.ldg.ended.map fun x => if x.id = id then { x with nj := x.nj + nj } else x } }
  else s.updLaunch id fun y => { y with energy := y.energy + nj }

/-- One launch's share of a comb's energy. -/
def Interval.launch (a : Interval) (e tot : Nat) (x : Nat × Nat × Nat) : Interval × Nat :=
  match a.s.jobOf x.2.1 with
  | none => (a, 0)
  | some j =>
    let nj := if tot = 0 then 0 else e * x.2.2 / tot
    let s := a.s.addEnergy x.2.1 nj
    let s : State := { s with ldg := { s.ldg with
      job := supd natDflt s.ldg.job j (· + nj), occ := supd natDflt s.ldg.occ j (· + x.2.2) } }
    ({ a with s, jobs := supd natDflt a.jobs j (· + nj) }, nj)

/-- One comb's energy in an interval. -/
def Interval.comb (r : PowerReading) (a : Interval) (c : Nat) : Interval :=
  let e := 10 * nth 0 r.combMv c * nth 0 r.cur c
  let tot := 108 * nth 0 r.edges c
  let l := r.occ.filter fun x => x.1 == c && x.2.2 != 0
  let (a, left) := (sortStreams (l.map (·.2.1))).foldl (fun acc id =>
    (l.filter fun x => x.2.1 == id).foldl (fun acc x =>
      let (a, nj) := acc.1.launch e tot x
      (a, acc.2 - nj)) acc) (a, e)
  { a with s := { a.s with ldg := { a.s.ldg with idle := a.s.ldg.idle + left } }, combs := a.combs + e }

/-- The energy of an input domain in nanojoules. -/
def inputNj (r : PowerReading) : Nat :=
  10 * (r.vStby * nth 0 r.cur 53 + r.vCore * nth 0 r.cur 54 + r.vAux * nth 0 r.cur 55)

/-- A completed launch's energy by class: each class gets the floor of its shares' part, and the rest is unclassed (R738). -/
def Ledger.split (g : Ledger) (x : EndedLaunch) : Ledger :=
  let tot := sumNat (x.shares.map (·.2))
  let per := fun (c : Nat) => if tot = 0 then 0 else x.nj * sumNat ((x.shares.filter fun y => y.1 == c).map (·.2)) / tot
  let cs := (List.range 64).filter fun c => per c != 0
  { g with cls := cs.foldl (fun m c => supd natDflt m c (· + per c)) g.cls
           uncl := g.uncl + (x.nj - sumNat (cs.map per)) }

/-- The launches that ended in the interval are split (R738, log 78). -/
def Ledger.settle (g : Ledger) : Ledger := { g.ended.foldl Ledger.split g with ended := [] }

/-- The counts as the region shows them (R739). -/
def Ledger.publish (g : Ledger) (now : Nat) : Ledger :=
  { g with gen := g.gen + 2, intervals := g.intervals + 1, lastEnd := now
           pub := { job := g.job, occ := g.occ, cls := g.cls, toks := g.toks, idle := g.idle, overhead := g.overhead
                    uncl := g.uncl, device := g.device } }

/-- `ledger_interval`, then the publication (R737, R739). -/
def State.ledgerInterval (s : State) (r : PowerReading) : State :=
  if !s.ldgOn then s
  else
    let a := ((List.range 24).filter fun c => !s.combOff c).foldl (Interval.comb r) { s, combs := 0, jobs := [] }
    let s := a.s
    let oh := inputNj r - a.combs
    let tot := sumNat (a.jobs.map (·.2))
    let spread := bit (s.regN pgLdg 0x048) 30 && tot != 0
    let part := fun (x : Nat) => if spread then oh * x / tot else 0
    let given := sumNat (a.jobs.map fun j => part (Prod.snd j))
    let g := s.ldg
    let g := { g with job := a.jobs.foldl (fun m (j : Nat × Nat) => supd natDflt m j.1 (· + part j.2)) g.job
                      overhead := g.overhead + (oh - given), device := g.device + inputNj r }
    { s with ldg := g.settle.publish s.dev.chrono }

/-- POWER_INTERVAL (R730 to R733, R737): the interval ends at a multiple of 1,000,000. -/
def execPowerInterval (r : PowerReading) (s : State) : Res :=
  .next (s.whenB (s.dev.running && s.dev.chrono % 1000000 == 0) fun s =>
    let s := if (s.page pgPwr).pending then s.applyPage pgPwr else s
    let s := if (s.page pgLdg).pending then s.applyPage pgLdg else s
    let s := (List.range 56).foldl (fun s n => s.setReg pgPwr (0x100 + 4 * n) (nth 0 r.cur n)) s
    let s := (List.range 24).foldl (fun s c => s.updComb c fun x => { x with
      vmeas := nth 0 r.combMv c, railW := nth 0 r.combMv c * nth 0 r.cur c / 100000 }) s
    let s := ((s.setReg pgPwr 0x05C (r.vCore % 2 ^ 16 * 2 ^ 16 + r.vAux % 2 ^ 16)).setReg pgPwr 0x060 (r.vStby % 2 ^ 16)).vinRange
      r.vCore r.vAux
    let p := inputNj r / 1000000
    let s := (s.setReg pgPwr 0x050 (p % 2 ^ 16)).setReg pgPwr 0x054 (2 ^ 32 + s.capW - p % 2 ^ 32)
    let s := s.wrapReg pgPwr 0x058
    (s.ledgerInterval r).capLoop p)

/-- LDG_CTL.CLEAR (R739, R764). -/
def State.clearLedger (s : State) : State :=
  { s with ldg := { s.ldg with
      job := [], occ := [], cls := [], toks := [], idle := 0, overhead := 0, uncl := 0, device := 0, intervals := 0
      pub := { job := [], occ := [], cls := [], toks := [], idle := 0, overhead := 0, uncl := 0, device := 0 } } }

/-- LEDGER_CLEAR (R739, R764). -/
def execLedgerClear (src : Source) (s : State) : Res :=
  .next (s.goWrite src pgLdg 0x04C false State.clearLedger)

end Sys2Proof.Machine
end

