-- ==== Sys2Proof/Machine/Slice.lean ====
section
/-! DEFINITION. When a step may commit (R770), and the slice protocol (R611 to R624). -/

namespace Sys2Proof.Machine

/-! ### Conditions of R770 -/

/-- Every sink entry that the step's launches began is complete: no accumulator is part full, unless a later step uses the
sinks (R266, R770). -/
def State.sinksDone (s : State) (num : Nat) : Bool :=
  (s.prog.launches.any fun l => l.step != num && !l.finished) || s.rt.all fun e => s.sinkDrained e.1

/-- Every condition of R770 but the one on a slice. -/
def State.stepReady (s : State) (st : StepRec) : Bool :=
  st.forbids.isEmpty && st.seals.isEmpty && st.shadows == 0
    && !(s.st.any fun e => e.2.shadows.any fun x => x.step == st.num)
    && !(s.prog.dq.any fun r => match r with
      | .launch l => l.step == st.num
      | .switch _ => false)
    && (s.prog.launches.all fun l => l.step != st.num || l.finished)
    && !(s.prog.runs.any fun e => s.stepAt e.1 == some st.num
      || e.2.pend.any fun x => x.kind == 0 && x.left != 0 && x.step == some st.num)
    && s.sinksDone st.num

/-! ### Switch records (R385) -/

/-- A switch record from its bytes. -/
def switchOf (r : List Byte) : SwitchRec :=
  { ok := leAt r 0 1 == 2 && decide (leAt r 2 1 ≤ 1) && leAt r 3 1 == 0 && leAt r 8 40 == 0 && leAt r 56 72 == 0
    slot := leAt r 1 1, flush := leAt r 2 1 == 1, limit := leAt r 4 4, done := leAt r 48 8 }

/-- A record joins the queue of task dispatch. -/
def State.dispatch (s : State) (r : DispRec) : State := { s with prog := { s.prog with dq := s.prog.dq ++ [r] } }

/-! ### Rebuild commits (R623, R624) -/

/-- A stream's log cannot rebuild it (R624). -/
def State.logIncomplete (s : State) (n : Nat) : Bool :=
  s.slc.gaps.contains n || decide ((sget listDflt s.slc.toklog n).length < (s.stream n).seqLen)

/-- The streams that a rebuild covers. -/
def State.rebuildStreams (s : State) : List Nat :=
  (s.intake.table.filter fun e => decide (1 ≤ e.2.st) && decide (e.2.st ≤ 4) && e.2.seqLen != 0).map (·.1)

/-- The position a stream's rebuild has reached. -/
def State.rebuildPos (s : State) (n : Nat) : Nat :=
  ((s.slc.rebuild.find? fun r => r.1 == n).map (·.2)).getD 0

/-- The streams still to be rebuilt. -/
def State.rebuildLeft (s : State) : List Nat :=
  s.rebuildStreams.filter fun n => !s.logIncomplete n && decide (s.rebuildPos n < (s.stream n).seqLen)

/-- Streams whose log is incomplete enter FAULTED at the first rebuild commit (R624). -/
def State.rebuildBad (s : State) : List (Nat × Nat) :=
  if s.slc.rebuild.isEmpty then (s.rebuildStreams.filter s.logIncomplete).map fun n => (n, 0x0B02) else []

def State.rebuildFaults (s : State) (bad : List (Nat × Nat)) : State :=
  (bad.foldl (fun s x => s.commitStream none [] bad [] x.1) s).logStreamFaults bad

/-- Every stream is rebuilt: the slice returns to RUN and the spare's entry is cleared (R623). Where no rebuild step was needed, the streams
of R624 enter FAULTED at the next commit point. -/
def State.rebuildDone (s : State) : State :=
  if s.slc.st = 3 ∧ s.rebuildLeft.isEmpty then
    let s : State := { s with mrd := { s.mrd with faulting := s.mrd.faulting ++ s.rebuildBad } }
    let s := (List.range 4).foldl (fun s n =>
      let w := s.regN pgRte (0x0C0 + 4 * n)
      if bit w 31 && s.remapDev (bits w 15 8) == some (bits w 7 0) then s.setReg pgRte (0x0C0 + 4 * n) 0 else s) s
    { s with slc := { s.slc with st := 1, rebuild := [] } }
  else s

/-- A rebuild step commits: only the rebuilt positions move on, and the streams of R624 enter FAULTED (R623). It is a step committed (R521);
a device that follows learns of the rebuild from it. -/
def State.rebuildCommit (s : State) (st : StepRec) (bad : List (Nat × Nat)) : State :=
  let s := s.rebuildFaults bad
  let s : State := { s with
    mrd := { s.mrd with steps := s.mrd.steps.filter fun x => x.num != st.num }
    prog := s.prog.without [st.num] }
  let s := st.prefill.foldl (fun (s : State) p => { s with slc := { s.slc with
    rebuild := (s.slc.rebuild.filter fun r => r.1 != p.1) ++ [(p.1, s.rebuildPos p.1 + p.2)] } }) s
  let s := ((s.stepSts st.num).markBoundary).wrapReg pgMrd 0x0B8
  if s.follower then { s with slc := { s.slc with st := 3 } } else s.rebuildDone

/-! ### What COMMIT carries (R613) -/

/-- A stream's pending records may be applied at the commit point of a step (R773). -/
def State.freeAt (s : State) (num n : Nat) : Bool :=
  !(s.mrd.steps.any fun st => st.num != num && st.streams.contains n) && !(s.mrd.abandoned.any fun st => st.streams.contains n)

/-- The records that the lead applies at the commit point of a step. -/
def State.carried (s : State) (num : Nat) : List CarriedRec :=
  (s.intake.pend.filter fun e => s.freeAt num e.1).flatMap fun e =>
    (e.2.takeWhile (·.fetched)).map fun p => { bytes := p.raw, toks := p.toks }

/-- A carried record becomes pending on a device that did not take it in: it holds what an accepted record holds (R455). -/
def State.carry (s : State) (r : CarriedRec) : State :=
  let n := recStream r.bytes
  let blocks := (s.freeStage (appendBlocks r.bytes)).getD []
  let lb := if recOp r.bytes = 6 then (s.freeBlocks (forkBlocks (leAt r.bytes 12 4))).getD [] else []
  let s := s.fillStage blocks r.toks
  let p : Pend := {
    raw := r.bytes, toks := r.toks, stage := blocks, blocks := lb, fetched := true
    failed := decide (0 < appendBlocks r.bytes) && r.toks.length != leAt r.bytes 8 4 }
  let s := s.setPend n (s.pendOf n ++ [p])
  { s with intake := { s.intake with stageUsed := s.intake.stageUsed ++ blocks, last := sset listDflt s.intake.last n r.bytes }
           kv := { s.kv with resvBlocks := s.kv.resvBlocks ++ lb } }

/-- Run a commit point with exactly the carried records pending; on the lead, later ones wait for the next. -/
def State.withRecords (s : State) (recs : List CarriedRec) (f : State → State) : State :=
  if s.isLead then
    let count := fun (n : Nat) => (recs.filter fun r => recStream r.bytes == n).length
    let all := s.intake.pend
    let cut := (all.map fun e => (e.1, e.2.take (count e.1))).filter fun e => !e.2.isEmpty
    let s := f { s with intake := { s.intake with pend := cut } }
    all.foldl (fun s e => s.setPend e.1 (s.pendOf e.1 ++ e.2.drop (count e.1))) s
  else f (recs.foldl State.carry s)

/-- In READY and COMMIT a stream that enters FAULTED at the commit point is a result record of token 0xFFFF_FFFF, which no vocabulary holds:
its position is the code of the cause (log 39). -/
def faultRec (x : Nat × Nat) : ResRec := { stream := x.1, pos := x.2, token := 0xFFFFFFFF, lp := 0 }

def isFault (r : ResRec) : Bool := r.token == 0xFFFFFFFF

/-- The streams that result records fault, each with its code, and the records of tokens. -/
def faultsOf (l : List ResRec) : List (Nat × Nat) := (l.filter isFault).map fun r => (r.stream, r.pos)
def tokensIn (l : List ResRec) : List ResRec := l.filter fun r => !isFault r

/-- A follower's view of a step it holds no record of: the streams of the results and the prefilled chunks that COMMIT carries (log 39). -/
def synthStep (num : Nat) (b : CommitBody) : StepRec :=
  let rs := tokensIn b.results
  let l := (sortStreams (rs.map (·.stream))).filter fun n => !(b.prefill.any fun p => p.1 == n)
  { num, decode := (List.range l.length).map fun i => (i, nth 0 l i), prefill := b.prefill, spec := false
    cohorts := (l.length + 31) / 32, sprint := false, tag := 0, done := 0, dropped := 0, ts := 0, start := b.time, attempts := 0
    forbids := [], past := [], recs := [], results := rs, newPages := [], newBlocks := [], cow := [], copied := [], seals := []
    shadows := 0, rebuild := b.rebuild, faulted := [], taints := [] }

/-- The follower's own pool gives the pages of the step's new positions (R455, R460): what the pool cannot give is left out (log 39). -/
def State.shareKv (s : State) (st : StepRec) : State × StepRec :=
  let count := fun (n : Nat) => max 1 (st.results.filter fun r => r.stream == n).length
  let want := st.decode.map (fun d => (d.2, count d.2)) ++ st.prefill
  want.foldl (fun x w =>
    match x.1.needKv w.1 (x.1.stream w.1).seqLen w.2 with
    | none => x
    | some r => ({ x.1 with kv := x.1.kv.hold r }, { x.2 with
        newPages := if r.pages.isEmpty then x.2.newPages else x.2.newPages ++ [(w.1, r.pages)]
        newBlocks := if r.blocks.isEmpty then x.2.newBlocks else x.2.newBlocks ++ [(w.1, r.blocks)]
        cow := x.2.cow ++ r.cow })) (s, st)

/-- RTE_REMAP of a logical device takes a value (R620, R642). -/
def State.setRemap (s : State) (l : Nat) (e : Nat) : State :=
  let o := 0x200 + l / 2 * 4
  s.setReg pgRte o (putBits (s.regN pgRte o) (16 * (l % 2) + 15) (16 * (l % 2)) e)

/-- Run a commit point with exactly the outcomes and the faults that COMMIT carries to report and to apply; on the lead, later ones wait
for the next. The commit point has the lead's count (R610). -/
def State.withCarried (s : State) (b : CommitBody) (f : State → State) : State :=
  let bad := faultsOf b.results
  let reps := s.intake.reports.drop b.reports.length
  let later := s.mrd.faulting.filter fun x => !bad.contains x
  let s := f { s with
    intake := { s.intake with reports := b.reports, stamp := some b.time }
    mrd := { s.mrd with faulting := if b.hasStep then [] else bad } }
  { s with
    intake := { s.intake with reports := s.intake.reports ++ reps, stamp := none }
    mrd := { s.mrd with faulting := s.mrd.faulting ++ later } }

/-- The commit of COMMIT on one device (R614): the step, the records, switch records and remap changes. -/
def State.applyStep (s : State) (num : Nat) (b : CommitBody) : State :=
  let bad := faultsOf b.results
  let rs := tokensIn b.results
  s.withCarried b fun s => s.withRecords b.records fun s =>
    if !b.hasStep then s.commitPoint none []
    else match s.step? num with
    | some st => if st.rebuild then s.rebuildCommit st bad else s.commitStep { st with faulted := bad, taints := [] } rs
    | none =>
      if b.rebuild then s.rebuildCommit (synthStep num b) bad
      else
        let x := s.shareKv (synthStep num b)
        let s := x.1.commitStep { x.2 with faulted := bad } rs
        if s.slc.st = 3 then { s with slc := { s.slc with st := 1, rebuild := [] } } else s

/-- A replaced member is no longer lost; with none left the slice rebuilds (R622, R623). -/
def State.afterRemap (s : State) (l : List (Nat × BitVec 16)) : State :=
  if l.isEmpty then s
  else
    let s := (l.foldl (fun s e => s.setRemap e.1 e.2.toNat) s).wrapReg pgRte 0x078
    let lost := s.slc.lost.filter fun x => !(l.any fun e => e.1 == x)
    let back := s.slc.st == 2 && lost.isEmpty
    let s := if (s.page pgRte).pending && s.slc.remap.isEmpty then s.applyPage pgRte else s
    { s with slc := { s.slc with lost, st := if back then 3 else s.slc.st, rebuild := if back then [] else s.slc.rebuild } }

def State.applyCommit (s : State) (num : Nat) (b : CommitBody) : State :=
  let s := s.applyStep num b
  let s := b.switches.foldl (fun s r => s.dispatch (.switch (switchOf r))) s
  let s := s.afterRemap b.remap
  let s := s.setReg pgRte 0x060 num
  { s with slc := { s.slc with applied := num, lastBody := b, own := [], past := s.slc.past.filter fun e => decide (num < e.1) } }

/-- A member takes part in the protocol: in FAILED it sends nothing further, and no stream changes state (R797, R798). -/
def State.takesPart (s : State) : Bool := s.inSlice && s.live

/-! ### Rounds -/

def rndDflt (n : Nat) : SRound :=
  { step := n, own := none, since := 0, ready := [], phase := 0
    body := { noBody with hasStep := true }, done := [] }

def State.round? (s : State) (n : Nat) : Option SRound := s.slc.rounds.find? fun r => r.step == n

/-- Change a round, opening it in its place in ascending order. -/
def State.updRound (s : State) (n : Nat) (f : SRound → SRound) : State :=
  let r := f ((s.round? n).getD (rndDflt n))
  let lo := s.slc.rounds.filter fun x => decide (x.step < n)
  let hi := s.slc.rounds.filter fun x => decide (n < x.step)
  { s with slc := { s.slc with rounds := lo ++ [r] ++ hi } }

/-- The members of the slice that take part. -/
def State.peersUp (s : State) : List Nat := s.members.filter fun l => !s.slc.lost.contains l

/-- A message from a member was heard (R616). -/
def State.hear (s : State) (l : Nat) : State :=
  { s with slc := { s.slc with seen := sput s.slc.seen l s.dev.chrono } }

/-- The host writes that waited for a round, after them the step's completion record, and its samples (R450, R484, R503, R613). -/
def State.releaseRound (s : State) (n : Nat) : State :=
  let l := s.intake.deferred.filter fun d => d.1 == n
  let recs := s.intake.late.filter fun d => d.1 == n
  let s : State := { s with intake := { s.intake with
    deferred := s.intake.deferred.filter fun d => d.1 != n, late := s.intake.late.filter fun d => d.1 != n } }
  (recs.foldl (fun s d => s.record d.2.1 d.2.2) (s.toHosts (l.map (·.2)))).almRound n

/-- A round ends when every member has returned DONE: the writes of R450 go out (R613, step 4). -/
def State.endRound (s : State) (n : Nat) : State :=
  match s.round? n with
  | none => s
  | some r =>
    if r.phase = 2 && s.peersUp.all r.done.contains then
      let s := s.releaseRound (if r.body.hasStep then n else 0)
      { s with slc := { s.slc with rounds := s.slc.rounds.filter fun x => x.step != n } }
    else s

/-- The lead applies a round's step after the deputy's DONE, and tells every other member (R613, steps 2 and 3). -/
def State.leadApply (s : State) (r : SRound) : State :=
  let s := s.sendAll (s.peersUp.filter fun l => some l != s.deputy) (.commit (w32 r.step) s.myLogical r.body)
  let s := s.updRound r.step fun x => { x with phase := 2 }
  (s.applyCommit r.step r.body).endRound r.step

/-- The lead commits the first round whose READY messages are all there (R613). -/
def State.tryCommit (s : State) : State :=
  match s.slc.rounds.find? fun r => r.phase != 2 with
  | none => s
  | some r =>
    let st := s.step? r.step
    let ready := r.own.isSome && s.peersUp.all fun l => r.ready.any fun x => x.1 == l
    let may := !r.body.hasStep || (ready && s.oldest == r.step && (st.all fun x => x.forbids.isEmpty))
    if r.phase ≠ 0 || !may || (s.slc.st == 2 && r.body.hasStep) then s
    else
      let bad := match st with
        | some x => if x.rebuild then s.rebuildBad else s.mrd.faulting ++ x.faults
        | none => s.mrd.faulting
      let body : CommitBody := {
        results := bad.map faultRec ++ r.own.getD [] ++ r.ready.flatMap (·.2), records := s.carried r.step
        switches := s.slc.switches, remap := s.slc.remap, hasStep := r.body.hasStep, time := s.dev.chrono
        prefill := (st.map (·.prefill)).getD [], reports := s.intake.reports, rebuild := st.any (·.rebuild) }
      let s : State := { s with slc := { s.slc with switches := [], remap := [] } }
      let s := s.updRound r.step fun x => { x with phase := 1, body }
      match s.deputy.filter s.peersUp.contains with
      | some d => s.sendSlice d (.commit (w32 r.step) s.myLogical body)
      | none => s.leadApply { r with phase := 1, body }

/-- A COMMIT that carries no step (R622): records at a tick without a step, or a new remap. It takes the next step number. -/
def State.openNoStep (s : State) : State :=
  let n := s.mrd.next
  let s : State := { s with mrd := { s.mrd with next := n + 1 } }
  (s.updRound n fun r => { r with own := some [], since := s.dev.chrono, body := { r.body with hasStep := false } }).tryCommit

/-- The codes of the events that R100, R191 or R550 narrows to streams. -/
def narrowCode (code : Nat) : Bool := code == 0x0102 || code == 0x0103 || code == 0x0303 || code == 0x0901

/-- The lead aborts a step and every later one for an event (R615). `cause` is a logical ID, `code` the NOTREADY code or 0. -/
def State.abortFor (s : State) (num cause code : Nat) (f : Forbid) : State :=
  let s := s.sendAbort num cause code
  match s.step? num with
  | none => s
  | some st =>
    let last := s.lastAttempt st f
    (s.updStep num fun x => { x with forbids := x.forbids ++ [f] }).abandonFrom num f.code last

/-- The lead aborts for a member: NOTREADY carries a code alone, and the lead takes member and code for the detail that it does not see; the
member itself compares an event that a rule narrows to streams, so that none of these counts as a repeat here (R100, R214, R776, log 39). -/
def State.leadAbort (s : State) (num cause code : Nat) : State :=
  let c := if code = 0 then 0x0B01 else code
  let att := ((s.step? num).map (·.attempts)).getD 0
  s.abortFor num cause code { page := pgRte, code := c, a0 := num, a1 := cause, a2 := 0
                              det := if narrowCode c then 256 * (att + 1) + cause else cause }

/-! ### Messages -/

/-- RTE_COMMIT_TIMEOUT in nanoseconds; 0 disables R615 and R616 (R635). -/
def State.sliceTime (s : State) : Nat := s.regN pgRte 0x050 * 1000

/-- An event as an event of R776. -/
def forbidOf (e : ShareEvent) : Forbid := { page := e.page, code := e.code, a0 := 0, a1 := 0, a2 := 0, det := e.det }

/-- The first event that kept this device's own share from committing (R612), with the streams that a rule narrows it to. -/
def State.ownEvent (s : State) : Option ShareEvent :=
  s.slc.own.head?.map fun f => {
    page := f.page, code := f.code, det := f.det
    streams := if f.code = 0x0303 then [f.a1] else if f.code = 0x0901 then ((s.kvPageOf f.det).map s.holders).getD [] else [] }

/-- A repeat of an event that a rule narrows to streams lets the share commit without them (R100, R191, R550, R777). -/
def shareNarrows (e : ShareEvent) (past : List Forbid) : Bool :=
  narrowCode e.code && !e.streams.isEmpty && past.any fun f => Forbid.same f (forbidOf e)

/-- A follower's share cannot commit: NOTREADY, or READY with the streams that enter FAULTED (R612, log 39). -/
def State.shareBad (s : State) (step : Word) (e : ShareEvent) (own : List ResRec) : State :=
  let past := sget listDflt s.slc.past step.toNat
  let s : State := { s with slc := { s.slc with own := [], past := sset listDflt s.slc.past step.toNat (past ++ [forbidOf e]) } }
  if shareNarrows e past then s.sendSlice s.leadId (.ready step s.myLogical (own ++ e.streams.map fun n => faultRec (n, e.code)))
  else s.sendSlice s.leadId (.notReady step s.myLogical (BitVec.ofNat 16 e.code))

/-- The lead's own share is ready (R613). -/
def State.leadReady (s : State) (n : Nat) (own : List ResRec) : State :=
  (s.updRound n fun r => if r.own.isSome then r else { r with own := some own, since := s.dev.chrono }).tryCommit

/-- SLICE_SHARE_READY (R612): the share of a step is ready, or cannot commit for an event. -/
def execSliceShareReady (step : Word) (cannot : Option ShareEvent) (s : State) : Res :=
  let n := step.toNat
  let st := s.step? n
  let own := (st.map (·.results)).getD []
  if !s.takesPart || decide (n ≤ s.slc.applied) || s.slc.rounds.any (fun r => r.step == n && r.phase != 0) then .next s
  else if s.isLead then
    match st, cannot with
    | none, _ => .next s
    | some x, some e =>
      if shareNarrows e x.past.flatten then
        let s := s.updStep n fun x => { x with faulted := x.faulted ++ e.streams.map fun k => (k, e.code) }
        .next (if s.stepReady x then s.leadReady n own else s)
      else .next (s.abortFor n s.myLogical e.code (forbidOf e))
    | some x, none => .next (if s.stepReady x then s.leadReady n own else s)
  else
    match (match cannot with
      | some e => some e
      | none => s.ownEvent) with
    | some e => .next (s.shareBad step e own)
    | none => .next (if st.all s.stepReady then s.sendSlice s.leadId (.ready step s.myLogical own) else s)

/-- READY (R613). -/
def State.onReady (s : State) (n l : Nat) (recs : List ResRec) : State :=
  let s := s.hear l
  if !s.isLead || decide (n ≤ s.slc.applied) then s
  else (s.updRound n fun r => { r with ready := (r.ready.filter fun x => x.1 != l) ++ [(l, recs)] }).tryCommit

def execReadyMsg (step : Word) (sender : Nat) (recs : List ResRec) (s : State) : Res :=
  .next (s.whenB s.takesPart fun s => s.onReady step.toNat sender recs)

/-- NOTREADY (R615). -/
def State.onNotReady (s : State) (n l code : Nat) : State :=
  let s := s.hear l
  if s.isLead && decide (s.slc.applied < n) then s.leadAbort n l code else s

def execNotReadyMsg (step : Word) (sender : Nat) (code : BitVec 16) (s : State) : Res :=
  .next (s.whenB s.takesPart fun s => s.onNotReady step.toNat sender code.toNat)

/-- The host writes of R450 that the device would make of a commit, were it the lead (R454, R618); the reports of QUERY are none of them. -/
def State.writesOf (s : State) (num : Nat) (b : CommitBody) : List Out :=
  let v := s.setReg pgRte 0x04C (putBits (s.regN pgRte 0x04C) 15 8 s.myLogical)
  let v : State := { v with intake := { v.intake with deferred := [], pend := [] } }
  let v := b.records.foldl State.carry v
  ((v.applyStep num b).intake.deferred.map (·.2)).filter fun o => match o with
    | .hostWrite _ d => d.length != 64
    | _ => true

/-- COMMIT and BEAT come from the lead alone: a member that hears one from another member takes that one as the lead, and the old
lead as lost (R613, R616, R618; DEDUCED, log 86). -/
def State.heed (s : State) (l : Nat) : State :=
  let s := s.hear l
  if s.isLead || l == s.leadId then s
  else
    let old := s.leadId
    let s := s.setReg pgRte 0x04C (putBits (s.regN pgRte 0x04C) 15 8 l)
    { s with slc := { s.slc with lost := (s.slc.lost.filter fun x => x != l && x != old) ++ [old] } }

/-- COMMIT (R614): applied once, and answered with DONE. -/
def State.onCommit (s : State) (n l : Nat) (b : CommitBody) : State :=
  let s := s.heed l
  if s.isLead then s
  else
    let s := if n ≤ s.slc.applied then s
      else
        let w := if s.deputy == some s.myLogical then s.writesOf n b else []
        let s := s.applyCommit n b
        { s with slc := { s.slc with lastWrites := w }, mrd := { s.mrd with next := max s.mrd.next (n + 1) } }
    s.sendSlice l (.done (w32 n) s.myLogical)

def execCommitMsg (step : Word) (sender : Nat) (body : CommitBody) (s : State) : Res :=
  .next (s.whenB s.takesPart fun s => s.onCommit step.toNat sender body)

/-- ABORT (R615): every device discards its shares from the step on. -/
def State.onAbort (s : State) (n l : Nat) : State :=
  let s := s.hear l
  if s.isLead then s
  else
    let s : State := { s with slc := { s.slc with own := [] } }
    let later := (s.mrd.steps.map (·.num)).filter fun k => decide (n ≤ k)
    match later with
    | [] => s
    | k :: _ => s.abandonFrom k 0x0B01 false

def execAbortMsg (step : Word) (sender : Nat) (s : State) : Res :=
  .next (s.whenB s.takesPart fun s => s.onAbort step.toNat sender)

/-- DONE (R613, steps 2 and 4). -/
def State.onDone (s : State) (n l : Nat) : State :=
  let s := s.hear l
  match (if s.isLead then s.round? n else none) with
  | none => s
  | some r =>
    if r.phase = 0 then s
    else
      let s := s.updRound n fun x => { x with done := x.done.filter (· != l) ++ [l] }
      let s := if r.phase = 1 ∧ s.deputy = some l then s.leadApply { r with done := r.done.filter (· != l) ++ [l] } else s.endRound n
      s.tryCommit

def execDoneMsg (step : Word) (sender : Nat) (s : State) : Res :=
  .next (s.whenB s.takesPart fun s => s.onDone step.toNat sender)

/-- STATUS_Q is answered with the last step applied (R618). -/
def State.onStatusQ (s : State) (l : Nat) : State := (s.hear l).sendSlice l (.statusR s.myLogical (w32 s.slc.applied))

def execStatusQ (sender : Nat) (s : State) : Res := .next (s.whenB s.takesPart fun s => s.onStatusQ sender)

/-- STATUS_R (R616, R618): a deputy that takes over sends the last step to a member that lacks it. -/
def State.onStatusR (s : State) (l last : Nat) : State :=
  let s := s.hear l
  let s : State := { s with slc := { s.slc with status := sput s.slc.status l last } }
  if s.slc.takeover && decide (last < s.slc.applied) then
    s.sendSlice l (.commit (w32 s.slc.applied) s.myLogical s.slc.lastBody)
  else s

def execStatusR (sender : Nat) (lastStep : Word) (s : State) : Res :=
  .next (s.whenB s.takesPart fun s => s.onStatusR sender lastStep.toNat)

/-- BEAT is answered with STATUS_R (R616). -/
def State.onBeat (s : State) (l : Nat) : State := (s.heed l).sendSlice l (.statusR s.myLogical (w32 s.slc.applied))

def execBeatMsg (sender : Nat) (s : State) : Res := .next (s.whenB s.takesPart fun s => s.onBeat sender)

/-! ### Timers and losses -/

/-- SLICE_BEAT_TIMER (R616). -/
def execSliceBeatTimer (s : State) : Res :=
  .next (s.whenB (s.takesPart && s.isLead && s.slc.rounds.isEmpty && s.sliceTime != 0
      && decide (s.slc.beatAt + s.sliceTime / 2 ≤ s.dev.chrono)) fun s =>
    { s.sendAll s.peersUp (.beat s.myLogical) with slc := { s.slc with beatAt := s.dev.chrono } })

/-- SLICE_COMMIT_TIMEOUT (R615). -/
def execSliceCommitTimeout (step : Word) (s : State) : Res :=
  .next (s.whenB (s.takesPart && s.isLead && s.sliceTime != 0) fun s =>
    match s.round? step.toNat with
    | none => s
    | some r =>
      match s.peersUp.find? fun l => !(r.ready.any fun x => x.1 == l) with
      | some l =>
        if r.phase = 0 && r.body.hasStep && r.own.isSome && decide (r.since + s.sliceTime ≤ s.dev.chrono)
        then s.leadAbort step.toNat l 0 else s
      | none => s)

/-- A member has been silent for 3 × RTE_COMMIT_TIMEOUT (R616). -/
def State.silent (s : State) (l : Nat) : Bool :=
  s.sliceTime != 0 && decide (sget natDflt s.slc.seen l + 3 * s.sliceTime ≤ s.dev.chrono)

/-- The lead switches in a spare that covers a lost member (R622). -/
def State.spareIn (s : State) (l : Nat) : State :=
  match ((List.range 4).map fun n => s.regN pgRte (0x0C0 + 4 * n)).find? fun w => bit w 31 && bits w 15 8 == l with
  | none => s
  | some w => ({ s with slc := { s.slc with remap := s.slc.remap ++ [(l, BitVec.ofNat 16 (0x8000 + bits w 7 0))] } } : State).openNoStep

/-- What the loss of a member leads to (R617): rounds not yet applied are aborted, the others complete without it (log 40). -/
def State.loseMember (s : State) (l : Nat) : State :=
  let s := s.report pgRte 0 0x0B02 l ((s.remapDev l).getD 0) 0
  let s : State := { s with slc := { s.slc with lost := s.slc.lost ++ [l], st := 2 } }
  let s := match s.slc.rounds.find? fun r => r.phase != 2 && r.body.hasStep with
    | some r => s.leadAbort r.step l 0
    | none => s
  let s := (s.slc.rounds.map (·.step)).foldl State.endRound s
  s.spareIn l

/-- Lead and deputy are both silent to a third member: it logs the loss of each and stays SUSPENDED until a new RTE_SLICE (R799). -/
def State.loseBoth (s : State) (d : Nat) : State :=
  let s := [s.leadId, d].foldl (fun s l => s.report pgRte 0 0x0B02 l ((s.remapDev l).getD 0) 0) s
  { s with slc := { s.slc with lost := s.slc.lost ++ [s.leadId, d], st := 2 } }

/-- SLICE_MEMBER_LOST (R617, R622, R799). -/
def execSliceMemberLost (logical : Nat) (s : State) : Res :=
  .next (s.whenB (s.takesPart && s.members.contains logical && !s.slc.lost.contains logical && s.silent logical) fun s =>
    if s.isLead then s.loseMember logical
    else match s.deputy with
      | none => s
      | some d =>
        if d ≠ s.myLogical ∧ (logical = d ∨ logical = s.leadId) ∧ s.silent d ∧ s.silent s.leadId ∧ ¬s.slc.lost.contains s.leadId
        then s.loseBoth d else s)

/-- The deputy takes over (R618, steps 3 to 5, R619). -/
def State.takeOver (s : State) : State :=
  let old := s.leadId
  let s := match s.mrd.steps.find? fun st => decide (s.slc.applied < st.num) with
    | some st => s.abandonFrom st.num 0x0B03 false
    | none => s
  let s := s.setReg pgRte 0x04C (putBits (s.regN pgRte 0x04C) 15 8 s.myLogical)
  let s := s.setReg pgInt 0x048 (putBits (s.regN pgInt 0x048) 30 30 1)
  let s : State := { s with
    intake := { s.intake with pend := [], expect := s.intake.table.foldl (fun m e => sset expDflt m e.1 e.2.oseq) s.intake.expect }
    slc := { s.slc with takeover := false, rounds := [] } }
  let s := s.toHosts s.slc.lastWrites
  let s := s.report pgRte 1 0x0B03 old s.myLogical s.slc.applied
  s.loseMember old

/-- SLICE_LEAD_CHANGE (R618): the deputy first asks every member for its last step, and takes over once all have answered. -/
def execSliceLeadChange (s : State) : Res :=
  .next (s.whenB (s.takesPart && !s.isLead && s.deputy == some s.myLogical && s.silent s.leadId
      && !s.slc.lost.contains s.leadId) fun s =>
    let others := s.peersUp.filter fun l => l != s.leadId
    if !s.slc.takeover then
      let s : State := { s with slc := { s.slc with takeover := true, status := [] } }
      if others.isEmpty then s.takeOver else s.sendAll others (.statusQ s.myLogical)
    else if others.all fun l => (sfind s.slc.status l).isSome then s.takeOver
    else s)

end Sys2Proof.Machine
end

