-- ==== Sys2Proof/Machine/Meridian.lean ====
section
/-! DEFINITION. Meridian (chapter 9): the stage-time law, deadlines, forming steps, the launch queue, decision ticks, step
commits and reissues, and the pending records that a commit point applies. -/

namespace Sys2Proof.Machine

/-! ### Parameters (R521, R522) -/

def State.mrdDepth (s : State) : Nat := bits (s.regN pgMrd 0x048) 29 26
def State.ncap (s : State) : Nat := bits (s.regN pgMrd 0x048) 25 21
def State.specK (s : State) : Nat := bits (s.regN pgMrd 0x048) 20 18
def State.mrdModeReg (s : State) : Nat := bits (s.regN pgMrd 0x048) 31 30
def State.chunkMin (s : State) : Nat := bits (s.regN pgMrd 0x068) 15 0
def State.chunkMax (s : State) : Nat := bits (s.regN pgMrd 0x068) 31 16
def State.pfMax (s : State) : Nat := bits (s.regN pgMrd 0x06C) 31 27
def State.pfTokensMax (s : State) : Nat := bits (s.regN pgMrd 0x06C) 16 0
def State.shedMargin (s : State) : Int := bits (s.regN pgMrd 0x070) 15 0
def State.sprintMargin (s : State) : Int := bits (s.regN pgMrd 0x070) 31 16

/-- The power headroom h, signed watts (R731). -/
def State.headroom (s : State) : Int := signed 32 (s.regN pgPwr 0x054)

/-! ### The stage-time law (R506, R726) -/

/-- CLK_F_RUN (R726): 0 when no comb holds an M tile in RUN. -/
def State.fRun (s : State) : Nat :=
  minNat 0 (((List.range 24).filter fun c => (List.range 120).any fun i => kindOf i == .m && s.inRun (mkSite c i)).map
    fun c => (s.comb c).nom)

/-- M_RUN: M tiles in RUN. -/
def State.mRun (s : State) : Nat :=
  sumNat ((List.range 24).map fun c => ((List.range 120).filter fun i => kindOf i == .m && s.inRun (mkSite c i)).length)

def State.rHbm (s : State) : Nat := s.mrd.hSvc * 1228800000000 * bits (s.regN pgMrd 0x064) 9 0 / 1000
def State.rArr (s : State) : Nat := s.mRun * 32 * (25000000 * s.fRun) * 32 / 33

/-- A quotient of R506 as a u64; a division by zero has a value that the spec does not state. -/
def quot64 (a b : Nat) : Nat := (if b = 0 then Config.divZero a else a / b) % 2 ^ 64

/-- A u64 read as an i64 (R510). -/
def asI64 (n : Nat) : Int := (BitVec.ofNat 64 n).toInt

/-- Time of the HBM part for s_tok tokens of context, of the array part for c cohorts of columns. -/
def State.tHbm (s : State) (tok : Nat) : Nat := quot64 ((s.reg64 pgMrd 0x058 + s.regN pgMrd 0x060 * tok) * 1000000000) s.rHbm
def State.tArr (s : State) (c : Nat) : Nat := quot64 (c * s.reg64 pgMrd 0x058 * 1000000000) s.rArr

/-- `stage_ns`, a u64. -/
def State.stageNs (s : State) (n tok pf : Nat) (spec : Bool) : Nat :=
  let c := if spec then n * (1 + s.specK) else n
  (s.regN pgMrd 0x04C * 1000 + max (s.tHbm tok) (s.tArr c) + pf * s.regN pgMrd 0x050
    + (if spec then s.regN pgMrd 0x054 * 1000 else 0)) % 2 ^ 64

/-! ### Deadlines and order (R507, R508) -/

/-- The deadline of a stream, none without one. -/
def State.deadline (s : State) (e : Stream) : Option Nat :=
  let g := s.guard e.cls
  if e.budget = 0 then none
  else if e.emittedGen then
    let a := if s.clsItl99 e.cls = 0 then [] else [g * s.clsItl99 e.cls * 1000 / 256]
    let b := if s.clsTps e.cls = 0 then [] else [1000000000 / s.clsTps e.cls]
    match a ++ b with
    | [] => some (e.lastEmit + 1000000000)
    | x :: l => some (e.lastEmit + l.foldl min x)
  else if s.clsFtb e.cls = 0 then some (e.reqStart + 1000000000)
  else some (e.reqStart + g * s.clsFtb e.cls * 1000 / 256)

/-- A candidate: stream, its deadline less now, its key (R508). -/
structure Cand where
  n : Nat
  e : Stream
  due : Option Int
  slack : Int
  key : Int
  deriving DecidableEq, Repr

def State.cand (s : State) (n : Nat) : Cand :=
  let e := s.stream n
  match s.deadline e with
  | none => { n, e, due := none, slack := 0, key := 0 }
  | some d =>
    let due : Int := (d : Int) - s.dev.chrono
    let slack : Int := due - s.mrdDepth * s.mrd.tsLast
    { n, e, due := some due, slack, key := (slack * 256).fdiv (s.clsPw e.cls) }

/-- The order of R508. -/
def Cand.before (a b : Cand) : Bool :=
  match a.due, b.due with
  | some _, none => true
  | none, some _ => false
  | none, none => decide (a.n ≤ b.n)
  | some _, some _ =>
    if a.key ≠ b.key then decide (a.key < b.key)
    else if a.e.cls ≠ b.e.cls then decide (a.e.cls < b.e.cls) else decide (a.n ≤ b.n)

def insertCand (a : Cand) : List Cand → List Cand
  | [] => [a]
  | b :: t => if a.before b then a :: b :: t else b :: insertCand a t

def sortCands (l : List Cand) : List Cand := l.foldr insertCand []

/-! ### Limits of the graphs (R501) -/

/-- The largest bucket D1 of a graph of the ACTIVE image; none without one. -/
def State.maxD1 (s : State) (graph : Nat) : Option Nat :=
  match s.activeSlot.bind fun n => (s.slot n).img with
  | none => none
  | some im => (im.graph? graph).map fun g => maxNat ((im.bucketsOf g).map fun b => b.2.d1)

/-- A combs of the ACTIVE image's footprint is PARKED: the ALT templates are in use (R500). -/
def State.altUse (s : State) : Bool :=
  match s.activeSlot.bind fun n => (s.slot n).img with
  | none => false
  | some im => (setBits 24 im.footprint).any fun p => s.combParked (s.physComb p)

/-- Graph of a role: 0 DEC, 1 PF, 2 VERIFY, 3 DRAFT, 4 DEC_ALT, 5 PF_ALT. -/
def State.roleGraph (s : State) (role : Nat) : Nat := bits (s.regN pgMrd 0x074) (31 - 4 * role) (28 - 4 * role)

/-- The decode stream fits the DEC graph. -/
def State.decFits (s : State) (e : Stream) : Bool :=
  match s.maxD1 (s.roleGraph 0) with
  | some d => decide (e.seqLen + 1 ≤ d)
  | none => true

/-- A chunk cut to the PF graph. -/
def State.pfCut (s : State) (e : Stream) (ch : Nat) : Nat :=
  match s.maxD1 (s.roleGraph 1) with
  | some d => min ch (d - e.seqLen)
  | none => ch

/-- A stream that no graph can take enters FAULTED at the next commit point (R501). -/
def State.tooLong (s : State) (n : Nat) : State :=
  if s.mrd.faulting.any fun f => f.1 == n then s
  else { s with mrd := { s.mrd with faulting := s.mrd.faulting ++ [(n, 0x0F03)] } }

/-! ### Taking streams (R460, R498, R509) -/

/-- A step as it is formed. -/
structure Forming where
  s : State
  decode : List (Nat × Nat)
  prefill : List (Nat × Nat)
  pages : List (Nat × List Nat)
  blocks : List (Nat × List Nat)
  cow : List (Nat × Nat × Nat × Nat)
  dropped : Nat
  deriving DecidableEq, Repr

def Forming.start (s : State) : Forming :=
  { s := s.kvLow, decode := [], prefill := [], pages := [], blocks := [], cow := [], dropped := 0 }

/-- Reserve what n new positions of a stream need (R460). -/
def Forming.reserve (f : Forming) (st n : Nat) : Option Forming :=
  match f.s.needKv st (f.s.stream st).seqLen n with
  | none => none
  | some r => some { f with
      s := { f.s with kv := f.s.kv.hold r }
      pages := if r.pages.isEmpty then f.pages else f.pages ++ [(st, r.pages)]
      blocks := if r.blocks.isEmpty then f.blocks else f.blocks ++ [(st, r.blocks)]
      cow := f.cow ++ r.cow }

def Forming.drop (f : Forming) : Forming := { f with dropped := f.dropped + 1 }

/-- New positions of a decode stream: one, and its drafts in a speculative step. -/
def State.newPos (s : State) (spec : Bool) (st : Nat) : Nat := if spec && (s.stream st).spec then 1 + s.specK else 1

/-- Take decode streams in order until `want` are taken; a failed reservation is skipped (R510). -/
def takeDecode (spec : Bool) : List Nat → Nat → Forming → Forming
  | [], _, f => f
  | st :: t, want, f =>
    if f.decode.length = want then f
    else match f.reserve st (f.s.newPos spec st) with
      | some g => takeDecode spec t want { g with decode := g.decode ++ [(g.decode.length, st)] }
      | none => takeDecode spec t want f

/-- The streams in a step already, or in one that awaits its replay. -/
def State.decodeCands (s : State) : List Nat :=
  (s.intake.table.filter fun e => e.2.ready && e.2.prompt == 0 && e.2.budget != 0 && !s.inStep e.1).map (·.1)

def State.prefillCands (s : State) : List Nat :=
  (s.intake.table.filter fun e => e.2.ready && e.2.prompt != 0 && !s.inStep e.1).map (·.1)

/-- Context of a list of streams. -/
def State.ctx (s : State) (l : List Nat) : Nat := sumNat (l.map fun n => (s.stream n).seqLen)

/-! ### Launches of a step (R499, R500) -/

/-- The column of draft j (0 for the stream's own) of decode entry i. -/
def columnOf (cohorts i j : Nat) : Nat := 32 * (j * cohorts + i / 32) + i % 32

/-- The column map: 512 stream IDs and 16 prefill entries (R500). -/
def Forming.map (f : Forming) (cohorts : Nat) (spec : Bool) : List Byte :=
  let live := f.decode.flatMap fun d =>
    let k := if spec && (f.s.stream d.2).spec then f.s.specK else 0
    (List.range (1 + k)).map fun j => (columnOf cohorts d.1 j, d.2)
  ((List.range 512).flatMap fun c => leBytes 4 (((live.find? fun x => x.1 == c).map (·.2)).getD 0xFFFFFFFF))
    ++ (List.range 16).flatMap fun i =>
      let p := nth (0, 0) f.prefill i
      leBytes 4 p.1 ++ leBytes 4 p.2

/-- The address of a launch template (R500). -/
def State.tplAddr (s : State) (role : Nat) : Nat := s.reg64 pgMrd 0x0A8 + 128 * role

/-- A launch record copied from its template with D0, D1 and MAP_ADDR (R500). -/
def State.fromTemplate (s : State) (role d0 d1 map num : Nat) : LRec :=
  let t := s.dramD (s.tplAddr role) 128
  { raw := t.take 4 ++ leBytes 4 d0 ++ leBytes 4 d1 ++ (t.drop 12).take 52 ++ leBytes 8 map ++ t.drop 72
    step := num, role, nj := 0 }

/-- The launches of a step: DEC, or DRAFT and VERIFY in a speculative step, then PF; the ALT templates while a comb of the
footprint is PARKED (R500). -/
def Forming.launches (f : Forming) (num ndec : Nat) (spec : Bool) (pos : Nat → Nat) (map : Nat) : List LRec :=
  let s := f.s
  let alt := s.altUse
  let d1 := maxNat (f.decode.map fun d => (s.stream d.2).seqLen + 1)
  let dec :=
    if f.decode.isEmpty then []
    else if spec then [s.fromTemplate 3 ndec d1 map num, s.fromTemplate 2 (ndec * (1 + s.specK)) (d1 + s.specK) map num]
    else [s.fromTemplate (if alt then 4 else 0) ndec d1 map num]
  let pf :=
    if f.prefill.isEmpty then []
    else [s.fromTemplate (if alt then 5 else 1) (sumNat (f.prefill.map (·.2))) (maxNat (f.prefill.map fun p => pos p.1 + p.2)) map num]
  dec ++ pf

/-- What a step is issued with besides its entries. -/
structure Issue where
  cohorts : Nat
  ndec : Nat
  spec : Bool
  tag : Nat
  done : Nat
  sprintReq : Bool
  rebuild : Bool
  deriving DecidableEq, Repr

/-- MRD_LAST_STEP (R525). -/
def lastStepWord (ts cohorts ndec pf : Nat) (spec sprint hbm : Bool) : Nat :=
  ts / 1000 % 2 ^ 20 * 2 ^ 44 + cohorts * 2 ^ 39 + ndec * 2 ^ 29 + pf % 2 ^ 17 * 2 ^ 12 + b2n spec * 2 ^ 11 + b2n sprint * 2 ^ 10
    + b2n hbm * 2 ^ 9

/-- A formed step is issued (R499, R500). -/
def Forming.issue (f : Forming) (x : Issue) : State :=
  let s := f.s
  let num := s.mrd.next
  let pf := sumNat (f.prefill.map (·.2))
  let tok := s.ctx (f.decode.map (·.2) ++ f.prefill.map (·.1))
  let ts := s.stageNs x.cohorts tok pf x.spec
  let at_ := s.reg64 pgMrd 0x0B0 + 4096 * (num % 16)
  let map := (if s.inSlice then s.myLogical * 2 ^ 40 else 0) + at_
  let s := s.dramWrite at_ (f.map x.cohorts x.spec)
  let pos := fun (n : Nat) => if x.rebuild then s.rebuildPos n else (s.stream n).seqLen
  let recs := ({ f with s } : Forming).launches num x.ndec x.spec pos map
  let st : StepRec := {
    num, decode := f.decode, prefill := f.prefill, spec := x.spec, cohorts := x.cohorts, sprint := s.clk.held && s.clk.sprint == 2
    tag := x.tag, done := x.done, dropped := f.dropped, ts, start := s.dev.chrono, attempts := 0, forbids := [], past := []
    recs, results := [], newPages := f.pages, newBlocks := f.blocks, cow := f.cow, copied := [], seals := [], shadows := 0
    rebuild := x.rebuild, faulted := [], taints := [] }
  let s : State := { s with mrd := { s.mrd with
    next := num + 1, steps := s.mrd.steps ++ [st], tsLast := ts, lastStart := s.dev.chrono, startedOnce := true } }
  let hbm := decide (s.tArr (if x.spec then x.cohorts * (1 + s.specK) else x.cohorts) ≤ s.tHbm tok)
  let s := s.setReg64 pgMrd 0x0A0 (lastStepWord ts x.cohorts f.decode.length pf x.spec x.sprintReq hbm)
  let s := recs.foldl (fun s r => (s.dispatch (.launch r)).noteRead (s.tplAddr r.role) 128 (some num)) s
  (if f.dropped = 0 then s else s.flag pgMrd 1).kvLow

/-! ### When a step may start (R505, R517, R520, R617, R774) -/

/-- The chronometer stands at a decision tick. -/
def State.atTick (s : State) : Bool := s.dev.chrono % 250000 == 0

/-- The conditions of R505. -/
def State.depthOk (s : State) : Bool :=
  decide (s.mrd.steps.length < s.mrdDepth) && (!s.mrd.startedOnce || decide (s.mrd.lastStart + s.mrd.tsLast ≤ s.dev.chrono))

/-- The device holds its host writes, and its intake unit takes the host's records: no step starts (R656). -/
def State.hostWait (s : State) : Bool := !s.hostOpen && bit (s.regN pgInt 0x048) 30

/-- R505 permits a step at this tick on this device: it forms steps, and fewer than DEPTH are in flight. -/
def State.stepTick (s : State) : Bool := s.live && s.mrd.configured && s.depthOk && !s.follower

/-- A step may start on this device: its host writes go out (R656), the slice is not SUSPENDED (R617), a commit point for records alone is
over (R418, R613), and in AUTONOMOUS mode no switch is queued (R517). -/
def State.mayStart (s : State) : Bool :=
  s.stepTick && !s.hostWait && s.slc.st != 2 && !(s.mrd.mode == 2 && s.switchQueued)
    && !(s.slc.rounds.any fun r => !r.body.hasStep && r.phase != 2)

/-! ### AUTONOMOUS: choosing the step (R510 to R514) -/

/-- r(C, k): the least time to a deadline over the first k candidates. -/
def rOf (l : List Cand) (k : Nat) : Option Int :=
  match (l.take k).filterMap (·.due) with
  | [] => none
  | x :: t => some (t.foldl min x)

/-- A time meets a deadline (the comparison of R510 as i64). -/
def meets (t : Nat) (r : Option Int) : Bool :=
  match r with
  | none => true
  | some d => decide (asI64 t ≤ d)

/-- The loop over m of `form`: the cohorts and r. -/
def State.pickN (s : State) (c : List Cand) (nmax : Nat) : Nat → Nat × Option Int
  | 0 => (nmax, none)
  | m + 1 =>
    let r := rOf c (32 * (m + 1))
    if meets (s.mrdDepth * s.stageNs (m + 1) (s.ctx ((c.take (32 * (m + 1))).map (·.n))) 0 false) r then (m + 1, r)
    else if m = 0 then (nmax, rOf c (32 * nmax))
    else State.pickN s c nmax m

/-- Prefill tokens that fit (R510). -/
def State.room (s : State) (r : Option Int) (ts : Nat) (f : List Cand) : Nat :=
  let need := s.mrdDepth * ts
  let room := match r with
    | none => s.pfTokensMax
    | some d => if asI64 need < d then (d - need).toNat / (s.mrdDepth * s.regN pgMrd 0x050) % 2 ^ 32 else 0
  let room := min room s.pfTokensMax
  let room := if room < s.chunkMin then
      (if f.head?.any fun x => x.due.isSome && decide (x.slack < 0) then s.chunkMin else 0)
    else room
  room - room % s.chunkMin

/-- Take prefill streams while there is room. -/
def takePrefill : List Nat → Nat → Forming → Forming
  | [], _, f => f
  | n :: t, room, f =>
    if room = 0 ∨ f.s.pfMax ≤ f.prefill.length then f
    else
      let e := f.s.stream n
      let ch := f.s.pfCut e (min e.prompt (min f.s.chunkMax room))
      if ch = 0 then takePrefill t room f
      else match f.reserve n ch with
        | some g => takePrefill t (room - ch) { g with prefill := g.prefill ++ [(n, ch)] }
        | none => takePrefill t room f

/-- The conditions under which a formed step asks for Sprint (R514): `dec` is the context of its decode streams, of which `form` takes ts
(R510), `tok` that of all its streams. -/
def State.wantsSprint (s : State) (n dec tok : Nat) (spec : Bool) (r : Option Int) : Bool :=
  s.manuka && !s.steady && decide (s.tHbm tok < s.tArr (if spec then n * (1 + s.specK) else n))
    && !meets (s.mrdDepth * s.stageNs n dec 0 false) r && decide (s.sprintMargin ≤ s.headroom)

/-- The contexts of a step's decode streams and of all its streams. -/
def Forming.ctxs (f : Forming) (s : State) : Nat × Nat :=
  (s.ctx (f.decode.map (·.2)), s.ctx (f.decode.map (·.2) ++ f.prefill.map (·.1)))

/-- SPRINT_REQUEST and SPRINT_RELEASE for a step (R514, R725). -/
def State.sprintRule (s : State) (want : Bool) : State :=
  if want then (if s.clk.held then s else s.sprintRequest) else s.sprintRelease

/-- Reserve for prefill entries with their chunks; a stream whose reservation fails is left out (R460). -/
def keepPrefill : List (Nat × Nat) → Forming → Forming
  | [], f => f
  | (n, ch) :: t, f => match f.reserve n ch with
    | some g => keepPrefill t { g with prefill := g.prefill ++ [(n, ch)] }
    | none => keepPrefill t f

/-- The speculative form of a step: the same streams, with room for their drafts; one whose reservation fails is left out (R460). -/
def Forming.speculate (f : Forming) (s0 : State) : Forming :=
  let l := f.decode.map (·.2)
  keepPrefill f.prefill (takeDecode true l l.length (Forming.start s0))

/-- `form` (R510): the forming step, its cohorts, r and whether it speculates. -/
def State.choose (s : State) : Forming × Nat × Option Int × Bool :=
  let fit := fun (l : List Nat) => l.filter fun n => s.decFits (s.stream n)
  let c := sortCands ((fit s.decodeCands).map s.cand)
  let f := sortCands (((s.prefillCands).filter fun n => s.pfCut (s.stream n) 1 != 0).map s.cand)
  let nmax := min (min s.ncap s.mrd.shedCap) ((c.length + 31) / 32)
  let (n, r) := s.pickN c nmax nmax
  let g := takeDecode false (c.map (·.n)) (32 * n) (Forming.start s)
  let taken := g.decode.map (·.2)
  let room := s.room r (s.stageNs n (s.ctx taken) 0 false) f
  let h := takePrefill (f.map (·.n)) room g
  let tok := s.ctx (taken ++ h.prefill.map (·.1))
  let spec := decide (0 < s.specK) && (taken.any fun x => (s.stream x).spec) && decide (n * (1 + s.specK) ≤ 16)
    && decide (s.tArr (n * (1 + s.specK)) ≤ s.tHbm tok)
  (if spec then h.speculate s else h, n, r, spec)

/-- Streams too long for their graphs are marked at a tick, whatever the mode (R501); a follower learns of them from its lead (R455). -/
def State.markLong (s : State) : State :=
  if !s.mrd.configured || s.follower then s
  else
  let l := (s.decodeCands.filter fun n => !s.decFits (s.stream n)) ++ s.prefillCands.filter fun n => s.pfCut (s.stream n) 1 == 0
  l.foldl State.tooLong s

/-- STEP_FORM (R510, R512). -/
def State.formStep (s : State) : State :=
  let (f, n, r, spec) := s.choose
  if f.decode.isEmpty && f.prefill.isEmpty then s
  else
    let want := s.wantsSprint n (f.ctxs s).1 (f.ctxs s).2 spec r
    let f : Forming := { f with s := f.s.sprintRule want }
    f.issue { cohorts := n, ndec := f.decode.length, spec, tag := 0, done := 0, sprintReq := want, rebuild := false }

/-- PROPOSAL_WRITE (R518): a step record with its lists; it reserves nothing. -/
def State.propose (s : State) : State :=
  let (f, n, r, spec) := s.choose
  let want := s.wantsSprint n (f.ctxs s).1 (f.ctxs s).2 spec r
  let slots := s.regN pgMrd 0x098
  let a := s.reg64 pgMrd 0x090 + 4096 * (s.regN pgMrd 0x09C % slots)
  let rec_ := leBytes 1 3 ++ leBytes 1 (b2n spec + 2 * b2n want) ++ leBytes 1 n ++ leBytes 1 f.prefill.length
    ++ leBytes 2 f.decode.length ++ leBytes 2 0 ++ leBytes 8 (a + 128) ++ leBytes 8 (a + 2176) ++ leBytes 8 0
    ++ leBytes 4 s.dev.chrono ++ leBytes 92 0
  let s := s.dramWrite a rec_
  let s := s.dramWrite (a + 128) (f.decode.flatMap fun d => leBytes 4 d.2)
  let s := s.dramWrite (a + 2176) (f.prefill.flatMap fun p => leBytes 4 p.1 ++ leBytes 4 p.2)
  s.wrapReg pgMrd 0x09C

/-- A rebuild step (R623): prefill chunks over positions that the slice had committed. -/
def State.formRebuild (s : State) : State :=
  let l := (s.rebuildLeft.take s.pfMax).map fun n => (n, min s.chunkMax ((s.stream n).seqLen - s.rebuildPos n))
  if l.isEmpty then s.rebuildDone
  else ({ Forming.start s with prefill := l } : Forming).issue
    { cohorts := 0, ndec := 0, spec := false, tag := 0, done := 0, sprintReq := false, rebuild := true }

/-! ### The launch queue (R494 to R498, R516) -/

/-- The form of a step record (R495). -/
def stepForm (r : List Byte) : Bool :=
  let nd := leAt r 4 2
  let co := leAt r 2 1
  decide (leAt r 1 1 ≤ 3) && decide (leAt r 3 1 ≤ 16) && decide (nd ≤ 512) && leAt r 6 2 == 0 && leAt r 36 92 == 0
    && (if nd = 0 then decide (co ≤ 16) else decide ((nd + 31) / 32 ≤ co) && decide (co ≤ 16) && co != 0)

/-- LQ_REJECT (R496): the record is skipped, with a completion record of its kind's form; DONE_ADDR of an unknown kind is read where R495
places it (log 111). -/
def State.lqReject (s : State) (idx : Nat) (r : List Byte) : State :=
  let s := match leAt r 0 1 with
    | 1 => s.record (leAt r 48 8) (doneRec 2 0 0xFF 0 0 0 0)
    | 2 => s.record (leAt r 48 8) (doneRec 2 0 0xFF 0 0 0 0)
    | _ => s.record (leAt r 24 8) (stepDone 2 0 0 0 0 0 (leAt r 32 4) 0 s.dev.chrono s.dev.chrono)
  s.report pgMrd 0 0x0F01 idx (leAt r 0 1) 0

/-- The decode entries of a record, dropping those of R498; their columns stay non-live. `seen` holds the streams that appear
earlier in the record, dropped entries too. -/
def recDecode (spec : Bool) : List (Nat × Nat) → List Nat → Forming → Forming
  | [], _, f => f
  | (i, n) :: t, seen, f =>
    let e := f.s.stream n
    if !e.ready || f.s.inStep n || seen.contains n then recDecode spec t (n :: seen) f.drop
    else if !f.s.decFits e then recDecode spec t (n :: seen) { f.drop with s := f.s.tooLong n }
    else match f.reserve n (f.s.newPos spec n) with
      | some g => recDecode spec t (n :: seen) { g with decode := g.decode ++ [(i, n)] }
      | none => recDecode spec t (n :: seen) f.drop

/-- The prefill entries of a record. -/
def recPrefill : List (Nat × Nat) → List Nat → Forming → Forming
  | [], _, f => f
  | (n, ch) :: t, seen, f =>
    let e := f.s.stream n
    let cut := f.s.pfCut e ch
    if !e.ready || f.s.inStep n || seen.contains n || ch == 0 || decide (e.prompt < ch) then recPrefill t (n :: seen) f.drop
    else if cut = 0 then recPrefill t (n :: seen) { f.drop with s := f.s.tooLong n }
    else match f.reserve n cut with
      | some g => recPrefill t (n :: seen) { g with prefill := g.prefill ++ [(n, cut)] }
      | none => recPrefill t (n :: seen) f.drop

/-- The step former consumes the step record of an index (R495, R497 to R500); in Steady mode it requests no Sprint (R515). Speculation runs where the drafts' cohorts fit
(log 41). A record whose lists are read as poison breaks the table of R495 (DEDUCED, log 87). -/
def State.takeStepRec (s : State) (idx : Nat) (r : List Byte) : State :=
  let nd := leAt r 4 2
  let npf := leAt r 3 1
  let co := leAt r 2 1
  let done := leAt r 24 8
  let tag := leAt r 32 4
  let spec := bit (leAt r 1 1) 0 && s.specK != 0 && decide (co * (1 + s.specK) ≤ 16)
  let noop := fun (s : State) (dropped : Nat) =>
    s.record done (stepDone 1 0 0 dropped 0 0 tag 0 s.dev.chrono s.dev.chrono)
  let dr := s.fetch (leAt r 8 8) (4 * nd) none
  let pr := dr.s.fetch (leAt r 16 8) (8 * npf) none
  if nd = 0 ∧ npf = 0 then noop s 0
  else if dr.poison || pr.poison then pr.s.lqReject idx r
  else
    let s := pr.s
    let db := dr.data
    let pb := pr.data
    let dl := (List.range nd).map fun i => leAt db (4 * i) 4
    let f := recDecode spec ((List.range nd).map fun i => (i, nth 0 dl i)) [] (Forming.start s)
    let f := recPrefill ((List.range npf).map fun i => (leAt pb (8 * i) 4, leAt pb (8 * i + 4) 4)) dl f
    if f.decode.isEmpty && f.prefill.isEmpty then noop (f.s.flag pgMrd 1) f.dropped
    else
      let want := bit (leAt r 1 1) 1 && !f.s.steady
      let f : Forming := { f with s := f.s.sprintRule want }
      f.issue { cohorts := co, ndec := nd, spec, tag, done, sprintReq := want, rebuild := false }

def State.lqHead (s : State) : Nat := s.regN pgMrd 0x088
def State.lqTail (s : State) : Nat := s.regN pgMrd 0x084

/-- STEP_RECORD: the step former takes the record at MRD_LQ_HEAD (R494 to R498, R505, R516, R520). -/
def execStepRecord (s : State) : Res :=
  let size := s.regN pgMrd 0x080
  if !s.live || !s.mrd.configured || s.lqHead % size == s.lqTail % size then .next s
  else
    let h := s.lqHead % size
    let a := s.reg64 pgMrd 0x078 + 128 * h
    let r := s.dramD a 128
    let auto := s.mrd.mode == 2
    let took := (s.setReg pgMrd 0x088 ((h + 1) % size)).noteRead a 128 none
    match leAt r 0 1 with
    | 1 =>
      if auto then .next (took.lqReject h r)
      else .next (took.dispatch (.launch { raw := r, step := 0, role := 0, nj := 0 }))
    | 2 =>
      if s.inSlice && s.isLead then .next { took with slc := { took.slc with switches := took.slc.switches ++ [r] } }
      else .next (took.dispatch (.switch (switchOf r)))
    | 3 =>
      if auto || !stepForm r then .next (took.lqReject h r)
      else if s.atTick && s.mayStart && s.mrd.abandoned.isEmpty && s.slc.st != 3 then .next (took.takeStepRec h r)
      else .next s
    | _ => .next (took.lqReject h r)

/-- LQ_TAIL_WRITE (R494). -/
def execLqTailWrite (src : Source) (val : Word) (s : State) : Res :=
  .next (s.goWrite src pgMrd 0x084 false fun s => s.setReg pgMrd 0x084 val.toNat)

/-! ### The decision tick (R504, R513, R516, R519, R724) -/

/-- Staged MRD_ values take effect at the tick, MODE at the first one without a step in flight (R519); a class's guard is 256
when its values are committed (R482). -/
def State.applyMrd (s : State) : State :=
  let idle := s.mrd.steps.isEmpty
  let half := (s.page pgMrd).pending && s.mrd.mode != s.mrdModeReg
  let results := (s.page pgMrd).results
  let s := if (s.page pgMrd).pending && !half then
      let s := s.applyPage pgMrd
      let s : State := { s with mrd := { s.mrd with shedCap := min s.mrd.shedCap s.ncap } }
      if s.mrd.mode != s.mrdModeReg && !idle then s.updPage pgMrd fun g => { g with pending := true, results } else s
    else s
  let s := if idle && s.mrd.mode != s.mrdModeReg then
      let s : State := { s with mrd := { s.mrd with mode := s.mrdModeReg } }
      if half then s.updPage pgMrd fun g => { g with pending := false, results := settle g.results } else s
    else s
  [1, 2].foldl (fun s i =>
    if (s.page (pgMrd + i)).pending then
      let cs := (s.stagedOf (pgMrd + i)).map fun e => 32 * (i - 1) + (e.1 % 4096 - 0x400) / 32
      let s := s.applyPage (pgMrd + i)
      { s with mrd := { s.mrd with guards := cs.foldl (fun g c => sset guardDflt g c 256) s.mrd.guards } }
    else s) s

/-- SHED_UPDATE (R513). -/
def State.shedUpdate (s : State) : State :=
  let seq := s.regN pgPwr 0x058
  if seq = s.mrd.lastSeq then s
  else
    let s : State := { s with mrd := { s.mrd with lastSeq := seq } }
    if s.headroom < s.shedMargin then
      if s.clk.held then s.sprintRelease
      else { s with mrd := { s.mrd with shedCap := max 1 (s.mrd.shedCap - 1) } }
    else if 2 * s.shedMargin ≤ s.headroom then { s with mrd := { s.mrd with shedCap := min s.ncap (s.mrd.shedCap + 1) } }
    else s

/-- The commit point of a tick at which no step is in flight (R418). The lead of a slice carries everything that changes a stream to the
other devices in a COMMIT without a step; a follower applies nothing of its own (R455, R613). -/
def State.tickCommit (s : State) : State :=
  if s.follower then s
  else if s.inSlice then
    if !(s.carried 0).isEmpty || !s.slc.switches.isEmpty || !s.slc.remap.isEmpty || !s.intake.reports.isEmpty
        || !s.kv.draining.isEmpty || !s.mrd.faulting.isEmpty then
      if s.slc.rounds.isEmpty then s.openNoStep else s
    else (s.withRecords [] fun s => s.commitPoint none []).releaseRound 0
  else s.commitPoint none []

/-- DECISION_TICK (R504 to R519). -/
def execDecisionTick (s : State) : Res :=
  if !s.live || !s.dev.running || !s.atTick then .next s
  else
    let s := s.applyMrd
    let s := if s.mrd.steps.isEmpty && (s.page pgClk).pending && !(s.clk.waiting.any fun x => x.1 == pgClk) && s.clkModeStaged then s.applyClkCfg else s
    let s := s.shedUpdate
    let s := if s.mrd.steps.isEmpty then s.tickCommit else s
    let s := s.markLong
    let s := if s.mrd.mode == 1 && s.stepTick then s.propose else s
    if !s.mayStart || !s.mrd.abandoned.isEmpty then .next s
    else if s.slc.st = 3 then .next (if s.mrd.steps.isEmpty then s.formRebuild else s)
    else if s.mrd.mode = 2 then .next s.formStep
    else .next s

/-! ### Commit and reissue (R770, R774) -/

/-- STEP_COMMIT: the oldest step in flight commits once every condition of R770 holds; in a slice through COMMIT (R613). -/
def execStepCommit (s : State) : Res :=
  let s := match s.mrd.steps with
    | [] => s
    | st :: _ => if s.stepReady st then s.finishCopies st else s
  match s.mrd.steps with
  | [] => .next s
  | st :: _ =>
    if s.inSlice || !s.live || !s.stepReady st then .next s
    else if st.rebuild then .next (s.rebuildCommit st [])
    else .next (s.commitStep st st.results)

/-- Recovery of an abandoned step is complete: no stand-in runs its test, no switch is queued (R774). -/
def State.recovered (s : State) : Bool := s.die.standIns.isEmpty && !s.switchQueued

/-- Reserve again what an abandoned step needs; all of it, or none. -/
def State.reserveAgain (s : State) (st : StepRec) : Option Forming :=
  if st.rebuild then some (Forming.start s)
  else
    let want := st.decode.map (fun d => (d.2, s.newPos st.spec d.2)) ++ st.prefill
    want.foldl (fun f x => f.bind fun f => f.reserve x.1 x.2) (some (Forming.start s))

/-- STEP_REISSUE: an abandoned step goes out again, unchanged, ahead of every new one (R774). -/
def execStepReissue (s : State) : Res :=
  match s.mrd.abandoned with
  | [] => .next s
  | st :: rest =>
    if !s.live || !s.atTick || !s.depthOk || !s.recovered || s.hostWait || s.slc.st == 2 then .next s
    else match s.reserveAgain st with
      | none => .next s
      | some f =>
        let st' : StepRec := { st with newPages := f.pages, newBlocks := f.blocks, cow := f.cow }
        let s : State := { f.s with mrd := { f.s.mrd with
          abandoned := rest, steps := f.s.mrd.steps ++ [st'], tsLast := st.ts, lastStart := s.dev.chrono, startedOnce := true } }
        let at_ := s.reg64 pgMrd 0x0B0 + 4096 * (st.num % 16)
        let g : Forming := { f with s, decode := st.decode, prefill := st.prefill }
        let s := s.dramWrite at_ (g.map st.cohorts st.spec)
        .next (st.recs.foldl (fun s r => s.dispatch (.launch r)) s).kvLow

/-! ### Pending records at a commit point (R419, R439 to R446) -/

/-- A commit point may be made for records alone: a tick without a step, on a device that applies its own records (R418). -/
def State.recordTime (s : State) : Bool :=
  s.live && s.dev.running && s.atTick && s.mrd.steps.isEmpty && !s.inSlice

/-- The oldest pending record of a stream is of an operation and may be applied. -/
def State.headIs (s : State) (op n : Nat) : Bool :=
  match s.pendOf n with
  | [] => false
  | p :: _ => recOp p.raw == op && p.fetched && !s.inStep n

/-- Streams that are to enter FAULTED at the next commit point enter it, before any record of theirs is applied (R425, R778). -/
def State.faultPoint (s : State) : State :=
  if s.mrd.faulting.isEmpty then s
  else
    let faults := s.mrd.faulting
    let s : State := { s with mrd := { s.mrd with faulting := [] } }
    let s := (sortStreams (faults.map (·.1))).foldl (fun s n =>
      let old := s.stream n
      let code := ((faults.find? fun f => f.1 == n).map (·.2)).getD 0
      (s.setStream n { old with st := 7, fault := code }).streamWrites n old []) s
    s.logStreamFaults faults

/-- Apply the oldest pending record of a stream, derive its state and make its host-visible writes. -/
def State.recordPoint (s : State) (op n : Nat) : State :=
  if !s.recordTime || !s.headIs op n then s
  else
    let s := s.faultPoint
    let old := s.stream n
    let s := (s.showOseq n).applyPending n 1
    let e := s.stream n
    let s := if e.st = 1 ∨ e.st = 2 ∨ e.st = 3 then s.setStream n e.derive else s
    (s.streamWrites n old []).kvLow

/-- OPEN (R439). -/
def execOpenRec (stream : Nat) (s : State) : Res := .next (s.recordPoint 1 stream)
/-- APPEND (R440 to R443). -/
def execAppendRec (stream : Nat) (s : State) : Res := .next (s.recordPoint 2 stream)
/-- GENERATE (R444). -/
def execGenerateRec (stream : Nat) (s : State) : Res := .next (s.recordPoint 3 stream)
/-- PAUSE (R426). -/
def execPauseRec (stream : Nat) (s : State) : Res := .next (s.recordPoint 4 stream)
/-- RESUME (R426, R427). -/
def execResumeRec (stream : Nat) (s : State) : Res := .next (s.recordPoint 5 stream)
/-- FORK (R446, R461). -/
def execForkRec (stream : Nat) (s : State) : Res := .next (s.recordPoint 6 stream)
/-- CLOSE (R423, R464). -/
def execCloseRec (stream : Nat) (s : State) : Res := .next (s.recordPoint 7 stream)
/-- QUERY (R445). -/
def execQueryRec (stream : Nat) (s : State) : Res := .next (s.recordPoint 8 stream)

end Sys2Proof.Machine
end

