-- ==== Sys2Proof/Machine/View.lean ====
section
/-! DEFINITION. What a page reads (R670 to R679, R864 to R876): the common header, the registers that report state held elsewhere
(the status registers of every class), the staged view, alias pages. -/

namespace Sys2Proof.Machine

/-! ### Which page answers (R679, R868, R874) -/

/-- The site that an alias page's logical index has in its comb (R867). -/
def aliasComb (p : Nat) : Nat := (p - 6144) / 108
def aliasIdx (p : Nat) : Nat := (p - 6144) % 108

/-- The page that serves an order or a read: the physical page behind an alias, none for a logical hole (R679). -/
def State.servedPage (s : State) (p : Nat) : Option Nat :=
  if isAlias p then (if s.combGone (aliasComb p) then none else s.serving (aliasComb p) (aliasIdx p)) else some p

/-- A tile or router page of an OFF comb (R874). -/
def State.offPage (s : State) (p : Nat) : Bool :=
  (decide (p < 2880) && s.combOff (siteComb p)) ||
    (decide (3072 ≤ p) && decide (p < 5952) && s.combOff (siteComb (p - 3072)))

/-! ### Status registers of the tiles -/

/-- MTL_STATUS (R165). -/
def State.mtlStatus (s : State) (site : Nat) : Nat :=
  let t := s.mtile site
  t.level * 2 ^ 16 + min 3 t.groups.length * 2 ^ 14
    + (match t.pass with
      | some q => 2 ^ 13 + b2n (pPset q.rec_.toNat) * 2 ^ 12
      | none => 0)
    + b2n (t.loads.any (·.started)) * 2 ^ 11 + b2n t.b.poison * 2 ^ 10 + b2n t.a.poison * 2 ^ 9
    + b2n t.b.ready * 2 ^ 8 + b2n t.a.ready * 2 ^ 7

/-- BUF_STATUS (R354, R349). -/
def State.bufStatus (s : State) (site : Nat) : Nat :=
  b2n (s.combParked (siteComb site)) * 2 ^ 11 + b2n (s.regN site 0x064 % 65536 != 0) * 2 ^ 10
    + ((List.range 32).filter fun n => bit (s.bWin site n) 31).length

/-- BUF_HOLD (R358). -/
def State.bufHold (s : State) (site : Nat) : Nat :=
  let t := s.btile site
  let age := match leastBy (·.arr) t.hold with
    | some h => min 4095 (t.now - h.arr)
    | none => 0
  age * 2 ^ 16 + t.hold.length

/-- Shadowed operations queued on an S tile as partner or arbiter (R217). -/
def State.shadowPend (s : State) (site : Nat) : Nat :=
  sumNat (s.st.map fun e => (e.2.shadows.filter fun x =>
    (x.partner == site && x.pout.isNone) || x.arb == some site).length)

/-- SFU_STATUS (R217): operations are atomic here, so none is in flight between commands. -/
def State.sfuStatus (s : State) (site : Nat) : Nat :=
  s.shadowPend site % 256 * 256 + b2n (!(s.stile site).shadows.isEmpty) * 2

/-- WAG_STATUS (R220). -/
def State.wagStatus (s : State) (site : Nat) : Nat :=
  let t := s.wtile site
  min 64 t.entries * 2 ^ 16 + sumNat ((List.range 16).map fun i => b2n ((t.input i).st == 3) * 2 ^ i)

/-- WAG_IN_SEQn (R223). -/
def State.wagInSeq (s : State) (site i : Nat) : Nat :=
  let x := (s.wtile site).input i
  x.remain % 512 * 2 ^ 20 + x.st % 4 * 2 ^ 16 + x.next % 4096

/-- MSH_STATUS (R298). -/
def State.mshStatus (s : State) (site : Nat) : Nat :=
  let r := s.router site
  sumNat ((List.range 4).map fun i =>
      b2n ((neighbour site (i + 1)).isSome && !r.down.contains (i + 1) && s.linkUp site (i + 1)
        && !s.facesOff site (i + 1)) * 2 ^ (16 + i))
    + b2n (s.combParked (siteComb site)) * 2 ^ 11 + b2n (s.physHole site) * 2 ^ 10 + s.copyState site * 2 ^ 8

/-! ### Bridges, combs, clocks, power, temperature -/

/-- The combs on the two sides of a bridge (R19). -/
def bridgeCombs (n : Nat) : Nat × Nat :=
  let h := bridgeHome n
  (siteComb h.1, siteComb ((neighbour h.1 h.2).getD h.1))

/-- Flits in the queue of the crossing that an out-port leads over (R306). -/
def State.crossLevel (s : State) (site port : Nat) : Nat := (sget listDflt (s.router site).cross port).length

/-- SEAM_STATUS (R306). With a side OFF the ratio reads its reset value. -/
def State.seamStatus (s : State) (n : Nat) : Nat :=
  let (a, b) := bridgeCombs n
  let lo := min (s.comb a).nom (s.comb b).nom
  let hi := max (s.comb a).nom (s.comb b).nom
  b2n (s.die.seamOff.contains n) * 2 ^ 31
    + (if s.combOff a || s.combOff b || lo == 0 then 0x10 else min 0x40 (hi * 16 / lo)) * 2 ^ 16
    + s.crossLevel (bridgeHome n).1 (bridgeHome n).2 * 2 ^ 8
    + (match neighbour (bridgeHome n).1 (bridgeHome n).2 with
      | some far => s.crossLevel far (opposite (bridgeHome n).2)
      | none => 0)

/-- CMB_STATUS (R751). -/
def State.cmbStatus (s : State) (c : Nat) : Nat :=
  let x := s.comb c
  let moving := x.localCh.isSome || match s.clk.sync with
    | some ch => ch.moves.any fun m => m.1 == c
    | none => false
  (if s.combOff c then 0 else x.nom % 256) * 2 ^ 24 + x.tgt % 256 * 2 ^ 16 + x.marginMin % 64 * 16
    + b2n x.stretching * 8 + b2n x.throttled * 4 + b2n moving * 2 + x.adpll % 2

/-- CMB_VOLT (R753). -/
def State.cmbVolt (s : State) (c : Nat) : Nat :=
  let x := s.comb c
  s.vset c % 1024 * 2 ^ 16 + x.vmeas % 1024 * 64 + x.vtrim % 16 * 4 + s.offsetOf c

/-- CLK_STATUS (R747). -/
def State.clkStatus (s : State) : Nat :=
  b2n (!s.steady) * 2 ^ 31 + s.clk.sprint % 4 * 2 ^ 29 + s.clk.reason % 8 * 2 ^ 26 + b2n s.clk.brake * 2 ^ 25
    + bitN s.dev.refs 0 * 2 ^ 24 + bitN s.dev.refs 1 * 2 ^ 23 + bitN s.dev.refs 2 * 2 ^ 22

/-- PWR_STATUS (R757): the other bits are held in the register. -/
def State.pwrStatus (s : State) : Nat := putBits (s.regN pgPwr 0x040) 31 31 (b2n s.dev.brakeIn)

/-- Combs in throttle, and combs PARKED for heat (R760). -/
def State.throttledCombs (s : State) : List Nat := (List.range 24).filter fun c => (s.comb c).throttled
def State.heatParked (s : State) : List Nat := (List.range 24).filter fun c => s.combParked c && (s.comb c).parkCause == 1

/-- THM_STATUS (R761). -/
def State.thmStatus (s : State) : Nat :=
  maxNat ((List.range 24).map fun c => (s.comb c).temp) % 256 * 2 ^ 24
    + maxNat ((List.range 12).map fun h => (s.stack h).temp) % 256 * 2 ^ 16
    + s.throttledCombs.length * 256 + s.heatParked.length

/-! ### Defect map -/

/-- A unit of the defect list lies at a site (R58). -/
def State.onList (s : State) (site : Nat) : Bool :=
  s.die.defects.any fun d => d == .tile site || d == .router site

/-- The free spares of a kind in a comb (R32, R59); a comb that is OFF has none, its sites being holes (R41, log 99). -/
def State.spares (s : State) (c : Nat) (k : Kind) : Nat :=
  ((List.range 12).filter fun i =>
    let site := mkSite c (108 + i)
    kindOf (108 + i) == k && !s.onList site && (s.served site).isNone && !s.combOff c).length

/-- DFM_SPARE_FREE (R59). -/
def State.spareWord (s : State) (c : Nat) : Nat :=
  s.spares c .w * 2 ^ 12 + s.spares c .s * 256 + s.spares c .b * 16 + s.spares c .m

/-- DFM_HOLE_COUNT (R60). -/
def State.holeWord (s : State) (c : Nat) : Nat :=
  let n := fun (k : Kind) => ((logicals k).filter fun l => s.logHole c l).length
  n .w * 2 ^ 24 + n .s * 2 ^ 16 + n .b * 256 + n .m

/-- SIDE_LOST of an entry: a pairing of an M or B logical site runs on the mesh because a spare serves one of the two (R37, R61). -/
def sideLost (entry : Nat → Nat) (l : Nat) : Bool :=
  let served := fun (x : Nat) => !bit (entry x) 15
  let moved := fun (x : Nat) => served x && bit (entry x) 14
  let mates := (List.range 108).filter fun m => sidePair l m && served m
  served l && ((moved l && !mates.isEmpty) || mates.any moved)

/-- A remap entry as it reads: of an OFF comb no site serves any index (R38, R41, R61). -/
def State.remapWord (s : State) (c l : Nat) : Nat :=
  let e := fun (n : Nat) => if s.combOff c then putBits (s.remap c n) 15 14 2 else putBits (s.remap c n) 15 15 (b2n (s.logHole c n))
  putBits (e l) 13 13 (b2n (sideLost e l))

/-- DFM_SEAM_SUMMARY (R64). -/
def State.seamSummary (s : State) : Nat :=
  s.die.seamOff.length * 2 ^ 16 + sumNat ((List.range 156).map fun n => s.regN (pgSeam n) 0x04C)

/-- DFM_FAULT_SUM (R803): one bit for each class with a fault bit that its page's mask leaves in. -/
def State.faultSum (s : State) : Nat :=
  maskOfList ((List.range 25).filter fun g => decide (0 < g) && s.regs.any fun e =>
    e.1 % 4096 == 0x044 && hasFault (e.1 / 4096) && (pageClass (e.1 / 4096)).code == g && !s.offPage (e.1 / 4096)
      && (e.2 &&& ~~~(s.page (e.1 / 4096)).mask) != 0)

/-! ### Meridian, intake, KV store, HBM -/

/-- MRD_STATUS (R523). -/
def State.mrdStatus (s : State) : Nat :=
  s.mrd.mode % 4 * 2 ^ 30 + s.mrd.steps.length % 16 * 2 ^ 26 + b2n (s.clk.sprint == 2) * 2 ^ 25 + b2n s.altUse * 2 ^ 24
    + s.mrd.shedCap % 32 * 2 ^ 19 + b2n s.mrd.configured * 2 ^ 18

/-- MRD_GUARDm (R521). -/
def State.guardWord (s : State) (m : Nat) : Nat := s.guard (2 * m) % 65536 + s.guard (2 * m + 1) % 65536 * 65536

/-- INT_STATUS (R472). -/
def State.intStatus (s : State) : Nat :=
  s.pendCount % 65536 * 65536 + s.intake.asm.length % 256 * 256 + b2n (bit (s.regN pgInt 0x048) 31 && s.intake.init)

/-- Free staging blocks (R471). -/
def State.stageFree (s : State) : Nat := s.regN pgInt 0x060 - s.intake.stageUsed.length

/-- KVS_STATUS (R476). -/
def State.kvsStatus (s : State) : Nat := b2n s.kv.listLow * 4 + b2n s.kv.poolLow * 2 + b2n s.kvReady

/-- HBM_STATUS (R568). -/
def State.hbmStatus (s : State) (h : Nat) : Nat :=
  let x := s.stack h
  (match x.st with
    | .out => 0
    | .training => 1
    | .run => 2) * 2 ^ 30 + b2n x.inMap * 2 ^ 29 + x.temp % 256 * 2 ^ 16 + x.lanes % 256 * 256

/-! ### Treath and slices -/

/-- TRL_STATUS (R630). -/
def State.trlStatus (s : State) (p : Nat) : Nat :=
  let t := s.tport p
  (if t.st = 2 ∧ ¬s.tUp p then 3 else t.st % 4) * 2 ^ 30 + t.width % 4 * 2 ^ 28 + b2n t.rev * 2 ^ 27
    + (match t.bundle with
      | some b => if (nth ([], noIdent) s.tre.bundles b).1.contains p then 2 ^ 26 + b % 16 * 2 ^ 22 else 0
      | none => 0)
    + min 255 t.retrains * 256

/-- The identity words of the function's configuration space (R646): the device and vendor IDs, the class code 0x12_0000 above the
revision byte, which the spec does not give (log 18), and the subsystem IDs read from flash at start. No command reads them. -/
def State.configWord (s : State) : Nat → Option Nat
  | 0x00 => some (0x6576 * 65536 + Config.vendorId.toNat)
  | 0x08 => some (0x120000 * 256)
  | 0x2C => some s.host.subIds.toNat
  | _ => none

/-- RTE_STATUS (R636). -/
def State.rteStatus (s : State) : Nat :=
  s.slc.st % 4 * 2 ^ 30 + s.slc.lost.length % 256 * 2 ^ 16
    + ((List.range 256).filter fun d => bit (s.rteDev d) 31).length

/-- A signed value in 16 bits that saturates (R640). -/
def sat16 (i : Int) : Nat := wrapN 16 (max (-32768) (min 32767 i))

/-- RTE_TIME_STATUS (R640). -/
def State.timeStatus (s : State) : Nat :=
  let t := s.tre.time
  let lapsed := match t.holdover with
    | some h => decide (h + 100000000 ≤ s.dev.chrono)
    | none => false
  b2n (t.sync && !lapsed) * 2 ^ 31 + b2n t.holdover.isSome * 2 ^ 30 + b2n (t.parent.isNone && t.root == some Config.serial) * 2 ^ 29
    + t.parent.getD 0 % 16 * 2 ^ 25 + min 15 t.hops * 2 ^ 21 + sat16 t.offset

/-- RTE_NBRn (R641). -/
def State.rteNbr (s : State) (n : Nat) : Nat :=
  match s.tre.bundles[n]? with
  | none => 0
  | some (ports, i) =>
    if ports.isEmpty then 0
    else 2 ^ 31 + b2n i.isSwitch * 2 ^ 30 + i.dev.toNat * 2 ^ 16 + maskOfList ports

/-- PCI_STATUS (R693). -/
def State.pciStatus (s : State) : Nat :=
  s.host.linkBits.toNat + b2n s.host.bme * 2 ^ 21 + b2n (s.dev.running && (!s.hostOpen || !s.host.held.isEmpty)) * 2 ^ 20

/-! ### Life-cycle and start test -/

/-- The life-cycle state (R840): 0 BLANK, 1 MAKER, 2 SEALED, 3 RETURN, 4 VOID. -/
def Nv.life (n : Nv) : Nat :=
  if n.voidFuse then 4 else if !n.provFuse then 0 else if !n.sealFuse then 1 else if n.ret % 2 = 1 then 3 else 2

/-- LCS_STATE (R858). -/
def State.lcsState (s : State) : Nat :=
  s.nv.life * 2 ^ 28 + s.nv.lcsPending % 16 * 2 ^ 24 + s.nv.ret % 16 * 2 ^ 20 + s.nv.revoked % 16 * 2 ^ 16
    + b2n s.nv.owner.isSome * 2 ^ 15

/-- Tiles of the rotation batch under way (R861). -/
def State.rotating (s : State) : List Nat := (s.die.tiles.filter fun e => e.2.rotating).map (·.1)

/-- BST_STATUS (R861): PHASE, WAVE and CODE are held in the register. -/
def State.bstStatus (s : State) : Nat := putBits (s.regN pgBst 0x040) 15 8 (min 24 s.rotating.length)

/-! ### Computed registers by class -/

/-- A word of a 64-bit value at an offset. -/
def half64 (base off v : Nat) : Nat := if off = base then v % 2 ^ 32 else v / 2 ^ 32 % 2 ^ 32

/-- The computed registers of a page; none for a register whose value is held. -/
def State.computed (s : State) (p off : Nat) : Option Nat :=
  match pageClass p with
  | .mtl => if off = 0x040 then some (s.mtlStatus p) else none
  | .buf => if off = 0x040 then some (s.bufStatus p) else if off = 0x058 then some (s.bufHold p) else none
  | .sfu =>
    if off = 0x040 then some (s.sfuStatus p)
    else if off = 0x058 then some ((s.stile p).sts % 64 * 256 + (s.stile p).opc % 64) else none
  | .wag =>
    if off = 0x040 then some (s.wagStatus p)
    else if 0x060 ≤ off ∧ off ≤ 0x09C then some (s.wagInSeq p ((off - 0x060) / 4)) else none
  | .msh =>
    let site := p - 3072
    if off = 0x040 then some (s.mshStatus site)
    else if 0x070 ≤ off ∧ off ≤ 0x080 then some ((s.router site).occWord ((off - 0x070) / 4))
    else if off = 0x048 ∨ 0x100 ≤ off then some (s.mshWord site off (s.epochOf (siteComb site))) else none
  | .seam => if off = 0x040 then some (s.seamStatus (p - 9248)) else none
  | .cmb =>
    let c := p - 9216
    if off = 0x040 then some (s.cmbStatus c) else if off = 0x04C then some (s.cmbVolt c)
    else if off = 0x05C then some (s.fmaxMin c) else none
  | .hbm => if off = 0x040 then some (s.hbmStatus (p - 9408)) else none
  | .hbmDev =>
    if off = 0x040 then some (maskOfList s.hs * 2 ^ 16 + s.hs.length)
    else if off = 0x048 ∨ off = 0x04C then some (half64 0x048 off s.hbmSize)
    else if off = 0x050 ∨ off = 0x054 then some (half64 0x050 off s.rsvBase)
    else if off = 0x070 ∨ off = 0x074 then some (half64 0x070 off s.mirrorOff) else none
  | .trl =>
    let n := p - 9424
    let t := s.tport n
    if off = 0x040 then some (s.trlStatus n) else if off = 0x04C then some t.lanes
    else if off = 0x050 ∨ off = 0x054 then some (half64 0x050 off (match t.nbr with
      | some i => i.serial.toNat
      | none => 0))
    else if off = 0x058 then some (nbrWord t.nbr)
    else if off = 0x06C then some ((s.tre.rrt.filter fun e => e.port == n).length) else none
  | .rte =>
    if off = 0x040 then some s.rteStatus else if off = 0x058 then some s.timeStatus
    else if off = 0x074 then some s.tokFree
    else if 0x080 ≤ off ∧ off ≤ 0x0BC then some (s.rteNbr ((off - 0x080) / 4)) else none
  | .pci => if off = 0x040 then some s.pciStatus else none
  | .int =>
    if off = 0x040 then some s.intStatus
    else if off = 0x050 ∨ off = 0x054 then some (half64 0x050 off s.rsvBase)
    else if off = 0x078 then some s.stageFree else none
  | .kvs =>
    if off = 0x040 then some s.kvsStatus else if off = 0x058 then some s.kvFree
    else if off = 0x060 then some ((s.kv.refs.filter fun e => decide (1 < e.2)).length)
    else if off = 0x07C then some s.kvListFree else none
  | .mrd =>
    if off = 0x040 then some s.mrdStatus
    else if 0x0C0 ≤ off ∧ off ≤ 0x13C then some (s.guardWord ((off - 0x0C0) / 4)) else none
  | .alm =>
    if off = 0x040 then some (b2n (s.almOn && s.hostSide))
    else if off = 0x050 ∨ off = 0x054 then some (half64 0x050 off (s.rsvBase + almOfs)) else none
  | .ldg =>
    if off = 0x040 then some (b2n s.ldgOn)
    else if off = 0x050 ∨ off = 0x054 then some (half64 0x050 off (s.rsvBase + ldgOfs))
    else if off = 0x060 ∨ off = 0x064 then some (half64 0x060 off s.ldg.gen) else none
  | .pwr => if off = 0x040 then some s.pwrStatus else none
  | .clk =>
    if off = 0x040 then some s.clkStatus
    else if off = 0x050 ∨ off = 0x054 then some (half64 0x050 off s.dev.chrono)
    else if off = 0x058 ∨ off = 0x05C then some (half64 0x058 off (match s.clk.sync with
      | some ch => ch.at_
      | none => 0))
    else if off = 0x060 then some s.fRun else none
  | .thm =>
    if off = 0x040 then some s.thmStatus
    else if off = 0x04C then some (maskOfList s.throttledCombs) else if off = 0x050 then some (maskOfList s.heatParked)
    else if off = 0x054 then some s.dev.tripLast.toNat else none
  | .dfm =>
    let c := p - 9464
    if off = 0x040 then some (s.spareWord c) else if off = 0x044 then some (s.holeWord c)
    else if 0x050 ≤ off ∧ off ≤ 0x05C then
      some (maskOfList ((List.range 32).filter fun i =>
        decide (off - 0x050 < 16) && decide (i + (off - 0x050) * 8 < 120) && s.onList (mkSite c (i + (off - 0x050) * 8))))
    else if 0x100 ≤ off ∧ off ≤ 0x2AC then some (s.remapWord c ((off - 0x100) / 4)) else none
  | .dfmDev =>
    if off = 0x040 ∨ off = 0x044 then some (half64 0x040 off (s.rsvBase + distOfs))
    else if off = 0x050 then some s.seamSummary else if off = 0x060 then some s.devWord
    else if off = 0x064 then some s.faultSum else none
  | .lcs =>
    if off = 0x040 then some s.lcsState
    else if off = 0x048 ∨ off = 0x04C then some (half64 0x048 off Config.serial.toNat) else none
  | .bst =>
    if off = 0x040 then some s.bstStatus else if off = 0x050 then some (min 65535 s.nv.dlist.length) else none
  | .frm | .mrdCls | .kpr | .res | .msix => none

/-! ### The common header (R671 to R690) -/

/-- STATE of PG_STATE (R674, R873). -/
def State.unitState (s : State) (p : Nat) : Nat :=
  match pageClass p with
  | .mtl | .buf | .sfu | .wag => (s.tile p).st.code
  | .msh =>
    let site := p - 3072
    if s.combOff (siteComb site) then 0 else if s.die.holes.contains site then 5
    else if s.combParked (siteComb site) then 6 else 1
  | .seam => if s.die.seamOff.contains (p - 9248) then 9 else 1
  | .cmb => match (s.comb (p - 9216)).st with
    | .off => 0
    | .run => 1
    | .parked => 6
  | .frm => if bit s.dev.minderLost (p - 9240) then 8 else if bit s.dev.minderDown (p - 9240) then 7 else 1
  | .hbm => match (s.stack (p - 9408)).st with
    | .out => 8
    | .training => 7
    | .run => 1
  | .trl => 
    if bit (s.regN p 0x048) 30 then 9 else if s.tUp (p - 9424) then 1 else nth 0 [0, 7, 8, 8] (s.tport (p - 9424)).st
  | _ => 15

/-- The epoch counts of a page's comb, or what every comb has reached (R677). -/
def State.pageSwitches (s : State) (p : Nat) : Nat :=
  if p < 2880 then s.switchesOf (siteComb p)
  else if p < 5952 then s.switchesOf (siteComb (p - 3072))
  else match pageClass p with
    | .cmb => s.switchesOf (p - 9216)
    | .dfm => s.switchesOf (p - 9464)
    | _ => s.prog.switches

/-- PG_IDENT (R672, R868, R872). -/
def identWord (p : Nat) : Nat :=
  let c := pageClass p
  if c = .res then 0
  else c.code * 2 ^ 24 + 2 ^ 20 + (if isAlias p then 1 else if c = .hbmDev then 2 else c.kind) * 2 ^ 16 + pageInstance p

/-- PG_COMMIT as a source reads it (R681). -/
def PageSt.resultFor (g : PageSt) (src : Source) : Nat :=
  match g.results.find? fun r => r.src == src with
  | none => 15
  | some r => r.seq % 65536 * 65536 + r.code

/-- PG_OWNER (R685). -/
def PageSt.ownWord (g : PageSt) (p : Nat) : Nat :=
  (match g.own with
    | none => 0
    | some o => 2 ^ 31 + srcCode o * 2 ^ 28 + srcDev o * 2 ^ 20) + bitN (pageClass p).caps 2

/-- A register of the common header (R671). -/
def State.header (s : State) (src : Source) (p off : Nat) : Nat :=
  let g := s.page p
  match off with
  | 0x000 => identWord p
  | 0x004 => (pageClass p).caps
  | 0x008 => b2n s.lock * 2 ^ 31 + b2n g.pending * 2 ^ 30 + (if s.offPage p then 0 else s.unitState p)
  | 0x00C => if hasFault p && !s.offPage p then s.regN p 0x044 else 0
  | 0x010 => g.mask.toNat
  | 0x014 => let d := g.dirty / 2 * 2; d + b2n (d != 0)
  | 0x018 => g.resultFor src
  | 0x01C => g.seq
  | 0x020 => g.ownWord p
  | 0x024 => g.last.toNat
  | 0x028 => let n := s.pageSwitches p; n % 2 ^ 24 * 256 + n % 4
  | _ => 0

/-! ### Reads -/

/-- The register at a block offset is ST. -/
def isST (p off : Nat) : Bool :=
  match regRow p off with
  | some r => r.acc == .st
  | none => false

/-- A block register as it reads (R670, R688). -/
def State.block (s : State) (p off : Nat) : Nat :=
  if (regRow p off).isNone || s.offPage p then 0
  else if isLimit p off then s.limitN p off
  else (s.computed p off).getD (s.regN p off)

/-- The staged view of a block register (R680, R688); of a router's tables, the other copy (R252). -/
def State.stagedView (s : State) (src : Source) (p off : Nat) : Nat :=
  if !isST p off || s.offPage p then 0
  else if isLimit p off then ((sget slotsDflt s.limStaged (regKey p off)).get (srcCode src)).toNat
  else match sfind s.staged (regKey p off) with
    | some w => w.toNat
    | none =>
      if pageClass p = .msh then s.mshWord (p - 3072) off ((s.epochOf (siteComb (p - 3072)) + 1) % 4) else s.block p off

/-- A word of the MSI-X pending-bit array (R649, R657). -/
def State.pbaWord (s : State) (off : Nat) : Nat :=
  maskOfList ((List.range 32).filter fun i => s.host.msixPend.contains (off / 4 * 32 + i))

/-- A physical page's word. -/
def State.physRead (s : State) (src : Source) (p off : Nat) : Nat :=
  if off < 0x040 then s.header src p off
  else if off < 0x800 then s.block p off
  else s.stagedView src p (off - 0x800)

/-- A word as a source reads it at a page and offset (R670, R679, R868, R871). -/
def State.readReg (s : State) (src : Source) (p off : Nat) : Nat :=
  if 32767 < p then 0
  else if p = 32767 then (if off < 256 then s.pbaWord off else 0)
  else if 32759 ≤ p then s.regN p off
  else if pageClass p = .res then 0
  else if isAlias p && off == 0 then identWord p
  else match s.servedPage p with
    | some q => s.physRead src q off
    | none => if off = 0x008 then b2n s.lock * 2 ^ 31 + 5 else if off = 0x004 then (pageClass p).caps
      else if off = 0x018 then (s.page p).resultFor src else 0

end Sys2Proof.Machine
end

