-- ==== Sys2Proof/Machine/TreathPort.lean ====
section
/-! DEFINITION. Treath ports: training and identity exchange (R576 to R579), bundles (R580, R581, R595), a port that goes DOWN and its
retraining (R582, R587, R628, R632). -/

namespace Sys2Proof.Machine

/-- The licence's hive size (R7). -/
def State.licHive (s : State) : Nat :=
  match s.regN pgLcs 0x064 with
  | 3 => 256
  | 2 => 64
  | _ => 16

/-! ### A port goes DOWN -/

/-- The step of the slice that a packet of this device's own belongs to (R587): the step of a message, the step of the tile whose request
it is, else the oldest in flight; none for a packet of no step, or of one that is applied. -/
def State.packetStep (s : State) (h : THead) (b : TBody) : Option Nat :=
  if h.src ≠ s.ownDev ∨ !s.inSlice then none
  else match h.cls, b with
    | 1, .mesh m | 2, .mesh m | 3, .mesh m => some ((s.pktStep (MeshPkt.hdr m)).getD s.oldest)
    | 4, .slice _ m => let n := (sliceFields m).2.1; if s.slc.applied < n then some n else none
    | _, _ => none

/-- The steps of the packets that a port holds unacknowledged. -/
def State.unackedSteps (s : State) (p : Nat) : List Nat :=
  let t := s.tport p
  ((t.retry.filterMap fun x => s.packetStep (headOf x.1) x.2) ++ t.txq.filterMap fun x => s.packetStep x.1 x.2).eraseDups

/-- The link of a port ends: what was not acknowledged is lost, and every step of the slice that it belongs to cannot commit
(R587). `cause` is ARG1 of TRL_PORT_DOWN. -/
def State.linkLost (s : State) (p cause : Nat) : State :=
  let lost := s.unackedSteps p
  let s := (s.updTP p fun t => { t with retry := [], txq := [], used := [], back := [], heard := none, refused := (0, 0) }).leaveBundle p
  let s := s.report (pgTrl p) 8 0x0A06 p cause 0
  lost.foldl (fun s n => s.blame n { page := pgTrl p, code := 0x0A06, a0 := p, a1 := cause, a2 := 0, det := 0 }) s

/-- A port goes DOWN (R587). -/
def State.portDown (s : State) (p cause : Nat) : State :=
  ((s.linkLost p cause).updTP p fun t => { t with st := 3, width := 0 }).nbrEvent p 1

/-! ### Training (R576) -/

/-- Training leaves a port DOWN. -/
def State.trainDown (s : State) (p : Nat) : State :=
  (s.updTP p fun t => { t with st := 3, width := 0 }).nbrEvent p 1

/-- The lanes that a mask names are faulty: fault bit and event of a step. -/
def State.laneFault (s : State) (p b code mask : Nat) : State :=
  if mask = 0 then s else s.report (pgTrl p) b code p mask 0

/-- Mask bits of the first list that are not in the second. -/
def maskLess (a b : Nat) : Nat := maskOfList ((setBits 8 a).filter fun i => !bit b i)

/-- The width from the good logical lanes: WIDTH of TRL_STATUS, 0 where neither half is whole (R575, R576). -/
def widthOf (good : Nat) : Nat :=
  if good % 256 = 255 then 3 else if good % 16 = 15 then 1 else if good / 16 % 16 = 15 then 2 else 0

/-- A mask with its lanes in reverse order. -/
def revMask (m : Nat) : Nat := maskOfList ((setBits 8 m).map fun i => 7 - i)

/-- Identity exchange (R577 to R579): loopback, conflict, or UP. -/
def State.identify (s : State) (p : Nat) (old : Option Ident) (i : Ident) : State :=
  let s := s.updTP p fun t => { t with nbr := some i }
  if i.serial = Config.serial then
    ((s.report (pgTrl p) 5 0x0A07 p i.port 0).updTP p fun t => { t with st := 3, width := 0 }).nbrEvent p 1
  else
    let clash := i.idValid && s.idValid && i.dev.toNat == s.ownDev
    let s := s.updTP p fun t => { t with st := 2, conflict := clash }
    let s := if clash then s.report (pgTrl p) 6 0x0A08 p (i.serial.toNat % 2 ^ 32) (i.serial.toNat / 2 ^ 32) else s
    s.nbrEvent p (if old.isSome && old != some i then 2 else 0)

/-- Training of one port, in the order of the table of R576. -/
def State.train (s : State) (p : Nat) (x : TrainInfo) : State :=
  if bit (s.regN (pgTrl p) 0x048) 30 then s.updTP p fun t => { t with st := 0, width := 0, nbr := none }
  else if bit s.dev.refs 1 || s.attLost (16 + p) then (s.updTP p fun t => { t with nbr := none }).trainDown p
  else
    let old := (s.tport p).nbr
    let short := x.short.toNat
    let opened := maskLess x.opened.toNat short
    let eq := maskLess (maskLess x.eqFail.toNat short) opened
    let pol := maskLess (maskLess (maskLess x.polInv.toNat short) opened) eq
    let s := s.updTP p fun t => { t with
      lanes := opened * 2 ^ 24 + short * 2 ^ 16 + eq * 256 + pol, rev := x.order == .reversed, nbr := none
      conflict := false, lseq := 0, lack := 0xFFFF, refused := (0, 0), retry := [], txq := [], used := [], back := []
      heard := none }
    let s := ((s.laneFault p 0 0x0A01 short).laneFault p 1 0x0A02 opened).laneFault p 2 0x0A03 eq
    let phys := maskLess (maskLess (maskLess 255 short) opened) eq
    match x.order with
    | .other lanes => (s.report (pgTrl p) 3 0x0A04 p lanes.toNat 0).trainDown p
    | o =>
      let w := widthOf (if o = .reversed then revMask phys else phys)
      let s := if w = 1 ∨ w = 2 then s.report (pgTrl p) 4 0x0A05 p w 0 else s
      if w = 0 then s.trainDown p
      else if !x.fecLock then (s.report (pgTrl p) 8 0x0A06 p 0 0).trainDown p
      else match x.nbr with
        | none => s.trainDown p
        | some i => (s.updTP p fun t => { t with width := w }).identify p old i

/-! ### Bundles (R580) -/

/-- Split a group's ports into bundles, each the largest power of two up to 8 that the ports remaining allow. -/
def splitPorts : Nat → List Nat → List (List Nat)
  | 0, _ => []
  | fuel + 1, l =>
    if l.isEmpty then [] else
      let n := min 8 (2 ^ l.length.log2)
      l.take n :: splitPorts fuel (l.drop n)

/-- The bundles of the ports that are UP and not in conflict, in ascending order of their lowest port. -/
def State.newBundles (s : State) : List (List Nat × Ident) :=
  let up := (List.range 16).filter fun p => s.tUp p && !(s.tport p).conflict
  let serial := fun p => ((s.tport p).nbr.getD noIdent).serial
  let all := up.flatMap fun p =>
    if up.any fun q => decide (q < p) && serial q == serial p then []
    else splitPorts 16 (up.filter fun q => serial q == serial p)
  up.flatMap fun p => (all.filter fun b => b.head? == some p).map fun b => (b, (s.tport p).nbr.getD noIdent)

/-- The bundle whose ports include a port. -/
def bundleIx (l : List (List Nat × Ident)) (p : Nat) : Option Nat :=
  (List.range l.length).find? fun n => (nth ([], noIdent) l n).1.contains p

/-- VALID entries of RTE_DEV. -/
def State.devEntries (s : State) : Nat := ((List.range 256).filter fun d => bit (s.rteDev d) 31).length

/-- AUTO (R595): an entry for the neighbour of bundle n, when it has none and the licence leaves room (R594). -/
def State.autoRoute (s : State) (n : Nat) : State :=
  let i := (nth ([], noIdent) s.tre.bundles n).2
  let d := i.dev.toNat
  if i.isSwitch || !i.idValid || bit (s.rteDev d) 31 || decide (s.licHive ≤ s.devEntries + 1) then s
  else
    let same := (List.range s.tre.bundles.length).filter fun m => (nth ([], noIdent) s.tre.bundles m).2.serial == i.serial
    let alts := (same.filter fun m => decide (n < m)).take 4
    s.setReg pgRte (0x400 + 4 * d) (2 ^ 31 + alts.length * 2 ^ 28 + n
      + sumNat ((List.range alts.length).map fun k => nth 0 alts k * 2 ^ (4 + 4 * k)))

/-- Bundle formation at start and at every full retrain (R580, R595). -/
def State.formBundles (s : State) : State :=
  let l := s.newBundles
  let s : State := { s with tre := { s.tre with bundles := l } }
  let s := (List.range 16).foldl (fun s p => s.updTP p fun t => { t with
    bundle := bundleIx l p, alone := false
    mate := if (bundleIx l p).isSome then t.nbr.map (fun i => (i.serial, i.port)) else none }) s
  if bit (s.regN pgRte 0x048) 31 then (List.range l.length).foldl State.autoRoute s else s

/-! ### Retraining (R581, R582, R632) -/

/-- A port stays out of every bundle until the next full retrain, logged as TRL_NEIGHBOUR unless the identity exchange has just reported the
new identity (R582, R628). -/
def State.stayOut (s : State) (p : Nat) (before : Option Ident) : State :=
  let s := s.updTP p fun t => { t with alone := true, bundle := none }
  if before.isSome && before != (s.tport p).nbr then s else s.nbrEvent p 2

/-- A port is trained alone and rejoins its bundle when its neighbour is the same (R582). -/
def State.retrainOne (s : State) (p : Nat) (x : TrainInfo) : State :=
  let before := (s.tport p).nbr
  let s := if (s.tport p).st = 2 then s.linkLost p 0 else s
  let s := s.updTP p fun t => { t with retrains := t.retrains + 1 }
  let s := s.train p x
  let s := s.updTP p fun t => { t with fails := if t.st = 2 then 0 else t.fails + 1 }
  let t := s.tport p
  if t.st ≠ 2 || t.conflict then s
  else match t.bundle, t.mate with
    | some b, some m =>
      if t.nbr.map (fun i => (i.serial, i.port)) = some m ∧ ¬t.alone then
        let old := nth ([], noIdent) s.tre.bundles b
        let ports := (List.range 16).filter fun q => q == p || old.1.contains q
        { s with tre := { s.tre with bundles := setNth s.tre.bundles b (ports, old.2) } }
      else s.stayOut p before
    | _, _ => s.stayOut p before

/-- TRL_PORT_DOWN (R587): `cause` 1 refusals, 2 FEC lock, 3 silence. -/
def execTrlPortDown (port cause : Nat) (s : State) : Res :=
  onUnit (decide (port < 16)) (fun s => if (s.tport port).st = 2 then s.portDown port cause else s) s

/-- The Keeper's own retrains of a port within 60 s (R582). -/
def State.recentTries (s : State) (p : Nat) : List Nat :=
  (s.tport p).tries.filter fun t => decide (s.dev.chrono < t + 60000000000)

/-- TRL_RETRAIN: the Keeper retrains a port that went DOWN, up to 3 times in 60 s and not after the third retrain that failed, or
TRL_CTL.RETRAIN is written (R582, R632).
RETRAIN reads 1 only until training ends. -/
def execTrlRetrain (src : Source) (port : Nat) (info : TrainInfo) (s : State) : Res :=
  onUnit (decide (port < 16)) (fun s =>
    if src = .keeper then
      if (s.tport port).st = 3 ∧ (s.recentTries port).length < 3 ∧ (s.tport port).fails < 3 ∧ ¬bit (s.regN (pgTrl port) 0x048) 30 then
        (s.updTP port fun t => { t with tries := s.recentTries port ++ [s.dev.chrono] }).retrainOne port info
      else s
    else s.goWrite src (pgTrl port) 0x048 (bit (s.regN (pgTrl port) 0x048) 31) fun s =>
      let s := s.setReg (pgTrl port) 0x048 (s.regN (pgTrl port) 0x048 % 2 ^ 31)
      (s.updTP port fun t => { t with tries := [], fails := 0 }).retrainOne port info) s

end Sys2Proof.Machine
end

