-- ==== Sys2Proof/Machine/Time.lean ====
section
/-! DEFINITION. Time over the hive (R604 to R610): the root followed, the parent, exchanges, slewing, holdover. -/

namespace Sys2Proof.Machine

/-- ROOT_EN and PERIOD of RTE_TIME_CFG (R635); PERIOD in nanoseconds. -/
def State.rootEn (s : State) : Bool := bit (s.regN pgRte 0x054) 31
def State.timePeriod (s : State) : Nat := s.regN pgRte 0x054 % 65536 * 1000

/-- A port carries time: it is UP without an ID conflict, and its neighbour is no switch without TIME_TC (R579, R610). -/
def State.carriesTime (s : State) (p : Nat) : Bool :=
  let i := (s.tport p).nbr.getD noIdent
  s.tUp p && !(s.tport p).conflict && (!i.isSwitch || i.timeTc)

/-- The ports that hear a root of another device, with its serial number and the neighbour's hops (R604, R610). -/
def State.heardRoots (s : State) : List (Nat × DWord × Nat) :=
  (List.range 16).filterMap fun p =>
    if s.carriesTime p then ((s.tport p).heard.filter fun h => h.1 != Config.serial).map fun h => (p, h.1, h.2) else none

/-- Time follows a root through a parent port. A device in holdover that finds no other parent keeps its synchronisation until that lapses
(R608). -/
def State.follow (s : State) (root : Option DWord) (parent : Option Nat) (hops : Nat) : State :=
  let t := s.tre.time
  let moved := t.parent != parent
  let alone := root == some Config.serial
  { s with tre := { s.tre with time := { t with
      root, parent, hops, sync := if root.isNone then t.sync && t.holdover.isSome else alone || t.sync
      last := if moved then s.dev.chrono else t.last
      holdover := if alone then none else t.holdover } } }

/-- The choice of root and parent (R604, R609): the lowest serial number, fewest hops, lowest port. -/
def State.chooseParent (s : State) : State :=
  let l := s.heardRoots
  let own := if s.rootEn then [Config.serial.toNat] else []
  let all := own ++ l.map fun h => h.2.1.toNat
  match leastBy id all with
  | none => s.follow none none 0
  | some r =>
    if s.rootEn && r == Config.serial.toNat then s.follow (some Config.serial) none 0
    else match leastBy (fun h : Nat × DWord × Nat => h.2.2 * 16 + h.1) (l.filter fun h => h.2.1.toNat == r) with
      | none => s.follow none none 0
      | some h =>
        let old := s.tre.time.root
        let s := if s.rootEn && old != some h.2.1 then s.report pgRte 5 0x0B06 h.1 (r % 2 ^ 32) (r / 2 ^ 32) else s
        s.follow (some h.2.1) (some h.1) (h.2.2 + 1)

/-- A TIME packet to a port's neighbour announces the root followed and the hops to it (R609). -/
def State.announce (s : State) (p : Nat) : State :=
  match s.tre.time.root with
  | none => s
  | some r =>
    s.trlPut p { dst := ((s.tport p).nbr.getD noIdent).dev.toNat, src := s.ownDev, slice := s.sliceId, cls := 5, hops := 0
                 len := 1, pmask := 0 } (.time r s.tre.time.hops)

/-- A TIME packet reaches a port: its announcement is heard; one that does not come from the parent is answered. -/
def State.hearTime (s : State) (p : Nat) (root : DWord) (hops : Nat) : State :=
  if !s.carriesTime p then s
  else
    let s := (s.updTP p fun t => { t with heard := some (root, hops) }).chooseParent
    if s.tre.time.parent = some p then s else s.announce p

/-- The offset of an exchange: t1 and t4 are this device's stamps, t2 and t3 the parent's (R605, R610). -/
def timeOffset (t1 t2 t3 t4 r1 r2 : DWord) : Int :=
  ((signed 64 (t2 - t1).toNat - r1.toNat) - (signed 64 (t4 - t3).toNat - r2.toNat)).tdiv 2

/-- TIME_EXCHANGE (R605 to R607): with the parent it measures an offset; with another neighbour it only announces. -/
def execTimeExchange (port : Nat) (t1 t2 t3 t4 resid1 resid2 : DWord) (s : State) : Res :=
  onUnit (decide (port < 16)) (fun s =>
    if !s.dev.running || s.timePeriod == 0 || !s.carriesTime port then s
    else if s.tre.time.parent ≠ some port then s.announce port
    else
      let s := s.announce port
      let t := s.tre.time
      let off := timeOffset t1 t2 t3 t4 resid1 resid2
      let jump := !t.stepped && decide (10000 < off.natAbs) && !s.inSlice
      let sync := decide (t.hops ≤ 8) && (decide (off.natAbs < 20) || (t.sync && off.natAbs == 20))
      let s : State := { s with tre := { s.tre with time := { t with
        offset := off, stepped := true, slew := if jump then 0 else off, sync, holdover := none, last := s.dev.chrono } } }
      if jump then
        let now := ((s.dev.chrono : Int) + off).toNat
        { s with dev := { s.dev with chrono := now }, tre := { s.tre with time := { s.tre.time with last := now } } }
      else s) s

/-- TIME_HOLDOVER (R608): no exchange with the parent for 10 × PERIOD; a new parent is chosen. -/
def execTimeHoldover (s : State) : Res :=
  .next (match s.tre.time.parent with
    | none => s
    | some p =>
      if s.timePeriod = 0 ∨ s.tre.time.holdover.isSome ∨ s.dev.chrono < s.tre.time.last + 10 * s.timePeriod then s
      else
        let s : State := { s with tre := { s.tre with time := { s.tre.time with holdover := some s.dev.chrono } } }
        let s := s.report pgRte 3 0x0B04 p (wrapN 32 s.tre.time.offset) 0
        (s.updTP p fun t => { t with heard := none }).chooseParent)

/-- The chronometer advances by 1 ns; while an offset is being slewed away it advances by 2 or by 0 once in 5,000, which
is 200 ppm (R605). -/
def State.advance (s : State) : State :=
  let t := s.tre.time
  if s.dev.chrono % 5000 ≠ 0 ∨ t.slew = 0 then
    { s with dev := { s.dev with chrono := s.dev.chrono + 1 } }
  else if 0 < t.slew then
    { s with dev := { s.dev with chrono := s.dev.chrono + 2 }, tre := { s.tre with time := { t with slew := t.slew - 1 } } }
  else if t.hold then
    { s with dev := { s.dev with chrono := s.dev.chrono + 1 }, tre := { s.tre with time := { t with hold := false } } }
  else { s with tre := { s.tre with time := { t with slew := t.slew + 1, hold := true } } }

end Sys2Proof.Machine
end

