-- ==== Sys2Proof/Machine/Agree.lean ====
section
/-! DEFINITION. The agreement checks of the home chapters (R682, step 4): what a commit refuses. Every check reads the values that
the commit would leave; a reserved field is checked in the words that are staged. -/

namespace Sys2Proof.Machine

/-! ### Regions of memory (R475, R479, R573, R644) -/

/-- The regions of the KV store as registers name them: page pool, descriptor array, list pool. -/
def kvRegions (base pages bytes lbase lblocks : Nat) : List (Nat × Nat) :=
  [(base, pages * bytes), (base + pages * bytes, 4 * pages), (lbase, 512 * lblocks)]

/-- The Stream Table. -/
def State.tableRegion (s : State) : Nat × Nat := (s.rsvBase, 128 * 2 ^ 21)

/-- The active regions of the KV store and the staging pool. -/
def State.kvNow (s : State) : List (Nat × Nat) :=
  kvRegions (s.reg64 pgKvs 0x048) s.kvPages s.kvPageBytes (s.reg64 pgKvs 0x070) s.kvListBlocks
def State.stageRegion (s : State) : Nat × Nat := (s.reg64 pgInt 0x058, 4096 * s.regN pgInt 0x060)

/-- The regions that R573 protects. -/
def State.protectedRegions (s : State) : List (Nat × Nat) :=
  (if s.kvReady then s.kvNow else [])
    ++ [s.stageRegion]
    ++ (if s.mrd.configured then
          [(s.reg64 pgMrd 0x078, 128 * s.regN pgMrd 0x080), (s.reg64 pgMrd 0x090, 4096 * s.regN pgMrd 0x098),
           (s.reg64 pgMrd 0x0A8, 768), (s.reg64 pgMrd 0x0B0, 65536)] else [])
    ++ (List.range 64).filterMap fun n =>
        if (s.slot n).st == .empty then none else (s.slot n).img.map fun im => ((s.slot n).addr, im.size)

/-! ### Limit slots (R62, R688, R689, R696, R734, R741, R860) -/

/-- A limit slot is in its register's range; a release always is. -/
def slotOk (p v : Nat) : Bool :=
  v == 0xFFFFFFFF || (v != 0 && match pageClass p with
    | .pwr => decide (600 ≤ v) && decide (v ≤ 3600)
    | .thm => decide (60 ≤ v) && decide (v ≤ 95)
    | .clk | .cmb => decide (33 ≤ v) && decide (v ≤ 144)
    | .bst => v % 65536 != 0 && bits v 30 16 == 0
    | _ => true)

/-- The staged slots of a source are in range. -/
def State.slotsOk (s : State) (p code : Nat) : Bool :=
  (limitRegs p).all fun o => slotOk p ((sget slotsDflt s.limStaged (regKey p o)).get code).toNat

/-! ### Streams, Meridian, HBM -/

/-- R475. -/
def State.intOk (s : State) (p : Nat) : Bool :=
  let blocks := s.stgN p 0x060
  let pool := (s.stg64 p 0x058, 4096 * blocks)
  s.rsvOk p && !overlap pool s.tableRegion && !overlap pool (s.reg64 pgKvs 0x048, s.kvPages * s.kvPageBytes)
    && (blocks == s.regN p 0x060 || s.intake.stageUsed.isEmpty)
    && !(bit (s.stgN p 0x048) 31 && (s.stgN p 0x04C == 0 || blocks == 0))

/-- The rows of a cache region that the active image uses otherwise (R470): QUEUE and DATA regions, results of sinks. -/
def State.imageRows (s : State) (comb l : Nat) : List (Nat × Nat) :=
  match s.activeSlot.bind fun n => (s.slot n).img with
  | none => []
  | some im =>
    ((im.queues.filter fun q => s.physComb q.1 == comb && bits q.2.toNat 7 0 == 1 && bits q.2.toNat 15 8 == l).map
        fun q => (bits q.2.toNat 47 32, bits q.2.toNat 63 48))
      ++ ((im.data.filter fun d => s.physComb d.1 == comb && d.2.1 == 4 * l + 1).map fun d => (d.2.2.1, d.2.2.2.1))
      ++ ((im.sinks.filter fun x => s.physComb x.1 == comb && x.2.1 == l).map fun x =>
        (bits x.2.2.2.toNat 13 0, 4 * bits x.2.2.2.toNat 24 17))

/-- A cache region breaks R479. -/
def State.cacheBad (s : State) (c w : Nat) : Bool :=
  bit w 31 && (cfgCount w == 0 || decide (32 < cfgFirst w + cfgCount w) || cfgSegs w == 0 || decide (512 < cfgSeg0 w + cfgSegs w)
    || (List.range (cfgCount w)).any fun i =>
        let l := nth 0 (logicals .b) (cfgFirst w + i)
        s.logHole c l || (s.imageRows c l).any (overlap (32 * cfgSeg0 w, 32 * cfgSegs w)))

/-- R479. -/
def State.kvsOk (s : State) (p : Nat) : Bool :=
  let pages := s.stgN p 0x050
  let bytes := s.stgN p 0x054
  let blocks := s.stgN p 0x078
  let regions := kvRegions (s.stg64 p 0x048) pages bytes (s.stg64 p 0x070) blocks
  let held := !s.kv.refs.isEmpty || !s.kv.blocks.isEmpty || !s.kv.resvPages.isEmpty || !s.kv.resvBlocks.isEmpty
  let same := s.stg64 p 0x048 == s.reg64 p 0x048 && pages == s.kvPages && bytes == s.kvPageBytes
    && s.stg64 p 0x070 == s.reg64 p 0x070 && blocks == s.kvListBlocks
  s.rsvOk p && pages != 0 && bytes != 0 && blocks != 0
    && !anyPair overlap (regions ++ [s.tableRegion, s.stageRegion])
    && (same || !held)
    && !((List.range 24).any fun c => s.cacheBad c (s.stgN p (0x080 + 4 * c)))

/-- A value between bounds. -/
def within (lo hi v : Nat) : Bool := decide (lo ≤ v) && decide (v ≤ hi)

/-- R527, the control page. -/
def State.mrdOk (s : State) (p : Nat) : Bool :=
  let w := s.stgN p
  let cfg := w 0x048
  let ngraph := match s.activeSlot.bind fun n => (s.slot n).img with
    | some im => im.ngraph
    | none => 16
  s.rsvOk p && bits cfg 31 30 != 3 && within 1 8 (bits cfg 29 26) && within 1 16 (bits cfg 25 21)
    && within 1 1000 (w 0x064 % 1024) && s.stg64 p 0x058 != 0 && w 0x050 != 0
    && bits (w 0x068) 15 0 != 0 && decide (bits (w 0x068) 15 0 ≤ bits (w 0x068) 31 16)
    && within 1 16 (bits (w 0x06C) 31 27) && decide (bits (w 0x068) 15 0 ≤ bits (w 0x06C) 16 0)
    && isPow2 (w 0x080) && within 16 65536 (w 0x080) && isPow2 (w 0x098) && within 1 4096 (w 0x098)
    && s.stg64 p 0x078 % 4096 == 0 && s.stg64 p 0x090 % 4096 == 0 && s.stg64 p 0x0A8 % 128 == 0 && s.stg64 p 0x0B0 % 4096 == 0
    && ((List.range 6).all fun r => decide (bits (w 0x074) (31 - 4 * r) (28 - 4 * r) < ngraph))
    && (s.regN p 0x088 == s.regN p 0x084 || (w 0x080 == s.regN p 0x080 && s.stg64 p 0x078 == s.reg64 p 0x078))

/-- Two bounds in order, where both are set. -/
def inOrder (a b : Nat) : Bool := a == 0 || b == 0 || decide (a ≤ b)

/-- R527, a class page. -/
def State.mrdClsOk (s : State) (p : Nat) : Bool :=
  s.rsvOk p && (List.range 32).all fun n =>
    let w := fun (o : Nat) => s.stgN p (0x400 + 32 * n + o)
    w 0x14 % 256 != 0 && inOrder (w 4) (w 8) && inOrder (w 8) (w 12) && inOrder (w 4) (w 12)

/-- R573. -/
def State.hbmDevOk (s : State) (p : Nat) : Bool :=
  let set := s.hs.length * 2 ^ 30
  let base := s.stg64 p 0x060
  s.rsvOk p && !bit (s.stg64 p 0x058) 47
    && !(s.modeSets.any fun k => s.protectedRegions.any (overlap (k * set, set)))
    && base % s.bar4Size == 0 && decide (base + s.bar4Size ≤ 2 ^ 40)

/-! ### Treath -/

/-- R644, a TRL_ page. -/
def State.trlOk (s : State) (p : Nat) : Bool :=
  let own := (List.range 16).map fun n => s.stg64 p (0x100 + 8 * n)
  let far := ((List.range 16).filter fun q => pgTrl q != p).flatMap fun q => (List.range 16).map (s.hsink q)
  let valid := own.filter fun e => bit e 63
  let red := fun (e : Nat) => bits e 47 32
  s.rsvOk p && !(valid.any fun e => bits e 54 48 == 0 || bits e 31 24 == 0 || decide (128 < bits e 31 24))
    && !anyPair (fun a b => red a == red b) valid
    && !(valid.any fun e => far.any fun x => bit x 63 && red x == red e)

/-- The remap entries of RTE_ as a function of the words. -/
def remapEntries (w : Nat → Nat) : List Nat :=
  (List.range 256).map fun l => bits (w (0x200 + l / 2 * 4)) (16 * (l % 2) + 15) (16 * (l % 2))

/-- R644, the RTE_ page. -/
def State.rteOk (s : State) (p : Nat) : Bool :=
  let w := s.stgN p
  let devs := (List.range 256).map fun d => w (0x400 + 4 * d)
  let valid := devs.filter fun e => bit e 31
  let slice := w 0x04C
  let bundleOk := fun (b : Nat) => bit (s.rteNbr b) 31
  let entOk := fun (e : Nat) => bundleOk (bits e 3 0)
    && (List.range (min 4 (bits e 30 28))).all fun i => bundleOk (bits e (7 + 4 * i) (4 + 4 * i))
  let remap := remapEntries w
  let pool := (s.stg64 p 0x068, 4096 * w 0x070)
  s.rsvOk p && decide (valid.length < s.licHive)
    && !(bit (w 0x048) 8 && bit (nth 0 devs (bits (w 0x048) 7 0)) 31)
    && valid.all entOk
    && decide (bits slice 15 8 ≤ bits slice 7 0) && decide (bits slice 23 16 ≤ bits slice 7 0)
    && !(bit slice 31 && !bit (w 0x048) 8)
    && (remap == remapEntries (s.regN p) || bits slice 15 8 == bits slice 23 16)
    && !anyPair (fun a b => a % 256 == b % 256) (remap.filter fun e => bit e 15)
    && (slice == s.regN p 0x04C || !s.inSlice || s.mrd.steps.isEmpty)
    && !((s.tableRegion :: s.kvNow ++ s.protectedRegions).any (overlap pool))

/-! ### Host, clocks, power, policy -/

/-- R695. -/
def State.pciOk (s : State) (p : Nat) : Bool :=
  let w := s.stgN p
  let on := bit (w 0x048) 31
  let ring := fun (f : Nat → Nat) => [f 0x050, f 0x054, f 0x058, f 0x068, f 0x06C]
  s.rsvOk p && !(on && s.stg64 p 0x050 == 0) && isPow2 (w 0x058) && within 64 1048576 (w 0x058)
    && !(on && s.evtOn && ring w != ring (s.regN p))

/-- R696, R723, R749. -/
def State.clkOk (s : State) (p : Nat) : Bool :=
  let w := s.stgN p 0x048
  let base := bits w 23 16
  let sprint := bits w 15 8
  let brake := bits w 7 0
  s.rsvOk p && within 33 144 base && within 33 144 sprint && within 33 132 brake && !(!bit w 31 && decide (132 < base))
    && decide (base ≤ sprint) && (!bit w 31 || s.manuka)

/-- R755. -/
def State.cmbOk (s : State) (p : Nat) : Bool :=
  let w := s.stgN p 0x054
  s.rsvOk p && decide (bits w 5 0 < bits w 13 8)

/-- The shared staged values of a page agree (R682, step 4). -/
def State.agrees (s : State) (p : Nat) : Bool :=
  match pageClass p with
  | .dfm => s.dfmOk p
  | .mtl => s.mtlOk p
  | .wag => s.wagOk p
  | .msh => s.mshOk p
  | .int => s.intOk p
  | .kvs => s.kvsOk p
  | .mrd => s.mrdOk p
  | .mrdCls => s.mrdClsOk p
  | .hbmDev => s.hbmDevOk p
  | .trl => s.trlOk p
  | .rte => s.rteOk p
  | .pci => s.pciOk p
  | .clk => s.clkOk p
  | .cmb => s.cmbOk p
  | .pwr => s.rsvOk p && within 1 1000 (s.stgN p 0x04C % 65536)
  | .dfmDev => s.rsvOk p && within 1 16 (s.stgN p 0x068 % 256)
  | .buf | .ldg => s.rsvOk p
  | .sfu | .seam | .frm | .hbm | .alm | .thm | .kpr | .lcs | .bst | .res | .msix => true

end Sys2Proof.Machine
end

