-- ==== Sys2Proof/Machine/Pages.lean ====
section
/-! DEFINITION. Orders at the control pages (R650, R651, R670 to R691): reads, writes of every access kind, commits with their safe
points, discards, claims and releases. -/

namespace Sys2Proof.Machine

/-! ### The host's accesses (R650) -/

/-- A refused BAR0 access; the first one opens the 1 ms that one event covers (`bar0Due`). -/
def State.bar0Refuse (s : State) (off : Nat) : State :=
  let h := s.host
  let h : HostPort := if h.refused = 0 then { h with refused := 1, refusedAt := s.dev.chrono, refusedOff := off }
    else { h with refused := h.refused + 1 }
  (({ s with host := h } : State).incReg pgPci 0x070).flag pgPci 2

/-- BAR0_ACCESS for the refusals of a 1 ms that has ended. -/
def State.bar0Due (s : State) : State :=
  if s.host.refused = 0 ∨ s.dev.chrono < s.host.refusedAt + 1000000 then s
  else ({ s with host := { s.host with refused := 0 } } : State).log pgPci 0x0C03 s.host.refusedOff s.host.refused 0 0

/-- Messages of vectors that are no longer masked are sent (R657). -/
def State.msixFlush (s : State) : State :=
  let go := (List.range 2048).filter fun v => s.host.msixPend.contains v && !msixMasked s v
  (({ s with host := { s.host with msixPend := s.host.msixPend.filter fun v => !go.contains v } } : State)).toHosts (go.map Out.msix)

/-! ### Reads (R12, R651, R670, R679) -/

/-- The key under which a source's half of a 64-bit register is kept between two accesses (R651). -/
def halfKey (src : Source) (p off : Nat) : Nat := (srcCode src + 8 * srcDev src) * 2 ^ 27 + regKey p off

/-- The physical page and block offset that an access at a page reaches, where a unit answers it. -/
def State.target (s : State) (p off : Nat) : Option (Nat × Nat) :=
  if 32759 ≤ p ∨ pageClass p = .res ∨ off < 0x040 ∨ 0x800 ≤ off then none
  else (s.servedPage p).bind fun q => if s.offPage q then none else some (q, off)

/-- A 4-byte read by a source: the value and what the read leaves. -/
def State.read4 (s : State) (src : Source) (p off : Nat) : Nat × State :=
  let v := s.readReg src p off
  match s.target p off with
  | none => (v, s)
  | some (q, o) =>
    match regRow q o with
    | none => (v, s)
    | some r =>
      if r.acc = .rc then (v, s.setReg q o 0)
      else if r.wide && (o - r.lo) % 8 == 0 then
        (v, { s with latch := sput s.latch (halfKey src q (o + 4)) (w32 (s.readReg src p (off + 4))) })
      else if r.wide then
        match sfind s.latch (halfKey src q o) with
        | some w => (w.toNat, { s with latch := serase s.latch (halfKey src q o) })
        | none => (v, s)
      else (v, s)

/-- A read and its answer; the host's must be aligned (R650). -/
def State.readOut (s : State) (src : Source) (p off : Nat) : State :=
  if src = .host ∧ off % 4 ≠ 0 then (s.bar0Refuse (regKey p off)).emit (.readData src p off (2 ^ 32 - 1))
  else
    let (v, s) := s.read4 src p off
    s.emit (.readData src p off (BitVec.ofNat 64 v))

/-- The pages and offsets of BAR0. -/
def inBar0 (p off : Nat) : Bool := decide (p < 32768) && decide (off < 4096)

/-- RC_READ (R12). -/
def execRcRead (src : Source) (page off : Nat) (s : State) : Res := onUnit (inBar0 page off) (fun s => s.readOut src page off) s

/-- LATCHED_READ (R651). -/
def execLatchedRead (src : Source) (page off : Nat) (s : State) : Res := onUnit (inBar0 page off) (fun s => s.readOut src page off) s

/-! ### Commits (R680 to R682) -/

/-- Keep the result of a source's commit or discard; `acc` that it was an accepted commit (R681). -/
def State.setResult (s : State) (src : Source) (p code : Nat) (acc : Bool) : State :=
  s.updPage p fun g =>
    let seq := if acc then g.seq % 65536 else match g.results.find? fun r => r.src == src with
      | some r => r.seq
      | none => 0
    { g with results := { src, seq, code } :: g.results.filter fun r => r.src != src }

/-- A commit that may change frequencies: in effect at once, and PENDING until the change it leads to is done (R712). -/
def State.freqCommit (s : State) (p : Nat) : State :=
  let t := s.applyPage p
  if (s.retargeted t).isEmpty then t else (t.holdCommit s p).retarget 0 false

/-- The device page with changed set modes: the BAR4 base at once, the modes at the next commit point (R562, R901). -/
def State.hbmDevCommit (s : State) : State :=
  if s.modeSets.isEmpty then s.applyPage pgHbmDev
  else { s with regs := applyWords s.regs ((s.stagedOf pgHbmDev).filter fun e => decide (0x060 ≤ e.1 % 4096)) }

/-- The slice state of a device that joins or leaves a slice. -/
def newSlice (member : Bool) (seen : Sparse Nat) (now : Nat) : Slice :=
  { st := b2n member, rounds := [], seen, lost := [], applied := 0
    lastBody := noBody
    toklog := [], gaps := [], rebuild := [], switches := [], remap := [], beatAt := now, status := [], takeover := false
    lastWrites := [], gather := [], own := [], past := [] }

/-- A remap word of RTE_. -/
def isRteRemap (k : Nat) : Bool := decide (0x200 ≤ k % 4096) && decide (k % 4096 < 0x400)

/-- The RTE_ page takes effect at once; on the lead of a slice the remap waits for its COMMIT (R620, R622, R635). -/
def State.rteCommit (s : State) : State :=
  let old := remapEntries (s.regN pgRte)
  let new := remapEntries (s.stgN pgRte)
  let slice := s.reg pgRte 0x04C
  let time := s.reg pgRte 0x054
  let wait := s.inSlice && old != new
  let s : State :=
    if wait then
      let l := s.stagedOf pgRte
      { s with
        regs := applyWords s.regs (l.filter fun e => !isRteRemap e.1)
        staged := s.staged.filter fun e => e.1 / 4096 != pgRte || isRteRemap e.1
        slc := { s.slc with remap := s.slc.remap ++
          (((List.range 256).filter fun l => nth 0 old l != nth 0 new l).map fun l => (l, BitVec.ofNat 16 (nth 0 new l))) } }
    else
      let s := s.applyPage pgRte
      if old = new then s else s.wrapReg pgRte 0x078
  let s : State := if s.reg pgRte 0x04C = slice then s
    else { s with slc := newSlice s.inSlice (s.members.map fun l => (l, s.dev.chrono)) s.dev.chrono }
  if s.reg pgRte 0x054 = time then s else s.chooseParent

/-- EN becomes 0: the records that no batch took are kept (R664). -/
def State.evtStop (s : State) : State :=
  let all := s.ev.retained ++ s.ev.batch
  { s with ev := { s.ev with batch := [], retained := lastN 1024 all, retLost := s.ev.retLost + (all.length - 1024) } }

/-- The PCI_ page: a new period of the event log starts with the events kept while EN was 0 (R661, R664). -/
def State.pciCommit (s : State) : State :=
  let was := s.evtOn
  let s := s.applyPage pgPci
  if s.evtOn && !was then
    let lost := s.ev.retLost
    let s : State := { s with ev := { s.ev with batch := s.ev.retained, retained := [], retLost := 0, overflow := 0 } }
    ((s.setReg pgPci 0x05C 0).setReg pgPci 0x060 0).setReg pgPci 0x064 (satAdd 0xFFFFFFFF (s.regN pgPci 0x064) lost)
  else if was && !s.evtOn then s.evtStop
  else s

/-- An accepted commit at its safe point where that is now; otherwise it stays PENDING (R680, and the home chapters). A route or remap
change queues a DRAIN switch where none is queued (R383). -/
def State.takeEffect (s : State) (p : Nat) : State :=
  match pageClass p with
  | .dfm =>
    let s := s.dropShadow
    if s.switchQueued then s else s.queueSwitch false
  | .msh => if s.switchQueued then s else s.queueSwitch false
  | .mtl | .buf | .wag | .mrd | .mrdCls | .alm | .int | .kvs | .pwr | .ldg => s
  | .cmb => s.freqCommit p
  | .clk => if !(s.page p).slotsOnly && s.clkModeStaged then s else s.freqCommit p
  | .hbmDev => s.hbmDevCommit
  | .rte => s.rteCommit
  | .pci => s.pciCommit
  | _ => s.applyPage p

/-- An accepted commit (R682, step 6). -/
def State.acceptCommit (s : State) (src : Source) (p : Nat) (slotsOnly : Bool) : State :=
  let s := s.updPage p fun g => { g with seq := (g.seq + 1) % 2 ^ 32, pending := true, who := srcCode src, slotsOnly }
  let s := s.setResult src p 1 true
  let s : State := if p = pgMrd then { s with mrd := { s.mrd with configured := true } } else s
  s.takeEffect p

/-- A commit at a physical page (R682): its result and the state after it. -/
def State.commitAt (s : State) (src : Source) (p : Nat) (check : Bool) (seq : Nat) : Nat × State :=
  let g := s.page p
  let c := srcCode src
  let slot := g.slotDirty.contains c
  let own := s.ownsOk src p
  let shared := own && !(s.stagedOf p).isEmpty
  let res :=
    if (s.lock && src != .keeper) || g.pending then 5
    else if check && g.seq % 65536 != seq then 3
    else if !own && !slot then 4
    else if (slot && !s.slotsOk p c) || (shared && !s.agrees p) then 2
    else if !slot && !shared then 0
    else 1
  if res = 1 then
    let s := s.acceptCommit src p (!own)
    let r := b2n (s.page p).pending
    (r, s.order src p 0x018 r)
  else (res, (s.setResult src p res false).order src p 0x018 res)

/-- The physical page at which an order is processed: none for a logical hole, a reserved page, or a page of an OFF comb (R679,
R871, R874). -/
def State.orderPage (s : State) (p : Nat) : Option Nat :=
  if 32759 ≤ p ∨ pageClass p = .res then none
  else (s.servedPage p).bind fun q => if s.offPage q then none else some q

/-- A commit through any page; without an order point it returns LOCKED (R679, R874). -/
def State.commitOrder (s : State) (src : Source) (p : Nat) (check : Bool) (seq : Nat) : Nat × State :=
  match s.orderPage p with
  | some q => s.commitAt src q check seq
  | none => if pageClass p = .res ∨ 32759 ≤ p then (0, s) else (5, s.setResult src ((s.servedPage p).getD p) 5 false)

/-- PAGE_COMMIT (R679, R682). -/
def execPageCommit (src : Source) (page : Nat) (check : Bool) (seq : BitVec 16) (s : State) : Res :=
  onUnit (decide (page < 32768)) (fun s => (s.commitOrder src page check seq.toNat).2) s

/-! ### Discards (R683) -/

/-- A source's staged limit slots return to their committed values. -/
def State.dropSlots (s : State) (p code : Nat) : State :=
  ({ s with limStaged := (limitRegs p).foldl (fun m o => supd slotsDflt m (regKey p o) fun l =>
      l.set code ((s.limit p o).get code)) s.limStaged } : State).updPage p fun g =>
    { g with slotDirty := g.slotDirty.filter (· != code) }

/-- A discard at a physical page. -/
def State.discardAt (s : State) (src : Source) (p : Nat) : Nat × State :=
  let own := s.ownsOk src p
  let res := if (s.lock && src != .keeper) || (s.page p).pending then 5
    else if !own && (limitRegs p).isEmpty then 4 else 0
  let s := if res ≠ 0 then s else if own then (s.dropStaged p).dropSlots p (srcCode src) else s.dropSlots p (srcCode src)
  (res, (s.setResult src p res false).order src p 0x018 res)

def State.discardOrder (s : State) (src : Source) (p : Nat) : Nat × State :=
  match s.orderPage p with
  | some q => s.discardAt src q
  | none => (0, s)

/-- PAGE_DISCARD (R683). -/
def execPageDiscard (src : Source) (page : Nat) (s : State) : Res :=
  onUnit (decide (page < 32768)) (fun s => (s.discardOrder src page).2) s

/-! ### Ownership (R685, R686) -/

/-- Only the Keeper may own the page. -/
def fixedPage (p : Nat) : Bool := bit (pageClass p).caps 2

/-- A claim at a physical page; an accepted commit that is PENDING keeps its values. -/
def State.claimAt (s : State) (src : Source) (p : Nat) : Nat × State :=
  let own := (s.page p).own
  let may := src == .keeper || (!fixedPage p && (own.isNone || own == some src))
  let res := if s.lock && src != .keeper then 5 else if may then 0 else 4
  let s := if res ≠ 0 ∨ own = some src then s
    else
      let s := if (s.page p).pending then s else s.dropStaged p
      s.updPage p fun g => { g with own := some src }
  (res, s.order src p 0x020 res)

/-- A release at a physical page. -/
def State.releaseAt (s : State) (src : Source) (p : Nat) : Nat × State :=
  let may := src == .keeper || s.ownsOk src p
  let res := if s.lock && src != .keeper then 5 else if may then 0 else 4
  let s := if res ≠ 0 ∨ fixedPage p then s else s.updPage p fun g => { g with own := none }
  (res, s.order src p 0x020 res)

/-- A write of PG_OWNER. -/
def State.ownerOrder (s : State) (src : Source) (p : Nat) (claim : Bool) : Nat × State :=
  match s.orderPage p with
  | some q => if claim then s.claimAt src q else s.releaseAt src q
  | none => (0, s)

/-- PAGE_CLAIM (R686). -/
def execPageClaim (src : Source) (page : Nat) (s : State) : Res :=
  onUnit (decide (page < 32768)) (fun s => (s.ownerOrder src page true).2) s

/-- PAGE_RELEASE (R686). -/
def execPageRelease (src : Source) (page : Nat) (s : State) : Res :=
  onUnit (decide (page < 32768)) (fun s => (s.ownerOrder src page false).2) s

/-! ### Writes (R651, R670, R680, R683, R687, R688) -/

/-- Where the order point accepts a write, its effect; the result and the state after it. -/
def State.gatedR (s : State) (src : Source) (p off : Nat) (f : State → State) : Nat × State :=
  (s.writeRes src p, s.gated src p off f)

/-- What clearing fault bits also clears (R149, R221, R299, R355, R473, R569 and the other W1C tables). -/
def State.clearLast (s : State) (p w : Nat) : State :=
  let left := s.regN p 0x044
  match pageClass p with
  | .mtl => if bit w 0 then s.setReg p 0x048 0 else s
  | .sfu => if bit w 0 then (s.setReg p 0x05C 0).setReg p 0x060 0 else s
  | .wag => if left % 8 = 0 then s.setReg p 0x058 0 else s
  | .buf =>
    let s := if bit w 2 then s.setReg p 0x050 0 else s
    if bit w 0 then s.setReg p 0x054 0 else s
  | .msh =>
    let s := if bit w 3 then s.setReg64 p 0x060 0 else s
    let s := if bit w 9 then s.endSnap (siteComb (p - 3072)) else s
    if bits left 6 4 = 0 then s.setReg p 0x068 0 else s
  | .hbm => if bit w 0 then s.setReg64 p 0x050 0 else s
  | .int => if bit w 2 then s.setReg64 p 0x080 0 else s
  | .bst => if bit w 1 then s.setReg p 0x05C 0 else s
  | _ => s

/-- A W1C write. -/
def State.w1c (s : State) (p off w : Nat) : State :=
  (({ s with regs := sset regDflt s.regs (regKey p off) (s.reg p off &&& ~~~(w32 w)) } : State)).clearLast p w

/-- The bits of an ST register that a write reaches: the RO fields of a remap entry stay (R61), and reserved bits that no rule makes a commit
refuse stay zero (R528, R567, log 113). -/
def stBits (p off : Nat) : Nat :=
  match pageClass p with
  | .dfm => 0xC07F
  | .alm => 0x80000000
  | .hbm => if off = 0x04C then 0xFFFF else 0xFF
  | _ => 2 ^ 32 - 1

/-- The bits of a 32-bit RW register that a write reaches; reserved ones stay zero (R632, R853, R854, R859). -/
def rwBits (p off : Nat) : Nat :=
  match pageClass p with
  | .trl => 0xC0000000
  | .kpr => if off = 0x044 then 0x80FF0000 else if off = 0x048 then 0x800007FF else 2 ^ 32 - 1
  | _ => 2 ^ 32 - 1

/-- A write to the staged copy (R680, R683, R687, R688; R253 at a router): words by offset. -/
def State.stageOrder (s : State) (src : Source) (p off : Nat) (ws : List (Nat × Nat)) : Nat × State :=
  let res := if (s.lock && src != .keeper) || (s.page p).pending then 5
    else if isLimit p off || s.ownsOk src p then 0 else 4
  let c := srcCode src
  let s :=
    if res ≠ 0 then s
    else if isLimit p off then
      ws.foldl (fun s x =>
        ({ s with limStaged := supd slotsDflt s.limStaged (regKey p x.1) fun l => l.set c (w32 x.2) } : State).updPage p fun g =>
          { g with slotDirty := if g.slotDirty.contains c then g.slotDirty else g.slotDirty ++ [c] }) s
    else if pageClass p = .msh ∧ s.copyState (p - 3072) ≠ 0 then s
    else ws.foldl (fun s x => s.stage p x.1 (x.2 &&& stBits p x.1)) s
  (res, s.order src p off res)

/-- DISABLE of TRL_CTL: the port is OFF and leaves its bundle (R575, R632). -/
def State.portOff (s : State) (n : Nat) : State :=
  let up := (s.tport n).st == 2
  let s := if up then s.linkLost n 0 else s
  let s := s.updTP n fun t => { t with st := 0, width := 0, nbr := none }
  if up then s.nbrEvent n 1 else s

/-- A write of a 32-bit RW register. GO and RETRAIN are set, and read 1 until the row that runs the operation has done so (R12); EN of
BST_SCAN_CTL acts for the Keeper alone, whose order has a row of its own (R831). -/
def State.rwEffect (s : State) (p off w : Nat) : State :=
  let w := w &&& rwBits p off
  match pageClass p with
  | .trl =>
    let was := bit (s.regN p off) 30
    let s := s.setReg p off (w % 2 ^ 31 + b2n (bit w 31 || bit (s.regN p off) 31) * 2 ^ 31)
    if bit w 30 && !was then s.portOff (p - 9424) else s
  | .kpr => if off = 0x044 then s.setReg p off (w % 2 ^ 31 + b2n (bit w 31 || bit (s.regN p off) 31) * 2 ^ 31) else s.setReg p off w
  | .bst => s.setReg p off (putBits (s.regN p off) 23 0 w)
  | _ => s.setReg p off w

/-- A 64-bit RW register takes a value; GO of HBM_REPAIR_CMD is set, and reads 1 until the repair's row completes it (R12, R571). A write
of GO during a repair is ignored, and LAST reads 3 (R556). -/
def State.rwWide (s : State) (p off v : Nat) : State :=
  let busy := bit (s.reg64 p off) 63
  if pageClass p ≠ .hbm then s.setReg64 p off v
  else if bit v 63 && busy then s.setReg p 0x060 (putBits (s.regN p 0x060) 1 0 3)
  else s.setReg64 p off (v % 2 ^ 63 &&& cmdBits ||| b2n (bit v 63 || busy) * 2 ^ 63)

/-- A write of one word at a block register of a physical page. -/
def State.blockWrite (s : State) (src : Source) (p off w : Nat) : Nat × State :=
  match regRow p off with
  | none => s.gatedR src p off id
  | some r =>
    match r.acc with
    | .ro | .rc => s.gatedR src p off id
    | .st => s.stageOrder src p off [(off, w)]
    | .w1c => s.gatedR src p off fun s => s.w1c p off w
    | .w1s => s.gatedR src p off fun s => if bit w 0 then s.clearLedger else s
    | .rw =>
      if !r.wide then
        let w := if pageClass p == .kpr && off == 0x044 && (s.page p).own != some src then w % 2 ^ 31 else w
        s.gatedR src p off fun s => s.rwEffect p off w
      else if (off - r.lo) % 8 = 0 then
        s.gatedR src p off fun s => { s with lowHeld := sput s.lowHeld (halfKey src p off) (w32 w) }
      else
        s.gatedR src p off fun s =>
          let low := match sfind s.lowHeld (halfKey src p (off - 4)) with
            | some x => x.toNat
            | none => s.regN p (off - 4)
          ({ s with lowHeld := serase s.lowHeld (halfKey src p (off - 4)) } : State).rwWide p (off - 4) (low + 2 ^ 32 * w)

/-- A write of one word at a physical page. -/
def State.physWrite (s : State) (src : Source) (p off w : Nat) : Nat × State :=
  if off = 0x010 then s.gatedR src p off fun s => s.updPage p fun g => { g with mask := w32 w }
  else if off < 0x040 then s.gatedR src p off id
  else if off < 0x800 then s.blockWrite src p off w
  else if isST p (off - 0x800) then s.stageOrder src p off [(off - 0x800, w)]
  else s.gatedR src p off id

/-- An MSI-X table entry is the host's to write; unmasking sends what waited (R649, R657). -/
def State.msixWrite (s : State) (src : Source) (p off w : Nat) : State :=
  if src = .host ∧ p < 32767 then (s.setReg p off w).msixFlush else s

/-- A write of one aligned word at a page of BAR0: its result (R678) and the state after it. PG_COMMIT and PG_OWNER act as the
orders that they are. -/
def State.write4 (s : State) (src : Source) (p off w : Nat) : Nat × State :=
  if 32759 ≤ p then (0, s.msixWrite src p off w)
  else if off = 0x018 then
    match bits w 31 30 with
    | 0 => s.commitOrder src p (bit w 29) (w % 65536)
    | 1 => s.discardOrder src p
    | _ => match s.orderPage p with
      | some q => s.gatedR src q off id
      | none => (0, s)
  else if off = 0x020 then s.ownerOrder src p (bit w 31)
  else match s.orderPage p with
    | some q => s.physWrite src q off w
    | none => (0, s)

/-- A write of 8 bytes: one order at a 64-bit register, else two. -/
def State.write8 (s : State) (src : Source) (p off v : Nat) : State :=
  let two := ((s.write4 src p off (v % 2 ^ 32)).2.write4 src p (off + 4) (v / 2 ^ 32 % 2 ^ 32)).2
  match s.orderPage p with
  | none => two
  | some q =>
    let o := if 0x800 ≤ off then off - 0x800 else off
    match regRow q o with
    | none => two
    | some r =>
      if !r.wide || (o - r.lo) % 8 != 0 then two
      else if r.acc = .st then (s.stageOrder src q off [(o, v % 2 ^ 32), (o + 4, v / 2 ^ 32 % 2 ^ 32)]).2
      else if r.acc = .rw ∧ off < 0x800 then (s.gatedR src q off fun s => s.rwWide q o v).2
      else (s.gatedR src q off id).2

/-- REGISTER_WRITE (R650 to R652, R687). -/
def execRegisterWrite (src : Source) (page off width : Nat) (val : DWord) (poisoned : Bool) (s : State) : Res :=
  onUnit (inBar0 page off) (fun s =>
    if src = .host ∧ poisoned then s.aerReport 0x1000
    else if width = 8 ∧ off % 8 = 0 then s.write8 src page off val.toNat
    else if width = 4 ∧ off % 4 = 0 then (s.write4 src page off (val.toNat % 2 ^ 32)).2
    else if src = .host then s.bar0Refuse (regKey page off)
    else s) s

end Sys2Proof.Machine
end

