-- ==== Sys2Proof/Machine/Treath.lean ====
section
/-! DEFINITION. What a Treath port receives (chapter 11): the link layer (R586, R587), transit and slice checks (R585, R590, R594,
R596, R597), remote requests served (R600), MAINT (R625 to R627); reference clocks (R702, R703). -/

namespace Sys2Proof.Machine

/-! ### Link layer (R586, R587) -/

/-- The credit that a LINK packet returns on a channel, in 64-byte units (R584): none on REQ while every remote-request entry is
taken (R600). -/
def State.returnOf (s : State) (p c : Nat) : Nat :=
  if c = 0 ∧ (s.freeEntry p).isNone then 0 else min 65535 (sget (fun _ => 0) (s.tport p).back c)

/-- A LINK packet: acknowledgements, the credit that is due, and with `nak` a request to resend (R584, R586). -/
def State.sendLink (s : State) (p : Nat) (nak : Bool) : State :=
  let due := s.returnOf p
  let c := sumNat ((List.range 4).map fun c => due c * 2 ^ (16 * c))
  let s := s.updTP p fun t => { t with back := (List.range 4).foldl (fun m c => supd (fun _ => 0) m c (· - due c)) t.back }
  s.trlEmit p { dst := ((s.tport p).nbr.getD noIdent).dev.toNat, src := s.ownDev, slice := s.sliceId, cls := 0, hops := 0, len := 0
                pmask := 0 } nak (.link (BitVec.ofNat 64 c))

/-- The credit that a LINK packet returns (R584, R588): packets that waited for it go out. -/
def State.takeReturns (s : State) (p : Nat) : TBody → State
  | .link c => (s.updTP p fun t => { t with
      used := (List.range 4).foldl (fun m i => supd (fun _ => 0) m i (· - bits c.toNat (16 * i + 15) (16 * i))) t.used }).trlFlow p
  | _ => s

/-- A packet that failed: discarded, with NAK for the first one; sixteen failures of one LSEQ end the link. -/
def State.refusePkt (s : State) (p : Nat) : State :=
  let t := s.tport p
  let want := (t.lack + 1) % 65536
  let n := if t.refused.1 = want then t.refused.2 + 1 else 1
  let s := s.updTP p fun t => { t with refused := (want, n) }
  if 16 ≤ n then s.portDown p 1 else s.sendLink p true

/-- A packet of the retry buffer goes out again (R586, R629). -/
def State.resend (s : State) (p : Nat) (w : BitVec 128) (body : TBody) : State :=
  ((s.incReg (pgTrl p) 0x064).addReg64 (pgTrl p) 0x078 (16 + (tBytes (bits w.toNat 105 102 == 3) body).length)).emit (.treath p w body)

/-- The packets up to LACK are acknowledged; NAK resends the others (R586). -/
def State.takeAck (s : State) (p lack : Nat) (nak : Bool) : State :=
  let t := s.tport p
  let rest := match t.retry.findIdx? fun x => tLseq x.1 == lack with
    | some i => t.retry.drop (i + 1)
    | none => t.retry
  let s := (s.updTP p fun t => { t with retry := rest }).trlFlow p
  if nak then rest.foldl (fun s x => s.resend p x.1 x.2) s else s

/-! ### Delivery of each class -/

/-- TRL_FMT (R585). -/
def State.trlFmt (s : State) (p cls : Nat) : State := s.report (pgTrl p) 13 0x0A0A p cls 0

/-- A packet as it enters the mesh again: DN and MCT are 0 at injection (R242, R259). -/
def atEntry (p : MeshPkt) : MeshPkt :=
  match p.flits with
  | [] => p
  | f :: t =>
    let h := f.lane.toNat
    { p with flits := { f with lane := BitVec.ofNat 128 (if hVc h = 2 then putBits h 80 80 0 else putBits (putBits h 86 86 0) 55 55 0) } :: t }

/-- Replace DEST of a packet's head flit. -/
def reDest (p : MeshPkt) (dest : Nat) : MeshPkt :=
  match p.flits with
  | [] => p
  | f :: t => { p with flits := { f with lane := BitVec.ofNat 128 (putBits f.lane.toNat 127 112 dest) } :: t }

/-- A message of the slice protocol (R611 to R618). -/
def State.onSlice (s : State) (m : SliceMsg) : State :=
  match m with
  | .ready n l recs => s.onReady n.toNat l recs
  | .notReady n l c => s.onNotReady n.toNat l c.toNat
  | .commit n l b => s.onCommit n.toNat l b
  | .abort n l => s.onAbort n.toNat l
  | .done n l => s.onDone n.toNat l
  | .statusQ l => s.onStatusQ l
  | .statusR l n => s.onStatusR l n.toNat
  | .beat l => s.onBeat l

/-! ### MAINT (R625 to R627) -/

/-- Fields of a MAINT head payload. -/
def mOp (h : Nat) : Nat := bits h 511 508
def mPage (h : Nat) : Nat := bits h 507 493
def mOff (h : Nat) : Nat := bits h 492 481
def mValue (h : Nat) : Nat := bits h 480 449
def mTag (h : Nat) : Nat := bits h 448 433

/-- A response to a MAINT order. -/
def State.maintAnswer (s : State) (p : Nat) (h : THead) (q value stat : Nat) : State :=
  let r := 3 * 2 ^ 508 + mPage q * 2 ^ 493 + mOff q * 2 ^ 481 + value % 2 ^ 32 * 2 ^ 449 + mTag q * 2 ^ 433 + stat * 2 ^ 431
  s.trlSend p 0 true { dst := h.src, src := s.ownDev, slice := s.sliceId, cls := 6, hops := 0, len := 1, pmask := 0 }
    (.maint (BitVec.ofNat 512 r))

/-- A MAINT order at its destination: a read or a write as a peer's order, or a response to one of this device's. -/
def State.maintOrder (s : State) (p : Nat) (h : THead) (q : Nat) : State :=
  let src := Source.peer (BitVec.ofNat 8 h.src)
  if mOp q = 3 then s
  else if !bit (s.regN pgRte 0x048) 30 then s.maintAnswer p h q 0 1
  else if mOff q % 4 ≠ 0 ∨ 32758 < mPage q ∨ (mOp q ≠ 1 ∧ mOp q ≠ 2) then s.maintAnswer p h q 0 2
  else if mOp q = 1 then
    let (v, s) := s.read4 src (mPage q) (mOff q)
    s.maintAnswer p h q v 0
  else
    let (r, s) := s.write4 src (mPage q) (mOff q) (mValue q)
    s.maintAnswer p h q r 0

/-- The identity that a port sends (R577). -/
def State.ownIdent (s : State) (p : Nat) : Ident :=
  { serial := Config.serial, dev := BitVec.ofNat 8 s.ownDev, idValid := s.idValid, port := p, isSwitch := false, timeTc := false }

/-- A discovery query is answered at the port that received it, whatever the slice (R627). -/
def State.answerQuery (s : State) (p : Nat) (h : THead) (q : Nat) : State :=
  let tag := BitVec.ofNat 16 (mTag q)
  let body : TBody := if mOp q = 8 then .identAnswer tag (s.ownIdent p)
    else .nbrAnswer tag ((List.range 16).map fun n => w32 (s.rteNbr n))
  s.trlPut p { dst := h.src, src := s.ownDev, slice := s.sliceId, cls := 6, hops := 0, len := 1, pmask := 0 } body

/-! ### Receiving -/

/-- The packet is a discovery query or an answer to one. -/
def isDiscovery : TBody → Bool
  | .maint h => mOp h.toNat == 8 || mOp h.toNat == 9
  | .identAnswer .. | .nbrAnswer .. => true
  | _ => false

/-- The class is checked against the slice masks (R585). -/
def checkedClass (h : THead) (b : TBody) : Bool := (decide (1 ≤ h.cls) && decide (h.cls ≤ 4)) || (h.cls == 6 && !isDiscovery b)

/-- The payload bits that PMASK names carry POISON (R583). -/
def maskBody (mask : Nat) : TBody → TBody
  | .mesh p => .mesh { p with flits := (List.range p.flits.length).map fun i =>
      let f := nth { lane := 0, pay := 0, poison := false } p.flits i
      { f with poison := bit mask i } }
  | b => b

/-- A packet of class COMMIT: READY is complete with its last packet (R611). -/
def State.sliceIn (s : State) (head : Nat) (m : SliceMsg) : State :=
  let whole := bits head 461 446 + 1 == bits head 445 430
  match m with
  | .ready n l recs =>
    let all := (s.slc.gather.filter fun g => g.1 == l && g.2.1 == n.toNat).flatMap (·.2.2) ++ recs
    let rest := s.slc.gather.filter fun g => !(g.1 == l && g.2.1 == n.toNat)
    if whole then ({ s with slc := { s.slc with gather := rest } } : State).onReady n.toNat l all
    else { s with slc := { s.slc with gather := rest ++ [(l, n.toNat, all)] } }
  | m => if whole then s.onSlice m else s

/-- The mesh flow of a packet, 0 for a class without one (R592). -/
def bodyFlow : TBody → Nat
  | .mesh p => hFlow (MeshPkt.hdr p)
  | _ => 0

/-- A packet for this device (R585, R596 to R603, R609, R611, R626). -/
def State.trlDeliver (s : State) (p : Nat) (h : THead) (b : TBody) : State :=
  if checkedClass h b && (!s.inSlice || h.slice != s.sliceId) then s.sliceViol p h
  else match h.cls, b with
    | 1, .mesh m =>
      if s.mustWait p m then s.updTP p fun t => { t with rxq := t.rxq ++ [(h, m)] } else s.serveRemote p h m
    | 2, .mesh m => s.attInject (16 + p) (atEntry m)
    | 3, .mesh m => s.attInject (16 + p) (reDest (atEntry m) (s.physDest (hDest (MeshPkt.hdr m))))
    | 4, .slice q m => s.whenB s.takesPart fun s => s.sliceIn q.toNat m
    | 6, .maint q => s.maintOrder p h q.toNat
    | _, _ => s

/-- A packet that the link layer has taken in. In an ID conflict only LINK and discovery traffic passes, and without a device ID nothing
is forwarded (R579, R638). -/
def State.trlTake (s : State) (p : Nat) (h : THead) (b : TBody) : State :=
  if h.cls = 0 then s.takeReturns p b
  else if 7 ≤ h.cls then s.trlFmt p h.cls
  else if h.cls = 5 then
    match b with
    | .time r n => s.hearTime p r n
    | _ => s
  else if h.cls = 6 ∧ isDiscovery b then
    match b with
    | .maint q => s.answerQuery p h q.toNat
    | _ => s
  else if (s.tport p).conflict then s.trlDrop p
  else if !bit (s.rteDev h.src) 31 then s.trlDrop p
  else if checkedClass h b && !s.maskOpen p h.slice then s.sliceViol p h
  else if h.dst = s.ownDev ∧ s.idValid then s.trlDeliver p h b
  else if !s.idValid then s.trlDrop p
  else if 15 ≤ h.hops + 1 then s.report (pgTrl p) 11 0x0A0B p h.dst h.src
  else s.trlSend p (bodyFlow b) (checkedClass h b) { h with hops := h.hops + 1 } b

/-- The port's receive buffer has no room for the packet, so that its sender has no credit for it (R588, R600). -/
def State.noCredit (s : State) (p : Nat) (k : TPkt) : Bool :=
  let h := headOf k.hdr
  h.cls == 1 && h.dst == s.ownDev
    && decide (256 < sumNat ((s.tport p).rxq.map fun x => tUnits 1 (.mesh x.2)) + tUnits 1 k.body)

/-- A packet at a port (R586, R588): discarded and refused, discarded as one that follows a refused one, or taken in. -/
def State.treathIn (s : State) (p : Nat) (k : TPkt) : State :=
  let t := s.tport p
  if !s.tUp p || s.noCredit p k then s
  else if !k.good then s.refusePkt p
  else if tLseq k.hdr ≠ (t.lack + 1) % 65536 then s
  else
    let s := s.updTP p fun t => { t with lack := tLseq k.hdr, refused := (0, 0) }
    let h := headOf k.hdr
    let s := s.addReg64 (pgTrl p) 0x080 (16 + (tBytes (h.cls == 3) k.body).length)
    let held := (s.tport p).rxq.length
    let s := (s.takeAck p (tLack k.hdr) (tNak k.hdr)).trlTake p h (maskBody h.pmask k.body)
    -- a packet frees its receive buffer as it is taken, but for a request that waits there
    if h.cls = 0 ∨ held < (s.tport p).rxq.length then s else s.freeRx p (chanOf h.cls) (tUnits h.cls k.body)

/-- A packet at a port, where its MAINT operation is the one named. -/
def State.maintIn (s : State) (op p : Nat) (k : TPkt) : State :=
  match k.body with
  | .maint q => if (headOf k.hdr).cls = 6 ∧ mOp q.toNat = op then s.treathIn p k else s
  | _ => s

/-- TREATH_PACKET_RECEIVE (R585 to R600). -/
def execTreathPacketReceive (port : Nat) (pkt : TPkt) (s : State) : Res := onUnit (decide (port < 16)) (fun s => s.treathIn port pkt) s

/-- LINK_KEEPALIVE (R586). -/
def execLinkKeepalive (port : Nat) (s : State) : Res :=
  onUnit (decide (port < 16)) (fun s => if s.tUp port then s.sendLink port false else s) s

/-- MAINT_READ (R625, R626). -/
def execMaintRead (port : Nat) (pkt : TPkt) (s : State) : Res := onUnit (decide (port < 16)) (fun s => s.maintIn 1 port pkt) s

/-- MAINT_WRITE (R625, R626). -/
def execMaintWrite (port : Nat) (pkt : TPkt) (s : State) : Res := onUnit (decide (port < 16)) (fun s => s.maintIn 2 port pkt) s

/-- MAINT_RESPONSE (R625). -/
def execMaintResponse (port : Nat) (pkt : TPkt) (s : State) : Res := onUnit (decide (port < 16)) (fun s => s.maintIn 3 port pkt) s

/-- IDENTITY_QUERY (R627). -/
def execIdentityQuery (port : Nat) (pkt : TPkt) (s : State) : Res := onUnit (decide (port < 16)) (fun s => s.maintIn 8 port pkt) s

/-- NEIGHBOUR_QUERY (R627). -/
def execNeighbourQuery (port : Nat) (pkt : TPkt) (s : State) : Res := onUnit (decide (port < 16)) (fun s => s.maintIn 9 port pkt) s

/-! ### Reference clocks (R702, R703) -/

/-- CLK_REF_LOST: 0 is the 25 MHz reference, 1 the 156.25 MHz, 2 the 100 MHz; without the second no Treath port stays UP. One
that is missing before the start instant is logged when the Keeper starts (log 44). -/
def execClkRefLost (ref : Nat) (s : State) : Res :=
  onUnit (decide (ref < 3)) (fun s =>
    if bit s.dev.refs ref then s
    else
      let s : State := { s with dev := { s.dev with refs := putBits s.dev.refs ref ref 1 } }
      let s := if s.dev.running then s.report pgClk 0 0x1301 ref 0 0 else s
      if ref = 1 then
        ((List.range 16).filter fun p => (s.tport p).st == 2).foldl (fun s p => s.portDown p 2) s
      else s) s

/-! ### What one nanosecond brings -/

/-- The chronometer counts, and an event that waits for the end of its millisecond is logged (log 3). -/
def State.tick (s : State) : State := s.advance.bar0Due

end Sys2Proof.Machine
end

