-- ==== Sys2Proof/Machine/Mgmt.lean ====
section
/-! DEFINITION. The PCI Express function's link and resets (R647, R655 to R657), the event log's batches (R659 to R664), the
management port (R665 to R669) and the pin sensors (R898, R899). -/

namespace Sys2Proof.Machine

/-! ### Function Level Reset (R647, R655) -/

/-- The pages whose owner is the host. -/
def State.hostPages (s : State) : List Nat := (s.pages.filter fun e => e.2.own == some .host).map (·.1)

/-- A page of the host becomes unowned and its staged copy goes; an accepted commit that is PENDING keeps its values. -/
def State.disown (s : State) (p : Nat) : State :=
  let s := if (s.page p).pending then s else s.dropStaged p
  s.updPage p fun g => { g with own := none }

/-- A key of the MSI-X table. -/
def isMsixKey (k : Nat) : Bool := decide (regKey 32759 0 ≤ k) && decide (k < regKey 32767 0)

/-- A Function Level Reset (R655): configuration space with Bus Master Enable and the function mask, the MSI-X structures, the BAR
sizes, the host's pages, EN of the event log. -/
def State.functionReset (s : State) : State :=
  let s : State := { s with
    regs := s.regs.filter fun e => !isMsixKey e.1
    host := { s.host with bme := false, funcMask := false, msixPend := [], aer := 0 } }
  let s := s.resizeBar4 4
  let s := s.hostPages.foldl State.disown s
  if s.evtOn then (s.setReg pgPci 0x048 (putBits (s.regN pgPci 0x048) 31 31 0)).evtStop else s

/-- The function is there: the start instant has passed (R808). -/
def State.whenFunction (s : State) (f : State → State) : Res := .next (s.whenB s.dev.running f)

/-- FUNCTION_LEVEL_RESET (R655). -/
def execFunctionLevelReset (s : State) : Res := s.whenFunction State.functionReset

/-- HOT_RESET has the effect of a Function Level Reset (R647). -/
def execHotReset (s : State) : Res := s.whenFunction State.functionReset

/-! ### Link and held writes (R656, R693) -/

/-- PCI_LINK_DOWN. -/
def execPciLinkDown (s : State) : Res :=
  .next (s.whenB s.host.linkUp fun s =>
    let s : State := { s with host := { s.host with linkUp := false, linkBits := 0 } }
    (s.incReg pgPci 0x074).report pgPci 0 0x0C01 0 0 0)

/-- BUS_MASTER_ENABLE_CLEAR. -/
def execBusMasterEnableClear (s : State) : Res :=
  .next (s.whenB s.host.linkUp fun s => { s with host := { s.host with bme := false } })

/-- RATE, WIDTH, FLIT, L0P, REVERSED and POL_INV after a training of the link, from a free value: a rate, 8 or 16 lanes. -/
def linkWord (f : Nat) : Nat :=
  (1 + f % 3) * 2 ^ 30 + (if bit f 8 then 16 else 8) * 2 ^ 25 + bitN f 9 * 2 ^ 24 + bitN f 10 * 2 ^ 23 + bitN f 11 * 2 ^ 22
    + (if bit f 8 then bits f 31 16 else bits f 23 16)

/-- The link trains (R703: not without the 100 MHz reference). -/
def State.linkTrain (s : State) : State :=
  if s.host.linkUp || bit s.dev.refs 2 then s
  else
    let (i, s) := s.draw
    { s with host := { s.host with linkUp := true, linkBits := w32 (linkWord (Config.freeValue i)) } }

/-- The held writes are made in order. -/
def State.releaseHeld (s : State) : State :=
  if !s.hostOpen then s
  else s.host.held.foldl State.hostNow { s with host := { s.host with held := [] } }

/-- HOST_WRITES_RELEASE: the link is up and Bus Master Enable is 1. -/
def execHostWritesRelease (s : State) : Res :=
  s.whenFunction fun s =>
    let s := s.linkTrain
    (if s.host.linkUp then { s with host := { s.host with bme := true } } else s).releaseHeld

/-- PCI_AER_UNCORR (R694). -/
def execPciAerUncorr (status : Word) (s : State) : Res := s.whenFunction fun s => s.aerReport status.toNat

/-- MSIX_UNMASK: the mask of a vector, or the function mask, clears (R657). -/
def execMsixUnmask (vector : Option Nat) (s : State) : Res :=
  match vector with
  | some v => onUnit (decide (v < 2048)) (fun s =>
      let p := 32759 + v / 256
      let o := v % 256 * 16 + 12
      (s.setReg p o (putBits (s.regN p o) 0 0 0)).msixFlush) s
  | none => .next ({ s with host := { s.host with funcMask := false } } : State).msixFlush

/-! ### Event batches (R659 to R664, R667) -/

/-- A record of 32 bytes (R660, R800). -/
def EvRec.bytes (r : EvRec) (seq : Nat) : List Byte :=
  leBytes 8 r.time ++ leBytes 2 r.page ++ leBytes 2 r.code ++ leBytes 4 seq
    ++ leBytes 4 r.a0 ++ leBytes 4 r.a1 ++ leBytes 4 r.a2 ++ leBytes 4 r.a3

def State.evtEntries (s : State) : Nat := s.regN pgPci 0x058
def State.evtTail (s : State) : Nat := s.regN pgPci 0x060

/-- The ring is full (R661). -/
def State.ringFull (s : State) : Bool :=
  (s.evtTail + 2 ^ 32 - s.regN pgPci 0x05C) % 2 ^ 32 == s.evtEntries

/-- One record goes to the ring, or is lost (R660, R663). The result says whether it was written. -/
def State.ringPut (s : State) (r : EvRec) : Bool × State :=
  if s.ringFull then
    (false, ({ s.incReg pgPci 0x064 with ev := { s.ev with overflow := s.ev.overflow + 1 } } : State).flag pgPci 3)
  else
    let n := s.evtTail
    let s := s.toHost (.hostWrite (s.reg64 pgPci 0x050 + 32 * (n % s.evtEntries)) (r.bytes ((n + 1) % 2 ^ 32)))
    (true, s.setReg pgPci 0x060 (n + 1))

/-- EVT_OVERFLOW ahead of the first batch after space returns (R663). -/
def State.ringOverflow (s : State) : Bool × State :=
  if s.ev.overflow = 0 ∨ s.ringFull then (false, s)
  else
    let r : EvRec := { time := s.dev.chrono, page := pgPci, code := 0x0C04, a0 := s.ev.overflow % 2 ^ 32, a1 := 0, a2 := 0, a3 := 0 }
    let s : State := { s with ev := { s.ev with overflow := 0 } }
    (s.toBmc r).ringPut r

/-- The batch: at most 64 records, the tail word, the message (R659, R662). -/
def State.evtBatch (s : State) : State :=
  let (first, s) := s.ringOverflow
  let n := 64 - b2n first
  let l := s.ev.batch.take n
  let s : State := { s with ev := { s.ev with batch := s.ev.batch.drop n } }
  let (any, s) := l.foldl (fun acc r => let (w, s) := State.ringPut acc.2 r; (acc.1 || w, s)) (first, s)
  if !any then s
  else
    let a := s.reg64 pgPci 0x068
    let s := if a = 0 then s else s.toHost (.hostWrite a (leBytes 8 s.evtTail))
    s.toHost (.msix (s.regN pgPci 0x048 % 2048))

/-- A queued event message goes to the BMC with the losses since the last one; its SEQ is free (R667, log 6). -/
def State.bmcSend (s : State) (r : EvRec) : State :=
  let (i, s) := s.draw
  let lost := s.ev.bmcLost
  ({ s with ev := { s.ev with bmcLost := 0 } } : State).emit
    (.pldm 0x0A (r.bytes (Config.freeValue i % 2 ^ 32) ++ leBytes 4 lost))

/-- The BMC takes the queued messages (R667, log 42). -/
def State.bmcDrain (s : State) : State :=
  s.ev.bmc.foldl State.bmcSend { s with ev := { s.ev with bmc := [] } }

/-- EVT_BATCH (R659 to R664, R667); the log is served while the Keeper runs (R797). -/
def execEvtBatch (s : State) : Res :=
  .next (s.whenB s.dev.keeper fun s =>
    let s := if s.evtOn && (!s.ev.batch.isEmpty || s.ev.overflow != 0) then s.evtBatch else s
    s.bmcDrain)

/-! ### Management port (R665, R669, R807) -/

/-- The module answers a management request: the Keeper runs (R797, R807). -/
def State.mgmtUp (s : State) : Bool := s.dev.keeper

/-- A management request: served, answered with an MCTP error in STANDBY or without the Keeper, or not answered in OFF. -/
def State.managed (s : State) (f : State → State) : Res :=
  .next (if s.mgmtUp then f s else if s.dev.st == .off then s else s.emit .mctpError)

/-- The BMC's order names no register. -/
def bmcMalformed (page off : Nat) : Bool := decide (32758 < page) || off % 4 != 0 || decide (0xFFC < off)

/-- BMC_PAGE_READ (R669). -/
def execBmcPageRead (page off : Nat) (s : State) : Res :=
  s.managed fun s =>
    if bmcMalformed page off then s.emit (.bmcResp (bmcBody 1 1 page off 0))
    else
      let (v, s) := s.read4 .bmc page off
      s.emit (.bmcResp (bmcBody 1 0 page off v))

/-- BMC_PAGE_WRITE (R669). -/
def execBmcPageWrite (page off : Nat) (val : Word) (s : State) : Res :=
  s.managed fun s =>
    if bmcMalformed page off then s.emit (.bmcResp (bmcBody 2 1 page off 0))
    else
      let (r, s) := s.write4 .bmc page off val.toNat
      s.emit (.bmcResp (bmcBody 2 0 page off r))

/-- I3C_ENTDAA: the target runs from the standby supply (R665, R807). -/
def execI3cEntdaa (addr : BitVec 7) (s : State) : Res :=
  .next (s.whenB (s.dev.st != .off) fun s => { s with mgmt := { s.mgmt with i3c := some addr.toNat } })

/-! ### Sensors (R666, R668, R898, R899) -/

/-- ALERT_N is driven low (R668). -/
def State.alertLow (s : State) : Bool :=
  s.dev.st == .failed || !s.throttledCombs.isEmpty || !s.heatParked.isEmpty || !s.ev.bmc.isEmpty

/-- The thermal state sensor: 0 normal, 1 throttling, 2 comb parked, 3 trip. -/
def State.thermalState (s : State) : Nat :=
  if s.dev.tripLatched then 3 else if !s.heatParked.isEmpty then 2 else if !s.throttledCombs.isEmpty then 1 else 0

/-- The sensors in the order of R666: power, VCORE_IN current, comb and stack temperatures, device and thermal state. -/
def State.sensorNow (s : State) : List Nat :=
  [s.regN pgPwr 0x050, s.regN pgPwr (0x100 + 4 * 54) / 100] ++ (List.range 24).map (fun c => (s.comb c).temp)
    ++ (List.range 12).map (fun h => (s.stack h).temp) ++ [s.dev.st.code, s.thermalState]

/-- A pin's state sensor: a mismatch that lasts (R899). -/
def pinState (driven level : Bool) (old : PinSensor) : PinSensor :=
  if !level && !driven then .shortLow else if level && driven then .shortHigh else old

/-- A pin without a mismatch returns to NORMAL. -/
def pinQuiet (driven level : Bool) (old : PinSensor) : PinSensor := if level == !driven then .normal else old

/-- SENSOR_UPDATE: every 1 ms; in STANDBY the device state alone (R666, R807). A level is true where the pin reads high. -/
def execSensorUpdate (alertLevel tripLevel : Bool) (s : State) : Res :=
  .next (s.whenB (s.dev.st != .off) fun s =>
    let l := s.sensorNow
    { s with mgmt := { s.mgmt with
      sensors := if s.mgmtUp then l else List.replicate 38 0 ++ [s.dev.st.code, 0]
      sensAlert := pinQuiet s.alertLow alertLevel s.mgmt.sensAlert
      sensTrip := pinQuiet s.dev.thermtrip tripLevel s.mgmt.sensTrip } })

/-- PIN_SHORT: a mismatch has been held for 1 ms; the sink current stays limited and the drive is unchanged (R892, R898). -/
def execPinShort (pin : OutPin) (level : Bool) (s : State) : Res :=
  .next (s.whenB (s.dev.st != .off) fun s =>
    match pin with
    | .thermtrip => { s with mgmt := { s.mgmt with sensTrip := pinState s.dev.thermtrip level s.mgmt.sensTrip } }
    | .alert => { s with mgmt := { s.mgmt with sensAlert := pinState s.alertLow level s.mgmt.sensAlert } })

end Sys2Proof.Machine
end

