-- ==== Sys2Proof/Machine/Firmware.lean ====
section
/-! DEFINITION. Signed objects, update packages, licences, owner keys and life-cycle requests (R811 to R815, R832 to R848), the
Keeper mailbox (R853 to R856), PLDM firmware update (R839) and SPDM (R849 to R852). -/

namespace Sys2Proof.Machine

/-! ### Signed objects (R813, R814, R841) -/

/-- Bytes of a signature block. -/
def sigLen : Nat := 17044

/-- The signature block of an object, and its KEY_SLOT. -/
def sigBlock (o : List Byte) : List Byte := lastN sigLen o
def keySlot (o : List Byte) : Nat := leAt (sigBlock o) 0 1

/-- The bytes of a digest, first byte first. -/
def hashBytes (h : BitVec 384) : List Byte := (leBytes 48 h.toNat).reverse

/-- The life-cycle state accepts a key slot (R841). -/
def Nv.accepts (n : Nv) (slot : Nat) : Bool :=
  match n.life with
  | 4 => false
  | 2 => decide (slot ≤ 2) || slot == 0xFF
  | _ => decide (slot ≤ 3)

/-- The hash that the key bytes of a slot must have: a fuse hash, or the owner hash. -/
def Nv.keyHash (n : Nv) (slot : Nat) : Option (BitVec 384) :=
  if slot ≤ 3 then some (Config.fuseHash slot) else if slot = 0xFF then n.owner.map Config.sha384 else none

/-- An object verifies (R814). -/
def Nv.verifies (n : Nv) (o : List Byte) : Bool :=
  let slot := keySlot o
  decide (sigLen ≤ o.length) && leAt (sigBlock o) 1 3 == 0
    && n.keyHash slot == some (Config.sha384 (((sigBlock o).drop 4).take 432))
    && !(decide (slot ≤ 3) && bit n.revoked slot) && n.accepts slot && Config.verifies o slot

def Nv.vendorOk (n : Nv) (o : List Byte) : Bool := decide (keySlot o ≤ 3) && n.verifies o
def Nv.ownerOk (n : Nv) (o : List Byte) : Bool := keySlot o == 0xFF && n.verifies o

/-! ### Flash banks and components (R811, R812, R815) -/

/-- A flash bank: 0 A, 1 B. -/
def Nv.bank (n : Nv) (b : Nat) : Bank := if b = 0 then n.bankA else n.bankB
def Nv.setBank (n : Nv) (b : Nat) (x : Bank) : Nv := if b = 0 then { n with bankA := x } else { n with bankB := x }

/-- The stored object of a component in a bank. -/
def Nv.obj (n : Nv) (b c : Nat) : List Byte :=
  match (n.bank b).objs.find? fun e => e.1 == c with
  | some e => e.2
  | none => Config.makerObj b c

/-- SVN and VERSION of a component object (R815). -/
def objSvn (o : List Byte) : Nat := leAt o 5 1
def objVersion (o : List Byte) : Nat := leAt o 8 4

/-- The floor of a component (R832). -/
def Nv.floor (n : Nv) (c : Nat) : Nat := nth 0 n.floors (c - 1)

/-- An object loads as a component: R814 and R815. -/
def Nv.objOk (n : Nv) (c : Nat) (o : List Byte) : Bool :=
  n.verifies o && leAt o 0 4 == 0x4F435A4B && leAt o 4 1 == c && leAt o 6 2 == 0 && leAt o 16 48 == 0
    && 64 + leAt o 12 4 + sigLen == o.length && decide (n.floor c ≤ objSvn o)

/-! ### Update packages (R833 to R835) -/

/-- `apply` of R834: the operation stream over a base object; none where it fails. -/
def fwApply (base : List Byte) (tsize : Nat) : Nat → List Byte → List Byte → Option (List Byte)
  | 0, _, _ => none
  | fuel + 1, ops, out =>
    match ops with
    | [] => none
    | b :: t =>
      let op := b.toNat
      if op = 0 then (if t.isEmpty && out.length == tsize then some out else none)
      else if 4 < op then none
      else
        let two := op == 1 || op == 2
        let n := if two then 8 else 4
        let a := if two then leAt t 0 4 else 0
        let len := leAt t (n - 4) 4
        let d := t.drop n
        let dlen := if op = 2 ∨ op = 3 then len else if op = 4 then 1 else 0
        if t.length < n || (two && decide (base.length < a + len)) || decide (d.length < dlen) || decide (tsize < out.length + len) then
          none
        else
          let x := match op with
            | 1 => (base.drop a).take len
            | 2 => List.zipWith (· + ·) ((base.drop a).take len) d
            | 3 => d.take len
            | _ => List.replicate len (nth 0 d 0)
          fwApply base tsize fuel (d.drop dlen) (out ++ x)

/-- "KZN-6M576", zero-padded to 16 bytes. -/
def partName : List Byte := [0x4B, 0x5A, 0x4E, 0x2D, 0x36, 0x4D, 0x35, 0x37, 0x36, 0, 0, 0, 0, 0, 0, 0]

/-- FULL and ADVANCE of a package. -/
def pkgFull (p : List Byte) : Bool := bit (leAt p 7 1) 0
def pkgAdvance (p : List Byte) : Bool := bit (leAt p 7 1) 1

/-- Check 1 of R835. -/
def pkgHeadBad (p : List Byte) : Bool :=
  decide (p.length < 256) || leAt p 0 4 != 0x50445A4B || leAt p 4 2 != 1 || (p.drop 128).take 16 != partName
    || decide (3 < leAt p 7 1) || leAt p 13 3 != 0 || leAt p 24 8 != 0 || leAt p 144 112 != 0
    || leAt p 6 1 == 0 || decide (6 < leAt p 6 1)

/-- What the checks of R835 find: the code of the first failure, or the object to write. -/
structure PkgCheck where
  code : Nat
  obj : List Byte
  deriving DecidableEq, Repr

/-- The checks of R835 in their order. -/
def Nv.checkPkg (n : Nv) (p : List Byte) : PkgCheck :=
  let c := leAt p 6 1
  let cur := n.obj n.active c
  let ops := leAt p 20 4
  let fail := fun (k : Nat) => ({ code := k, obj := [] } : PkgCheck)
  if pkgHeadBad p then fail 1
  else if 256 + ops + sigLen ≠ p.length ∨ ¬n.vendorOk p then fail 2
  else if !pkgFull p && (p.drop 32).take 48 != hashBytes (Config.sha384 cur) then fail 3
  else if leAt p 8 4 < objVersion cur then fail 4
  else if leAt p 12 1 < n.floor c then fail 5
  else match fwApply (if pkgFull p then [] else cur) (leAt p 16 4) (ops + 1) ((p.drop 256).take ops) [] with
    | none => fail 6
    | some o =>
      if (p.drop 80).take 48 ≠ hashBytes (Config.sha384 o) then fail 6
      else if !n.objOk c o then fail 7
      else { code := 0, obj := o }

/-- FW_UPDATE_REJECT (R835). -/
def State.fwReject (s : State) (comp code src : Nat) : State :=
  (s.flag pgLcs 1).log (pgKpr 0) 0x1603 comp code src 0

/-- A package that passed is being written into the inactive bank (R836, R837). -/
def State.fwStart (s : State) (p obj : List Byte) (mailbox : Option Nat) : State :=
  { s with nv := { s.nv with update := some { comp := leAt p 6 1, obj, adv := pkgAdvance p, version := leAt p 8 4, mailbox } } }

/-- The inactive bank after an update: every component of the active one but the new object, GEN + 1 (R836). -/
def Nv.written (n : Nv) (u : FwWrite) : Bank :=
  let act := n.bank n.active
  let rest := act.adv.filter (· != u.comp)
  { gen := act.gen + 1
    objs := (List.range 6).map fun i => (i + 1, if i + 1 = u.comp then u.obj else n.obj n.active (i + 1))
    adv := if u.adv then rest ++ [u.comp] else rest }

/-! ### Mailbox (R853 to R856) -/

/-- The codes of KPR_MB_STATUS.RESULT (R855). -/
def mbOk : Nat := 0
def mbBusy : Nat := 1
def mbBadArg : Nat := 2
def mbVerify : Nat := 3
def mbVersion : Nat := 4
def mbState : Nat := 5
def mbNotPermitted : Nat := 6

/-- What a command leaves: the state, RESULT, the outputs, and whether it still runs. -/
structure MbRes where
  s : State
  code : Nat
  out0 : Nat
  out1 : Nat
  runs : Bool
  deriving DecidableEq, Repr

/-- A command that is done. -/
def mbRet (s : State) (code : Nat) : MbRes := ⟨s, code, 0, 0, false⟩

/-- Argument n of a mailbox. -/
def State.mbArg (s : State) (mb n : Nat) : Nat := s.reg64 (pgKpr mb) (0x050 + 8 * n)

/-- A mailbox command completes: its status and outputs, and the interrupt of its owner (R853, R855). -/
def State.mbDone (s : State) (mb op code out0 out1 : Nat) : State :=
  let p := pgKpr mb
  let s := s.setReg p 0x040 (op * 65536 + code)
  let s := s.setReg p 0x044 (putBits (s.regN p 0x044) 31 31 0)
  let s := (s.setReg64 p 0x070 out0).setReg64 p 0x078 out1
  match (s.page p).own with
  | some .host => if bit (s.regN p 0x048) 31 then s.toHost (.msix (s.regN p 0x048 % 2048)) else s
  | some .bmc => s.emit .bmcIrq
  | _ => s

/-- A write of GO with an operation: taken from the owner alone (R687, R854), run by the Keeper (R856). A write that came by another row
has set GO, and was answered, already (log 101). -/
def State.mailbox (s : State) (src : Source) (mb op : Nat) (f : State → MbRes) : Res :=
  onUnit (decide (mb < 4)) (fun s =>
    let p := pgKpr mb
    let pend := bit (s.regN p 0x044) 31 && !bit (s.regN p 0x040) 31 && bits (s.regN p 0x044) 23 16 == op
    let r := if s.lock && src != .keeper then 5 else if (s.page p).own == some src then 0 else 4
    if r ≠ 0 ∨ bit (s.regN p 0x040) 31 then (s.order src p 0x044 r).goReply src p 0x044 r
    else
      let s := s.setReg p 0x044 (2 ^ 31 + putBits (s.regN p 0x044 % 2 ^ 31) 23 16 op)
      let s := if pend then s else (s.order src p 0x044 0).goReply src p 0x044 0
      let s := s.setReg p 0x040 (2 ^ 31 + op * 65536)
      if !s.dev.keeper then s
      else
        let x := f s
        if x.runs then x.s else x.s.mbDone mb op x.code x.out0 x.out1) s

/-! ### Images (R362 to R369) -/

/-- The bytes that an image's header says it has; the header's alone where SIZE is out of range. -/
def imageLen (head : List Byte) : Nat := if leAt head 8 4 < 128 ∨ 2 ^ 30 < leAt head 8 4 then 128 else leAt head 8 4

/-- The bytes of an image at an address; none where it cannot be read. -/
def State.imageBytes (s : State) (a : Nat) : Option (List Byte) := (s.dram a 128).bind fun h => s.dram a (imageLen h)

/-- IMAGE_INSTALL: an image that breaks a rule leaves the slot EMPTY (R369); a slot that is ACTIVE keeps its image (R364). -/
def State.installImage (s : State) (slot a : Nat) : MbRes :=
  if 63 < slot ∨ a % 4096 ≠ 0 ∨ s.hbmSize ≤ a then mbRet s mbBadArg
  else if (s.slot slot).st = .active then mbRet s mbState
  else
    let bytes := s.imageBytes a
    let head := s.dram a 128
    let s := s.noteRead a (head.elim 128 imageLen) none
    let refuse := fun (k : Nat) =>
      (⟨(s.updSlot slot fun _ => slotDflt 0).log (pgKpr 0) 0x1501 slot k 0 0, mbVerify, k, 0, false⟩ : MbRes)
    match bytes with
    | none => refuse (if head.any headBad then 1 else 2)
    | some b =>
      let k := s.imageRule slot b
      if k ≠ 0 then refuse k
      else mbRet (s.updSlot slot fun _ => { st := .installed, addr := a, img := some (imageOf b), map := List.range 24, next := List.range 24 }) mbOk

/-- IMAGE_INSTALL (R363, R369). -/
def execImageInstall (src : Source) (mb : Nat) (s : State) : Res :=
  s.mailbox src mb 0x01 fun s => s.installImage (s.mbArg mb 0) (s.mbArg mb 1)

/-- IMAGE_REMOVE (R856). -/
def execImageRemove (src : Source) (mb : Nat) (s : State) : Res :=
  s.mailbox src mb 0x02 fun s =>
    let n := s.mbArg mb 0
    if 63 < n then mbRet s mbBadArg
    else if (s.slot n).st = .active then mbRet s mbState
    else mbRet (s.updSlot n fun _ => slotDflt 0) mbOk

/-- The state of a slot in OUT0, in the order of R362. -/
def SlotSt.code : SlotSt → Nat
  | .empty => 0
  | .installed => 1
  | .active => 2
  | .unplaced => 3

/-- IMAGE_QUERY (R856). -/
def execImageQuery (src : Source) (mb : Nat) (s : State) : Res :=
  s.mailbox src mb 0x03 fun s =>
    let n := s.mbArg mb 0
    if 63 < n then mbRet s mbBadArg
    else
      let x := s.slot n
      let facts := match x.img with
        | some im => im.footprint % 2 ^ 32 + im.ngraph * 2 ^ 32
        | none => 0
      ⟨s, mbOk, x.st.code, facts, false⟩

/-! ### Treath, policy -/

/-- A full retrain of every port, then the bundles (R576, R580, R581). -/
def State.retrainAll (s : State) (ports : List TrainInfo) : State :=
  let s := (List.range 16).foldl (fun s p =>
    let s := if (s.tport p).st = 2 then s.linkLost p 0 else s
    let s := s.updTP p fun t => { t with retrains := t.retrains + 1, tries := [] }
    match ports[p]? with
    | some x => s.train p x
    | none => s.trainDown p) s
  s.formBundles.chooseParent

/-- TREATH_RETRAIN (R581, R856). -/
def execTreathRetrain (src : Source) (mb : Nat) (ports : List TrainInfo) (s : State) : Res :=
  s.mailbox src mb 0x10 fun s => if !s.mrd.steps.isEmpty then mbRet s mbBusy else mbRet (s.retrainAll ports) mbOk

/-- POLICY_SET: the Keeper stages and commits DFM_POLICY (R803, R856). -/
def execPolicySet (src : Source) (mb : Nat) (s : State) : Res :=
  s.mailbox src mb 0x11 fun s =>
    let (r, t) := (s.stage pgDfmDev 0x068 (s.mbArg mb 0)).commitAt .keeper pgDfmDev false 0
    if r = 2 then mbRet (t.dropStaged pgDfmDev) mbBadArg
    else if r = 5 then mbRet (s.order .keeper pgDfmDev 0x018 5) mbBusy
    else mbRet t mbOk

/-! ### Firmware update (R835 to R838) -/

/-- FW_UPDATE (R835 to R837): the command runs until the flash write ends. -/
def execFwUpdate (src : Source) (mb : Nat) (s : State) : Res :=
  s.mailbox src mb 0x20 fun s =>
    if !s.live then mbRet s mbState
    else if s.nv.update.isSome then mbRet s mbBusy
    else
      let s := s.noteRead (s.mbArg mb 0) (s.mbArg mb 1) none
      match s.dram (s.mbArg mb 0) (s.mbArg mb 1) with
      | none => mbRet s mbBadArg
      | some p =>
        let x := s.nv.checkPkg p
        if x.code = 0 then ⟨s.fwStart p x.obj (some mb), 0, 0, 0, true⟩
        else ⟨s.fwReject (leAt p 6 1) x.code (srcCode src), if x.code = 4 ∨ x.code = 5 then mbVersion else mbVerify,
          x.code, 0, false⟩

/-- FW_UPDATE_DONE: the directory is written last; a mailbox that asked gets its answer (R836). -/
def execFwUpdateDone (s : State) : Res :=
  .next (match s.nv.update with
    | none => s
    | some u =>
      let b := 1 - s.nv.active
      let s : State := { s with nv := { s.nv.setBank b (s.nv.written u) with update := none } }
      let s := s.log (pgKpr 0) 0x1602 u.comp u.version b 0
      match u.mailbox with
      | some mb => s.mbDone mb 0x20 mbOk 0 0
      | none => s)

/-- The floor of a component as LCS_FW_SVNn shows it (R857). -/
def State.setFloor (s : State) (c f : Nat) : State :=
  let o := 0x074 + 8 * (c - 1)
  ({ s with nv := { s.nv with floors := setNth s.nv.floors (c - 1) f } } : State).setReg pgLcs o
    (putBits (s.regN pgLcs o) 6 0 f)

/-- FLOOR_COMMIT (R838). -/
def execFloorCommit (src : Source) (mb : Nat) (s : State) : Res :=
  s.mailbox src mb 0x21 fun s =>
    let c := s.mbArg mb 0
    let f := s.mbArg mb 1
    if c = 0 ∨ 6 < c ∨ 127 < f then mbRet s mbBadArg
    else if f < s.nv.floor c ∨ objSvn (s.nv.obj s.nv.active c) < f then mbRet s mbVersion
    else mbRet (s.setFloor c f) mbOk

/-- DEFECT_APPEND_FLUSH: the appends that waited for the flash (R837). -/
def execDefectAppendFlush (s : State) : Res :=
  .next (s.whenB (s.nv.update.isNone && s.dev.keeper) fun s =>
    { s with nv := { s.nv with dlist := s.nv.dlist ++ s.nv.dwait, dwait := [] } })

/-! ### Licences (R846, R847) -/

/-- The body of a licence (R846). -/
def licBody (tier issue : Nat) : List Byte :=
  leBytes 4 0x434C5A4B ++ leBytes 2 1 ++ leBytes 1 tier ++ leBytes 1 0 ++ leBytes 8 Config.serial.toNat ++ leBytes 4 issue
    ++ leBytes 44 0

/-- What is wrong with a licence: 0, or ARG0 of LICENCE_INVALID (R847, R863). -/
def Nv.licFault (n : Nv) (o : List Byte) : Nat :=
  let tier := leAt o 6 1
  if o.length ≠ 64 + sigLen ∨ leAt o 0 4 ≠ 0x434C5A4B ∨ leAt o 4 2 ≠ 1 ∨ tier = 0 ∨ 3 < tier ∨ leAt o 7 1 ≠ 0
      ∨ leAt o 20 44 ≠ 0 then 5
  else if leAt o 8 8 ≠ Config.serial.toNat then 2
  else if !n.vendorOk o then 3
  else if n.lics.any fun l => decide (leAt o 16 4 ≤ l.2.1) then 4
  else 0

/-- LICENCE_INVALID (R847, R848). -/
def State.licInvalid (s : State) (why issue : Nat) : State := (s.flag pgLcs 2).log (pgKpr 0) 0x1605 why issue 0 0

/-- LICENCE_INSTALL (R847). -/
def execLicenceInstall (src : Source) (mb : Nat) (s : State) : Res :=
  s.mailbox src mb 0x30 fun s =>
    if !s.live then mbRet s mbState
    else if s.nv.update.isSome then mbRet s mbBusy
    else
      let s := s.noteRead (s.mbArg mb 0) (s.mbArg mb 1) none
      match s.dram (s.mbArg mb 0) (s.mbArg mb 1) with
      | none => mbRet s mbBadArg
      | some o =>
        let k := s.nv.licFault o
        if k = 0 then mbRet { s with nv := { s.nv with lics := s.nv.lics ++ [(leAt o 6 1, leAt o 16 4, keySlot o)] } } mbOk
        else mbRet (s.licInvalid k (leAt o 16 4)) (if k = 4 then mbVersion else mbVerify)

/-! ### Owner keys and life-cycle requests (R842 to R844) -/

/-- LCS_NONCE of this start. -/
def State.nonce (s : State) : Nat :=
  s.regN pgLcs 0x050 + 2 ^ 32 * s.regN pgLcs 0x054 + 2 ^ 64 * s.regN pgLcs 0x058 + 2 ^ 96 * s.regN pgLcs 0x05C

/-- The body of a token or of an owner authorisation names this module and this start (R843). -/
def State.bodyOk (s : State) (o : List Byte) : Bool :=
  o.length == 64 + sigLen && leAt o 0 4 == 0x544B5A4B && leAt o 5 3 == 0 && leAt o 8 8 == Config.serial.toNat
    && leAt o 16 16 == s.nonce && leAt o 32 32 == 0

/-- The same, with a target that R843 lists. -/
def State.tokenOk (s : State) (o : List Byte) : Bool := s.bodyOk o && decide (1 ≤ leAt o 4 1) && decide (leAt o 4 1 ≤ 4)

/-- OWNER_KEY_SET (R844). -/
def execOwnerKeySet (src : Source) (mb : Nat) (s : State) : Res :=
  s.mailbox src mb 0x31 fun s =>
    if s.nv.life ≠ 2 then mbRet s mbState
    else
      let s := s.noteRead (s.mbArg mb 0) 432 none
      match s.dram (s.mbArg mb 0) 432 with
      | none => mbRet s mbBadArg
      | some k =>
        if s.nv.owner.isNone then mbRet { s with nv := { s.nv with owner := some k } } mbOk
        else if s.mbArg mb 1 = 0 then mbRet s mbVerify
        else
          let s := s.noteRead (s.mbArg mb 1) (64 + sigLen) none
          match s.dram (s.mbArg mb 1) (64 + sigLen) with
          | none => mbRet s mbBadArg
          | some o =>
            if s.bodyOk o && s.nv.ownerOk o then mbRet { s with nv := { s.nv with owner := some k } } mbOk else mbRet s mbVerify

/-- A transition that a request may ask for (R842); BLANK to MAKER and MAKER to SEALED take a maker command. -/
def Nv.mayMove (n : Nv) (target : Nat) : Bool :=
  (target == 3 && n.life == 2) || (target == 2 && n.life == 3 && decide (n.ret < 15)) || (target == 4 && n.life != 4)

/-- The owner's authorisation of a request from SEALED (R842, R843): RESULT, 0 where it holds. -/
def State.ownerAuth (s : State) (src : Source) (target a : Nat) : Nat :=
  if s.nv.life ≠ 2 then mbOk
  else if s.nv.owner.isNone then (if src = .bmc then mbOk else mbNotPermitted)
  else if a = 0 then mbNotPermitted
  else match s.dram a (64 + sigLen) with
    | none => mbBadArg
    | some o => if s.tokenOk o && leAt o 4 1 == target && s.nv.ownerOk o then mbOk else mbVerify

/-- The Keeper reads the authorisation where the request needs one (R536, R548, R549). -/
def State.readAuth (s : State) (a : Nat) : State :=
  if s.nv.life = 2 ∧ s.nv.owner.isSome ∧ a ≠ 0 then s.noteRead a (64 + sigLen) none else s

/-- LCS_REQUEST (R842, R843): the transition applies at the next start. -/
def execLcsRequest (src : Source) (mb : Nat) (s : State) : Res :=
  s.mailbox src mb 0x40 fun s =>
    if !s.live then mbRet s mbState
    else if s.nv.update.isSome then mbRet s mbBusy
    else
      let s := s.noteRead (s.mbArg mb 0) (64 + sigLen) none
      match s.dram (s.mbArg mb 0) (64 + sigLen) with
      | none => mbRet s mbBadArg
      | some o =>
        let t := leAt o 4 1
        if !s.tokenOk o || !s.nv.vendorOk o then mbRet s mbVerify
        else if !s.nv.mayMove t then mbRet s mbState
        else
          let r := s.ownerAuth src t (s.mbArg mb 1)
          let s := s.readAuth (s.mbArg mb 1)
          if r = mbOk then mbRet { s with nv := { s.nv with lcsPending := t } } mbOk else mbRet s r

/-! ### PLDM firmware update (R839); the command and completion codes are those of the named standard (log 43) -/

/-- The update state of the firmware device changes. -/
def State.fdTo (s : State) (n : Nat) : State := { s with mgmt := { s.mgmt with upd := n } }

/-- A PLDM message of the module: command code and data. -/
def State.pldm (s : State) (cmd : Nat) (b : List Nat) : State := s.emit (.pldm cmd (b.map (BitVec.ofNat 8)))

/-- A command of the update agent in a state that expects it. -/
def State.fdWhen (s : State) (st cmd : Nat) (f : State → State) : Res :=
  s.managed fun s => if s.mgmt.upd = st then f s else s.pldm cmd [if s.mgmt.upd = 0 then 0x80 else 0x84]

/-- REQUEST_UPDATE: refused with BUSY while an update writes flash (R837). -/
def execRequestUpdate (s : State) : Res :=
  s.managed fun s =>
    if s.nv.update.isSome then s.pldm 0x10 [0x86]
    else if s.mgmt.upd ≠ 0 then s.pldm 0x10 [0x81]
    else ({ s with mgmt := { s.mgmt with upd := 1, comps := [], pkg := [] } } : State).pldm 0x10 [0]

/-- PASS_COMPONENT_TABLE. -/
def execPassComponentTable (comps : List Nat) (s : State) : Res :=
  s.fdWhen 1 0x13 fun s =>
    ({ s with mgmt := { s.mgmt with upd := 2, comps := comps.filter fun c => decide (1 ≤ c) && decide (c ≤ 6) } } : State).pldm 0x13 [0]

/-- UPDATE_COMPONENT. -/
def execUpdateComponent (comp size : Nat) (s : State) : Res :=
  s.fdWhen 2 0x14 fun s =>
    if !s.mgmt.comps.contains comp then s.pldm 0x14 [0x82]
    else ({ s with mgmt := { s.mgmt with upd := 3, comp, size, pkg := [] } } : State).pldm 0x14 [0]

/-- REQUEST_FIRMWARE_DATA: the module pulls the package in order. -/
def execRequestFirmwareData (ofs : Nat) (data : List Byte) (s : State) : Res :=
  s.managed fun s =>
    if s.mgmt.upd ≠ 3 ∨ ofs ≠ s.mgmt.pkg.length ∨ s.mgmt.size < ofs + data.length then s
    else ({ s with mgmt := { s.mgmt with pkg := s.mgmt.pkg ++ data } } : State).emit
      (.pldm 0x15 (leBytes 4 ofs ++ leBytes 4 data.length))

/-- TRANSFER_COMPLETE: the module reports the end of the transfer. -/
def execTransferComplete (ok : Bool) (s : State) : Res :=
  s.managed fun s =>
    if s.mgmt.upd ≠ 3 then s
    else if ok && s.mgmt.pkg.length == s.mgmt.size then (s.fdTo 4).pldm 0x16 [0]
    else (s.fdTo 2).pldm 0x16 [1]

/-- VERIFY_COMPLETE: the checks of R835; a package that passes goes to flash. -/
def execVerifyComplete (s : State) : Res :=
  s.managed fun s =>
    if s.mgmt.upd ≠ 4 then s
    else
      let p := s.mgmt.pkg
      let x := s.nv.checkPkg p
      if s.nv.update.isSome then s
      else if x.code = 0 ∧ leAt p 6 1 = s.mgmt.comp then ((s.fwStart p x.obj none).fdTo 5).pldm 0x17 [0]
      else ((s.fwReject s.mgmt.comp (if x.code = 0 then 1 else x.code) 2).fdTo 2).pldm 0x17 [1]

/-- APPLY_COMPLETE: the flash write has ended. -/
def execApplyComplete (s : State) : Res :=
  s.managed fun s => if s.mgmt.upd ≠ 5 ∨ s.nv.update.isSome then s else (s.fdTo 2).pldm 0x18 [0]

/-- ACTIVATE_FIRMWARE: at the next start; self-contained activation is not supported. -/
def execActivateFirmware (selfContained : Bool) (s : State) : Res :=
  s.fdWhen 2 0x1A fun s => if selfContained then s.pldm 0x1A [0x8C] else (s.fdTo 0).pldm 0x1A [0]

/-- GET_STATUS. -/
def execGetStatus (s : State) : Res := s.managed fun s => s.pldm 0x1B [0, s.mgmt.upd]

/-- CANCEL_UPDATE: a write cut short leaves the active bank as it is (R836). -/
def execCancelUpdate (s : State) : Res :=
  s.managed fun s =>
    if s.mgmt.upd = 0 then s.pldm 0x1D [0x80]
    else
      let mine := match s.nv.update with
        | some u => u.mailbox.isNone
        | none => false
      let s : State := if mine then { s with nv := { s.nv with update := none } } else s
      ({ s with mgmt := { s.mgmt with upd := 0, comps := [], pkg := [] } } : State).pldm 0x1D [0]

/-! ### SPDM (R849 to R852); response and error codes are those of the named standard (log 43) -/

/-- Attestation is in service (R841). -/
def Nv.attests (n : Nv) : Bool := n.life == 2 || n.life == 3

/-- An SPDM request: answered in the states of R841. -/
def State.spdm (s : State) (f : State → State) : Res :=
  s.managed fun s => if s.nv.attests then f s else s.emit (.spdm 0x7F [7])

/-- SPDM_GET_CERTIFICATE (R849, R850): a part of the chain of slot 0. -/
def execSpdmGetCertificate (slot ofs len : Nat) (s : State) : Res :=
  s.spdm fun s =>
    let c := Config.certChain 0
    let d := (c.drop ofs).take len
    if slot ≠ 0 then s.emit (.spdm 0x7F [1])
    else s.emit (.spdm 0x02 (leBytes 2 d.length ++ leBytes 2 (c.length - (ofs + d.length)) ++ d))

/-- A nonce of the responder, from the free value (log 6). -/
def State.respNonce (s : State) : List Byte × State := let (i, s) := s.draw; (leBytes 32 (Config.freeValue i), s)

/-- SPDM_CHALLENGE (R850): the signing input is both nonces and the hash of the chain (log 17). -/
def execSpdmChallenge (slot : Nat) (nonce : BitVec 256) (s : State) : Res :=
  s.spdm fun s =>
    if slot ≠ 0 then s.emit (.spdm 0x7F [1])
    else
      let h := hashBytes (Config.sha384 (Config.certChain 0))
      let (r, s) := s.respNonce
      let x := leBytes 32 nonce.toNat ++ h ++ r
      ({ s with mgmt := { s.mgmt with chal := some x } } : State).emit (.spdm 0x03 (h ++ r ++ Config.rsaSign x))

/-- The bytes of a defect-list entry (R825). -/
def DEntry.bytes (e : DEntry) : List Byte :=
  let b := leBytes 1 e.type ++ leBytes 1 e.origin ++ leBytes 2 e.start ++ leBytes 4 e.ref ++ leBytes 4 e.data
  b ++ leBytes 4 (crc32c b)

/-- The licence applied, none where the Clover limits stand for want of one (R848). -/
def State.licApplied (s : State) : List Byte :=
  if s.regN pgLcs 0x068 = 0 then [] else licBody (s.regN pgLcs 0x064) (s.regN pgLcs 0x068)

/-- A measurement by index (R852). -/
def State.measurement (s : State) (i : Nat) : List Byte :=
  match i with
  | 1 => hashBytes Config.romHash
  | 8 => leBytes 1 s.nv.life ++ leBytes 1 s.nv.ret ++ s.nv.floors.map (BitVec.ofNat 8)
  | 9 => s.licApplied
  | 10 => hashBytes (Config.sha384 (s.mgmt.listRead.flatMap DEntry.bytes))
  | _ => hashBytes (Config.sha384 (nth [] s.mgmt.loaded (i - 2)))

/-- The measurement blocks of a request: none for index 0, all for 0xFF. -/
def State.measBlocks (s : State) (index : Nat) : List Byte :=
  let one := fun (i : Nat) => let m := s.measurement i; leBytes 1 i ++ leBytes 2 m.length ++ m
  if index = 0 then [] else if index = 0xFF then (List.range 10).flatMap fun i => one (i + 1) else one index

/-- SPDM_GET_MEASUREMENTS (R850, R852). -/
def execSpdmGetMeasurements (index : Nat) (signed : Bool) (nonce : BitVec 256) (s : State) : Res :=
  s.spdm fun s =>
    if 10 < index ∧ index ≠ 0xFF then s.emit (.spdm 0x7F [1])
    else
      let b := leBytes 1 10 ++ s.measBlocks index
      if !signed then s.emit (.spdm 0x60 b)
      else
        let (r, s) := s.respNonce
        let x := leBytes 32 nonce.toNat ++ r ++ b
        ({ s with mgmt := { s.mgmt with meas := some x } } : State).emit (.spdm 0x60 (b ++ r ++ Config.rsaSign x))

/-- SLH_DSA_SIGNATURE: over the signing input of the last CHALLENGE_AUTH (0) or signed MEASUREMENTS (1) (R851). -/
def execSlhDsaSignature (selector : Nat) (s : State) : Res :=
  s.spdm fun s =>
    let x := if selector = 0 then s.mgmt.chal else if selector = 1 then s.mgmt.meas else none
    match x with
    | some b => s.emit (.spdm 0x7E (Config.slhSign b))
    | none => s.emit (.spdm 0x7F [1])

/-- SLH_DSA_CERT_CHAIN (R851). -/
def execSlhDsaCertChain (s : State) : Res := s.spdm fun s => s.emit (.spdm 0x7E (Config.certChain 1))

end Sys2Proof.Machine
end

