-- ==== Sys2Proof/Machine/Faults.lean ====
section
/-! DEFINITION. The Keeper's handling of faults in service (chapter 14): minders, the watchdog, fence orders, known-answer runs and
the return of units, routers that do not answer; the in-field test (R828 to R831). -/

namespace Sys2Proof.Machine

/-! ### Minders (R767, R768) -/

/-- Nanoseconds of 24 hours. -/
def dayNs : Nat := 86400000000000

/-- Restarts of a frame's minder within the last 24 hours. -/
def State.restarts (s : State) (frame : Nat) : Nat :=
  (s.dev.minderRestarts.filter fun r => r.1 == frame && decide (s.dev.chrono < r.2 + dayNs)).length

/-- The combs of a frame (R15). -/
def frameCombs (frame : Nat) : List Nat := (List.range 4).map fun i => 4 * frame + i

/-- A minder is lost: MINDER_LOST, and its combs are parked until the next start (R768). -/
def State.loseMinder (s : State) (frame : Nat) : State :=
  let s : State := { s with dev := { s.dev with minderLost := putBits s.dev.minderLost frame frame 1, minderDown := putBits s.dev.minderDown frame frame 0 } }
  let s := s.log (pgFrm frame) 0x0802 frame 0 0 0
  let s := (frameCombs frame).foldl (fun s c =>
    if s.combOff c then s else if s.combClosed c then s.updComb c fun x => { x with parkCause := 2 } else s.parkComb c 2) s
  s.review

/-- MINDER_RESTART (R767): the frame's combs take BRAKE_N and the minder restarts until it acts again (log 44); a second restart in 24 hours loses the minder (R768). -/
def execMinderRestart (frame : Nat) (s : State) : Res :=
  onUnit (decide (frame < 6)) (fun s =>
    s.whenB (s.live && s.dev.keeper && !bit s.dev.minderLost frame) fun s =>
      let s := (frameCombs frame).foldl (fun s c => s.updComb c fun x => { x with thermN := s.brakeN }) s
      let s := s.retarget 2 true
      let s : State := { s with dev := { s.dev with
        minderRestarts := (frame, s.dev.chrono) :: s.dev.minderRestarts, minderDown := putBits s.dev.minderDown frame frame 1 } }
      let n := s.restarts frame
      let s := s.log (pgFrm frame) 0x0801 frame n 0 0
      if 2 ≤ n then s.loseMinder frame else s) s

/-- MINDER_LOST: a restarted minder stays silent (R768). -/
def execMinderLost (frame : Nat) (s : State) : Res :=
  onUnit (decide (frame < 6)) (fun s =>
    s.whenB (s.live && s.dev.keeper && !bit s.dev.minderLost frame && bit s.dev.minderDown frame) fun s => s.loseMinder frame) s

/-! ### The watchdog (R769) -/

/-- KEEPER_WATCHDOG: the RoT records it, brakes and sets FAILED; the Keeper no longer runs. -/
def execKeeperWatchdog (s : State) : Res :=
  .next (s.whenB (s.dev.running && s.dev.keeper) fun s =>
    let s : State := { s with dev := { s.dev with keeper := false, wdog := some s.dev.chrono } }
    s.brakeOn.failWith 4)

/-! ### Fencing and return to service (R782 to R786) -/

/-- KEEPER_FENCE_ORDER (R782, R783): a maintenance packet fences the tile; the order is no strike (R787). -/
def execKeeperFenceOrder (site : Nat) (s : State) : Res :=
  onUnit (isSite site) (fun s =>
    s.whenB (s.live && s.dev.keeper && s.inRun site) fun s => (s.leaveRun site .fenced).review) s

/-- The remap entry that names a site: a spare-row site is marked SUBST (R61). -/
def remapFor (site : Nat) : Nat := if siteIdx site < 108 then siteIdx site else 0x4000 + siteIdx site

/-- A logical site is being taken by a stand-in or by a returning unit. -/
def State.claimed (s : State) (c l : Nat) : Bool :=
  (s.die.standIns.any fun x => x.comb == c && x.logical == l) || s.die.reinst.any fun x => siteComb x.1 == c && x.2 == l

/-- The logical site that a unit which has passed returns to (R785, step 2): its own, when it is still served by a spare, is a
hole, or still names the unit; else, for a spare-row site, the lowest hole of its kind. -/
def State.returnsTo (s : State) (site : Nat) : Option Nat :=
  let c := siteComb site
  let own := match (s.tile site).home with
    | none => none
    | some l => match s.serving c l with
      | none => if siteIdx site < 108 ∧ siteIdx site ≠ l then none else some l
      | some p => if p = site ∨ 108 ≤ siteIdx p then some l else none
  match own with
  | some l => some l
  | none =>
    if siteIdx site < 108 then none
    else (logicals (siteKind site)).find? fun l => s.logHole c l && !s.claimed c l

/-- A unit that has passed returns to service, or becomes a free spare (R785). -/
def State.returnUnit (s : State) (site : Nat) : State :=
  match s.returnsTo site with
  | some l => { s with die := { s.die with reinst := s.die.reinst ++ [(site, l)] } }
  | none => (s.tileTo site .benched).updTile site fun t => { t with bench := [.spare], home := none }

/-- A stand-in that has passed is staged; a rotation moves at a DRAIN switch, a fault at a FLUSH switch (R783, R828). -/
def State.standInPassed (s : State) (x : StandIn) : State :=
  let rot := match s.serving x.comb x.logical with
    | some p => (s.tile p).rotating
    | none => false
  let s : State := { s with die := { s.die with standIns := s.die.standIns.filter (· != x) } }
  (s.stageChosen x.comb x.logical (remapFor x.spare)).queueSwitch (!rot)

/-- The Keeper chooses again; a rotation without a spare is deferred (R783, R829). -/
def State.chooseAgain (s : State) (x : StandIn) : State :=
  let s : State := { s with die := { s.die with standIns := s.die.standIns.filter (· != x) } }
  match s.serving x.comb x.logical with
  | some p =>
    if (s.tile p).rotating ∧ (s.pickSpare x.comb x.logical).isNone then
      (s.updTile p fun t => { t with rotating := false }).incReg pgBst 0x058
    else s.substitute x.comb x.logical
  | none => s.substitute x.comb x.logical

/-- KAR_FAIL in QUARANTINE: a strike (R779, R787, R863). -/
def State.karFailed (s : State) (site : Nat) : State :=
  ((s.flag pgBst 0).log site 0x1702 (tileRef site) (s.comb (siteComb site)).nom 1 0).strikeTile site 0x1702

/-- KAR_COMPLETE (R783, R785): the known-answer run of a stand-in, or of a unit that returns. -/
def execKarComplete (site : Nat) (passed : Bool) (s : State) : Res :=
  onUnit (isSite site) (fun s =>
    s.whenB (s.live && s.dev.keeper && (s.tile site).st == .quarantine && !(s.tile site).rotating
        && !(s.die.reinst.any fun x => x.1 == site)) fun s =>
      match s.die.standIns.find? fun x => x.spare == site with
      | some x => if passed then s.standInPassed x else ((s.karFailed site).chooseAgain x).review
      | none => if passed then s.returnUnit site else (s.karFailed site).review) s

/-- REINSTATE_STAGE (R785, step 3): once the shadow copy is free, the entry is staged and committed for a DRAIN switch. -/
def execReinstateStage (site : Nat) (s : State) : Res :=
  onUnit (isSite site) (fun s =>
    match s.die.reinst.find? fun x => x.1 == site with
    | none => s
    | some x =>
      let c := siteComb site
      if !s.dev.keeper || s.die.reinstStaged.contains x || (s.page (pgDfm c)).pending || s.shadowBusy
          || (s.die.standIns.any fun y => y.comb == c && y.logical == x.2) then s
      else
        let s := s.stageRemap c x.2 (remapFor site)
        let s : State := { s with die := { s.die with reinstStaged := s.die.reinstStaged ++ [x] } }
        if s.switchQueued then s else s.queueSwitch false) s

/-! ### Routers that do not answer (R784) -/

/-- A neighbour has reported LINK_DOWN on the link that leaves a router. -/
def State.suspectRouter (s : State) (site : Nat) : Bool :=
  [1, 2, 3, 4].any fun p => match neighbour site p with
    | some n => (s.router n).down.contains (opposite p)
    | none => false

/-- ROUTER_PROBE_TIMEOUT: a physical hole, appended to the defect list; the change goes with a FLUSH switch. -/
def execRouterProbeTimeout (site : Nat) (s : State) : Res :=
  onUnit (isSite site) (fun s =>
    s.whenB (s.live && s.dev.keeper && !s.physHole site && s.suspectRouter site) fun s =>
      let s := s.appendDefect (.router site) (unitRef 4 (siteComb site) (siteIdx site)) (pgRouter site)
      (s.routerLost site).queueSwitch true) s

/-- SEAM_WIRE_FAIL (R23): the repair assignment stays; the failure shows as the CRC errors of the flits that cross, and the next
start test finds the wire. -/
def execSeamWireFail (bridge wire : Nat) (s : State) : Res :=
  onUnit (decide (bridge < 156) && decide (wire < 544)) (fun s =>
    if s.nv.badWires.contains (bridge, wire) then s
    else { s with nv := { s.nv with badWires := s.nv.badWires ++ [(bridge, wire)] } }) s

/-! ### In-field test (R828 to R830) -/

/-- Rotation runs: the effective BST_FIELD_CFG has OFF 0 (R860). -/
def State.fieldOn (s : State) : Bool := !bit (s.limitN pgBst 0x048) 31

/-- A kind that the functional test covers (R828, R829). -/
def fieldKind (site : Nat) : Bool := isSite site && siteKind site != .b

/-- One tile of a batch: replaced by a free spare, tested in place as a free spare, or deferred (R828, R829). -/
def State.rotateOne (s : State) (site : Nat) : State :=
  let rotate := fun (s : State) (home : Option Nat) => s.updTile site fun t => { t with rotating := true, home := home }
  match s.served site with
  | some l =>
    if !s.inRun site || s.claimed (siteComb site) l then s
    else match s.pickSpare (siteComb site) l with
      | some sp =>
        let s := rotate (s.toQuarantine sp) (some l)
        { s with die := { s.die with standIns := s.die.standIns ++ [{ comb := siteComb site, logical := l, spare := sp }] } }
      | none => s.incReg pgBst 0x058
  | none => if s.spareFree (siteKind site) site then rotate (s.toQuarantine site) none else s

/-- FIELD_ROTATION: at most one tile from each comb, one batch at a time (R828). -/
def execFieldRotation (sites : List Nat) (s : State) : Res :=
  onUnit (sites.all fieldKind) (fun s =>
    s.whenB (s.live && s.dev.keeper && s.fieldOn && s.rotating.isEmpty && decide ((sites.map siteComb).Nodup)) fun s =>
      sites.foldl State.rotateOne s) s

/-- FIELD_TEST_DONE (R828, R830): a tile that passes returns under R785; a failure is a strike. -/
def execFieldTestDone (site : Nat) (passed : Bool) (s : State) : Res :=
  onUnit (fieldKind site) (fun s =>
    s.whenB (s.live && s.dev.keeper && (s.tile site).st == .quarantine && (s.tile site).rotating) fun s =>
      let s := (s.updTile site fun t => { t with rotating := false }).incReg pgBst 0x054
      if passed then s.returnUnit site
      else
        let s := ((s.flag pgBst 1).setReg pgBst 0x05C (tileRef site)).log (pgKpr 0) 0x1703 (tileRef site) 0 0 0
        (s.strikeTile site 0x1703).review) s

/-! ### Scan (R831) -/

/-- A store's bytes without those of a site. -/
def wipeStore (rows site : Nat) (m : Sparse Byte) : Sparse Byte :=
  m.filter fun e => decide (e.1 < wordKey rows site 0 0) || decide (wordKey rows (site + 1) 0 0 ≤ e.1)

/-- The hardware zeroises a tile's SRAMs and its operand store. -/
def State.zeroise (s : State) (site : Nat) : State :=
  { s with
    mem := { s.mem with ops := wipeStore opsRows site s.mem.ops, sst := wipeStore sstRows site s.mem.sst
                        buf := wipeStore bufRows site s.mem.buf }
    mt := serase s.mt site, wt := serase s.wt site, bt := serase s.bt site
    prog := { s.prog with runs := serase s.prog.runs site } }

/-- The tile that the low bits of BST_SCAN_CTL name. -/
def scanSite (w : Nat) : Option Nat :=
  let site := mkSite (bits w 15 8) (bits w 7 0)
  if bits w 15 8 < 24 ∧ bits w 7 0 < 120 ∧ bits w 23 16 = (siteKind site).code then some site else none

/-- SCAN_ENABLE: a write of BST_SCAN_CTL by an order source (R687, R859). EN is set only while the tile is BENCHED or in
QUARANTINE, and only on an order of the Keeper. -/
def execScanEnable (src : Source) (ctl : Word) (s : State) : Res :=
  .next (s.goWrite src pgBst 0x060 false fun s =>
    let w := ctl.toNat
    let ref := w % 2 ^ 24
    let old := s.regN pgBst 0x060
    let keep := if old % 2 ^ 24 = ref then old else ref
    match scanSite w with
    | none => s.setReg pgBst 0x060 keep
    | some site =>
      let t := (s.tile site).st
      if bit w 31 ∧ src = .keeper ∧ (t = .benched ∨ t = .quarantine) then
        ((s.zeroise site).setReg pgBst 0x060 (2 ^ 31 + ref)).log site 0x1704 (tileRef site) (srcCode src) 0 0
      else s.setReg pgBst 0x060 keep)

end Sys2Proof.Machine
end

