-- ==== Sys2Proof/Machine/Start.lean ====
section
/-! DEFINITION. Supplies, resets and the start (chapters 15 and 17): what a reset leaves (R795, R807, R809), the stages of R816, and
the input cut of R884. -/

namespace Sys2Proof.Machine

/-! ### Resets (R647, R795, R807, R809) -/

/-- The module in STANDBY after a reset: the standby domain keeps its records, the pins and the management address; fuses and
flash stay, and an update cut short leaves the bank that it was writing as it was (R836). Every start is a cold start. -/
def State.coldReset (s : State) (old : DevState) (latch : Bool) : State :=
  { State.reset with
    pending := s.pending
    out := s.out
    freeCtr := s.freeCtr
    ev := { State.reset.ev with bmc := s.ev.bmc, bmcLost := s.ev.bmcLost }
    mgmt := { State.reset.mgmt with i3c := s.mgmt.i3c }
    nv := { s.nv with update := none, dwait := [] }
    dev := { State.reset.dev with
      perst := s.dev.perst, resetN := s.dev.resetN, brakeIn := s.dev.brakeIn, inRange := s.dev.inRange
      tripLast := s.dev.tripLast, tripNew := s.dev.tripNew, wdog := s.dev.wdog
      tripLatched := latch && s.dev.tripLatched, thermtrip := latch && s.dev.thermtrip
      bootLog := s.dev.bootLog ++ (if old = .standby then [] else [(old.code, 1)]) } }

/-- PERST_ASSERT (R647, R795): with a trip latched only the pin changes. -/
def execPerstAssert (s : State) : Res :=
  let s : State := { s with dev := { s.dev with perst := true } }
  .next (if s.dev.st = .off ∨ s.dev.tripLatched then s else s.coldReset s.dev.st true)

/-- RESET_ASSERT (R744, R795): a latched trip is cleared. -/
def execResetAssert (s : State) : Res :=
  let s : State := { s with dev := { s.dev with resetN := true } }
  .next (if s.dev.st = .off then s else s.coldReset s.dev.st false)

/-- STANDBY_IN_RANGE (R795). -/
def execStandbyInRange (s : State) : Res :=
  .next (s.whenB (s.dev.st == .off) fun s => { s with dev := { s.dev with st := .standby, bootLog := [(0, 1)] } })

/-- STANDBY_LOST (R885, R795): nothing runs, and what the standby domain kept is gone (R807). The move is not logged. -/
def execStandbyLost (s : State) : Res :=
  .next (s.whenB (s.dev.st != .off) fun s =>
    { State.reset with
      pending := s.pending, out := s.out, freeCtr := s.freeCtr
      nv := { s.nv with update := none, dwait := [], cut := none }
      dev := { State.reset.dev with st := .off, brakeIn := s.dev.brakeIn, bootLog := [] } })

/-- The readings of R884 are outside the bounds of the cut, in mV. -/
def cutRange (vCore vAux : Nat) : Bool :=
  decide (vCore < 1550) || decide (1980 < vCore) || decide (vAux < 10800) || decide (13200 < vAux)

/-- INPUT_RANGE_CUT (R884): every rail is cut; the readings are recorded; the device goes to STANDBY unless a trip is latched. -/
def execInputRangeCut (vCore vAux : Nat) (s : State) : Res :=
  .next (s.whenB (s.dev.running && cutRange vCore vAux) fun s =>
    let s : State := { s with nv := { s.nv with cut := some (vCore, vAux) }, dev := { s.dev with inRange := false } }
    if s.dev.tripLatched then s else s.coldReset s.dev.st true)

/-! ### Times of a start -/

/-- Events of a start between two times carry a time that the spec leaves open within them (R816, log 6). -/
def State.sometime (s : State) (lo hi : Nat) : State :=
  let (i, s) := s.draw
  { s with dev := { s.dev with chrono := lo + Config.freeValue i % (hi + 1 - lo) } }

/-- Nanoseconds of a count of milliseconds. -/
def msNs (n : Nat) : Nat := n * 1000000

/-! ### Stages 1 to 4: BOOTING (R811 to R820, R840 to R848) -/

/-- A pending life-cycle transition is applied (R842, R845). -/
def State.applyLcs (s : State) : State :=
  let n := s.nv
  let t := n.lcsPending
  if t = 0 then s
  else
    let old := n.life
    let n : Nv := { n with
      lcsPending := 0
      provFuse := n.provFuse || t == 1
      sealFuse := n.sealFuse || (t == 2 && old == 1)
      voidFuse := n.voidFuse || t == 4
      ret := if t = 3 ∨ (t = 2 ∧ old = 3) then n.ret + 1 else n.ret
      owner := if t = 3 then none else n.owner }
    ({ s with nv := n } : State).log (pgKpr 0) 0x1604 old n.life n.ret 0

/-- The directory of a bank is not valid. -/
def envDirBad (e : StartEnv) (b : Nat) : Bool := e.bootFail.any fun x => x.1 == 0 && x.2.1 == b

/-- The bank that the RoT tries first (R812). -/
def Nv.firstBank (n : Nv) (e : StartEnv) : Nat :=
  if envDirBad e 0 && !envDirBad e 1 then 1
  else if envDirBad e 1 && !envDirBad e 0 then 0
  else if envDirBad e 0 then 0
  else if n.bankA.gen < n.bankB.gen then 1 else 0

/-- Why a component does not load from a bank: 0, or ARG2 of BOOT_VERIFY_FAIL (R814, R815, R863). What the flash gives is
the start's own finding; the key slot, the life-cycle state and the floor are checked here. -/
def Nv.bootFault (n : Nv) (e : StartEnv) (b c : Nat) : Nat :=
  if envDirBad e b then 6
  else match e.bootFail.find? fun x => x.1 == c && x.2.1 == b with
    | some x => max 1 x.2.2
    | none =>
      let o := n.obj b c
      let slot := keySlot o
      if !n.accepts slot || (decide (slot ≤ 3) && bit n.revoked slot) then 2
      else if objSvn o < n.floor c then 5 else 0

/-- BOOT_VERIFY_FAIL (R818, R819). -/
def State.bootFailed (s : State) (c b why : Nat) : State := (s.flag pgLcs 0).log (pgKpr 0) 0x1601 c b why 0

/-- A component is sought in one bank, then in the other: the bank that it loads from, if any (R818, R819). -/
def State.loadFrom (s : State) (e : StartEnv) (b c : Nat) : Option Nat × State :=
  let r := s.nv.bootFault e b c
  if r = 0 then (some b, s)
  else
    let s := s.bootFailed c b r
    let r := s.nv.bootFault e (1 - b) c
    if r = 0 then (some (1 - b), s) else (none, s.bootFailed c (1 - b) r)

/-- The registers of a component that is loaded (R857). -/
def State.showComp (s : State) (b c : Nat) : State :=
  let o := s.nv.obj b c
  let at_ := 0x070 + 8 * (c - 1)
  (s.setReg pgLcs at_ (objVersion o)).setReg pgLcs (at_ + 4) (objSvn o % 128 * 256 + s.nv.floor c)

/-- What loading the components leaves: the banks that they came from by component, and whether one is missing. -/
structure Boot where
  s : State
  banks : List (Nat × Nat)
  bad : Bool
  deriving DecidableEq, Repr

/-- One component of stages 3 and 4 (R819). -/
def Boot.comp (e : StartEnv) (first : Nat) (a : Boot) (c : Nat) : Boot :=
  let (r, s) := a.s.loadFrom e first c
  match r with
  | none => { a with s, bad := true }
  | some b =>
    let s := s.showComp b c
    let s := if b = first then s else s.setReg pgLcs 0x060 (putBits (s.regN pgLcs 0x060) 30 30 1)
    { a with s, banks := a.banks ++ [(c, b)] }

/-- What the Keeper logs when it starts: the moves made before, then the records of the standby domain (R744, R769, R795, R884). -/
def State.keeperStart (s : State) : State :=
  let moves := s.dev.bootLog
  let s : State := { s with dev := { s.dev with keeper := true, bootLog := [] } }
  let s := moves.foldl (fun s m => s.log (pgKpr 0) 0x1507 m.2 m.1 (m.2 * 2 ^ 28) 0) s
  let s := if s.dev.tripNew then s.log (pgKpr 0) 0x1404 s.dev.tripLast.toNat 0 0 0 else s
  let s := match s.dev.wdog with
    | some t => s.log (pgKpr 0) 0x1508 t (t / 2 ^ 32) 0 0
    | none => s
  let s := match s.nv.cut with
    | some v => s.log (pgKpr 0) 0x1203 v.1 v.2 0 0
    | none => s
  let s := (setBits 3 s.dev.refs).foldl (fun s r => s.report pgClk 0 0x1301 r 0 0) s
  { s with dev := { s.dev with tripNew := false, wdog := none }, nv := { s.nv with cut := none } }

/-- The licence in force (R841, R848): of those held, the ones whose key slot the life-cycle state accepts are valid (R814). -/
def State.applyLicence (s : State) : State :=
  if s.nv.life ≠ 2 then s.setReg pgLcs 0x064 3
  else match leastBy (fun l : Nat × Nat × Nat => 2 ^ 32 - l.2.1)
      (s.nv.lics.filter fun l => s.nv.accepts l.2.2 && !bit s.nv.revoked l.2.2) with
    | some l => (s.setReg pgLcs 0x064 l.1).setReg pgLcs 0x068 l.2.1
    | none => (s.licInvalid 1 0).setReg pgLcs 0x064 1

/-- Stages 1 to 4. -/
def State.boot (s : State) (e : StartEnv) : Boot :=
  let s : State := { s with
    dev := { s.dev with perst := false, resetN := false, inRange := true, running := true, chrono := 0 }
    nv := { s.nv with starts := s.nv.starts + 1 } }
  let s := (s.devTo .booting).linkTrain
  let s := s.sometime 0 (msNs e.msTest)
  let s := (List.range 4).foldl (fun s i => s.setReg pgLcs (0x050 + 4 * i) (e.nonce.toNat / 2 ^ (32 * i))) s
  let s : State := { s with host := { s.host with subIds := s.nv.subIds } }
  let s := s.applyLcs
  let first := s.nv.firstBank e
  let (r, s) := s.loadFrom e first 1
  match r with
  | none => { s := s.failWith 6, banks := [], bad := true }
  | some b =>
    let s : State := { s with nv := { s.nv with active := b } }
    let s := (s.setReg pgLcs 0x060 (b * 2 ^ 31 + (s.nv.bank b).gen % 2 ^ 30)).showComp b 1
    let s := s.keeperStart
    let a := [2, 3, 4, 5, 6].foldl (Boot.comp e b) { s, banks := [(1, b)], bad := false }
    let s : State := { a.s with mgmt := { a.s.mgmt with
      loaded := (List.range 6).map fun i => match a.banks.find? fun x => x.1 == i + 1 with
        | some x => a.s.nv.obj x.2 (i + 1)
        | none => [] } }
    if a.bad then { a with s := s.failWith 6 } else { a with s := s.applyLicence }

/-! ### Stages 5 to 8: TESTING (R21, R22, R31 to R35, R43, R720, R821 to R827) -/

/-- The unit that an entry of the stored list names. -/
def DEntry.defect (d : DEntry) : Option Defect :=
  let c := bits d.ref 15 8
  let i := bits d.ref 7 0
  match d.type with
  | 1 => if 24 ≤ c ∨ 120 ≤ i ∨ 4 < bits d.ref 23 16 then none else if bits d.ref 23 16 = 4 then some (.router (mkSite c i)) else some (.tile (mkSite c i))
  | 2 => some (.wire c d.data)
  | 4 => some (.hbmRow (d.ref % 16) d.data)
  | 5 => if c < 24 then some (.combCeil c d.data) else none
  | _ => none

/-- The defect list as read: its units are in force, a comb's ceiling becomes the Keeper's own slot (R790, R825). -/
def State.readList (s : State) : State :=
  let l := s.nv.dlist.filterMap DEntry.defect
  let s : State := { s with die := { s.die with defects := l.eraseDups }, mgmt := { s.mgmt with listRead := s.nv.dlist } }
  l.foldl (fun s d => match d with
    | .combCeil c code => s.setLimit (pgCmb c) 0x048 1 code
    | _ => s) s

/-- The start test lists a unit that it finds (R824), logged as DEFECT_APPEND. -/
def State.foundDefect (s : State) (d : Defect) (ref page : Nat) : State :=
  if s.die.defects.contains d then s else (s.listDefect d 0 ref).log page 0x1803 ref 0 0 0

/-- The wires of a bridge that fail the test: those found, those that failed in service, those on the list; ascending. -/
def State.wiresOf (s : State) (e : StartEnv) (b : Nat) : List Nat :=
  let bad := e.seamFail ++ s.nv.badWires
  (List.range 544).filter fun w => bad.contains (b, w) || s.die.defects.contains (.wire b w)

/-- The seam test of one bridge (R20 to R22, R305, R308). -/
def State.seamTest (s : State) (e : StartEnv) (b : Nat) : State :=
  let l := s.wiresOf e b
  if l.isEmpty then s
  else
    let s := (List.range 17).foldl (fun s i =>
      s.setReg (pgSeam b) (0x060 + 4 * i) (sumNat ((l.filter fun w => w / 32 == i).map fun w => 2 ^ (w % 32)))) s
    if 8 < l.length then
      ({ s with die := { s.die with seamOff := s.die.seamOff ++ [b] } } : State).log (pgKpr 0) 0x0602 b l.length 0 0
    else
      let half := fun (i : Nat) => if i < l.length then 0x8000 + nth 0 l i else 0
      let s := (List.range 4).foldl (fun s m => s.setReg (pgSeam b) (0x050 + 4 * m) (half (2 * m) + half (2 * m + 1) * 65536)) s
      let s := s.setReg (pgSeam b) 0x04C l.length
      l.foldl (fun s w => s.foundDefect (.wire b w) (unitRef 7 0 b) (pgSeam b)) s

/-- The fmax code measured at a site (R823). -/
def envFmax (e : StartEnv) (site : Nat) : Nat := min 144 (sget (fun _ => 144) e.fmax site)

/-- Known-answer runs, BIST and the screens: what fails is listed (R821, R822, R824). -/
def State.findings (s : State) (e : StartEnv) : State :=
  let s := (e.bistFail.filter isSite).foldl (fun s k => s.foundDefect (.tile k) (tileRef k) k) s
  let s := (e.karFail.filter fieldKind).foldl (fun s k =>
    ((s.flag pgBst 0).log k 0x1702 (tileRef k) 66 0 0).foundDefect (.tile k) (tileRef k) k) s
  (e.routerFail.filter isSite).foldl (fun s k =>
    s.foundDefect (.router k) (unitRef 4 (siteComb k) (siteIdx k)) (pgRouter k)) s

/-- The fmax registers, and the table copy that had the lower GEN (R827). -/
def State.writeFmax (s : State) (e : StartEnv) : State :=
  let s := (List.range 2880).foldl (fun s k => s.setReg k (fmaxOff k) (envFmax e k)) s
  let old := leastBy (fun t : Nat × Nat × Sparse Nat => 2 ^ 32 - t.1) s.nv.fmaxTab
  let gen := match old with
    | some t => t.1 + 1
    | none => 1
  let tab := e.fmax.foldl (fun m x => if x.1 < 2880 then sset (fun _ => 144) m x.1 (min 144 x.2) else m) []
  { s with nv := { s.nv with fmaxTab := old.toList ++ [(gen, s.nv.starts, tab)] } }

/-- A tile may not serve: it or its router is listed, or it is below BASE_N (R31, R720). -/
def State.unfit (s : State) (e : StartEnv) (k : Nat) : Bool :=
  s.die.defects.contains (.tile k) || s.die.defects.contains (.router k) || decide (envFmax e k < s.baseN)

/-- The entry of the next logical index, from the entries chosen so far (R31 to R35). -/
def startEntry (bad : Nat → Bool) (c : Nat) (l : Nat) (used : List Nat) : Nat :=
  if !bad (mkSite c l) then l
  else match leastBy (fun i => dist (mkSite c i) (mkSite c l) * 64 + siteX (mkSite c i))
      (((List.range 12).map (· + 108)).filter fun i => kindOf i == kindOf l && !bad (mkSite c i) && !used.contains i) with
    | some i => 0x4000 + i
    | none => 0x8000

/-- The remap entries of a comb at start, in ascending logical index (R33, R35). -/
def startMap (bad : Nat → Bool) (c : Nat) : List Nat :=
  (List.range 108).foldl (fun acc l =>
    acc ++ [startEntry bad c l ((acc.filter fun x => decide (0x4000 ≤ x) && decide (x < 0x8000)).map (· - 0x4000))]) []

/-- The M sites that the licence benches: in descending comb and logical index, less one for each hole (R43). -/
def State.licBench (s : State) (maps : List (List Nat)) : List Nat :=
  let sites := (List.range 24).reverse.flatMap fun c => ((logicals .m).reverse).map fun l => (c, nth 0x8000 (nth [] maps c) l)
  let holes := (sites.filter fun x => 0x8000 ≤ x.2).length
  ((sites.filter fun x => decide (x.2 < 0x8000)).take (1536 - s.licM - holes)).map fun x => mkSite x.1 (x.2 % 0x80)

/-- The state that the start test gives a tile (R779), with its bench reason. -/
def State.startTile (s : State) (e : StartEnv) (maps : List (List Nat)) (benched : List Nat) (k : Nat) : State :=
  let c := siteComb k
  if s.die.holes.contains k then s.tileTo k .hole
  else
    let serves := (nth [] maps c).any fun x => decide (x < 0x8000) && x % 0x80 == siteIdx k
    let bench := fun (b : BenchBy) => (s.tileTo k .benched).updTile k fun t => { t with bench := [b] }
    if serves then (if benched.contains k then bench .licence else s.tileTo k .run)
    else if s.die.defects.contains (.tile k) then bench .retired
    else if 108 ≤ siteIdx k then bench .spare
    else if envFmax e k < s.baseN then (bench .fmax).updTile k fun t => { t with home := some (siteIdx k) } else bench .spare

/-- The attachments of R53. -/
def attachments : List Nat := (List.range 34).filter fun a => !(attRouters a).isEmpty

/-- ATTACH_DEGRADED and ATTACH_LOST at start (R55, R56). -/
def State.startAttach (s : State) (a : Nat) : State :=
  if s.attLost a then
    let s := s.log pgDfmDev 0x1802 a 0 0 0
    if a = 32 then s.failWith 0 else if a = 33 then s.failWith 1 else s
  else ((attRouters a).filter s.physHole).foldl (fun s k =>
    s.log pgDfmDev 0x1801 a (unitRef 4 (siteComb k) (siteIdx k)) 0 0) s

/-- Every comb's BIST fails: each of its sites does (R820, R821). -/
def envNoComb (e : StartEnv) : Bool := (List.range 24).all fun c => (List.range 120).all fun i => e.bistFail.contains (mkSite c i)

/-- Stages 5 to 8. -/
def State.test (s : State) (e : StartEnv) : State :=
  let s := s.devTo .testing
  let now := s.dev.chrono
  let s := s.sometime now (msNs e.msTest)
  let s := (List.range 24).foldl (fun s c => s.updComb c fun x => { x with st := .run }) s
  if e.flashLost || envNoComb e then s.failWith 6
  else
    let s := s.readList
    let s := (List.range 156).foldl (fun s b => s.seamTest e b) s
    let s := s.findings e
    let s : State := { s with die := { s.die with holes := (List.range 2880).filter fun k => s.die.defects.contains (.router k) } }
    let maps := (List.range 24).map (startMap (s.unfit e))
    let benched := s.licBench maps
    let s := (List.range 24).foldl (fun s c => (List.range 108).foldl (fun s l =>
      s.setReg (pgDfm c) (0x100 + 4 * l) (nth 0 (nth [] maps c) l)) s) s
    let s : State := { s with die := { s.die with built := true } }
    let s := (List.range 2880).foldl (fun s k => s.startTile e maps benched k) s
    let s := s.writeFmax e
    let s := s.setReg pgBst 0x040 (6 * 2 ^ 28)
    let s := s.setReg pgBst 0x04C (e.msTest % 65536 * 65536 + e.msTrain % 65536)
    let s := attachments.foldl State.startAttach s
    let s : State := { s with dev := { s.dev with chrono := msNs e.msTest } }
    s.retarget 0 false

/-! ### Stages 9 and 10: TRAINING (R420, R534, R555 to R558, R576, R580) -/

/-- The hard repairs that are recorded and not done yet (R555, R825). -/
def Nv.repairs (n : Nv) : List DEntry :=
  n.dlist.filter fun d => d.type == 3 && !(n.dlist.any fun x => x.type == 4 && x.ref == d.ref && x.data == d.data)

/-- A stack trains, or is left out of the map (R557, R558). -/
def State.trainStack (s : State) (e : StartEnv) (h : Nat) : State :=
  if e.hbmFail.contains h || s.attLost h then (s.updStack h fun x => { x with st := .out, inMap := false }).report (pgHbm h) 4 0x0905 h 0 0
  else s.updStack h fun x => { x with st := .run, inMap := true, lanes := sget (fun _ => 0) e.hbmLanes h }

/-- A Treath port trains; an attachment without a router leaves it DOWN (R56, R576). -/
def State.startPort (s : State) (e : StartEnv) (p : Nat) : State :=
  if s.attLost (16 + p) then s.trainDown p
  else match e.ports[p]? with
    | some x => s.train p x
    | none => s.trainDown p

/-- The Keeper area is placed and initialised (R420, R534); routes and the distance table follow the present defect map. -/
def State.placeArea (s : State) : State :=
  let d := s.distSnap 0
  { s with
    intake := { s.intake with init := true }
    mrd := { s.mrd with hSvc := s.hs.length }
    die := { s.die with distOld := d, distNew := d, routes := d, routesNext := d, routesPrev := d } }

/-- The security version floors that ADVANCE raises (R838). -/
def State.advanceFloors (s : State) (banks : List (Nat × Nat)) : State :=
  banks.foldl (fun s x =>
    let v := objSvn (s.nv.obj x.2 x.1)
    if (s.nv.bank x.2).adv.contains x.1 ∧ s.nv.floor x.1 < v then s.setFloor x.1 v else s) s

/-- Logical holes of the device. -/
def State.holeCount (s : State) : Nat :=
  sumNat ((List.range 24).map fun c => ((List.range 108).filter fun l => s.logHole c l).length)

/-- Stages 9 to 11; `before` is the length of the stored list before the start test. -/
def State.trainAll (s : State) (e : StartEnv) (banks : List (Nat × Nat)) (before : Nat) : State :=
  let found := s.nv.dlist.length - before
  let s := s.devTo .training
  let s := s.sometime (msNs e.msTest) (msNs (e.msTest + e.msTrain))
  let s := (s.nv.repairs).foldl (fun s d => s.listDefect (.hbmRow (d.ref % 16) d.data) 0 d.ref) s
  let s := (List.range 12).foldl (fun s h => s.trainStack e h) s
  if s.hs.isEmpty then s.failWith 2
  else
    let s := s.placeArea
    let s := (List.range 16).foldl (fun s p => s.startPort e p) s
    let s := s.formBundles.chooseParent
    let s : State := { s with dev := { s.dev with chrono := msNs (e.msTest + e.msTrain) } }
    let s := s.log (pgKpr 0) 0x1701 e.msTest found s.holeCount 0
    let s := s.devTo (if s.degrade = 0 then .ready else .degraded)
    let s := s.advanceFloors banks
    if s.dev.brakeIn then s.brakeOn else s

/-- START_INSTANT (R808, R816): the pins are released with both core inputs in range. -/
def execStartInstant (env : StartEnv) (s : State) : Res :=
  .next (s.whenB (s.dev.st == .standby && !s.dev.tripLatched) fun s =>
    let a := s.boot env
    if a.s.dev.st == .failed then a.s
    else
      let before := a.s.nv.dlist.length
      let s := a.s.test env
      if s.dev.st == .failed then s else s.trainAll env a.banks before)

end Sys2Proof.Machine
end

