-- ==== Sys2Proof/Machine/Dispatch.lean ====
section
/-! DEFINITION. The dispatch of commands to their meanings, one arm per constructor of `Instr`. -/

namespace Sys2Proof.Machine

def exec (i : Instr) (s : State) : Host.Outcome State Fault Refusal :=
  match i with
  | .registerWrite src page off width val poisoned => Sys2Proof.Machine.execRegisterWrite src page off width val poisoned s
  | .rcRead src page off => Sys2Proof.Machine.execRcRead src page off s
  | .latchedRead src page off => Sys2Proof.Machine.execLatchedRead src page off s
  | .pageCommit src page check seq => Sys2Proof.Machine.execPageCommit src page check seq s
  | .pageDiscard src page => Sys2Proof.Machine.execPageDiscard src page s
  | .pageClaim src page => Sys2Proof.Machine.execPageClaim src page s
  | .pageRelease src page => Sys2Proof.Machine.execPageRelease src page s
  | .pass site w0 rec cyc upsets => Sys2Proof.Machine.execPass site w0 rec cyc upsets s
  | .groupEmit site cyc hit => Sys2Proof.Machine.execGroupEmit site cyc hit s
  | .weightPacketIntake site pkt cyc => Sys2Proof.Machine.execWeightPacketIntake site pkt cyc s
  | .load site w0 rec => Sys2Proof.Machine.execLoad site w0 rec s
  | .planeLoadStart site cyc => Sys2Proof.Machine.execPlaneLoadStart site cyc s
  | .planeLoadDone site cyc => Sys2Proof.Machine.execPlaneLoadDone site cyc s
  | .wfill site w0 ofs cyc => Sys2Proof.Machine.execWfill site w0 ofs cyc s
  | .opsDmaWrite site row data src => Sys2Proof.Machine.execOpsDmaWrite site row data src s
  | .sfn site w0 w1 op flips => Sys2Proof.Machine.execSfn site w0 w1 op flips s
  | .shadowCompare site out => Sys2Proof.Machine.execShadowCompare site out s
  | .arbiterVerdict site out => Sys2Proof.Machine.execArbiterVerdict site out s
  | .shadowStall site => Sys2Proof.Machine.execShadowStall site s
  | .steerWordArrive site hdr w poison cyc => Sys2Proof.Machine.execSteerWordArrive site hdr w poison cyc s
  | .wagDataArrive site pkt cyc => Sys2Proof.Machine.execWagDataArrive site pkt cyc s
  | .steerOrphan site input cyc => Sys2Proof.Machine.execSteerOrphan site input cyc s
  | .flitReceive site port word cyc => Sys2Proof.Machine.execFlitReceive site port word cyc s
  | .linkSilence site port => Sys2Proof.Machine.execLinkSilence site port s
  | .combineWindowExpire site slot cyc => Sys2Proof.Machine.execCombineWindowExpire site slot cyc s
  | .sinkChunkReceive site pkt => Sys2Proof.Machine.execSinkChunkReceive site pkt s
  | .sealFlow site dest flow => Sys2Proof.Machine.execSealFlow site dest flow s
  | .deadlockSuspect comb => Sys2Proof.Machine.execDeadlockSuspect comb s
  | .scheduledRead site port row pair cyc flips => Sys2Proof.Machine.execScheduledRead site port row pair cyc flips s
  | .scheduledWrite site port row words cyc => Sys2Proof.Machine.execScheduledWrite site port row words cyc s
  | .bRead site head hdr poison cyc => Sys2Proof.Machine.execBRead site head hdr poison cyc s
  | .bWrite site pkt cyc => Sys2Proof.Machine.execBWrite site pkt cyc s
  | .partnerRead site port head hdr poison cyc => Sys2Proof.Machine.execPartnerRead site port head hdr poison cyc s
  | .partnerWrite site port pkt cyc => Sys2Proof.Machine.execPartnerWrite site port pkt cyc s
  | .areadRowPresent site cyc flips => Sys2Proof.Machine.execAreadRowPresent site cyc flips s
  | .holdAdmit site cyc => Sys2Proof.Machine.execHoldAdmit site cyc s
  | .dmaWindowTimeout site cyc => Sys2Proof.Machine.execDmaWindowTimeout site cyc s
  | .bScrubRead site cyc flips => Sys2Proof.Machine.execBScrubRead site cyc flips s
  | .bScrubWriteback site cyc => Sys2Proof.Machine.execBScrubWriteback site cyc s
  | .win site w0 cyc => Sys2Proof.Machine.execWin site w0 cyc s
  | .fill site w0 ofs cyc => Sys2Proof.Machine.execFill site w0 ofs cyc s
  | .spill site w0 ofs cyc => Sys2Proof.Machine.execSpill site w0 ofs cyc s
  | .send site w0 w1 cyc => Sys2Proof.Machine.execSend site w0 w1 cyc s
  | .wait site w0 => Sys2Proof.Machine.execWait site w0 s
  | .waitRelease site => Sys2Proof.Machine.execWaitRelease site s
  | .nop site => Sys2Proof.Machine.execNop site s
  | .endCode site => Sys2Proof.Machine.execEndCode site s
  | .fillDone site ctr cyc => Sys2Proof.Machine.execFillDone site ctr cyc s
  | .writeAckReceive site rflow stat => Sys2Proof.Machine.execWriteAckReceive site rflow stat s
  | .instanceComplete site cyc => Sys2Proof.Machine.execInstanceComplete site cyc s
  | .templateRelease launch tmpl => Sys2Proof.Machine.execTemplateRelease launch tmpl s
  | .forage site => Sys2Proof.Machine.execForage site s
  | .gangStart comb pool => Sys2Proof.Machine.execGangStart comb pool s
  | .launch => Sys2Proof.Machine.execLaunch s
  | .switchRecord => Sys2Proof.Machine.execSwitchRecord s
  | .switchShadowLoad => Sys2Proof.Machine.execSwitchShadowLoad s
  | .combEpochSwitch comb cyc => Sys2Proof.Machine.execCombEpochSwitch comb cyc s
  | .epochDrainTimeout comb cyc => Sys2Proof.Machine.execEpochDrainTimeout comb cyc s
  | .imageInstall src mb => Sys2Proof.Machine.execImageInstall src mb s
  | .imageRemove src mb => Sys2Proof.Machine.execImageRemove src mb s
  | .imageQuery src mb => Sys2Proof.Machine.execImageQuery src mb s
  | .treathRetrain src mb ports => Sys2Proof.Machine.execTreathRetrain src mb ports s
  | .policySet src mb => Sys2Proof.Machine.execPolicySet src mb s
  | .fwUpdate src mb => Sys2Proof.Machine.execFwUpdate src mb s
  | .fwUpdateDone => Sys2Proof.Machine.execFwUpdateDone s
  | .floorCommit src mb => Sys2Proof.Machine.execFloorCommit src mb s
  | .licenceInstall src mb => Sys2Proof.Machine.execLicenceInstall src mb s
  | .ownerKeySet src mb => Sys2Proof.Machine.execOwnerKeySet src mb s
  | .lcsRequest src mb => Sys2Proof.Machine.execLcsRequest src mb s
  | .intakeWrite off data poisoned => Sys2Proof.Machine.execIntakeWrite off data poisoned s
  | .intakePartial stream => Sys2Proof.Machine.execIntakePartial stream s
  | .appendFetchDone stream toks => Sys2Proof.Machine.execAppendFetchDone stream toks s
  | .openRec stream => Sys2Proof.Machine.execOpenRec stream s
  | .appendRec stream => Sys2Proof.Machine.execAppendRec stream s
  | .generateRec stream => Sys2Proof.Machine.execGenerateRec stream s
  | .pauseRec stream => Sys2Proof.Machine.execPauseRec stream s
  | .resumeRec stream => Sys2Proof.Machine.execResumeRec stream s
  | .forkRec stream => Sys2Proof.Machine.execForkRec stream s
  | .closeRec stream => Sys2Proof.Machine.execCloseRec stream s
  | .queryRec stream => Sys2Proof.Machine.execQueryRec stream s
  | .stepCommit => Sys2Proof.Machine.execStepCommit s
  | .decisionTick => Sys2Proof.Machine.execDecisionTick s
  | .stepRecord => Sys2Proof.Machine.execStepRecord s
  | .lqTailWrite src val => Sys2Proof.Machine.execLqTailWrite src val s
  | .stepReissue => Sys2Proof.Machine.execStepReissue s
  | .almanacSlotClose => Sys2Proof.Machine.execAlmanacSlotClose s
  | .hbmRead stack head hdr flips stackUe => Sys2Proof.Machine.execHbmRead stack head hdr flips stackUe s
  | .hbmWrite stack pkt flips => Sys2Proof.Machine.execHbmWrite stack pkt flips s
  | .hbmScrubRead stack flips stackUe => Sys2Proof.Machine.execHbmScrubRead stack flips stackUe s
  | .hbmSoftRepair src stack cmd noSpare flips => Sys2Proof.Machine.execHbmSoftRepair src stack cmd noSpare flips s
  | .hbmHardRepair src stack cmd noSpare => Sys2Proof.Machine.execHbmHardRepair src stack cmd noSpare s
  | .hbmStackLost stack => Sys2Proof.Machine.execHbmStackLost stack s
  | .hbmHot stack temp => Sys2Proof.Machine.execHbmHot stack temp s
  | .bar4Read off len => Sys2Proof.Machine.execBar4Read off len s
  | .bar4Write off data poisoned => Sys2Proof.Machine.execBar4Write off data poisoned s
  | .bar4Resize log2 => Sys2Proof.Machine.execBar4Resize log2 s
  | .treathPacketReceive port pkt => Sys2Proof.Machine.execTreathPacketReceive port pkt s
  | .linkKeepalive port => Sys2Proof.Machine.execLinkKeepalive port s
  | .trlPortDown port cause => Sys2Proof.Machine.execTrlPortDown port cause s
  | .trlRetrain src port info => Sys2Proof.Machine.execTrlRetrain src port info s
  | .timeExchange port t1 t2 t3 t4 resid1 resid2 => Sys2Proof.Machine.execTimeExchange port t1 t2 t3 t4 resid1 resid2 s
  | .timeHoldover => Sys2Proof.Machine.execTimeHoldover s
  | .sliceShareReady step cannot => Sys2Proof.Machine.execSliceShareReady step cannot s
  | .readyMsg step sender recs => Sys2Proof.Machine.execReadyMsg step sender recs s
  | .notReadyMsg step sender code => Sys2Proof.Machine.execNotReadyMsg step sender code s
  | .commitMsg step sender body => Sys2Proof.Machine.execCommitMsg step sender body s
  | .abortMsg step sender => Sys2Proof.Machine.execAbortMsg step sender s
  | .doneMsg step sender => Sys2Proof.Machine.execDoneMsg step sender s
  | .statusQ sender => Sys2Proof.Machine.execStatusQ sender s
  | .statusR sender lastStep => Sys2Proof.Machine.execStatusR sender lastStep s
  | .beatMsg sender => Sys2Proof.Machine.execBeatMsg sender s
  | .sliceBeatTimer => Sys2Proof.Machine.execSliceBeatTimer s
  | .sliceCommitTimeout step => Sys2Proof.Machine.execSliceCommitTimeout step s
  | .sliceMemberLost logical => Sys2Proof.Machine.execSliceMemberLost logical s
  | .sliceLeadChange => Sys2Proof.Machine.execSliceLeadChange s
  | .maintRead port pkt => Sys2Proof.Machine.execMaintRead port pkt s
  | .maintWrite port pkt => Sys2Proof.Machine.execMaintWrite port pkt s
  | .maintResponse port pkt => Sys2Proof.Machine.execMaintResponse port pkt s
  | .identityQuery port pkt => Sys2Proof.Machine.execIdentityQuery port pkt s
  | .neighbourQuery port pkt => Sys2Proof.Machine.execNeighbourQuery port pkt s
  | .functionLevelReset => Sys2Proof.Machine.execFunctionLevelReset s
  | .hotReset => Sys2Proof.Machine.execHotReset s
  | .pciLinkDown => Sys2Proof.Machine.execPciLinkDown s
  | .hostWritesRelease => Sys2Proof.Machine.execHostWritesRelease s
  | .pciAerUncorr status => Sys2Proof.Machine.execPciAerUncorr status s
  | .msixUnmask vector => Sys2Proof.Machine.execMsixUnmask vector s
  | .evtBatch => Sys2Proof.Machine.execEvtBatch s
  | .bmcPageRead page off => Sys2Proof.Machine.execBmcPageRead page off s
  | .bmcPageWrite page off val => Sys2Proof.Machine.execBmcPageWrite page off val s
  | .i3cEntdaa addr => Sys2Proof.Machine.execI3cEntdaa addr s
  | .sensorUpdate alertLevel tripLevel => Sys2Proof.Machine.execSensorUpdate alertLevel tripLevel s
  | .spdmGetCertificate slot ofs len => Sys2Proof.Machine.execSpdmGetCertificate slot ofs len s
  | .spdmChallenge slot nonce => Sys2Proof.Machine.execSpdmChallenge slot nonce s
  | .spdmGetMeasurements index signed nonce => Sys2Proof.Machine.execSpdmGetMeasurements index signed nonce s
  | .slhDsaSignature selector => Sys2Proof.Machine.execSlhDsaSignature selector s
  | .slhDsaCertChain => Sys2Proof.Machine.execSlhDsaCertChain s
  | .requestUpdate => Sys2Proof.Machine.execRequestUpdate s
  | .passComponentTable comps => Sys2Proof.Machine.execPassComponentTable comps s
  | .updateComponent comp size => Sys2Proof.Machine.execUpdateComponent comp size s
  | .requestFirmwareData ofs data => Sys2Proof.Machine.execRequestFirmwareData ofs data s
  | .transferComplete ok => Sys2Proof.Machine.execTransferComplete ok s
  | .verifyComplete => Sys2Proof.Machine.execVerifyComplete s
  | .applyComplete => Sys2Proof.Machine.execApplyComplete s
  | .activateFirmware selfContained => Sys2Proof.Machine.execActivateFirmware selfContained s
  | .getStatus => Sys2Proof.Machine.execGetStatus s
  | .cancelUpdate => Sys2Proof.Machine.execCancelUpdate s
  | .combTarget => Sys2Proof.Machine.execCombTarget s
  | .localChangeSwitch comb => Sys2Proof.Machine.execLocalChangeSwitch comb s
  | .syncFallSwitch => Sys2Proof.Machine.execSyncFallSwitch s
  | .syncRiseSwitch => Sys2Proof.Machine.execSyncRiseSwitch s
  | .clkLockFail comb => Sys2Proof.Machine.execClkLockFail comb s
  | .clkRefLost ref => Sys2Proof.Machine.execClkRefLost ref s
  | .stretchStart comb codes => Sys2Proof.Machine.execStretchStart comb codes s
  | .stretchEnd comb codes skipped => Sys2Proof.Machine.execStretchEnd comb codes skipped s
  | .gnomonLoop comb stretched minMargin powerW => Sys2Proof.Machine.execGnomonLoop comb stretched minMargin powerW s
  | .tempSample comb sensors => Sys2Proof.Machine.execTempSample comb sensors s
  | .thermalLoop frame => Sys2Proof.Machine.execThermalLoop frame s
  | .thermalTrip comb sensor temp => Sys2Proof.Machine.execThermalTrip comb sensor temp s
  | .combIsolated comb undervolt => Sys2Proof.Machine.execCombIsolated comb undervolt s
  | .senseFallback comb opened => Sys2Proof.Machine.execSenseFallback comb opened s
  | .powerInterval r => Sys2Proof.Machine.execPowerInterval r s
  | .pwrBrake => Sys2Proof.Machine.execPwrBrake s
  | .brakeRelease => Sys2Proof.Machine.execBrakeRelease s
  | .ledgerClear src => Sys2Proof.Machine.execLedgerClear src s
  | .minderRestart frame => Sys2Proof.Machine.execMinderRestart frame s
  | .minderLost frame => Sys2Proof.Machine.execMinderLost frame s
  | .keeperWatchdog => Sys2Proof.Machine.execKeeperWatchdog s
  | .keeperFenceOrder site => Sys2Proof.Machine.execKeeperFenceOrder site s
  | .karComplete site passed => Sys2Proof.Machine.execKarComplete site passed s
  | .reinstateStage site => Sys2Proof.Machine.execReinstateStage site s
  | .routerProbeTimeout site => Sys2Proof.Machine.execRouterProbeTimeout site s
  | .standbyInRange => Sys2Proof.Machine.execStandbyInRange s
  | .standbyLost => Sys2Proof.Machine.execStandbyLost s
  | .startInstant env => Sys2Proof.Machine.execStartInstant env s
  | .perstAssert => Sys2Proof.Machine.execPerstAssert s
  | .resetAssert => Sys2Proof.Machine.execResetAssert s
  | .fieldRotation sites => Sys2Proof.Machine.execFieldRotation sites s
  | .fieldTestDone site passed => Sys2Proof.Machine.execFieldTestDone site passed s
  | .scanEnable src ctl => Sys2Proof.Machine.execScanEnable src ctl s
  | .defectAppendFlush => Sys2Proof.Machine.execDefectAppendFlush s
  | .inputRangeCut vCore vAux => Sys2Proof.Machine.execInputRangeCut vCore vAux s
  | .pinShort pin level => Sys2Proof.Machine.execPinShort pin level s
  | .seamWireFail bridge wire => Sys2Proof.Machine.execSeamWireFail bridge wire s
  | .busMasterEnableClear => Sys2Proof.Machine.execBusMasterEnableClear s
  | .hostReadCompletionTimeout stream => Sys2Proof.Machine.execHostReadCompletionTimeout stream s
  | .hbmFullRateReturn stack temp => Sys2Proof.Machine.execHbmFullRateReturn stack temp s

end Sys2Proof.Machine
end

