-- ==== Sys2Proof/Safety.lean ====
section
/-! DEFINITION. What claims are stated with: the canonical memory, the invariant of the device's state, what can only go forward
in its fuses and flash, and the parts of the state that a command leaves as they were. -/

namespace Sys2Proof.Machine

/-- The byte memories are in canonical form: addresses rise, and no entry equals what an unlisted address reads as. -/
def Mem.wf (m : Mem) : Bool :=
  swf opsDflt m.ops && swf sstDflt m.sst && swf bufDflt m.buf && swf hbmDflt m.hbm

/-- The invariant of the device. The stores are in canonical form; an OWNER_FIXED page is owned by the Keeper (R686); no more
than 1,024 events are retained (R664) and no more than 256 messages wait for the BMC (R667). -/
structure State.Inv (s : State) : Prop where
  mem : s.mem.wf = true
  regs : swf regDflt s.regs = true
  limits : swf slotsDflt s.limits = true
  limStaged : swf slotsDflt s.limStaged = true
  staged : srising s.staged = true
  pages : swf pageDflt s.pages = true
  fixed : ∀ p, fixedPage p = true → (s.page p).own = some .keeper
  retained : s.ev.retained.length ≤ 1024
  bmc : s.ev.bmc.length ≤ 256
  tiles : swf tileDflt s.die.tiles = true
  combs : swf combDflt s.combs = true
  mt : swf mtDflt s.mt = true
  st : swf stDflt s.st = true
  wt : swf wtDflt s.wt = true
  rt : swf rtDflt s.rt = true
  bt : swf btDflt s.bt = true
  stk : swf stackDflt s.hbm.stk = true
  table : swf streamDflt s.intake.table = true
  slots : swf slotDflt s.prog.slots = true
  runs : swf runDflt s.prog.runs = true
  ports : swf tpDflt s.tre.ports = true

/-- What the fuses and the flash only ever do (R838, R842): a blown fuse stays blown, no floor falls, RETs are not taken back. -/
structure Nv.Forward (a b : Nv) : Prop where
  prov : a.provFuse = true → b.provFuse = true
  seal_ : a.sealFuse = true → b.sealFuse = true
  void : a.voidFuse = true → b.voidFuse = true
  ret : a.ret ≤ b.ret
  floor : ∀ c, a.floor c ≤ b.floor c

/-- The parts of the state beside the queue. -/
inductive Field where
  | regs | staged | limits | limStaged | pages | latch | lowHeld | ev | out | dev | die | mem | prog | intake | kv | mrd | alm
  | hbm | host | combs | clk | ldg | mt | st | wt | rt | bt | tre | slc | nv | mgmt | freeCtr
  deriving DecidableEq, Repr

/-- A part of the state is the same in two states. -/
def Field.same (f : Field) (s t : State) : Prop :=
  match f with
  | .regs => t.regs = s.regs
  | .staged => t.staged = s.staged
  | .limits => t.limits = s.limits
  | .limStaged => t.limStaged = s.limStaged
  | .pages => t.pages = s.pages
  | .latch => t.latch = s.latch
  | .lowHeld => t.lowHeld = s.lowHeld
  | .ev => t.ev = s.ev
  | .out => t.out = s.out
  | .dev => t.dev = s.dev
  | .die => t.die = s.die
  | .mem => t.mem = s.mem
  | .prog => t.prog = s.prog
  | .intake => t.intake = s.intake
  | .kv => t.kv = s.kv
  | .mrd => t.mrd = s.mrd
  | .alm => t.alm = s.alm
  | .hbm => t.hbm = s.hbm
  | .host => t.host = s.host
  | .combs => t.combs = s.combs
  | .clk => t.clk = s.clk
  | .ldg => t.ldg = s.ldg
  | .mt => t.mt = s.mt
  | .st => t.st = s.st
  | .wt => t.wt = s.wt
  | .rt => t.rt = s.rt
  | .bt => t.bt = s.bt
  | .tre => t.tre = s.tre
  | .slc => t.slc = s.slc
  | .nv => t.nv = s.nv
  | .mgmt => t.mgmt = s.mgmt
  | .freeCtr => t.freeCtr = s.freeCtr

/-- What losing or forbidding a step may change. -/
def lossParts : List Field := [.regs, .ev, .out, .mem, .prog, .kv, .mrd, .hbm, .ldg, .st, .bt, .tre, .slc]

/-- The parts of the state that a command may change; every other part it leaves as it was. -/
def commandParts (c : Instr) : List Field :=
  match c with
  | .registerWrite .. | .bmcPageWrite .. =>
    lossParts ++ [.staged, .limits, .limStaged, .pages, .lowHeld, .host, .combs, .clk, .rt]
  | .rcRead .. | .latchedRead .. => [.regs, .latch, .out, .host]
  | .pageCommit .. => [.regs, .staged, .limits, .pages, .ev, .out, .prog, .mrd, .combs, .clk, .tre, .slc]
  | .pageDiscard .. => [.staged, .limStaged, .pages, .ev, .out]
  | .pageClaim .. | .pageRelease .. => [.staged, .pages, .ev, .out]
  | .pass .. | .weightPacketIntake .. | .planeLoadStart .. | .planeLoadDone .. | .wfill .. | .opsDmaWrite .. |
  .scheduledRead .. | .scheduledWrite .. | .bRead .. | .bWrite .. | .partnerRead .. | .partnerWrite .. | .areadRowPresent ..
  | .holdAdmit .. | .dmaWindowTimeout .. | .bScrubRead .. | .bScrubWriteback .. | .win .. | .fill .. | .spill .. |
  .fillDone .. | .instanceComplete .. =>
    lossParts ++ [.die, .mt, .nv]
  | .groupEmit .. => lossParts ++ [.staged, .pages, .dev, .die, .mt, .nv]
  | .load .. => lossParts ++ [.mt]
  | .sfn .. => lossParts ++ [.die, .nv]
  | .shadowCompare .. | .hbmRead .. | .hbmWrite .. | .hbmScrubRead .. | .bar4Read .. | .bar4Write .. | .trlPortDown .. |
  .notReadyMsg .. | .sliceCommitTimeout .. =>
    lossParts
  | .arbiterVerdict .. | .karComplete .. =>
    [.regs, .staged, .pages, .ev, .out, .dev, .die, .mem, .prog, .kv, .mrd, .hbm, .ldg, .st, .bt, .nv]
  | .shadowStall .. => [.regs, .st]
  | .steerWordArrive .. | .wagDataArrive .. => lossParts ++ [.wt, .rt]
  | .steerOrphan .. => lossParts ++ [.wt]
  | .flitReceive .. => lossParts ++ [.die, .mt, .rt]
  | .linkSilence .. | .sinkChunkReceive .. | .deadlockSuspect .. | .launch => lossParts ++ [.rt]
  | .combineWindowExpire .. => lossParts ++ [.mt, .rt]
  | .sealFlow .. => [.out, .rt]
  | .send .. => lossParts ++ [.die, .mt, .rt, .nv]
  | .wait .. | .waitRelease .. | .endCode .. | .writeAckReceive .. | .templateRelease .. => [.prog]
  | .nop .. => []
  | .forage .. | .gangStart .. => [.prog, .mt]
  | .switchRecord => [.regs, .staged, .pages, .ev, .out, .mem, .prog, .hbm]
  | .switchShadowLoad => lossParts ++ [.staged, .pages, .die]
  | .combEpochSwitch .. | .epochDrainTimeout .. =>
    lossParts ++ [.staged, .limits, .pages, .dev, .die, .combs, .mt, .wt, .rt, .nv]
  | .imageInstall .. | .treathRetrain .. => lossParts ++ [.pages, .host]
  | .imageRemove .. => [.regs, .pages, .ev, .out, .prog, .host]
  | .imageQuery .. => [.regs, .pages, .ev, .out, .host]
  | .policySet .. => [.regs, .staged, .limits, .pages, .ev, .out, .prog, .mrd, .host, .combs, .clk, .tre, .slc]
  | .fwUpdate .. | .licenceInstall .. | .ownerKeySet .. | .lcsRequest .. => lossParts ++ [.pages, .host, .nv]
  | .fwUpdateDone => [.regs, .ev, .out, .host, .nv]
  | .floorCommit .. => [.regs, .pages, .ev, .out, .host, .nv]
  | .intakeWrite .. => [.regs, .ev, .out, .intake, .kv, .host]
  | .intakePartial .. => [.regs, .ev, .out, .intake]
  | .appendFetchDone .. => [.regs, .ev, .out, .mem, .intake, .hbm]
  | .openRec .. | .appendRec .. | .generateRec .. | .pauseRec .. | .resumeRec .. | .forkRec .. | .closeRec .. | .queryRec ..
  =>
    [.regs, .ev, .out, .mem, .intake, .kv, .mrd, .hbm, .host, .slc]
  | .stepCommit | .sliceShareReady .. | .readyMsg .. | .commitMsg .. | .doneMsg .. | .sliceMemberLost .. | .sliceLeadChange
  =>
    lossParts ++ [.staged, .limits, .pages, .dev, .intake, .alm, .host, .freeCtr]
  | .decisionTick => lossParts ++ [.staged, .limits, .pages, .dev, .die, .intake, .alm, .host, .combs, .clk, .freeCtr]
  | .stepRecord => lossParts ++ [.pages, .combs, .clk]
  | .lqTailWrite .. => [.regs, .pages, .ev, .out]
  | .stepReissue => [.regs, .ev, .out, .mem, .prog, .kv, .mrd, .hbm]
  | .almanacSlotClose => [.regs, .staged, .limits, .pages, .mrd, .alm]
  | .hbmSoftRepair .. | .trlRetrain .. => lossParts ++ [.pages]
  | .hbmHardRepair .. => [.regs, .pages, .ev, .out, .hbm, .nv]
  | .hbmStackLost .. | .clkRefLost .. => lossParts ++ [.dev]
  | .hbmHot .. => [.regs, .ev, .out, .hbm]
  | .bar4Resize .. => [.regs, .staged, .pages]
  | .treathPacketReceive .. | .maintRead .. | .maintWrite .. | .maintResponse .. | .identityQuery .. | .neighbourQuery .. =>
    lossParts ++ [.staged, .limits, .limStaged, .pages, .latch, .lowHeld, .dev, .intake, .alm, .host, .combs, .clk, .rt,
      .freeCtr]
  | .linkKeepalive .. => [.regs, .out, .tre]
  | .timeExchange .. => [.regs, .out, .dev, .tre]
  | .timeHoldover => [.regs, .ev, .out, .tre]
  | .abortMsg .. => [.regs, .ev, .out, .mem, .prog, .kv, .mrd, .hbm, .ldg, .st, .bt, .slc]
  | .statusQ .. | .statusR .. | .beatMsg .. | .sliceBeatTimer => [.regs, .ev, .out, .tre, .slc]
  | .functionLevelReset | .hotReset => [.regs, .staged, .pages, .ev, .host]
  | .pciLinkDown | .pciAerUncorr .. => [.regs, .ev, .out, .host]
  | .hostWritesRelease => [.out, .host, .freeCtr]
  | .msixUnmask .. => [.regs, .out, .host]
  | .evtBatch => [.regs, .ev, .out, .host, .freeCtr]
  | .bmcPageRead .. => [.regs, .latch, .out]
  | .i3cEntdaa .. | .sensorUpdate .. | .pinShort .. => [.mgmt]
  | .spdmGetCertificate .. | .slhDsaSignature .. | .slhDsaCertChain | .getStatus => [.out]
  | .spdmChallenge .. | .spdmGetMeasurements .. => [.out, .mgmt, .freeCtr]
  | .requestUpdate | .passComponentTable .. | .updateComponent .. | .requestFirmwareData .. | .transferComplete .. |
  .applyComplete | .activateFirmware .. =>
    [.out, .mgmt]
  | .verifyComplete => [.regs, .ev, .out, .nv, .mgmt]
  | .cancelUpdate => [.out, .nv, .mgmt]
  | .combTarget | .localChangeSwitch .. | .syncRiseSwitch | .clkLockFail .. => [.regs, .pages, .ev, .out, .combs, .clk]
  | .syncFallSwitch => [.regs, .staged, .pages, .ev, .out, .die, .prog, .combs, .clk]
  | .stretchStart .. | .stretchEnd .. => [.regs, .combs]
  | .gnomonLoop .. => [.regs, .limits, .limStaged, .pages, .ev, .out, .dev, .die, .combs, .clk, .nv]
  | .tempSample .. => lossParts ++ [.pages, .die, .combs, .clk, .mt, .nv]
  | .thermalLoop .. | .pwrBrake | .brakeRelease => [.regs, .pages, .ev, .out, .dev, .combs, .clk]
  | .thermalTrip .. =>
    [.regs, .staged, .pages, .ev, .out, .dev, .die, .mem, .prog, .kv, .mrd, .hbm, .combs, .clk, .ldg, .mt, .st, .wt,
      .rt, .bt]
  | .combIsolated .. =>
    [.regs, .staged, .pages, .ev, .out, .dev, .die, .mem, .prog, .kv, .mrd, .hbm, .combs, .clk, .ldg, .mt, .st, .wt,
      .rt, .bt, .tre]
  | .senseFallback .. => [.regs, .ev, .out, .combs]
  | .powerInterval .. => [.regs, .staged, .limits, .pages, .ev, .out, .prog, .combs, .clk, .ldg]
  | .ledgerClear .. => [.pages, .ev, .out, .ldg]
  | .minderRestart .. | .minderLost .. => lossParts ++ [.pages, .dev, .die, .combs, .clk, .mt, .nv]
  | .keeperWatchdog => [.regs, .pages, .ev, .out, .dev, .mem, .prog, .kv, .mrd, .hbm, .combs, .clk, .ldg, .st, .bt]
  | .keeperFenceOrder .. => [.regs, .staged, .pages, .ev, .out, .dev, .die, .mem, .prog, .kv, .mrd, .hbm, .ldg, .st, .bt]
  | .reinstateStage .. => [.staged, .pages, .die, .prog]
  | .routerProbeTimeout .. =>
    [.regs, .staged, .pages, .ev, .out, .dev, .die, .mem, .prog, .kv, .mrd, .hbm, .ldg, .st, .bt, .tre, .nv]
  | .standbyInRange => [.dev]
  | .standbyLost | .perstAssert | .resetAssert | .inputRangeCut .. =>
    lossParts ++ [.staged, .limits, .limStaged, .pages, .latch, .lowHeld, .dev, .die, .intake, .alm, .host, .combs,
      .clk, .mt, .wt, .rt, .nv, .mgmt, .freeCtr]
  | .startInstant .. =>
    [.regs, .limits, .limStaged, .pages, .ev, .out, .dev, .die, .mem, .prog, .intake, .kv, .mrd, .hbm, .host, .combs,
      .clk, .ldg, .st, .bt, .tre, .nv, .mgmt, .freeCtr]
  | .fieldRotation .. => [.regs, .ev, .out, .die]
  | .fieldTestDone .. => [.regs, .ev, .out, .dev, .die, .mem, .prog, .kv, .mrd, .hbm, .ldg, .st, .bt, .nv]
  | .scanEnable .. => [.regs, .pages, .ev, .out, .mem, .prog, .mt, .wt, .bt]
  | .defectAppendFlush | .seamWireFail .. => [.nv]
  | .busMasterEnableClear => [.host]
  | .hostReadCompletionTimeout .. => [.intake]
  | .hbmFullRateReturn .. => [.hbm]

/-- A command runs: it answers a next state that leaves the queue and every part of the state not listed as they were, and of
which a property holds. -/
def Runs (c : Instr) (s : State) (parts : List Field) (P : State → Prop) : Prop :=
  ∃ t, exec c s = .next t ∧ t.pending = s.pending ∧ (∀ f : Field, f ∉ parts → f.same s t) ∧ P t

/-- Every register but those of some keys reads as before. -/
def RegsOnly (ks : List Nat) (s t : State) : Prop := ∀ k, k ∉ ks → sget regDflt t.regs k = sget regDflt s.regs k

/-- Every page header but one is as before. -/
def PagesOnly (p : Nat) (s t : State) : Prop := ∀ q, q ≠ p → t.page q = s.page q

/-- The source may send the mailbox an operation: it owns the page, the page is not locked to it, no operation runs, and the
Keeper is there to carry it out. -/
def MbOpen (src : Source) (mb : Nat) (s : State) : Prop :=
  mb < 4 ∧ (s.lock && src != .keeper) = false ∧ (s.page (pgKpr mb)).own = some src ∧ bit (s.regN (pgKpr mb) 0x040) 31 = false
    ∧ s.dev.keeper = true

/-- A write of MB_CMD has already sent the operation, which the Keeper has not begun. -/
def State.mbPend (s : State) (mb op : Nat) : Bool :=
  bit (s.regN (pgKpr mb) 0x044) 31 && !bit (s.regN (pgKpr mb) 0x040) 31 && bits (s.regN (pgKpr mb) 0x044) 23 16 == op

/-- The mailbox with an operation accepted: GO and OP in MB_CMD, BUSY and OP in MB_STATUS. -/
def State.mbGo (s : State) (src : Source) (mb op : Nat) : State :=
  (if s.mbPend mb op then s.setReg (pgKpr mb) 0x044 (2 ^ 31 + putBits (s.regN (pgKpr mb) 0x044 % 2 ^ 31) 23 16 op)
    else (((s.setReg (pgKpr mb) 0x044 (2 ^ 31 + putBits (s.regN (pgKpr mb) 0x044 % 2 ^ 31) 23 16 op)).order src (pgKpr mb) 0x044
      0).goReply src (pgKpr mb) 0x044 0)).setReg (pgKpr mb) 0x040 (2 ^ 31 + op * 65536)

end Sys2Proof.Machine
end

