-- ==== Sys2Proof/Certificates/Slice0/Obligations.lean ====
section
/-! DEFINITION. The statements for the provers: what the commands do, by family, and what holds of every step. A hypothesis on the
state or the operands stands before `→`; `Runs c s parts P` says that `c` answers a next state, changes nothing outside
`parts` and leaves what `P` says. -/

section

open Sys2Proof Sys2Proof.Machine

/-! ### The machine -/

/-- Step runs the command at the front of the queue on the queue's rest; on an empty queue a running device's time passes and
a device that has not started stays as it is (log 3). -/
def Obligations.StepRunsFront : Prop :=
  (∀ (c : Instr) (rest : List Instr) (s : State), s.pending = c :: rest → step s = exec c { s with pending := rest })
  ∧ (∀ s : State, s.pending = [] → s.dev.running = true → step s = .next s.tick)
  ∧ (∀ s : State, s.pending = [] → s.dev.running = false → step s = .next s)

/-- What reset leaves: STANDBY, nothing waiting, only OWNER_FIXED pages owned, no page's commit pending, no event kept. -/
def Obligations.ResetLeaves : Prop :=
  State.reset.dev.st = .standby ∧ State.reset.pending = [] ∧ State.reset.mem.wf = true
  ∧ (∀ p, (State.reset.page p).own = if fixedPage p then some .keeper else none)
  ∧ (∀ p, (State.reset.page p).pending = false ∧ (State.reset.page p).seq = 0)
  ∧ (∀ p off, State.reset.reg p off = regDflt (regKey p off))
  ∧ State.reset.ev.retained = [] ∧ State.reset.mrd.steps = []

/-- The invariant holds after reset. -/
def Obligations.ResetInv : Prop := State.reset.Inv

/-- Every step from every state that meets the invariant keeps it: canonical stores, the Keeper's fixed pages, the bounds of
the event queues (R664, R667, R686). -/
def Obligations.StepKeepsInv : Prop := ∀ s t : State, s.Inv → step s = .next t → t.Inv

/-- No command touches the queue. -/
def Obligations.QueueUntouched : Prop := ∀ (c : Instr) (s t : State), exec c s = .next t → t.pending = s.pending

/-- No command un-blows a fuse, lowers a floor or takes a burned RET fuse back (R838, R842). -/
def Obligations.OnlyForward : Prop := ∀ (c : Instr) (s t : State), exec c s = .next t → s.nv.Forward t.nv

/-- A command ends in a next state unless it names a unit that the device does not have, and that does not depend on the
state. -/
def Obligations.StopsOnlyWithoutUnit : Prop :=
  (∀ (c : Instr) (s : State), (∃ t, exec c s = .next t) ∨ exec c s = .fault .noSuchUnit)
  ∧ (∀ (c : Instr) (s t : State), exec c s = .fault .noSuchUnit → exec c t = .fault .noSuchUnit)

/-- No command changes a part of the state outside its parts. -/
def Obligations.CommandFrames : Prop :=
  ∀ (c : Instr) (s t : State) (f : Field), exec c s = .next t → f ∉ commandParts c → f.same s t

/-! ### Control pages (chapter 12) -/

/-- A read of an RC register answers its value and clears it (R12); the low half of a 64-bit register latches the high half,
which the read of the high half takes (R651). -/
def Obligations.PageReads : Prop :=
  (∀ (src : Source) (p off q o : Nat) (r : RegRow) (s : State), s.Inv → p < 32768 → off < 4096 → off % 4 = 0 →
    s.target p off = some (q, o) → regRow q o = some r → r.acc = .rc →
    Runs (.rcRead src p off) s [.regs, .out] fun t =>
      t.reg q o = 0 ∧ RegsOnly [regKey q o] s t
        ∧ t.out = s.out ++ [.readData src p off (BitVec.ofNat 64 (s.readReg src p off))])
  ∧ (∀ (src : Source) (p off q o : Nat) (r : RegRow) (s : State), p < 32768 → off < 4096 → off % 4 = 0 →
    s.target p off = some (q, o) → regRow q o = some r → r.acc ≠ .rc → r.wide = true → (o - r.lo) % 8 = 0 →
    Runs (.latchedRead src p off) s [.latch, .out] fun t =>
      sfind t.latch (halfKey src q (o + 4)) = some (w32 (s.readReg src p (off + 4)))
        ∧ t.out = s.out ++ [.readData src p off (BitVec.ofNat 64 (s.readReg src p off))])
  ∧ (∀ (src : Source) (p off q o : Nat) (r : RegRow) (w : Word) (s : State), p < 32768 → off < 4096 → off % 4 = 0 →
    s.target p off = some (q, o) → regRow q o = some r → r.acc ≠ .rc → r.wide = true → (o - r.lo) % 8 ≠ 0 →
    sfind s.latch (halfKey src q o) = some w →
    Runs (.latchedRead src p off) s [.latch, .out] fun t => t.out = s.out ++ [.readData src p off (w.setWidth 64)])

/-- A write that the order point accepts: a plain register takes the value, a 64-bit one in one write; a staged register's active value stays
and its staged copy takes it, but for the bits that no write reaches (R61, log 113; R651, R680, R687); a fault bit is cleared by a one (R12).
A poisoned write of the host changes no register (R652). -/
def Obligations.PageWrites : Prop :=
  (∀ (src : Source) (p off q : Nat) (r : RegRow) (v : DWord) (s : State), s.Inv → p < 32759 → 0x040 ≤ off → off < 0x800 →
    off % 4 = 0 → s.orderPage p = some q → regRow q off = some r → r.acc = .rw → r.wide = false →
    pageClass q ≠ .trl → pageClass q ≠ .kpr → pageClass q ≠ .bst → s.writeRes src q = 0 →
    Runs (.registerWrite src p off 4 v false) s [.regs, .pages] fun t =>
      t.reg q off = v.setWidth 32 ∧ RegsOnly [regKey q off] s t ∧ PagesOnly q s t
        ∧ (t.page q).own = (s.page q).own ∧ (t.page q).seq = (s.page q).seq)
  ∧ (∀ (src : Source) (p off q : Nat) (r : RegRow) (v : DWord) (s : State), s.Inv → p < 32759 → 0x040 ≤ off → off < 0x800 →
    off % 4 = 0 → s.orderPage p = some q → regRow q off = some r → r.acc = .st → isLimit q off = false →
    (pageClass q = .msh → s.copyState (q - 3072) = 0) → s.writeRes src q = 0 → (s.page q).pending = false →
    Runs (.registerWrite src p off 4 v false) s [.staged, .pages] fun t =>
      t.stgN q off = v.toNat % 2 ^ 32 &&& stBits q off ∧ t.reg q off = s.reg q off ∧ PagesOnly q s t
        ∧ (t.page q).own = (s.page q).own ∧ (t.page q).seq = (s.page q).seq)
  ∧ (∀ (src : Source) (p off q : Nat) (r : RegRow) (v : DWord) (s : State), s.Inv → p < 32759 → 0x040 ≤ off → off < 0x800 →
    off % 8 = 0 → s.orderPage p = some q → regRow q off = some r → r.acc = .rw → r.wide = true → (off - r.lo) % 8 = 0 →
    pageClass q ≠ .hbm → s.writeRes src q = 0 →
    Runs (.registerWrite src p off 8 v false) s [.regs, .pages] fun t =>
      t.reg64 q off = v.toNat ∧ RegsOnly [regKey q off, regKey q (off + 4)] s t ∧ PagesOnly q s t
        ∧ (t.page q).own = (s.page q).own ∧ (t.page q).seq = (s.page q).seq)
  ∧ (∀ (src : Source) (p q : Nat) (r : RegRow) (v : DWord) (s : State), s.Inv → p < 32759 → s.orderPage p = some q →
    regRow q 0x044 = some r → r.acc = .w1c → pageClass q ≠ .msh → s.writeRes src q = 0 →
    Runs (.registerWrite src p 0x044 4 v false) s [.regs, .pages] fun t =>
      t.reg q 0x044 = s.reg q 0x044 &&& ~~~(v.setWidth 32) ∧ PagesOnly q s t
        ∧ (t.page q).own = (s.page q).own ∧ (t.page q).seq = (s.page q).seq)
  ∧ (∀ (p off width : Nat) (v : DWord) (s : State), p < 32768 → off < 4096 →
    Runs (.registerWrite .host p off width v true) s [.host, .out, .regs, .ev] fun t =>
      t.host.aer = s.host.aer ||| 0x1000 ∧ t.staged = s.staged)

/-- A commit of a staged copy that waits for its page's safe point is accepted: PENDING, one more accepted commit, and the
source's result PENDING (R682); a discard takes the staged copy away and changes no active value (R683). A claim while PENDING keeps the accepted copy, the model's choice (log 45). -/
def Obligations.PageCommits : Prop :=
  (∀ (src : Source) (p q : Nat) (check : Bool) (seq : BitVec 16) (s : State), s.Inv → p < 32759 → s.orderPage p = some q →
    pageClass q = .mtl → (s.lock && src != .keeper) = false → (s.page q).pending = false →
    (check = true → (s.page q).seq % 65536 = seq.toNat) → s.ownsOk src q = true → (s.page q).slotDirty = [] →
    s.stagedOf q ≠ [] → s.agrees q = true →
    Runs (.pageCommit src p check seq) s [.pages] fun t =>
      PagesOnly q s t ∧ (t.page q).pending = true ∧ (t.page q).seq = ((s.page q).seq + 1) % 2 ^ 32
        ∧ (t.page q).own = (s.page q).own
        ∧ (t.page q).results.head? = some { src, seq := ((s.page q).seq + 1) % 2 ^ 32 % 65536, code := 1 })
  ∧ (∀ (src : Source) (p q : Nat) (s : State), s.Inv → p < 32759 → s.orderPage p = some q →
    (s.lock && src != .keeper) = false → (s.page q).pending = false → s.ownsOk src q = true →
    Runs (.pageDiscard src p) s [.staged, .limStaged, .pages] fun t =>
      t.stagedOf q = [] ∧ (t.page q).dirty = 0 ∧ PagesOnly q s t ∧ (∀ p', p' ≠ q → t.stagedOf p' = s.stagedOf p'))
  ∧ (∀ (src : Source) (p q : Nat) (s : State), s.Inv → p < 32759 → s.orderPage p = some q →
    (s.lock && src != .keeper) = false → fixedPage q = false → (s.page q).own = none → (s.page q).pending = true →
    Runs (.pageClaim src p) s [.pages] fun t => (t.page q).own = some src ∧ (t.page q).pending = true ∧ PagesOnly q s t)

/-- The claims and releases of a page that the order point reaches (R686): who becomes and stays its owner, that a change of owner
takes the shared staged copy away (while PENDING the copy belongs to the accepted commit, see PageCommits), and which orders are
refused with NOT_OWNER. -/
def Obligations.PageOwners : Prop :=
  (∀ (src : Source) (p q : Nat) (s : State), s.Inv → p < 32759 → s.orderPage p = some q →
    (s.lock && src != .keeper) = false → fixedPage q = false → (s.page q).own = none →
    Runs (.pageClaim src p) s [.staged, .pages] fun t =>
      (t.page q).own = some src ∧ ((s.page q).pending = false → t.stagedOf q = []) ∧ PagesOnly q s t)
  ∧ (∀ (p q : Nat) (s : State), s.Inv → p < 32759 → s.orderPage p = some q → (s.page q).own ≠ some .keeper →
    Runs (.pageClaim .keeper p) s [.staged, .pages] fun t =>
      (t.page q).own = some .keeper ∧ ((s.page q).pending = false → t.stagedOf q = []) ∧ PagesOnly q s t)
  ∧ (∀ (src : Source) (p q : Nat) (s : State), s.Inv → p < 32759 → s.orderPage p = some q →
    (s.lock && src != .keeper) = false → fixedPage q = false → (s.page q).own = some src →
    (Runs (.pageClaim src p) s [.pages] fun t => (t.page q).own = some src ∧ PagesOnly q s t)
    ∧ Runs (.pageRelease src p) s [.pages] fun t => (t.page q).own = none ∧ PagesOnly q s t)
  ∧ (∀ (p q : Nat) (s : State), s.Inv → p < 32759 → s.orderPage p = some q → fixedPage q = false →
    Runs (.pageRelease .keeper p) s [.pages] fun t => (t.page q).own = none ∧ PagesOnly q s t)
  ∧ (∀ (p q : Nat) (s : State), s.Inv → p < 32759 → s.orderPage p = some q → fixedPage q = true →
    (Runs (.pageClaim .keeper p) s [.pages] fun t => (t.page q).own = some .keeper ∧ PagesOnly q s t)
    ∧ Runs (.pageRelease .keeper p) s [.pages] fun t => (t.page q).own = some .keeper ∧ PagesOnly q s t)
  ∧ (∀ (src : Source) (p q : Nat) (s : State), p < 32759 → s.orderPage p = some q → s.lock = false → src ≠ .keeper →
    (s.page q).own ≠ some src → (fixedPage q = true ∨ (s.page q).own ≠ none) →
    exec (.pageClaim src p) s = .next (s.order src q 0x020 4) ∧
      ((s.page q).own ≠ none → exec (.pageRelease src p) s = .next (s.order src q 0x020 4)))

/-- What another source owns: a write to it by a source that is not the owner changes no register, no staged copy and no
owner, and is logged as ORDER_REFUSED (R687, R690, R691). -/
def Obligations.NotOwnerRefused : Prop :=
  ∀ (src o : Source) (p off q : Nat) (r : RegRow) (v : DWord) (s : State), s.Inv → p < 32759 → 0x040 ≤ off → off < 0x800 →
    off % 4 = 0 → s.orderPage p = some q → regRow q off = some r → isLimit q off = false → r.wide = false →
    (r.acc = .rw ∨ r.acc = .st) → (s.page q).pending = false →
    (s.lock && src != .keeper) = false → (s.page q).own = some o → o ≠ src →
    Runs (.registerWrite src p off 4 v false) s [.pages, .ev, .out] fun t =>
      t = s.order src q off 4 ∧ (∀ x, (t.page x).own = (s.page x).own)

/-! ### M tiles (chapter 3) -/

/-- A pass first lets the tile's earlier cycles pass, takes its anchor from the launch's table and joins the tile's passes (R130, R374); one
without planes or features is logged (R131). A weight packet on the response channel joins the intake queue with its beats, its flits
to come one a cycle (R123, R125, R127; the channel and the number of flits: log 102). The tile then runs up to the cycle. -/
def Obligations.MTileWork : Prop :=
  (∀ (site : Nat) (w0 : DWord) (rec_ : BitVec 128) (cyc : Nat) (ups : List Upset) (l : Launch) (s u : State),
    isKind .m site = true → s.mayRun site = true → pPlanes rec_.toNat ≠ 0 → pNfeat rec_.toNat ≠ 0 → u = s.mAdvance site cyc →
    u.launchAt site = some l →
    exec (.pass site w0 rec_ cyc ups) s = .next
      ((u.updM site fun t => { t with
        more := t.more ++ [passStart (anchored rec_ l) (u.physDest (w0.toNat % 65536)) (s.taskAt site) l.cmask cyc
          t.nLoads t.nPass (some l.id) (some l.step) ups], nPass := t.nPass + 1 }).runM site cyc))
  ∧ (∀ (site : Nat) (w0 : DWord) (rec_ : BitVec 128) (cyc : Nat) (ups : List Upset) (s : State),
    isKind .m site = true → s.mayRun site = true → (pPlanes rec_.toNat = 0 ∨ pNfeat rec_.toNat = 0) →
    exec (.pass site w0 rec_ cyc ups) s = .next (s.mEvent site 6 0x0104 (s.taskAt site) 0 0 0 (s.stepAt site)))
  ∧ (∀ (site : Nat) (pkt : MeshPkt) (cyc : Nat) (s : State),
    isKind .m site = true → s.inRun site = true → hVc (MeshPkt.hdr pkt) = 1 → 1 ≤ (MeshPkt.body pkt).length →
    (MeshPkt.body pkt).length ≤ 12 →
    exec (.weightPacketIntake site pkt cyc) s = .next
      (((s.mAdvance site cyc).updM site fun t => { t with queue := t.queue ++ [{
        at_ := cyc, head := BitVec.ofNat 512 (MeshPkt.head pkt), beats := wpBody pkt, poison := MeshPkt.poisoned pkt, came := 0
        used := 0 }] }).runM site cyc))

/-- The oldest group leaves, once its last flit can, as one reduction packet for each feature, read under the code of the tally store
(R136, R162); one whose kept residue disagrees fails the check, leaves poisoned from that flit on and its tile is FENCED (R145, R149).
A group that has failed a check leaves poisoned and its tile is FENCED (R149). Before its last flit can leave nothing leaves. -/
def Obligations.GroupLeaves : Prop :=
  (∀ (site cyc fixed : Nat) (hit : Option (Nat × Tally)) (g : TGroup) (rest : List TGroup) (feats : List (List Tal))
    (lost : List (Nat × Nat × Nat)) (s u v w : State), isKind .m site = true → u = (s.mAdvance site cyc).runM site cyc →
    (u.mtile site).groups = g :: rest → g.lastFlit ≤ cyc → v = (if rest.isEmpty then u else u.mAdvance site (cyc + 1)) →
    hitTally g.slot hit g.feats = (feats, fixed, lost) →
    w = (v.updM site fun t => { t with groups := rest }).tallyEcc site fixed lost g.step → (w.mtile site).groupFailed g = false →
    badResidue feats = none →
    exec (.groupEmit site cyc hit) s = .next (w.sendGroup site g feats))
  ∧ (∀ (site cyc i fixed : Nat) (hit : Option (Nat × Tally)) (g : TGroup) (rest : List TGroup) (feats : List (List Tal))
    (lost : List (Nat × Nat × Nat)) (s u v w : State), isKind .m site = true → u = (s.mAdvance site cyc).runM site cyc →
    (u.mtile site).groups = g :: rest → g.lastFlit ≤ cyc → v = (if rest.isEmpty then u else u.mAdvance site (cyc + 1)) →
    hitTally g.slot hit g.feats = (feats, fixed, lost) →
    w = (v.updM site fun t => { t with groups := rest }).tallyEcc site fixed lost g.step → (w.mtile site).groupFailed g = false →
    badResidue feats = some i →
    exec (.groupEmit site cyc hit) s = .next
      (((w.csFail site { cyc, check := 2, col := i % 32, block := 0, word := csWord 2 0 (g.first + i / 32) 0 (i % 32), group := g.num
                         pass := g.pass, task := g.task, launch := none, step := g.step }).sendGroup site g
        (taintFrom (i / 4 * 4) feats)).fenceM site))
  ∧ (∀ (site cyc fixed : Nat) (hit : Option (Nat × Tally)) (g : TGroup) (rest : List TGroup) (feats : List (List Tal))
    (lost : List (Nat × Nat × Nat)) (s u v w : State), isKind .m site = true → u = (s.mAdvance site cyc).runM site cyc →
    (u.mtile site).groups = g :: rest → g.lastFlit ≤ cyc → v = (if rest.isEmpty then u else u.mAdvance site (cyc + 1)) →
    hitTally g.slot hit g.feats = (feats, fixed, lost) →
    w = (v.updM site fun t => { t with groups := rest }).tallyEcc site fixed lost g.step → (w.mtile site).groupFailed g = true →
    exec (.groupEmit site cyc hit) s = .next ((w.sendGroup site g (feats.map fun f => f.map Tal.taint)).fenceM site))
  ∧ (∀ (site slot : Nat) (g : TGroup) (feats : List (List Tal)) (s : State),
    (s.sendGroup site g feats).out.length = s.out.length + feats.length ∧ hitTally slot none feats = (feats, 0, []))
  ∧ (∀ (site cyc : Nat) (hit : Option (Nat × Tally)) (g : TGroup) (rest : List TGroup) (s u : State), isKind .m site = true →
    u = (s.mAdvance site cyc).runM site cyc → (u.mtile site).groups = g :: rest → cyc < g.lastFlit →
    exec (.groupEmit site cyc hit) s = .next u)

/-- LOAD queues a load that keeps its record, masks and sizes (R157); a record without planes, or with a geometry that R158 names,
poisons its set, with the loads of it that wait, and is logged (R158). -/
def Obligations.LoadQueues : Prop :=
  (∀ (site : Nat) (w0 rec_ : DWord) (s : State), s.Inv → isKind .m site = true → s.mayRun site = true →
    loadBad (geomOf (s.regN site)) rec_.toNat = 0 →
    Runs (.load site w0 rec_) s [.mt] fun t =>
      (∃ l : MLoad, (t.mtile site).loads = (s.mtile site).loads ++ [l] ∧ l.rec_ = rec_ ∧ l.started = false ∧ l.bad = false
        ∧ l.task = s.taskAt site ∧ l.step = s.stepAt site ∧ l.cm = bit w0.toNat 1 ∧ l.rm = bit w0.toNat 0
        ∧ (l.cmask, l.rmask, l.d0, l.d1) = s.maskOf site)
      ∧ (t.mtile site).pass = (s.mtile site).pass ∧ (∀ k, k ≠ site → t.mtile k = s.mtile k))
  ∧ (∀ (site : Nat) (w0 rec_ : DWord) (s : State), isKind .m site = true → s.mayRun site = true →
    ldPlanes rec_.toNat = 0 →
    exec (.load site w0 rec_) s = .next
      ((s.updM site fun t => t.poisonSet (ldSet rec_.toNat)).mEvent site 6 0x0104 (s.taskAt site) 1 0 0 (s.stepAt site)))
  ∧ (∀ (site : Nat) (w0 rec_ : DWord) (s : State), isKind .m site = true → s.mayRun site = true →
    loadBad (geomOf (s.regN site)) rec_.toNat = 2 →
    exec (.load site w0 rec_) s = .next
      ((s.updM site fun t => t.poisonSet (ldSet rec_.toNat)).mEvent site 7 0x0105 (s.taskAt site) (s.regN site 0x070) 0 0
        (s.stepAt site)))

/-- A load that no pass in flight holds back asks its B tiles for its rows and shows in LOAD_CUR (R114, R118, R119); once every row has come
its planes are formed and its set is complete (R117, R120); until then it waits. -/
def Obligations.PlaneLoads : Prop :=
  (∀ (site cyc : Nat) (l : MLoad) (rest : List MLoad) (s u v : State), isKind .m site = true →
    u = (s.mAdvance site cyc).runM site cyc → (u.mtile site).loads = l :: rest → l.started = false →
    (u.mtile site).reads l = false → (u.mtile site).freeAt (ldSet l.rec_.toNat) ≤ cyc →
    v = (u.setReg64 site 0x070 l.rec_.toNat).updM site (fun t =>
      { t.putSet (ldSet l.rec_.toNat) { t.set (ldSet l.rec_.toNat) with ready := false } with
        loads := { l with started := true } :: rest, got := [] }) → v.loadRows l (geomOf (v.regN site)) = false →
    exec (.planeLoadStart site cyc) s = .next (v.loadReads site l cyc))
  ∧ (∀ (site cyc : Nat) (l : MLoad) (rest : List MLoad) (s u : State), isKind .m site = true →
    u = (s.mAdvance site cyc).runM site cyc → (u.mtile site).loads = l :: rest → l.started = false →
    ((u.mtile site).reads l = true ∨ cyc < (u.mtile site).freeAt (ldSet l.rec_.toNat)) → exec (.planeLoadStart site cyc) s = .next u)
  ∧ (∀ (site cyc : Nat) (l : MLoad) (rest : List MLoad) (s u v : State), isKind .m site = true →
    (s.mtile site).loads = l :: rest → l.started = true → u = s.loadRun site (cyc - 4) → u.loadCame site l = true →
    v = u.mAdvance site cyc →
    exec (.planeLoadDone site cyc) s = .next
      ((v.updM site fun t => { t.putSet (ldSet l.rec_.toNat) (v.loadSet site l) with loads := rest, got := [] }).runM site cyc)
      ∧ (v.loadSet site l).ready = true ∧ (v.loadSet site l).planes.length = ldPlanes l.rec_.toNat)
  ∧ (∀ (site cyc : Nat) (l : MLoad) (rest : List MLoad) (s u : State), isKind .m site = true →
    (s.mtile site).loads = l :: rest → l.started = true → u = s.loadRun site (cyc - 4) → u.loadCame site l = false →
    exec (.planeLoadDone site cyc) s = .next u)
  ∧ (∀ (site cyc : Nat) (l : MLoad) (rest : List MLoad) (s u v : State), isKind .m site = true →
    u = (s.mAdvance site cyc).runM site cyc → (u.mtile site).loads = l :: rest → l.started = false →
    (u.mtile site).reads l = false → (u.mtile site).freeAt (ldSet l.rec_.toNat) ≤ cyc →
    v = (u.setReg64 site 0x070 l.rec_.toNat).updM site (fun t =>
      { t.putSet (ldSet l.rec_.toNat) { t.set (ldSet l.rec_.toNat) with ready := false } with
        loads := { l with started := true } :: rest, got := [] }) → v.loadRows l (geomOf (v.regN site)) = true →
    exec (.planeLoadStart site cyc) s = .next
      ((v.mEvent site 7 0x0105 l.task (v.regN site 0x070) 0 0 l.step).loadReads site l cyc))

/-- A DMA write to a tile in RUN stores its row in the operand store, after the tile has run up to its cycle, and nothing outside it; one
into the tally store is discarded and logged (R160); a tile that is not in RUN takes none (R149). A WFILL of no rows counts; one of rows of
this device reads them, segments of the KV cache included (R467), into the rows it names; one of another device's asks for them (R375,
R376). -/
def Obligations.OperandStore : Prop :=
  (∀ (site row : Nat) (data : OpsRow) (src : BitVec 16) (s u : State), isKind .m site = true → row < 1280 → s.inRun site = true →
    u = (s.mAdvance site data.cyc).runM site data.cyc →
    ∃ t, exec (.opsDmaWrite site row data src) s = .next t
      ∧ t = { u with mem := { u.mem with
          ops := putRow opsDflt opsRows u.mem.ops site row 0xFFFF (rowForm row (fit 0 128 data.data) false) } }
      ∧ ∀ a, (a < wordKey opsRows site row 0 ∨ wordKey opsRows site (row + 1) 0 ≤ a) →
          sget opsDflt t.mem.ops a = sget opsDflt u.mem.ops a)
  ∧ (∀ (site row : Nat) (data : OpsRow) (src : BitVec 16) (s u : State), isKind .m site = true → 1280 ≤ row → row < 1536 →
    s.inRun site = true → u = (s.mAdvance site data.cyc).runM site data.cyc →
    exec (.opsDmaWrite site row data src) s = .next (u.report site 5 0x0109 src.toNat row 0))
  ∧ (∀ (site cyc : Nat) (w0 ofs : DWord) (s : State), isKind .m site = true → s.mayRun site = true → bits w0.toNat 47 32 = 0 →
    exec (.wfill site w0 ofs cyc) s = .next (s.countUp site (bits w0.toNat 2 0)))
  ∧ (∀ (site cyc : Nat) (w0 ofs : DWord) (a n row : Nat) (x : Xfer) (s u : State), isKind .m site = true →
    s.mayRun site = true → n = bits w0.toNat 47 32 → n ≠ 0 → row = bits w0.toNat 31 16 →
    u = (s.mAdvance site cyc).runM site cyc → a = u.operand site (bits w0.toNat 55 48) ofs.toNat → u.isLocal a = true →
    x = { id := u.prog.nextXfer, ctr := bits w0.toNat 2 0, kind := 2, addr := a % 2 ^ 40, row, left := 2 * n, step := u.stepAt site,
          gone := false } →
    exec (.wfill site w0 ofs cyc) s = .next
      ((u.startXfer site (bits w0.toNat 2 0) 2 (a % 2 ^ 40) row (2 * n)).kvRead site x (a % 2 ^ 40) (2 * n)))
  ∧ (∀ (site cyc : Nat) (w0 ofs : DWord) (a n row : Nat) (s u : State), isKind .m site = true →
    s.mayRun site = true → n = bits w0.toNat 47 32 → n ≠ 0 → row = bits w0.toNat 31 16 →
    u = (s.mAdvance site cyc).runM site cyc → a = u.operand site (bits w0.toNat 55 48) ofs.toNat → u.isLocal a = false →
    exec (.wfill site w0 ofs cyc) s = .next
      ((u.startXfer site (bits w0.toNat 2 0) 2 (a % 2 ^ 40) row (2 * n)).remoteReads site a (128 * n) (xferFlow (bits w0.toNat 2 0))))
  ∧ (∀ (site row : Nat) (data : OpsRow) (src : BitVec 16) (s : State), isKind .m site = true → row < 1536 → s.inRun site = false →
    exec (.opsDmaWrite site row data src) s = .next s)

/-! ### S tiles (chapter 4) -/

/-- An S operation whose micro-program goes on runs whenever its length is 1 to 65,536 and its word's function is the operation's: its
operand vector is read and decoded, masked positions are 0, and the operation is applied to it (R173, R175, R373, R374). With operands
that carry no poison its result goes to the destination rows, its steer words are sent, its tokens join the step's results and the
operation is counted; a shadowed one waits for its partner too (R173, R193 to R195). With a poisoned operand or parameter every output
row is poisoned and no token is given (R107). Length 0 is logged (R175). -/
def Obligations.SfnResult : Prop :=
  (∀ (site n : Nat) (w0 w1 : DWord) (op : SOp) (flips : List Flip) (x : List SElem) (s u v : State), isKind .s site = true →
    s.mayRun site = true → n = bits w0.toNat 47 31 → 1 ≤ n → n ≤ 65536 → bits w0.toNat 55 48 = sopCode op →
    u = { s with mem := { s.mem with sst := disturb sstDflt s.mem.sst flips } } →
    u.sVector site (bits w1.toNat 63 53) (bits w1.toNat 41 38) n (u.sAnchor site w1.toNat) = (x, v) →
    exec (.sfn site w0 w1 op flips) s = .next (v.sApply site w1.toNat op (u.sAnchor site w1.toNat) (v.sLive site w0.toNat)
      ((List.range n).map fun i => if v.sLive site w0.toNat i then nth (sElemF 0) x i else sElemF 0)))
  ∧ (∀ (site n : Nat) (w0 w1 : DWord) (op : SOp) (s v w : State) (x xs : List SElem) (t : STile) (ev : SEval) (live : Nat → Bool),
    isKind .s site = true → s.mayRun site = true → n = bits w0.toNat 47 31 → 1 ≤ n → n ≤ 65536 →
    bits w0.toNat 55 48 = sopCode op →
    s.sVector site (bits w1.toNat 63 53) (bits w1.toNat 41 38) n (s.sAnchor site w1.toNat) = (x, v) →
    live = v.sLive site w0.toNat →
    xs = (List.range n).map (fun i => if live i then nth (sElemF 0) x i else sElemF 0) → xs.any (·.poison) = false →
    xs.any (·.ovf) = false → sopPoisoned op xs.length live = false →
    ev = evalOp (cleanOp op) (xs.map (·.c)) live → ev.bad = false →
    (v.stile site).before (v.stepAt site) = (false, t) →
    w = ((v.updS site fun _ => t).wrapReg site 0x04C).sWrite site (v.taskAt site) w1.toNat (s.sAnchor site w1.toNat) op xs ev false →
    exec (.sfn site w0 w1 op []) s = .next
      (((if ev.toks.isEmpty then w
          else w.emit (.sval site (shadowOut w1.toNat (s.sAnchor site w1.toNat) op xs ev false))).sendSteers site op ev.steer).addToks
        (v.stepAt site) (sopWhere op).1 ev.toks))
  ∧ (∀ (site : Nat) (w0 w1 : DWord) (op : SOp) (flips : List Flip) (s : State), isKind .s site = true → s.mayRun site = true →
    bits w0.toNat 47 31 = 0 → bits w0.toNat 55 48 = sopCode op →
    exec (.sfn site w0 w1 op flips) s = .next (s.raise site 3 0x0304 (s.taskAt site) (sopCode op) 0 0 (s.stepAt site)))
  ∧ (∀ (site : Nat) (w0 w1 : DWord) (op : SOp) (flips : List Flip) (s : State), isKind .s site = true → s.mayRun site = true →
    bits w0.toNat 47 31 ≠ 0 → bits w0.toNat 47 31 ≤ 65536 → bits w0.toNat 55 48 = sopCode op →
    ∃ t, exec (.sfn site w0 w1 op flips) s = .next t ∧ ∀ f, f ∉ commandParts (.sfn site w0 w1 op flips) → f.same s t)
  ∧ (∀ (site w1 : Nat) (op : SOp) (anchor : Int) (live : Nat → Bool) (xs : List SElem) (s w : State) (t : STile) (ev : SEval),
    xs.any (·.ovf) = false → ev = evalOp (cleanOp op) (xs.map (·.c)) live → ev.bad = false →
    (xs.any (·.poison) = true ∨ sopPoisoned op xs.length live = true) → (s.stile site).before (s.stepAt site) = (false, t) →
    w = ((s.updS site fun _ => t).wrapReg site 0x04C).sWrite site (s.taskAt site) w1 anchor op xs ev true →
    s.sApply site w1 op anchor live xs =
      (if ev.toks.isEmpty then w else w.emit (.sval site (shadowOut w1 anchor op xs ev true))).sendSteers site op ev.steer)

/-- A partner that agrees ends the shadow run; one that disagrees is logged and a third tile runs the operation; the third run decides by majority, the outvoted tile or all three FENCED; a
shadow run that stalls is counted at the partner (R196 to R198). -/
def Obligations.ShadowRuns : Prop :=
  (∀ (site : Nat) (x : Shadow) (s : State), isKind .s site = true →
    (s.stile site).shadows.find? (fun x => x.pout.isNone) = some x →
    Runs (.shadowCompare site x.out) s [.st, .mrd] fun t =>
      t = (s.updS site fun t => { t with shadows := updShadow (fun x => x.pout.isNone) (fun _ => none) t.shadows }).shadowDone
        x.step)
  ∧ (∀ (site arb : Nat) (out : SOut) (x : Shadow) (s u : State), isKind .s site = true →
    (s.stile site).shadows.find? (fun x => x.pout.isNone) = some x → x.out ≠ out → s.arbiterOf site x.partner = some arb →
    u = (s.updS site fun t =>
      { t with shadows := updShadow (fun x => x.pout.isNone) (fun x => some { x with pout := some out, arb := some arb }) t.shadows }) →
    exec (.shadowCompare site out) s = .next
      (((u.setReg site 0x05C (u.shadowWord 0 x (u.sRef arb))).setReg site 0x060 x.task).raise site 0 0x0301 x.task
        (((u.setReg site 0x05C (u.shadowWord 0 x (u.sRef arb))).setReg site 0x060 x.task).regN site 0x05C) 0 0
        (if x.step = 0 then none else some x.step)))
  ∧ (∀ (site arb : Nat) (out : SOut) (x : Shadow) (s u : State), isKind .s site = true →
    (s.stile site).shadows.find? (fun x => x.pout.isSome && x.arb.isSome) = some x → x.arb = some arb → out = x.out →
    u = (s.updS site fun t => { t with shadows := (updShadow (fun x => x.pout.isSome && x.arb.isSome) (fun _ => none)
      t.shadows) }) →
    exec (.arbiterVerdict site out) s = .next
      ((u.setReg site 0x05C (u.shadowWord 0 x (u.sRef arb))).fence x.partner 0x0301))
  ∧ (∀ (site arb : Nat) (out : SOut) (x : Shadow) (s u : State), isKind .s site = true →
    (s.stile site).shadows.find? (fun x => x.pout.isSome && x.arb.isSome) = some x → x.arb = some arb → out ≠ x.out → x.pout = some out →
    u = (s.updS site fun t => { t with shadows := (updShadow (fun x => x.pout.isSome && x.arb.isSome) (fun _ => none)
      t.shadows) }) →
    exec (.arbiterVerdict site out) s = .next
      ((u.setReg site 0x05C (u.shadowWord 1 x (u.sRef arb))).fence site 0x0301))
  ∧ (∀ (site arb : Nat) (out : SOut) (x : Shadow) (s u : State), isKind .s site = true →
    (s.stile site).shadows.find? (fun x => x.pout.isSome && x.arb.isSome) = some x → x.arb = some arb → out ≠ x.out → x.pout ≠ some out →
    u = (s.updS site fun t => { t with shadows := (updShadow (fun x => x.pout.isSome && x.arb.isSome) (fun _ => none)
      t.shadows) }) →
    exec (.arbiterVerdict site out) s = .next
      ((((u.setReg site 0x05C (u.shadowWord 2 x (u.sRef arb))).fence site 0x0301).fence x.partner 0x0301).fence arb 0x0301))
  ∧ (∀ (site : Nat) (x : Shadow) (s : State), s.Inv → isKind .s site = true →
    (s.stile site).shadows.find? (fun x => x.pout.isNone && !x.stalled) = some x →
    Runs (.shadowStall site) s [.st, .regs] fun t =>
      t.regN x.partner 0x064 = satInc (s.regN x.partner 0x064) % 2 ^ 32 ∧ RegsOnly [regKey x.partner 0x064] s t
        ∧ (t.stile site).shadows = updShadow (fun x => x.pout.isNone && !x.stalled)
            (fun x => some { x with stalled := true }) (s.stile site).shadows)

/-! ### W tiles (chapter 4) -/

/-- Once the tile has run up to the cycle: at an idle input of the current epoch, with an entry free, a steer word with a group waits for its
data and a data packet waits for its steer word; a data packet whose steer word is held pairs with it (R204 to R206, R209). An item of
a flow that no input accepts is UNROUTABLE, one at a halted input is discarded and counted (R900); a steer word that breaks its format
or its SEQ fails the input (R203, R204). What is held too long is an orphan (R212). -/
def Obligations.WaggleArrivals : Prop :=
  (∀ (site i : Nat) (hdr : BitVec 128) (w : DWord) (cyc : Nat) (s r : State), s.Inv → isKind .w site = true →
    s.inRun site = true → hPk hdr.toNat ≠ 1 → s.wInputOf site (hFlow hdr.toNat) = some i → r = s.wRun site cyc →
    r.wInputOf site (hFlow hdr.toNat) = some i →
    ((r.wtile site).input i).halted = false → r.draining (siteComb site) = false → (r.wtile site).wait = [] →
    (r.wtile site).entries < 64 → r.steerBad site w.toNat = false →
    swEpoch w.toNat = r.epochOf (siteComb site) → swSeq w.toNat = ((r.wtile site).input i).next →
    ((r.wtile site).input i).st = 0 → swCount w.toNat ≠ 0 →
    ∃ t, exec (.steerWordArrive site hdr w false cyc) s = .next t
      ∧ t.wtile site = (((r.wtile site).updIn i fun x => { x with next := (x.next + 1) % 4096 }).updIn i fun x =>
        { x with held := x.held ++ [.steer w cyc], st := 1 }) ∧ (∀ k, k ≠ site → t.wtile k = r.wtile k)
      ∧ ∀ f : Field, f ≠ .wt → f.same r t)
  ∧ (∀ (site i : Nat) (pkt : MeshPkt) (cyc : Nat) (s r : State), s.Inv → isKind .w site = true → s.inRun site = true →
    hPk (MeshPkt.hdr pkt) ≠ 1 → s.wInputOf site (hFlow (MeshPkt.hdr pkt)) = some i → r = s.wRun site cyc →
    r.wInputOf site (hFlow (MeshPkt.hdr pkt)) = some i →
    ((r.wtile site).input i).halted = false → r.draining (siteComb site) = false → (r.wtile site).wait = [] →
    (r.wtile site).entries < 64 →
    hEpoch (MeshPkt.hdr pkt) = r.epochOf (siteComb site) → ((r.wtile site).input i).st = 0 →
    ∃ t, exec (.wagDataArrive site pkt cyc) s = .next t
      ∧ t.wtile site = ((r.wtile site).updIn i fun x => { x with held := [.data pkt cyc], st := 2 })
      ∧ (∀ k, k ≠ site → t.wtile k = r.wtile k) ∧ ∀ f : Field, f ≠ .wt → f.same r t)
  ∧ (∀ (site i cyc arr : Nat) (w : DWord) (rest : List WItem) (s r : State), isKind .w site = true → i < 16 →
    r = s.wRun site cyc → ((r.wtile site).input i).halted = false → ((r.wtile site).input i).st ≠ 3 →
    ((r.wtile site).input i).held = .steer w arr :: rest → arr + 65536 < cyc →
    exec (.steerOrphan site i cyc) s = .next
      ((((r.updW site fun y => y.updIn i fun x =>
        { x with held := rest, st := if x.st = 3 then 3 else if rest.isEmpty then 0 else x.st }).orphan site i
        (swSeq w.toNat)).wHeads site i cyc rest.length).wSettle site cyc))
  ∧ (∀ (site i cyc : Nat) (g : WGroup) (s r : State), isKind .w site = true → i < 16 → r = s.wRun site cyc →
    ((r.wtile site).input i).halted = false → ((r.wtile site).input i).st = 3 → (r.wtile site).groupOf i = some g →
    g.last + 65536 < cyc →
    exec (.steerOrphan site i cyc) s = .next
      ((((r.wCut site g).orphan site i (swSeq g.word.toNat)).wFree site i cyc).wSettle site cyc))
  ∧ (∀ (site i : Nat) (pkt : MeshPkt) (w : DWord) (arr cyc : Nat) (rest : List WItem) (s r : State), isKind .w site = true →
    s.inRun site = true → hPk (MeshPkt.hdr pkt) ≠ 1 → s.wInputOf site (hFlow (MeshPkt.hdr pkt)) = some i → r = s.wRun site cyc →
    r.wInputOf site (hFlow (MeshPkt.hdr pkt)) = some i →
    ((r.wtile site).input i).halted = false → r.draining (siteComb site) = false → (r.wtile site).wait = [] →
    hEpoch (MeshPkt.hdr pkt) = r.epochOf (siteComb site) → ((r.wtile site).input i).st = 1 →
    ((r.wtile site).input i).held = .steer w arr :: rest → (r.wtile site).expects i = hSeq (MeshPkt.hdr pkt) % 4096 →
    exec (.wagDataArrive site pkt cyc) s = .next
      ((((r.updW site fun t => { t with wait := [(MeshPkt.hdr pkt, .data pkt cyc)] }).updW site fun t => { t with wait := [] }).updW
        site fun y => y.updIn i fun x => { x with held := rest }).wPair site i cyc w pkt false))
  ∧ (∀ (site : Nat) (hdr : BitVec 128) (w : DWord) (pkt : MeshPkt) (cyc : Nat) (s : State), isKind .w site = true →
    s.inRun site = true → hPk hdr.toNat ≠ 1 → s.wInputOf site (hFlow hdr.toNat) = none →
    hPk (MeshPkt.hdr pkt) ≠ 1 → s.wInputOf site (hFlow (MeshPkt.hdr pkt)) = none →
    exec (.steerWordArrive site hdr w false cyc) s = .next (s.wUnroutable site hdr.toNat)
      ∧ exec (.wagDataArrive site pkt cyc) s = .next (s.wUnroutable site (MeshPkt.hdr pkt)))
  ∧ (∀ (site i : Nat) (hdr : BitVec 128) (w : DWord) (cyc : Nat) (s r v : State), isKind .w site = true →
    s.inRun site = true → hPk hdr.toNat ≠ 1 → s.wInputOf site (hFlow hdr.toNat) = some i → r = s.wRun site cyc →
    r.wInputOf site (hFlow hdr.toNat) = some i → (r.wtile site).wait = [] →
    v = (r.updW site fun t => { t with wait := [(hdr.toNat, .steer w cyc)] }).updW site (fun t => { t with wait := [] }) →
    ((r.wtile site).input i).halted = true →
    exec (.steerWordArrive site hdr w false cyc) s = .next (v.flushed site))
  ∧ (∀ (site i : Nat) (hdr : BitVec 128) (w : DWord) (cyc : Nat) (s r v : State), isKind .w site = true →
    s.inRun site = true → hPk hdr.toNat ≠ 1 → s.wInputOf site (hFlow hdr.toNat) = some i → r = s.wRun site cyc →
    r.wInputOf site (hFlow hdr.toNat) = some i → (r.wtile site).wait = [] → (r.wtile site).entries < 64 →
    v = (r.updW site fun t => { t with wait := [(hdr.toNat, .steer w cyc)] }).updW site (fun t => { t with wait := [] }) →
    ((r.wtile site).input i).halted = false → r.draining (siteComb site) = false →
    (v.steerBad site w.toNat = true ∨ swSeq w.toNat ≠ ((v.wtile site).input i).next) →
    exec (.steerWordArrive site hdr w false cyc) s = .next (v.steerFail site i (if v.steerBad site w.toNat then 2 else 0)
      ((v.wtile site).input i).next (swSeq w.toNat) w))
  ∧ (∀ (site : Nat) (hdr : BitVec 128) (w : DWord) (pkt : MeshPkt) (poison : Bool) (cyc : Nat) (s : State), isKind .w site = true →
    s.inRun site = true → hPk hdr.toNat = 1 → hPk (MeshPkt.hdr pkt) = 1 →
    exec (.steerWordArrive site hdr w poison cyc) s = .next (s.wMarker site hdr.toNat)
      ∧ exec (.wagDataArrive site pkt cyc) s = .next (s.wMarker site (MeshPkt.hdr pkt)))
  ∧ (∀ (site : Nat) (hdr : BitVec 128) (w : DWord) (pkt : MeshPkt) (poison : Bool) (cyc : Nat) (s : State), isKind .w site = true →
    s.inRun site = false →
    exec (.steerWordArrive site hdr w poison cyc) s = .next (s.flushed site)
      ∧ exec (.wagDataArrive site pkt cyc) s = .next (s.flushed site))

/-! ### Mesh (chapter 5) -/

/-- A word on an open link brings its credit and, once the router has run up to its cycle, its flit: a good head flit is routed and a
good body flit follows it, the port's run of CRC failures ended; a flit whose CRC fails is counted whatever else it holds, its packet
cut at its head and carried on poisoned in its body (R270, R271); a flit without room is not taken (R229). -/
def Obligations.FlitsArrive : Prop :=
  (∀ (site port cyc : Nat) (f : Flit) (cr : BitVec 4) (s u : State), isSite site = true → portExists site port = true →
    s.physHole site = false → isSeamPort site port = false → u = (s.meshTo site cyc).takeCredit site port cr →
    u.takes site port f = true → fGood f = true → fType f = 1 →
    exec (.flitReceive site port (.flit f cr) cyc) s = .next
      ((((u.updR site fun r => { r with crcRun := serase r.crcRun port }).crossed site port
        (fVc f * 2 + b2n (fEsc f))).headIn site port cyc f).sinkRetry site))
  ∧ (∀ (site port cyc : Nat) (f : Flit) (cr : BitVec 4) (s u : State), isSite site = true → portExists site port = true →
    s.physHole site = false → isSeamPort site port = false → u = (s.meshTo site cyc).takeCredit site port cr →
    u.takes site port f = true → fGood f = true → fType f = 2 →
    exec (.flitReceive site port (.flit f cr) cyc) s = .next
      ((((u.updR site fun r => { r with crcRun := serase r.crcRun port }).crossed site port
        (fVc f * 2 + b2n (fEsc f))).bodyIn site port cyc f true).sinkRetry site))
  ∧ (∀ (site port cyc : Nat) (f : Flit) (cr : BitVec 4) (s u : State), isSite site = true → portExists site port = true →
    s.physHole site = false → isSeamPort site port = false → u = (s.meshTo site cyc).takeCredit site port cr →
    fGood f = false → fType f = 1 →
    exec (.flitReceive site port (.flit f cr) cyc) s = .next
      ((((((u.crcFail site port (fVc f)).crossed site port (fVc f * 2 + b2n (fEsc f))).cutLane site (laneKey port f)).dropLane site
        (laneKey port f))).sinkRetry site))
  ∧ (∀ (site port cyc : Nat) (f : Flit) (cr : BitVec 4) (s u : State), isSite site = true → portExists site port = true →
    s.physHole site = false → isSeamPort site port = false → u = (s.meshTo site cyc).takeCredit site port cr →
    u.takes site port f = true → fGood f = false → fType f = 2 →
    exec (.flitReceive site port (.flit f cr) cyc) s = .next
      ((((u.crcFail site port (fVc f)).crossed site port (fVc f * 2 + b2n (fEsc f))).bodyIn site port cyc f false).sinkRetry site))
  ∧ (∀ (site port cyc : Nat) (f : Flit) (cr : BitVec 4) (s u : State), isSite site = true → portExists site port = true →
    s.physHole site = false → isSeamPort site port = false → u = (s.meshTo site cyc).takeCredit site port cr →
    (u.takes site port f = false ∨ (fType f ≠ 1 ∧ fType f ≠ 2)) → fGood f = true →
    exec (.flitReceive site port (.flit f cr) cyc) s = .next
      ((u.updR site fun r => { r with crcRun := serase r.crcRun port }).sinkRetry site))
  ∧ (∀ (site port cyc : Nat) (f : Flit) (cr : BitVec 4) (s u : State), isSite site = true → portExists site port = true →
    s.physHole site = false → isSeamPort site port = false → u = (s.meshTo site cyc).takeCredit site port cr →
    fGood f = false → fType f ≠ 1 → (u.takes site port f = false ∨ fType f ≠ 2) →
    exec (.flitReceive site port (.flit f cr) cyc) s = .next ((u.crcFail site port (fVc f)).sinkRetry site))

/-- A silent link goes down (R273); a combine slot whose window has ended sends its packet and is free (R262); a comb with
tasks pending that makes no progress is halted, its routers flagged and their fill levels held (R296). -/
def Obligations.MeshTimers : Prop :=
  (∀ (site port : Nat) (s : State), isSite site = true → 1 ≤ port → portExists site port = true → s.physHole site = false →
    exec (.linkSilence site port) s = .next (s.linkDown site port 1))
  ∧ (∀ (site slot cyc : Nat) (c : CSlot) (s u : State), isSite site = true → slot < 4 →
    u = s.meshTo site cyc → sfind (u.router site).slots slot = some c → c.deadline ≤ cyc →
    exec (.combineWindowExpire site slot cyc) s = .next
      ((u.updR site fun r => { r with slots := serase r.slots slot }).sendWhole site c.pkt c.esc cyc))
  ∧ (∀ (site slot cyc : Nat) (s u : State), isSite site = true → slot < 4 → u = s.meshTo site cyc →
    (sfind (u.router site).slots slot).all (fun c => decide (cyc < c.deadline)) = true →
    exec (.combineWindowExpire site slot cyc) s = .next u)
  ∧ (∀ (comb : Nat) (s u : State), comb < 24 → s.tasksPending comb ≠ 0 →
    u = (List.range 120).foldl (fun s p => (s.flag (pgRouter (mkSite comb p)) 9).updR (mkSite comb p) Router.snap) s →
    exec (.deadlockSuspect comb) s = .next
      ((u.forbid (pgRouter (mkSite comb 0)) 0x050B comb (u.epochOf comb) (s.tasksPending comb) comb none).haltComb comb))

/-- A chunk adds to its accumulator; one that lacks contributors waits there, the last one writes its rows and completes the chunk,
and a chunk that finds no accumulator free waits (R265, R266). A seal goes out on its flow with the flow's next SEQ (R275). -/
def Obligations.SinksAndSeals : Prop :=
  (∀ (site : Nat) (pkt : MeshPkt) (s : State), isSite site = true → s.portOpenFor site 0 = true →
    s.sinkFull site (chunkOf pkt) = true →
    exec (.sinkChunkReceive site pkt) s = .next (s.updR site fun r => { r with waiting := r.waiting ++ [pkt] }))
  ∧ (∀ (site e : Nat) (pkt : MeshPkt) (c n : ChunkAcc) (s : State), s.Inv → isSite site = true → s.portOpenFor site 0 = true →
    c = chunkOf pkt → s.sinkFull site c = false → s.sinkFor site c.red = some e → c.off < seChunks e →
    (s.router site).doneCh.contains (c.red, c.off) = false → n = ((s.router site).accOf c).elim c (ChunkAcc.add · c) →
    n.contrib < seExpect e → (s.router site).waiting = [] →
    Runs (.sinkChunkReceive site pkt) s [.rt] fun t =>
      (t.router site).acc = ((s.router site).acc.filter fun x => !(x.red == c.red && x.off == c.off)) ++ [n]
        ∧ (t.router site).doneCh = (s.router site).doneCh ∧ ∀ k, k ≠ site → t.router k = s.router k)
  ∧ (∀ (site e : Nat) (pkt : MeshPkt) (c n : ChunkAcc) (s : State), isSite site = true → s.portOpenFor site 0 = true →
    c = chunkOf pkt → s.sinkFull site c = false → s.sinkFor site c.red = some e → c.off < seChunks e →
    (s.router site).doneCh.contains (c.red, c.off) = false → n = ((s.router site).accOf c).elim c (ChunkAcc.add · c) →
    n.contrib = seExpect e → n.agrees = true →
    exec (.sinkChunkReceive site pkt) s = .next
      (((s.sinkWrite site e c.off (n.rows false)).chunkDone site e c.red c.off).sinkRetry site))
  ∧ (∀ (site : Nat) (pkt : MeshPkt) (s : State), isSite site = true →
    ∃ t, exec (.sinkChunkReceive site pkt) s = .next t
      ∧ ∀ f, f ∉ commandParts (.sinkChunkReceive site pkt) → f.same s t)
  ∧ (∀ (site : Nat) (dest : BitVec 16) (flow : BitVec 12) (f : Flow) (s : State), isSite site = true →
    (s.router site).flows.find? (fun f => f.dest == dest.toNat && f.flow == flow.toNat && f.guard) = some f →
    exec (.sealFlow site dest flow) s = .next
      ((s.useFlow site dest.toNat flow.toNat f.step true).2.inject site (mkPkt (mkHdr dest.toNat
        ((s.useFlow site dest.toNat flow.toNat f.step true).2.ownDest site) 3
        ((s.useFlow site dest.toNat flow.toNat f.step true).2.epochOf (siteComb site)) 1 1 2 flow.toNat f.next) 0 [])))
  ∧ (∀ (site : Nat) (dest : BitVec 16) (flow : BitVec 12) (s : State), isSite site = true →
    (s.router site).flows.find? (fun f => f.dest == dest.toNat && f.flow == flow.toNat && f.guard) = none →
    exec (.sealFlow site dest flow) s = .next s)

/-! ### B tiles (chapter 6) -/

/-- A scheduled access enters its tile's pipeline two cycles before its bank cycle (R316, R318); one of a port whose mask lacks the bank
is marked to be refused (R317). -/
def Obligations.ScheduledAccess : Prop :=
  (∀ (site port row cyc : Nat) (pair : Bool) (flips : List Flip) (s r : State), schedOk site port row pair = true →
    r = s.bRun site cyc → r.bLive site = true → r.portUsed site port = true → (r.btile site).busy port (cyc + 2) = false →
    exec (.scheduledRead site port row pair cyc flips) s = .next
      (r.updB site fun t => { t with pipe := t.pipe ++ (accessRows pair row).map fun x => {
        cyc := cyc + 2, port, write := false, row := x, words := [], wmask := 0, flips,
        own := !r.portBank site port x, sel := false, job := none, load := none } }))
  ∧ (∀ (site port row cyc : Nat) (words ws : List RowWord) (s r u : State), schedOk site port row false = true →
    words.length = 16 → r = s.bRun site cyc → r.bLive site = true → r.portUsed site port = true →
    (r.btile site).busy port (cyc + 2) = false → r.portBank site port row = true → r.sideWords site row words 0 = (ws, u) →
    exec (.scheduledWrite site port row words cyc) s = .next
      (u.updB site fun t => { t with pipe := t.pipe ++ [{ cyc := cyc + 2, port, write := true, row, words := ws,
                                                           wmask := 0xFFFF, flips := [], own := false, sel := false, job := none,
                                                           load := none }] }))
  ∧ (∀ (site port row cyc : Nat) (words : List RowWord) (s r : State), schedOk site port row false = true →
    words.length = 16 → r = s.bRun site cyc → r.bLive site = true → r.portUsed site port = true →
    (r.btile site).busy port (cyc + 2) = false → r.portBank site port row = false →
    exec (.scheduledWrite site port row words cyc) s = .next
      (r.updB site fun t => { t with pipe := t.pipe ++ [{ cyc := cyc + 2, port, write := true, row, words := [],
                                                           wmask := 0xFFFF, flips := [], own := true, sel := false, job := none,
                                                           load := none }] }))

/-- A read request joins the AREAD queue while it has room, and waits otherwise; the request at its head gives one row a cycle, its
last row sends the response, or ends the read of a KV segment; a poisoned request answers poisoned rows (R271, R319, R320, R336,
R338, R340). -/
def Obligations.RowReads : Prop :=
  (∀ (site cyc : Nat) (head : BitVec 512) (hdr : BitVec 128) (poison : Bool) (s r : State), isKind .b site = true → s.bLive site = true →
    bIsWrite head.toNat = false → bOp head.toNat ≠ 5 → bMalformed head.toNat (hLen hdr.toNat) = false → bRows head.toNat ≠ 0 →
    r = s.bRun site cyc → (r.btile site).reads.length < 8 →
    (r.btile site).waiting.any (fun x => x.vc == hVc hdr.toNat && x.packet) = false →
    exec (.bRead site head hdr poison cyc) s = .next
      (r.updB site fun t => { t with reads := t.reads ++ [
        ⟨bRow head.toNat, bRows head.toNat, bReply head.toNat, bRflow head.toNat, bTag head.toNat, none, bRow head.toNat, [], cyc + 1,
          poison, none⟩] }))
  ∧ (∀ (site cyc : Nat) (head : BitVec 512) (hdr : BitVec 128) (poison : Bool) (s r : State), isKind .b site = true → s.bLive site = true →
    bIsWrite head.toNat = false → bOp head.toNat ≠ 5 → bMalformed head.toNat (hLen hdr.toNat) = false → bRows head.toNat ≠ 0 →
    r = s.bRun site cyc → 8 ≤ (r.btile site).reads.length →
    exec (.bRead site head hdr poison cyc) s = .next (r.updB site fun t =>
      { t with waiting := t.waiting ++ [
          .read head.toNat (hSrc hdr.toNat) (hLen hdr.toNat) (hVc hdr.toNat) (hEpoch hdr.toNat) poison none] }))
  ∧ (∀ (site port cyc : Nat) (head : BitVec 512) (hdr : BitVec 128) (poison : Bool) (s r : State), isKind .b site = true → port < 4 →
    s.bLive site = true → bOp head.toNat = 5 → s.partnerOk site port (hVc hdr.toNat) (hSrc hdr.toNat) = true →
    bMalformed head.toNat (hLen hdr.toNat) = false → bRows head.toNat ≠ 0 → r = s.bRun site cyc → (r.btile site).reads.length < 8 →
    (r.btile site).waiting.any (fun x => x.vc == hVc hdr.toNat && x.packet) = false →
    exec (.partnerRead site port head hdr poison cyc) s = .next
      (r.updB site fun t => { t with reads := t.reads ++ [
        ⟨bRow head.toNat, bRows head.toNat, bReply head.toNat, bRflow head.toNat, bTag head.toNat, some port, bRow head.toNat, [],
          cyc + 1, poison, none⟩] }))
  ∧ (∀ (site cyc : Nat) (flips : List Flip) (q : BReadReq) (rest : List BReadReq) (l : List WordRead) (s r u : State),
    isKind .b site = true → s.bRun site cyc = r → (r.btile site).reads = q :: rest → r.bLive site = true →
    (r.btile site).busy 5 (cyc + 1) = false → (r.btile site).claimed false q.row (cyc + 1) = false → q.left = 1 → q.seg = none →
    r.areadRow site q flips = (l, u) →
    exec (.areadRowPresent site cyc flips) s = .next
      (((u.bAnswer site q.reply q.rflow 3 q.first q.tag 0
        ((q.got ++ (rowHalves l).map fun h => (h.1, h.2 || q.poison)).map fun g => (leNat g.1, g.2))).updB site
        fun t => { t with claims := t.claims ++ [(cyc + 1, 5, q.row)],
                          reads := rest.map fun x => { x with headAt := max x.headAt (cyc + 1) } }).bRetry site cyc))
  ∧ (∀ (site cyc : Nat) (flips : List Flip) (q : BReadReq) (rest : List BReadReq) (l : List WordRead) (s r u : State),
    isKind .b site = true → s.bRun site cyc = r → (r.btile site).reads = q :: rest → r.bLive site = true →
    (r.btile site).busy 5 (cyc + 1) = false → (r.btile site).claimed false q.row (cyc + 1) = false → q.left ≠ 1 →
    r.areadRow site q flips = (l, u) → (q.seg ≠ none ∨ (q.got ++ rowHalves l).length < 12) →
    exec (.areadRowPresent site cyc flips) s = .next
      (u.updB site fun t => { t with
        claims := t.claims ++ [(cyc + 1, 5, q.row)],
        reads := { q with row := q.row + 1, left := q.left - 1, headAt := cyc + 1,
                          got := q.got ++ (rowHalves l).map fun h => (h.1, h.2 || q.poison) } :: rest }))
  ∧ (∀ (site cyc : Nat) (flips : List Flip) (q : BReadReq) (x : SegRead) (rest : List BReadReq) (l : List WordRead) (s r u : State),
    isKind .b site = true → s.bRun site cyc = r → (r.btile site).reads = q :: rest → r.bLive site = true →
    (r.btile site).busy 5 (cyc + 1) = false → (r.btile site).claimed false q.row (cyc + 1) = false → q.left = 1 → q.seg = some x →
    r.areadRow site q flips = (l, u) →
    exec (.areadRowPresent site cyc flips) s = .next
      (((u.updB site fun t => { t with
          claims := t.claims ++ [(cyc + 1, 5, q.row)]
          reads := rest.map fun x => { x with headAt := max x.headAt (cyc + 1) } }).segDone x
        (q.got ++ (rowHalves l).map fun h => (h.1, h.2 || q.poison))).bRetry site cyc))
  ∧ (∀ (site cyc : Nat) (flips : List Flip) (q : BReadReq) (rest : List BReadReq) (l : List WordRead) (s r u : State),
    isKind .b site = true → s.bRun site cyc = r → (r.btile site).reads = q :: rest → r.bLive site = true →
    (r.btile site).busy 5 (cyc + 1) = false → (r.btile site).claimed false q.row (cyc + 1) = false → q.left ≠ 1 →
    r.areadRow site q flips = (l, u) → q.seg = none → 12 ≤ (q.got ++ rowHalves l).length →
    exec (.areadRowPresent site cyc flips) s = .next
      ((u.bAnswer site q.reply q.rflow 3 q.first q.tag 0
        ((q.got ++ (rowHalves l).map fun h => (h.1, h.2 || q.poison)).map fun g => (leNat g.1, g.2))).updB site fun t => { t with
        claims := t.claims ++ [(cyc + 1, 5, q.row)],
        reads := { q with row := q.row + 1, left := q.left - 1, headAt := cyc + 1, got := [], first := q.row + 1 } :: rest }))
  ∧ (∀ (site cyc : Nat) (head : BitVec 512) (hdr : BitVec 128) (poison : Bool) (s : State), isKind .b site = true →
    bIsWrite head.toNat = true → exec (.bRead site head hdr poison cyc) s = .next s)

/-- The rows of a write request are held while the queue has room for them; a row that its bank may take leaves the hold queue for the
next bank cycle; one that has waited 4,096 cycles is discarded and counted, and the first of its packet logged (R332 to R334,
R336, R340). -/
def Obligations.RowWrites : Prop :=
  (∀ (site cyc : Nat) (pkt : MeshPkt) (s u : State), isKind .b site = true → s.bLive site = true →
    bIsRead (MeshPkt.head pkt) = false → bOp (MeshPkt.head pkt) ≠ 6 →
    s.bRun site cyc = u → bMalformed (MeshPkt.head pkt) (hLen (MeshPkt.hdr pkt)) = false → bRows (MeshPkt.head pkt) ≠ 0 →
    bRows (MeshPkt.head pkt) ≤ (u.btile site).holdFree →
    (u.btile site).waiting.any (fun x => x.vc == hVc (MeshPkt.hdr pkt) && x.packet) = false →
    exec (.bWrite site pkt cyc) s = .next
      (u.bHoldRows site (hSrc (MeshPkt.hdr pkt)) (hEpoch (MeshPkt.hdr pkt)) cyc
        (pktRows (MeshPkt.head pkt) ((MeshPkt.body pkt).map fun f => { f with poison := f.poison || MeshPkt.poisoned pkt }))
        (bWmask (MeshPkt.head pkt)) false { noPkt with ack := bAck (MeshPkt.head pkt), reply := bReply (MeshPkt.head pkt),
                                                       rflow := bRflow (MeshPkt.head pkt), tag := bTag (MeshPkt.head pkt) }))
  ∧ (∀ (site cyc : Nat) (pkt : MeshPkt) (s u : State), isKind .b site = true → s.bLive site = true →
    bIsRead (MeshPkt.head pkt) = false → bOp (MeshPkt.head pkt) ≠ 6 →
    s.bRun site cyc = u → bMalformed (MeshPkt.head pkt) (hLen (MeshPkt.hdr pkt)) = false →
    (u.btile site).holdFree < bRows (MeshPkt.head pkt) →
    exec (.bWrite site pkt cyc) s = .next (u.updB site fun t => { t with waiting := t.waiting ++ [.write pkt none] }))
  ∧ (∀ (site port cyc : Nat) (pkt : MeshPkt) (s u : State), isKind .b site = true → port < 4 → s.bLive site = true →
    bOp (MeshPkt.head pkt) = 6 → s.partnerOk site port (hVc (MeshPkt.hdr pkt)) (hSrc (MeshPkt.hdr pkt)) = true →
    s.bRun site cyc = u → bMalformed (MeshPkt.head pkt) (hLen (MeshPkt.hdr pkt)) = false →
    bRows (MeshPkt.head pkt) ≠ 0 → bRows (MeshPkt.head pkt) ≤ (u.btile site).holdFree →
    (u.btile site).waiting.any (fun x => x.vc == hVc (MeshPkt.hdr pkt) && x.packet) = false →
    (∀ r, u.portBank site port r = true) →
    exec (.partnerWrite site port pkt cyc) s = .next
      (u.bHoldRows site (hSrc (MeshPkt.hdr pkt)) (hEpoch (MeshPkt.hdr pkt)) cyc
        (pktRows (MeshPkt.head pkt) ((MeshPkt.body pkt).map fun f => { f with poison := f.poison || MeshPkt.poisoned pkt }))
        (bWmask (MeshPkt.head pkt)) true { noPkt with ack := bAck (MeshPkt.head pkt), reply := bReply (MeshPkt.head pkt),
                                                      rflow := bRflow (MeshPkt.head pkt), tag := bTag (MeshPkt.head pkt) }))
  ∧ (∀ (site cyc : Nat) (e : BHeld) (s u : State), isKind .b site = true → s.bRun site cyc = u → u.bLive site = true →
    (u.btile site).busy 6 (cyc + 1) = false → u.bEligible site cyc (u.btile site).hold [] = some e →
    exec (.holdAdmit site cyc) s = .next
      ((u.updB site fun t => { t with
        hold := t.hold.filter fun x => x != e,
        pipe := t.pipe ++ [{ cyc := cyc + 1, port := 6, write := true, row := e.row, words := e.words, wmask := e.wmask,
                             flips := [], own := false, sel := true, job := some e.pkt, load := none }] }).bRetry site cyc))
  ∧ (∀ (site cyc : Nat) (e : BHeld) (s u v : State), isKind .b site = true → s.bRun site cyc = u →
    (u.btile site).hold = [e] → e.arr + 4096 ≤ cyc →
    v = (u.updB site fun t => { t with hold := [] }).incReg site 0x05C →
    (((v.btile site).pkts.find? fun p => p.pkt == e.pkt).all fun p => !p.logged) = true →
    exec (.dmaWindowTimeout site cyc) s = .next
      ((((v.raise site 1 0x0202 e.row e.src 0 0 (v.combStep site)).updB site fun t => t.logPkt e.pkt).bRowDone site e.pkt
        true).bRetry site cyc))
  ∧ (∀ (site cyc : Nat) (e : BHeld) (p : BPkt) (s u v : State), isKind .b site = true → s.bRun site cyc = u →
    (u.btile site).hold = [e] → e.arr + 4096 ≤ cyc →
    v = (u.updB site fun t => { t with hold := [] }).incReg site 0x05C →
    (v.btile site).pkts.find? (fun p => p.pkt == e.pkt) = some p → p.logged = true →
    exec (.dmaWindowTimeout site cyc) s = .next
      ((((v.flag site 1).updB site fun t => t.logPkt e.pkt).bRowDone site e.pkt true).bRetry site cyc))
  ∧ (∀ (site cyc : Nat) (pkt : MeshPkt) (s : State), isKind .b site = true → bIsRead (MeshPkt.head pkt) = true →
    exec (.bWrite site pkt cyc) s = .next s)

/-- A scrub read that is due moves to the next row, and queues what it corrected to be written back; the oldest write-back is written
in the next bank cycle that the other ports leave free (R324, R345, R348). -/
def Obligations.RowScrub : Prop :=
  (∀ (site cyc row : Nat) (flips : List Flip) (l : List WordRead) (s u v : State), isKind .b site = true →
    s.bRun site cyc = u → u.bLive site = true → u.regN site 0x064 % 65536 ≠ 0 → (u.btile site).scrubRow = row →
    (u.btile site).scrubAt + u.regN site 0x064 % 65536 ≤ cyc → (u.btile site).busy 7 (cyc + 1) = false →
    (u.btile site).claimed false row (cyc + 1) = false → u.bReadRow site row 2 flips = (l, v) →
    exec (.bScrubRead site cyc flips) s = .next
      (v.updB site fun t => { t with claims := t.claims ++ [(cyc + 1, 7, row)],
                                     scrubRow := (row + 1) % bufRows, scrubAt := cyc,
                                     scrubBack := if l.any (fun w => match w with
                                       | .corrected _ | .bad _ _ => true
                                       | _ => false) then t.scrubBack ++ [(row, sideForm row l)] else t.scrubBack }))
  ∧ (∀ (site cyc row : Nat) (ws : List RowWord) (rest : List (Nat × List RowWord)) (s u : State), isKind .b site = true →
    s.bRun site cyc = u → (u.btile site).scrubBack = (row, ws) :: rest → u.bLive site = true → (u.btile site).busy 7 (cyc + 1) = false →
    (u.btile site).claimed true row (cyc + 1) = false →
    exec (.bScrubWriteback site cyc) s = .next (u.updB site fun t => { t with scrubBack := rest, pipe := t.pipe ++ [{
      cyc := cyc + 1, port := 7, write := true, row, words := ws, wmask := 0xFFFF, flips := [], own := false, sel := true,
      job := none, load := none }] }))

/-- A row that is written reads back word for word, and no byte outside it changes. -/
def Obligations.RowsReadBack : Prop :=
  ∀ (site row : Nat) (ws : List RowWord) (m : Sparse Byte), row < bufRows → ws.length = 16 → swf bufDflt m = true →
    getRow bufDflt bufRows (putRow bufDflt bufRows m site row 0xFFFF ws) site row = ws
    ∧ (∀ a, (a < wordKey bufRows site row 0 ∨ wordKey bufRows site (row + 1) 0 ≤ a) →
        sget bufDflt (putRow bufDflt bufRows m site row 0xFFFF ws) a = sget bufDflt m a)

/-! ### Micro-programs and instances (chapter 7) -/

/-- WIN sets the window of a bank, which governs admissions from the next cycle on (R328, R329); transfers of no rows count on their
counter, a SEND of none where it asks an acknowledgement; SPILL, FILL and SEND move rows between the tile and this device's memory,
another device or another tile (R375, R376). -/
def Obligations.MicroTransfers : Prop :=
  (∀ (site cyc : Nat) (w0 : DWord) (s : State), isKind .b site = true → s.bRuns site = true →
    exec (.win site w0 cyc) s = .next
      (((s.bRun site cyc).updB site fun t => { t with
        wins := t.wins ++ [(bits w0.toNat 52 48, cyc, (s.bRun site cyc).bWin site (bits w0.toNat 52 48))] }).setReg site
        (0x100 + 4 * bits w0.toNat 52 48) (w0.toNat % 2 ^ 32)))
  ∧ (∀ (site cyc : Nat) (w0 ofs : DWord) (s : State), isKind .b site = true → s.bRuns site = true → fRows w0.toNat = 0 →
    exec (.fill site w0 ofs cyc) s = .next (s.countUp site (fCtr w0.toNat))
      ∧ exec (.spill site w0 ofs cyc) s = .next (s.countUp site (fCtr w0.toNat)))
  ∧ (∀ (site n a base cyc : Nat) (w0 ofs : DWord) (s u : State), isKind .b site = true →
    s.bRuns site = true → n = fRows w0.toNat → n ≠ 0 → u = s.bRun site cyc →
    a = u.operand site (bits w0.toNat 55 48) ofs.toNat → base = a % 2 ^ 40 → u.isLocal a = true → base % 64 = 0 →
    exec (.fill site w0 ofs cyc) s = .next
      ((cut4k base (2 * n)).foldl (fun s e => s.kvPiece site
        { id := u.prog.nextXfer, ctr := fCtr w0.toNat, kind := 1, addr := base, row := fRow w0.toNat, left := 2 * n,
          step := u.stepAt site, gone := false } (u.ownDest site) e.1 e.2 (u.stepAt site))
        (u.startXfer site (fCtr w0.toNat) 1 base (fRow w0.toNat) (2 * n))))
  ∧ (∀ (site n a cyc : Nat) (w0 ofs : DWord) (s u : State), isKind .b site = true →
    s.bRuns site = true → n = fRows w0.toNat → n ≠ 0 → u = s.bRun site cyc →
    a = u.operand site (bits w0.toNat 55 48) ofs.toNat → u.isLocal a = false →
    exec (.fill site w0 ofs cyc) s = .next ((u.startXfer site (fCtr w0.toNat) 1 (a % 2 ^ 40) (fRow w0.toNat) (2 * n)).remoteReads site a
      (128 * n) (xferFlow (fCtr w0.toNat))))
  ∧ (∀ (site n a cyc : Nat) (w0 ofs : DWord) (s u : State), isKind .b site = true →
    s.bRuns site = true → n = fRows w0.toNat → n ≠ 0 → u = s.bRun site cyc →
    a = u.operand site (bits w0.toNat 55 48) ofs.toNat →
    exec (.spill site w0 ofs cyc) s = .next
      ((u.startXfer site (fCtr w0.toNat) 0 (a % 2 ^ 40) (fRow w0.toNat)
        (if u.isLocal a then 1 else (writeCuts (a % 2 ^ 40) (2 * n)).length)).seqRead site (fRow w0.toNat) n (u.stepAt site)
        (if u.isLocal a then .local u.prog.nextXfer (a % 2 ^ 40) (u.ownDest site) (u.stepAt site)
         else .remote a (xferFlow (fCtr w0.toNat)))))
  ∧ (∀ (site n dest cyc : Nat) (w0 w1 : DWord) (s u : State) (l : List (Nat × Nat × Nat)), isKind .b site = true →
    s.bRuns site = true → n = bits w0.toNat 33 27 → n ≠ 0 → dest = (s.bRun site cyc).physDest (bits w1.toNat 63 48) →
    (s.bRun site cyc).sendPkts site dest (bits w1.toNat 33 22) (bitN w0.toNat 26) (bitN w0.toNat 25) (bits w1.toNat 47 34) n
      (fCtr w0.toNat) = (l, u) →
    exec (.send site w0 w1 cyc) s = .next (u.seqRead site (fRow w0.toNat) n (u.stepAt site) (.send l)))
  ∧ (∀ (site cyc : Nat) (w0 w1 : DWord) (s : State), isKind .b site = true → s.bRuns site = true → bits w0.toNat 33 27 = 0 →
    exec (.send site w0 w1 cyc) s = .next (if bit w0.toNat 25 then s.countUp site (fCtr w0.toNat) else s))
  ∧ (∀ (site a base cyc : Nat) (w0 ofs : DWord) (s u v : State) (x : List (Nat × Bool)), isKind .b site = true →
    s.bRuns site = true → fRows w0.toNat ≠ 0 → u = s.bRun site cyc →
    a = u.operand site (bits w0.toNat 55 48) ofs.toNat → base = a % 2 ^ 40 → u.isLocal a = true → base % 64 ≠ 0 →
    (u.startXfer site (fCtr w0.toNat) 1 base (fRow w0.toNat) (2 * fRows w0.toNat)).tileRead (u.ownDest site) base
      (2 * fRows w0.toNat) (u.stepAt site) = (x, v) →
    exec (.fill site w0 ofs cyc) s = .next (v.updXfer site u.prog.nextXfer fun y => { y with left := 0 }))

/-- WAIT stands until its counter reaches its value and then releases; NOP does nothing; END marks the end of the code; a fill that is
done and a write acknowledgement count (R373, R376, R377); while a WAIT stands, after END and without an instance the tile's program
commands change nothing (R377). -/
def Obligations.MicroControl : Prop :=
  (∀ (site : Nat) (w0 : DWord) (s : State), s.Inv → isSite site = true → siteKind site ≠ .w → s.mayRun site = true →
    nth 0 (s.run site).ctr (bits w0.toNat 50 48) < w0.toNat % 2 ^ 32 →
    Runs (.wait site w0) s [.prog] fun t =>
      t.run site = { s.run site with wait := some (bits w0.toNat 50 48, w0.toNat % 2 ^ 32) }
        ∧ ∀ k, k ≠ site → t.run k = s.run k)
  ∧ (∀ (site c v : Nat) (s : State), s.Inv → isSite site = true → siteKind site ≠ .w → (s.run site).wait = some (c, v) →
    v ≤ nth 0 (s.run site).ctr c →
    Runs (.waitRelease site) s [.prog] fun t =>
      t.run site = { s.run site with wait := none } ∧ ∀ k, k ≠ site → t.run k = s.run k)
  ∧ (∀ (site : Nat) (s : State), isSite site = true → siteKind site ≠ .w → exec (.nop site) s = .next s)
  ∧ (∀ (site : Nat) (s : State), s.Inv → isSite site = true → siteKind site ≠ .w → s.mayRun site = true →
    Runs (.endCode site) s [.prog] fun t =>
      t.run site = { s.run site with ended := true } ∧ ∀ k, k ≠ site → t.run k = s.run k)
  ∧ (∀ (site : Nat) (rflow : BitVec 12) (stat : BitVec 2) (s : State), s.Inv → isKind .b site = true →
    (s.run site).inst ≠ none →
    Runs (.writeAckReceive site rflow stat) s [.prog] fun t =>
      t.run site = { s.run site with ctr := (setNth (s.run site).ctr (rflow.toNat % 8)
        ((nth 0 (s.run site).ctr (rflow.toNat % 8) + 1) % 2 ^ 32)) } ∧ ∀ k, k ≠ site → t.run k = s.run k)
  ∧ (∀ (site ctr cyc : Nat) (x : Xfer) (s u : State), isSite site = true → siteKind site ≠ .w → ctr < 8 →
    u = (if siteKind site = .b then s.bRun site cyc else s) →
    (u.run site).pend.find? (fun x => x.ctr == ctr && u.xferLanded site x) = some x →
    exec (.fillDone site ctr cyc) s = .next
      (((u.updRun site fun r => { r with pend := r.pend.filter fun y => y.id != x.id }).updB site fun t =>
        { t with pkts := t.pkts.filter fun p => p.ctr != some x.id }).countUp site ctr))
  ∧ (∀ (site : Nat) (w0 : DWord) (s : State), isSite site = true → siteKind site ≠ .w → s.mayRun site = false →
    exec (.wait site w0) s = .next s ∧ exec (.endCode site) s = .next s)
  ∧ (∀ (site cyc : Nat) (w0 w1 : DWord) (s : State), isKind .b site = true → s.mayRun site = false →
    exec (.win site w0 cyc) s = .next s ∧ exec (.fill site w0 w1 cyc) s = .next s ∧ exec (.spill site w0 w1 cyc) s = .next s
      ∧ exec (.send site w0 w1 cyc) s = .next s)
  ∧ (∀ (site cyc : Nat) (w0 w1 : DWord) (r : BitVec 128) (l : List Upset) (s : State), isKind .m site = true → s.mayRun site = false →
    exec (.pass site w0 r cyc l) s = .next s ∧ exec (.load site w0 w1) s = .next s ∧ exec (.wfill site w0 w1 cyc) s = .next s)
  ∧ (∀ (site : Nat) (w0 w1 : DWord) (op : SOp) (l : List Flip) (s : State), isKind .s site = true → s.mayRun site = false →
    exec (.sfn site w0 w1 op l) s = .next s)

/-- An instance whose code has ended and whose tile is quiet leaves its tile, and the last tile of it counts it done (R405); an idle
tile takes the instance that foraging finds, a gang starts on every tile that runs it (R407 to R409). -/
def Obligations.Instances : Prop :=
  (∀ (site cyc : Nat) (i : Inst) (s r u : State), isSite site = true → siteKind site ≠ .w → (s.run site).inst = some i →
    (s.run site).ended = true → (s.run site).wait = none →
    r = (if siteKind site = .m then (s.mAdvance site cyc).runM site cyc else if siteKind site = .b then s.bRun site cyc else s) →
    r.tileQuiet site = true → u = r.updRun site (fun r => { r with inst := none, ended := false }) →
    exec (.instanceComplete site cyc) s = .next (if (u.prog.runs.any fun e => e.2.inst == some i) then u else u.countDone i))
  ∧ (∀ (site l d p : Nat) (i : Inst) (s : State), isSite site = true → siteKind site ≠ .w → s.served site = some l →
    s.idle site = true → s.gangWaits (siteComb site) l = false → s.forageFor site l = some (d, p, i) →
    exec (.forage site) s = .next ((s.setPool d p ((s.pool d p).filter fun x => x != i)).startInst site i))
  ∧ (∀ (comb pool : Nat) (i : Inst) (rest : List Inst) (sites : List (Option Nat)) (s : State), comb < 24 → pool < 4 →
    s.pool comb pool = i :: rest → s.isGang i = true →
    sites = ((logicals .m).filter fun l => s.elig l i).map (fun l => s.serving comb l) →
    (∀ x ∈ sites, ∃ k, x = some k ∧ s.idle k = true) →
    exec (.gangStart comb pool) s = .next ((sites.filterMap id).foldl (fun s t => s.startInst t i) (s.setPool comb pool rest)))

/-! ### Launches and epochs (chapter 7) -/

/-- The launch record at the head starts its launch, or is rejected with its reason (R386, R387, R394, R404); a template whose dependencies are
satisfied is released: its instances join their pools (R401, R403, R406). -/
def Obligations.Launches : Prop :=
  (∀ (l : LRec) (rest : List DispRec) (n i : Nat) (im : Image) (b : Bucket) (s u : State), s.prog.dq = .launch l :: rest →
    s.switchHolds l = false → s.graphBusy l = false → u = { s with prog := { s.prog with dq := rest } } →
    u.checkLaunch l = .ok n i im b → exec .launch s = .next (u.startLaunch l n i im b))
  ∧ (∀ (l : LRec) (rest : List DispRec) (c : Nat) (s u : State), s.prog.dq = .launch l :: rest →
    s.switchHolds l = false → s.graphBusy l = false → u = { s with prog := { s.prog with dq := rest } } →
    u.checkLaunch l = .bad c → exec .launch s = .next (u.rejectLaunch l c))
  ∧ (∀ (launch tmpl : Nat) (l : Launch) (r : TmplRun) (im : Image) (tm : Template) (s : State), s.launch? launch = some l →
    l.tmpls.find? (fun t => t.idx == tmpl) = some r → (s.slot l.slot).img = some im → im.tasks[tmpl]? = some tm →
    r.released = false → l.depMet tm.dep0 = true → l.depMet tm.dep1 = true →
    Runs (.templateRelease launch tmpl) s [.prog] fun t =>
      (∀ j, j < r.total → (⟨launch, tmpl, j, r.first + j, s.physComb tm.home⟩ : Inst) ∈ t.pool (s.physComb tm.home) (poolOf tm j))
        ∧ (∀ c p i, i ∈ s.pool c p → i ∈ t.pool c p)
        ∧ t.prog.launches.map (·.id) = s.prog.launches.map (·.id) ∧ t.prog.slots = s.prog.slots ∧ t.prog.runs = s.prog.runs)

/-- A switch at the head of the queue begins when no switch runs, its slot usable, with the shadow that was loaded for it (R379, R382,
R385); the image of the switch in front, queued or begun, is read and checked into the shadow copies (R364, R379, R380); a comb whose switch is ready sends its epoch markers (R291) and switches when it is drained or past its LIMIT (R378, R381). -/
def Obligations.Switches : Prop :=
  (∀ (r : SwitchRec) (rest : List DispRec) (s : State), s.prog.cur = none → s.prog.ahead = [] → s.prog.dq = .switch r :: rest →
    ({ s with prog := { s.prog with dq := rest } } : State).switchRule r = 0 → s.prog.pre = none →
    Runs .switchRecord s [.prog] fun t =>
      t.prog = { s.prog with dq := rest, cur := some { sw := r, loaded := false, since := s.dev.chrono, combs := [], left := [] } })
  ∧ (∀ (r : SwitchRec) (rest : List DispRec) (c : Nat) (s u : State), s.prog.cur = none → s.prog.ahead = [] →
    s.prog.dq = .switch r :: rest → u = { s with prog := { s.prog with dq := rest } } → u.switchRule r = c → c ≠ 0 →
    exec .switchRecord s = .next ((u.record r.done (doneRec 2 c 0xFF 0 0 0 0)).log pgMrd 0x0F03 c r.slot 0 0))
  ∧ (∀ (w : Switching) (im : Image) (b : List Byte) (s u : State), s.prog.cur = some w → w.loaded = false →
    s.shadowFree = true → w.sw.slot ≠ nullSlot → (s.slot w.sw.slot).img = some im →
    u = s.noteRead (s.slot w.sw.slot).addr im.size none →
    u.dram (s.slot w.sw.slot).addr im.size = some b → headBad b = false → crcBad b = false →
    exec .switchShadowLoad s = .next ((u.updSlot w.sw.slot fun y => { y with img := some (imageOf b) }).loadShadow w
      (some (imageOf b))))
  ∧ (∀ (w : Switching) (im : Image) (b : List Byte) (s u : State), s.prog.cur = some w → w.loaded = false →
    s.shadowFree = true → w.sw.slot ≠ nullSlot → (s.slot w.sw.slot).img = some im →
    u = s.noteRead (s.slot w.sw.slot).addr im.size none →
    u.dram (s.slot w.sw.slot).addr im.size = some b → crcBad b = true →
    exec .switchShadowLoad s = .next (u.switchCrc w))
  ∧ (∀ (comb cyc : Nat) (w : Switching) (s : State), comb < 24 → s.prog.cur = some w → s.switchReady w comb = true →
    w.sw.flush = true → exec (.combEpochSwitch comb cyc) s = .next (s.switchComb w comb cyc true))
  ∧ (∀ (comb cyc : Nat) (w : Switching) (s u : State), comb < 24 → s.prog.cur = some w → s.switchReady w comb = true →
    w.sw.flush = false → u = ((List.range 120).map (mkSite comb)).foldl (fun s k =>
      (if siteKind k == .w then s.wRun k cyc else s).sendMarkers k) s →
    exec (.combEpochSwitch comb cyc) s = .next (if u.combDrained comb then u.switchComb w comb cyc false else u))
  ∧ (∀ (comb cyc : Nat) (w : Switching) (s : State), comb < 24 → s.prog.cur = some w → s.switchReady w comb = true →
    w.sw.flush = false → w.sw.limit ≠ 0 → w.since + 1000 * w.sw.limit ≤ s.dev.chrono →
    exec (.epochDrainTimeout comb cyc) s = .next
      ((s.log (pgCmb comb) 0x1503 comb (s.epochOf comb) 0 0).switchComb w comb cyc true))
  ∧ (∀ (r : SwitchRec) (rest : List DispRec) (w : Switching) (s : State), s.prog.cur = none → s.prog.ahead = [] →
    s.prog.dq = .switch r :: rest → ({ s with prog := { s.prog with dq := rest } } : State).switchRule r = 0 →
    s.prog.pre = some w → w.sw = r →
    Runs .switchRecord s [.prog] fun t =>
      t.prog = { s.prog with dq := rest, cur := some { w with since := s.dev.chrono }, pre := none })
  ∧ (∀ (r : SwitchRec) (s : State), s.prog.cur = none → s.nextSwitch = some r → s.switchRule r = 0 → s.prog.pre = none →
    s.shadowFree = true → r.slot = nullSlot →
    exec .switchShadowLoad s = .next (s.loadShadow { sw := r, loaded := false, since := s.dev.chrono, combs := [], left := [] } none))

/-! ### Keeper mailbox (chapter 15) -/

/-- An operation of a source that does not own the mailbox is refused with NOT_OWNER; one sent before the device is READY by a source
other than the Keeper is refused with LOCKED; one sent while an operation runs changes nothing but its order's record. -/
def Obligations.MailboxRefuses : Prop :=
  (∀ (src : Source) (mb : Nat) (ports : List TrainInfo) (c : Instr) (s : State), mb < 4 → (s.lock && src != .keeper) = false →
    (s.page (pgKpr mb)).own ≠ some src →
    c ∈ ([.imageInstall src mb, .imageRemove src mb, .imageQuery src mb, .treathRetrain src mb ports, .policySet src mb,
      .fwUpdate src mb, .floorCommit src mb, .licenceInstall src mb, .ownerKeySet src mb, .lcsRequest src mb] : List Instr) →
    exec c s = .next ((s.order src (pgKpr mb) 0x044 4).goReply src (pgKpr mb) 0x044 4))
  ∧ (∀ (src : Source) (mb : Nat) (ports : List TrainInfo) (c : Instr) (s : State), mb < 4 → (s.lock && src != .keeper) = true →
    c ∈ ([.imageInstall src mb, .imageRemove src mb, .imageQuery src mb, .treathRetrain src mb ports, .policySet src mb,
      .fwUpdate src mb, .floorCommit src mb, .licenceInstall src mb, .ownerKeySet src mb, .lcsRequest src mb] : List Instr) →
    exec c s = .next ((s.order src (pgKpr mb) 0x044 5).goReply src (pgKpr mb) 0x044 5))
  ∧ (∀ (src : Source) (mb : Nat) (ports : List TrainInfo) (c : Instr) (s : State), mb < 4 → (s.lock && src != .keeper) = false →
    (s.page (pgKpr mb)).own = some src → bit (s.regN (pgKpr mb) 0x040) 31 = true →
    c ∈ ([.imageInstall src mb, .imageRemove src mb, .imageQuery src mb, .treathRetrain src mb ports, .policySet src mb,
      .fwUpdate src mb, .floorCommit src mb, .licenceInstall src mb, .ownerKeySet src mb, .lcsRequest src mb] : List Instr) →
    exec c s = .next ((s.order src (pgKpr mb) 0x044 0).goReply src (pgKpr mb) 0x044 0))

/-- IMAGE_INSTALL of an image that passes the rules leaves its slot INSTALLED; IMAGE_REMOVE empties a slot that is not ACTIVE;
IMAGE_QUERY answers a slot's state and facts (R363, R369, R856); TREATH_RETRAIN trains every port again with no step in
flight (R581); POLICY_SET commits the policy page (R803). -/
def Obligations.MailboxImages : Prop :=
  (∀ (src : Source) (mb n a : Nat) (h b : List Byte) (s u v : State), MbOpen src mb s → u = s.mbGo src mb 0x01 →
    u.mbArg mb 0 = n → u.mbArg mb 1 = a → n ≤ 63 → a % 4096 = 0 → a < u.hbmSize → (u.slot n).st ≠ .active →
    u.dram a 128 = some h → u.dram a (imageLen h) = some b → v = u.noteRead a (imageLen h) none → v.imageRule n b = 0 →
    exec (.imageInstall src mb) s = .next ((v.updSlot n fun _ =>
      { st := .installed, addr := a, img := some (imageOf b), map := List.range 24, next := List.range 24 }).mbDone mb 0x01 0 0 0))
  ∧ (∀ (src : Source) (mb n : Nat) (s u : State), MbOpen src mb s → u = s.mbGo src mb 0x02 → u.mbArg mb 0 = n → n ≤ 63 →
    (u.slot n).st ≠ .active →
    exec (.imageRemove src mb) s = .next ((u.updSlot n fun _ => slotDflt 0).mbDone mb 0x02 0 0 0))
  ∧ (∀ (src : Source) (mb n : Nat) (im : Image) (s u : State), MbOpen src mb s → u = s.mbGo src mb 0x03 → u.mbArg mb 0 = n →
    n ≤ 63 → (u.slot n).img = some im →
    exec (.imageQuery src mb) s = .next (u.mbDone mb 0x03 0 (u.slot n).st.code (im.footprint % 2 ^ 32 + im.ngraph * 2 ^ 32)))
  ∧ (∀ (src : Source) (mb : Nat) (ports : List TrainInfo) (s u : State), MbOpen src mb s → u = s.mbGo src mb 0x10 →
    u.mrd.steps = [] → exec (.treathRetrain src mb ports) s = .next ((u.retrainAll ports).mbDone mb 0x10 0 0 0))
  ∧ (∀ (src : Source) (mb r : Nat) (s u t : State), MbOpen src mb s → u = s.mbGo src mb 0x11 →
    (u.stage pgDfmDev 0x068 (u.mbArg mb 0)).commitAt .keeper pgDfmDev false 0 = (r, t) → r ≠ 2 → r ≠ 5 →
    exec (.policySet src mb) s = .next (t.mbDone mb 0x11 0 0 0))

/-- A package that checks begins its write to the inactive bank, which the write's end leaves there with the mailbox done (R835 to
R837); FLOOR_COMMIT raises a floor; a licence that checks is kept; an owner key is set once; a life-cycle move that a token backs
waits for the next start (R838, R842 to R844, R847). -/
def Obligations.MailboxFirmware : Prop :=
  (∀ (src : Source) (mb : Nat) (p : List Byte) (x : PkgCheck) (s u v : State), MbOpen src mb s → u = s.mbGo src mb 0x20 →
    u.live = true → u.nv.update = none → v = u.noteRead (u.mbArg mb 0) (u.mbArg mb 1) none →
    v.dram (v.mbArg mb 0) (v.mbArg mb 1) = some p → v.nv.checkPkg p = x → x.code = 0 →
    exec (.fwUpdate src mb) s = .next (v.fwStart p x.obj (some mb)))
  ∧ (∀ (f : FwWrite) (mb : Nat) (s : State), s.nv.update = some f → f.mailbox = some mb →
    exec .fwUpdateDone s = .next (((({ s with nv := { s.nv.setBank (1 - s.nv.active) (s.nv.written f) with
      update := none } } : State).log (pgKpr 0) 0x1602 f.comp f.version (1 - s.nv.active) 0)).mbDone mb 0x20 0 0 0))
  ∧ (∀ (src : Source) (mb c f : Nat) (s u : State), MbOpen src mb s → u = s.mbGo src mb 0x21 → u.mbArg mb 0 = c →
    u.mbArg mb 1 = f → c ≠ 0 → c ≤ 6 → f ≤ 127 → u.nv.floor c ≤ f → f ≤ objSvn (u.nv.obj u.nv.active c) →
    exec (.floorCommit src mb) s = .next ((u.setFloor c f).mbDone mb 0x21 0 0 0))
  ∧ (∀ (src : Source) (mb : Nat) (o : List Byte) (s u v : State), MbOpen src mb s → u = s.mbGo src mb 0x30 → u.live = true →
    u.nv.update = none → v = u.noteRead (u.mbArg mb 0) (u.mbArg mb 1) none →
    v.dram (v.mbArg mb 0) (v.mbArg mb 1) = some o → v.nv.licFault o = 0 →
    exec (.licenceInstall src mb) s = .next
      (({ v with nv := { v.nv with lics := v.nv.lics ++ [(leAt o 6 1, leAt o 16 4, keySlot o)] } } : State).mbDone mb 0x30 0 0 0))
  ∧ (∀ (src : Source) (mb : Nat) (k : List Byte) (s u v : State), MbOpen src mb s → u = s.mbGo src mb 0x31 → u.nv.life = 2 →
    v = u.noteRead (u.mbArg mb 0) 432 none → v.nv.owner = none → v.dram (v.mbArg mb 0) 432 = some k →
    exec (.ownerKeySet src mb) s = .next (({ v with nv := { v.nv with owner := some k } } : State).mbDone mb 0x31 0 0 0))
  ∧ (∀ (src : Source) (mb : Nat) (o : List Byte) (s u v w : State), MbOpen src mb s → u = s.mbGo src mb 0x40 → u.live = true →
    u.nv.update = none → v = u.noteRead (u.mbArg mb 0) (64 + sigLen) none → v.dram (v.mbArg mb 0) (64 + sigLen) = some o →
    v.tokenOk o = true → v.nv.vendorOk o = true → v.nv.mayMove (leAt o 4 1) = true →
    v.ownerAuth src (leAt o 4 1) (v.mbArg mb 1) = 0 → w = v.readAuth (v.mbArg mb 1) →
    exec (.lcsRequest src mb) s = .next (({ w with nv := { w.nv with lcsPending := leAt o 4 1 } } : State).mbDone mb 0x40 0 0 0))
  ∧ (∀ (src : Source) (mb : Nat) (k o : List Byte) (s u v w : State), MbOpen src mb s → u = s.mbGo src mb 0x31 → u.nv.life = 2 →
    v = u.noteRead (u.mbArg mb 0) 432 none → v.nv.owner ≠ none → v.dram (v.mbArg mb 0) 432 = some k → v.mbArg mb 1 ≠ 0 →
    w = v.noteRead (v.mbArg mb 1) (64 + sigLen) none → w.dram (w.mbArg mb 1) (64 + sigLen) = some o → w.bodyOk o = true →
    w.nv.ownerOk o = true →
    exec (.ownerKeySet src mb) s = .next (({ w with nv := { w.nv with owner := some k } } : State).mbDone mb 0x31 0 0 0))

/-! ### Intake and records (chapter 8) -/

/-- A write to the intake window is split into its streams' slots; a poisoned one is discarded and reported to AER, one that the unit
may not take is counted (R429 to R433); a partial slot is dropped after INT_PARTIAL_TIMEOUT; a fetch ends with its token IDs or failed
(R431, R436, R441, R652). -/
def Obligations.IntakeWrites : Prop :=
  (∀ (off : Nat) (data : List Byte) (s : State), s.intakeOpen = true → off + data.length ≤ 0x8000000 →
    exec (.intakeWrite off data false) s = .next ((slotParts off data).foldl State.slotWrite s))
  ∧ (∀ (off : Nat) (data : List Byte) (s : State), Runs (.intakeWrite off data true) s [.host, .out, .regs, .ev] fun t =>
      t.host.aer = s.host.aer ||| 0x1000 ∧ t.intake = s.intake)
  ∧ (∀ (off : Nat) (data : List Byte) (s : State), s.Inv → (s.intakeOpen = false ∨ 0x8000000 < off + data.length) →
    Runs (.intakeWrite off data false) s [.regs] fun t =>
      t.regN pgInt 0x074 = satInc (s.regN pgInt 0x074) % 2 ^ 32 ∧ t.flagged pgInt 0 = true)
  ∧ (∀ (stream : Nat) (a : Asm) (s : State), s.asmOf stream = some a → s.regN pgInt 0x064 ≠ 0 →
    a.since + s.regN pgInt 0x064 * 1000 ≤ s.dev.chrono →
    Runs (.intakePartial stream) s [.regs, .ev, .out, .intake] fun t =>
      t.asmOf stream = none ∧ ∀ x, x ≠ stream → t.asmOf x = s.asmOf x)
  ∧ (∀ (stream : Nat) (toks : List Word) (p : Pend) (rest : List Pend) (s : State), s.pendOf stream = p :: rest →
    p.fetched = false →
    exec (.appendFetchDone stream toks) s = .next ((s.fillStage p.stage toks).setPend stream
      (updFetch (fun p => { p with fetched := true, toks := fit 0 (leAt p.raw 8 4) toks }) ((s.fillStage p.stage toks).pendOf stream)))
      ∧ updFetch (fun p => { p with fetched := true, toks := fit 0 (leAt p.raw 8 4) toks }) (p :: rest)
        = { p with fetched := true, toks := fit 0 (leAt p.raw 8 4) toks } :: rest)
  ∧ (∀ (stream : Nat) (p : Pend) (rest : List Pend) (s : State), s.pendOf stream = p :: rest → p.fetched = false →
    Runs (.hostReadCompletionTimeout stream) s [.intake] fun t =>
      t.pendOf stream = { p with fetched := true, failed := true } :: rest ∧ ∀ x, x ≠ stream → t.pendOf x = s.pendOf x)

/-- At a record point, after the streams that are to become FAULTED, the record at the head of its stream is taken off, applied as its operation says, and the stream's status, ring
and reports are written (R423, R426, R439 to R446). -/
def Obligations.Records : Prop :=
  ∀ (op n : Nat) (c : Instr) (p : Pend) (rest : List Pend) (s f u : State),
    (op, c) ∈ ([(1, .openRec n), (2, .appendRec n), (3, .generateRec n), (4, .pauseRec n), (5, .resumeRec n), (6, .forkRec n),
      (7, .closeRec n), (8, .queryRec n)] : List (Nat × Instr)) →
    s.recordTime = true → s.headIs op n = true → f = s.faultPoint → (f.showOseq n).pendOf n = p :: rest → p.fetched = true →
    u = ((f.showOseq n).setPend n rest).applyRecord n p →
    exec c s = .next (((if (u.stream n).st = 1 ∨ (u.stream n).st = 2 ∨ (u.stream n).st = 3 then u.setStream n (u.stream n).derive
      else u).streamWrites n (f.stream n) []).kvLow)

/-- What the records do to their stream: OSEQ shows the stream's next record (R433); PAUSE of a READY, PREFILL or DECODE stream leaves it PAUSED and RESUME of a
PAUSED one lets it go on with its budget and position; CLOSE drains it; an operation that the state does not accept changes nothing else
and is counted and logged (R426, R436). -/
def Obligations.RecordStates : Prop :=
  (∀ (n : Nat) (p : Pend) (rest : List Pend) (s f : State), s.Inv → f = s.faultPoint → s.recordTime = true → s.headIs 4 n = true →
    f.pendOf n = p :: rest → 1 ≤ (f.stream n).st → (f.stream n).st ≤ 3 →
    ∃ t, exec (.pauseRec n) s = .next t ∧ (t.stream n).st = 4 ∧ (t.stream n).oseq = f.expect n
      ∧ (t.stream n).seqLen = (f.stream n).seqLen ∧ (t.stream n).budget = (f.stream n).budget
      ∧ (∀ k, k ≠ n → t.stream k = f.stream k))
  ∧ (∀ (n : Nat) (p : Pend) (rest : List Pend) (s f : State), s.Inv → f = s.faultPoint → s.recordTime = true → s.headIs 5 n = true →
    f.pendOf n = p :: rest → (f.stream n).st = 4 →
    ∃ t, exec (.resumeRec n) s = .next t ∧ (t.stream n).st = (f.stream n).derive.st
      ∧ (t.stream n).oseq = f.expect n ∧ (t.stream n).budget = (f.stream n).budget
      ∧ (∀ k, k ≠ n → t.stream k = f.stream k))
  ∧ (∀ (n : Nat) (p : Pend) (rest : List Pend) (s f : State), s.Inv → f = s.faultPoint → s.recordTime = true → s.headIs 7 n = true →
    f.pendOf n = p :: rest → 1 ≤ (f.stream n).st → (f.stream n).st ≤ 4 →
    ∃ t, exec (.closeRec n) s = .next t ∧ (t.stream n).st = 5 ∧ (t.stream n).kvRoot = 0xFFFFFFFF
      ∧ n ∈ t.kv.draining ∧ (∀ k, k ≠ n → t.stream k = f.stream k))
  ∧ (∀ (op n : Nat) (c : Instr) (p : Pend) (rest : List Pend) (s f : State), s.Inv → f = s.faultPoint →
    (op, c) ∈ ([(1, .openRec n), (2, .appendRec n), (3, .generateRec n), (4, .pauseRec n), (5, .resumeRec n), (6, .forkRec n)] :
      List (Nat × Instr)) → s.recordTime = true → s.headIs op n = true → f.pendOf n = p :: rest → (f.stream n).st = 5 →
    ∃ t, exec c s = .next t ∧ (t.stream n).st = 5 ∧ (t.stream n).oseq = f.expect n
      ∧ (t.stream n).seqLen = (f.stream n).seqLen ∧ t.regN pgInt 0x06C = satInc (f.regN pgInt 0x06C) % 2 ^ 32
      ∧ (∀ k, k ≠ n → t.stream k = f.stream k))

/-! ### Steps (chapters 8, 9, 14) -/

/-- A step that is ready commits its results; on a tick a running device reissues the step it abandoned, forms a step in AUTONOMOUS mode and
proposes one in ADVISE mode, whether or not it could start one; a record of the launch queue is taken, its head moved on; the tail is written under the order rules; the
Almanac closes its slot on the 100 ms boundary (R490, R494, R504 to R519, R770, R774). -/
def Obligations.Steps : Prop :=
  (∀ (st₀ st : StepRec) (rest₀ rest : List StepRec) (s v : State), s.mrd.steps = st₀ :: rest₀ →
    v = (if s.stepReady st₀ then s.finishCopies st₀ else s) → v.mrd.steps = st :: rest → v.inSlice = false → v.live = true →
    v.stepReady st = true → st.rebuild = false → exec .stepCommit s = .next (v.commitStep st st.results))
  ∧ (∀ (s u v w x : State), s.live = true → s.dev.running = true → s.atTick = true → u = s.applyMrd →
    (u.page pgClk).pending = false → v = u.shedUpdate → w = (if v.mrd.steps.isEmpty then v.tickCommit else v).markLong →
    x = (if w.mrd.mode = 1 ∧ w.stepTick = true then w.propose else w) → x.mayStart = true → x.mrd.abandoned = [] → x.slc.st ≠ 3 →
    exec .decisionTick s = .next (if x.mrd.mode = 2 then x.formStep else x))
  ∧ (∀ (s u v w : State), s.live = true → s.dev.running = true → s.atTick = true → u = s.applyMrd →
    (u.page pgClk).pending = false → v = u.shedUpdate → w = (if v.mrd.steps.isEmpty then v.tickCommit else v).markLong →
    w.mrd.mode = 1 → w.stepTick = true → (w.propose.mayStart = false ∨ w.propose.mrd.abandoned ≠ []) →
    exec .decisionTick s = .next w.propose)
  ∧ (∀ (s : State) (r : List Byte) (h a : Nat), s.live = true → s.mrd.configured = true →
    s.lqHead % s.regN pgMrd 0x080 = h → h ≠ s.lqTail % s.regN pgMrd 0x080 → a = s.reg64 pgMrd 0x078 + 128 * h →
    r = s.dramD a 128 → leAt r 0 1 = 1 → s.mrd.mode ≠ 2 →
    exec .stepRecord s = .next (((s.setReg pgMrd 0x088 ((h + 1) % s.regN pgMrd 0x080)).noteRead a 128 none).dispatch
      (.launch { raw := r, step := 0, role := 0, nj := 0 })))
  ∧ (∀ (s : State) (r : List Byte) (h a : Nat), s.live = true → s.mrd.configured = true →
    s.lqHead % s.regN pgMrd 0x080 = h → h ≠ s.lqTail % s.regN pgMrd 0x080 → a = s.reg64 pgMrd 0x078 + 128 * h →
    r = s.dramD a 128 → leAt r 0 1 = 2 → s.inSlice = false →
    exec .stepRecord s = .next (((s.setReg pgMrd 0x088 ((h + 1) % s.regN pgMrd 0x080)).noteRead a 128 none).dispatch
      (.switch (switchOf r))))
  ∧ (∀ (s : State) (r : List Byte) (h a : Nat), s.live = true → s.mrd.configured = true →
    s.lqHead % s.regN pgMrd 0x080 = h → h ≠ s.lqTail % s.regN pgMrd 0x080 → a = s.reg64 pgMrd 0x078 + 128 * h →
    r = s.dramD a 128 → (leAt r 0 1 = 0 ∨ 3 < leAt r 0 1) →
    exec .stepRecord s = .next (((s.setReg pgMrd 0x088 ((h + 1) % s.regN pgMrd 0x080)).noteRead a 128 none).lqReject h r))
  ∧ (∀ (src : Source) (val : Word) (s : State), s.writeRes src pgMrd = 0 →
    exec (.lqTailWrite src val) s = .next (((s.setReg pgMrd 0x084 val.toNat).order src pgMrd 0x084 0).goReply src pgMrd 0x084 0))
  ∧ (∀ (st : StepRec) (rest : List StepRec) (f : Forming) (s : State), s.mrd.abandoned = st :: rest → s.live = true →
    s.atTick = true → s.depthOk = true → s.recovered = true → s.hostWait = false → s.slc.st ≠ 2 →
    s.reserveAgain st = some f →
    ∃ t : State, exec .stepReissue s = .next ((st.recs.foldl (fun (s : State) r => s.dispatch (.launch r)) t).kvLow)
      ∧ t.mrd.abandoned = rest
      ∧ t.mrd.steps = f.s.mrd.steps ++ [{ st with newPages := f.pages, newBlocks := f.blocks, cow := f.cow }])
  ∧ (∀ s u : State, s.dev.chrono % 100000000 = 0 → s.live = true → s.alm.closed = 0 → s.almOn = true →
    u = { s with alm := s.alm.close s.dev.chrono } →
    exec .almanacSlotClose s = .next ((u.setReg64 pgAlm 0x060 u.alm.gen).guardUpdate.almApply))

/-! ### HBM (chapter 10) -/

/-- A read request is answered with its units, one beyond the memory with poison; a write request writes its units at the write side of
their map and is acknowledged if it asks (R536 to R543); host accesses through BAR4 read and write the window's units, and one outside
what the window may reach is counted and reported (R563 to R565). -/
def Obligations.HbmAccess : Prop :=
  (∀ (stack a : Nat) (head : BitVec 512) (hdr : BitVec 128) (flips : List Flip) (ue : List Nat) (l : List (Nat × Bool))
    (s u v : State), stack < 12 → hbmMalformed head.toNat (hLen hdr.toNat) = false → qOp head.toNat = 1 →
    qUnits head.toNat ≠ 0 → qAddr head.toNat < s.hbmSize →
    a = (s.tileStep (hSrc hdr.toNat)).elim (qAddr head.toNat) (fun x => s.cowRead x.1 x.2 (qAddr head.toNat)) →
    u = (s.disturbHbm flips).markDie (ue.map fun i => unitNum stack ((s.mapOf a).2 + 64 * i)) →
    u.readUnits (if a = qAddr head.toNat then stack else (u.mapOf a).1) 0 flips (u.reqStep (hSrc hdr.toNat)) a 0
      (qUnits head.toNat) = (l, v) →
    exec (.hbmRead stack head hdr flips ue) s = .next
      (v.readAnswer stack head.toNat (b2n ((v.stack stack).st != .run)) l))
  ∧ (∀ (stack : Nat) (head : BitVec 512) (hdr : BitVec 128) (flips : List Flip) (ue : List Nat) (s : State), stack < 12 →
    hbmMalformed head.toNat (hLen hdr.toNat) = false → qOp head.toNat = 1 → qUnits head.toNat ≠ 0 →
    s.hbmSize ≤ qAddr head.toNat →
    exec (.hbmRead stack head hdr flips ue) s = .next
      ((s.hbmUnmapped (qAddr head.toNat) (hSrc hdr.toNat) (s.reqStep (hSrc hdr.toNat))).readAnswer stack
        head.toNat 0 (List.replicate (qUnits head.toNat) (0, true))))
  ∧ (∀ (stack a t : Nat) (f : PFlit) (rest : List PFlit) (esc : Bool) (flips : List Flip) (pkt : MeshPkt) (s u v w x : State),
    stack < 12 → pkt = { flits := f :: rest, esc } → hbmMalformed (MeshPkt.head pkt) (hLen (MeshPkt.hdr pkt)) = false →
    qOp (MeshPkt.head pkt) = 2 → qUnits (MeshPkt.head pkt) ≠ 0 → a = qAddr (MeshPkt.head pkt) → a < s.hbmSize →
    (a < s.rsvBase ∨ keeperSrc (hSrc (MeshPkt.hdr pkt)) = true) → u = s.disturbHbm flips →
    (u.tileStep (hSrc (MeshPkt.hdr pkt))).elim (a, u) (fun x => u.cowTarget x.1 x.2 a) = (t, v) →
    w = ((List.range (qUnits (MeshPkt.head pkt))).foldl (fun s k =>
      s.writeAt (s.mapOf t).1 (t + 64 * k) (qMask (MeshPkt.head pkt))
        (leBytes 64 (nth { lane := 0, pay := 0, poison := true } (MeshPkt.body pkt) k).pay.toNat)
        ((nth { lane := 0, pay := 0, poison := true } (MeshPkt.body pkt) k).poison || f.poison)
        fun s e => s.hbmUe (s.mapOf (t + 64 * k)).1 (s.mapOf (t + 64 * k)).2 3 e (s.reqStep (hSrc (MeshPkt.hdr pkt)))) v) →
    x = (if bits (hSrc (MeshPkt.hdr pkt)) 15 14 = 0 then (w.segsIn t (64 * qUnits (MeshPkt.head pkt))).foldl (fun s y =>
        s.cachePut y.1 y.2 t (qUnits (MeshPkt.head pkt))) w
      else w.cacheSync t (64 * qUnits (MeshPkt.head pkt))) →
    exec (.hbmWrite stack pkt flips) s = .next (if qAck (MeshPkt.head pkt) then
      x.hbmAnswer stack 4 (MeshPkt.head pkt) a (b2n ((x.stack stack).st != .run)) [] else x))
  ∧ (∀ (off len : Nat) (s : State), off + len ≤ s.bar4Size →
    (s.bar4Open = false ∨ s.hbmSize < s.reg64 pgHbmDev 0x060 + off + len) → exec (.bar4Read off len) s = .next
      ((s.winRange off 0).emit (.bar4Data (List.replicate len 0) false)))
  ∧ (∀ (off len a : Nat) (d : List Byte) (p : Bool) (s u : State), off + len ≤ s.bar4Size → s.bar4Open = true →
    a = s.reg64 pgHbmDev 0x060 + off → a + len ≤ s.hbmSize →
    ((unitsOf a len).foldl (fun (acc : List Byte × Bool × State) u =>
      (acc.1 ++ (acc.2.2.readAt (acc.2.2.mapOf u).1 u 1 [] none).data,
        acc.2.1 || (acc.2.2.readAt (acc.2.2.mapOf u).1 u 1 [] none).poison,
        (acc.2.2.readAt (acc.2.2.mapOf u).1 u 1 [] none).s)) (([] : List Byte), false, s)) = (d, p, u) →
    exec (.bar4Read off len) s = .next (u.emit (.bar4Data ((d.drop (a % 64)).take len) p)))
  ∧ (∀ (off a : Nat) (data : List Byte) (poisoned : Bool) (s : State), off + data.length ≤ s.bar4Size → s.bar4Open = true →
    a = s.reg64 pgHbmDev 0x060 + off → a + data.length ≤ s.rsvBase →
    exec (.bar4Write off data poisoned) s = .next
      (((unitsOf a data.length).foldl (fun s u => s.devWrite u a data poisoned) s).cacheSync a data.length))
  ∧ (∀ (off : Nat) (data : List Byte) (poisoned : Bool) (s : State), off + data.length ≤ s.bar4Size →
    (s.bar4Open = false ∨ s.rsvBase < s.reg64 pgHbmDev 0x060 + off + data.length) →
    exec (.bar4Write off data poisoned) s = .next (s.winRange off 1))
  ∧ (∀ (log2 : Nat) (s : State), s.Inv → log2 ≤ 6 → s.regN pgPci 0x078 ≠ log2 →
    Runs (.bar4Resize log2) s [.regs, .staged, .pages] fun t =>
      t.regN pgPci 0x078 = log2 ∧ t.bar4Size = 2 ^ log2 * 2 ^ 30 ∧ t.reg64 pgHbmDev 0x060 % t.bar4Size = 0
        ∧ RegsOnly [regKey pgPci 0x078, regKey pgHbmDev 0x060, regKey pgHbmDev 0x064] s t)

/-- The care of a stack: a scrub read goes on to the next unit, writes back what it corrects and poisons what it cannot, by its own check
or the stack's report (R547, R552, R553); a soft repair re-encodes its row and remaps it, a hard repair is kept for every start (R554 to
R556); a lost stack is out of the memory (R559); its temperature sets and ends its reduced rate (R745). -/
def Obligations.HbmCare : Prop :=
  (∀ (stack pos : Nat) (flips : List Flip) (ue : Bool) (d c x : List Byte) (s u : State), stack < 12 →
    s.regN (pgHbm stack) 0x04C % 65536 ≠ 0 → (s.stack stack).st = .run → pos = s.regN (pgHbm stack) 0x068 →
    u = ((if pos = 0 then (s.setReg (pgHbm stack) 0x068 ((pos + 1) % stackUnits)).updStack stack fun x => { x with rows := [] }
      else s.setReg (pgHbm stack) 0x068 ((pos + 1) % stackUnits)).disturbHbm flips).markDie
        (if ue then [unitNum stack (64 * pos)] else []) →
    u.metUnit stack (64 * pos) flips = (d, c) → stsPoison c = false → u.dieBad stack (64 * pos) = false →
    rsDecode stack pos d c = .good x →
    exec (.hbmScrubRead stack flips ue) s = .next u)
  ∧ (∀ (stack pos : Nat) (flips : List Flip) (ue : Bool) (d c x : List Byte) (s u : State), stack < 12 →
    s.regN (pgHbm stack) 0x04C % 65536 ≠ 0 → (s.stack stack).st = .run → pos = s.regN (pgHbm stack) 0x068 →
    u = ((if pos = 0 then (s.setReg (pgHbm stack) 0x068 ((pos + 1) % stackUnits)).updStack stack fun x => { x with rows := [] }
      else s.setReg (pgHbm stack) 0x068 ((pos + 1) % stackUnits)).disturbHbm flips).markDie
        (if ue then [unitNum stack (64 * pos)] else []) →
    u.metUnit stack (64 * pos) flips = (d, c) → stsPoison c = false → u.dieBad stack (64 * pos) = false →
    rsDecode stack pos d c = .corrected x → u.keeperUnit (u.unitAddr stack (64 * pos)) = none →
    exec (.hbmScrubRead stack flips ue) s = .next ((u.hbmCorrected stack (64 * pos)).setUnit stack (64 * pos) x false))
  ∧ (∀ (src : Source) (stack : Nat) (cmd : DWord) (flips : List Flip) (s u v : State), stack < 12 →
    s.writeRes src (pgHbm stack) = 0 → bit (s.reg64 (pgHbm stack) 0x058) 63 = false → bit cmd.toNat 63 = true →
    bit cmd.toNat 62 = false → u = s.keepCmd stack cmd.toNat → (u.stack stack).st = .run → v = u.disturbHbm flips →
    exec (.hbmSoftRepair src stack cmd false flips) s = .next
      ((((((v.rowUnits stack (cmdAddr cmd.toNat / 64) flips).foldl (fun s k => s.refresh stack (64 * k) 4 flips) v).updStack stack
        fun x => { x with soft := Config.hbmRow (cmdAddr cmd.toNat / 64) :: x.soft, softDone := x.softDone + 1 }).setRepair stack
          1).order src (pgHbm stack) 0x05C 0).goReply src (pgHbm stack) 0x05C 0))
  ∧ (∀ (src : Source) (stack : Nat) (cmd : DWord) (s u : State), stack < 12 → s.writeRes src (pgHbm stack) = 0 →
    bit (s.reg64 (pgHbm stack) 0x058) 63 = false → bit cmd.toNat 63 = true → bit cmd.toNat 62 = true →
    u = (s.keepCmd stack cmd.toNat).storeDefect
      { type := 3, origin := 1, start := s.nv.starts % 65536, ref := stack, data := cmdAddr cmd.toNat / 64 } →
    exec (.hbmHardRepair src stack cmd false) s = .next
      ((((u.updStack stack fun x => { x with hard := x.hard ++ [cmdAddr cmd.toNat] }).setRepair stack
        (u.regN (pgHbm stack) 0x060 % 4)).order src (pgHbm stack) 0x05C 0).goReply src (pgHbm stack) 0x05C 0))
  ∧ (∀ (stack : Nat) (s : State), stack < 12 → (s.stack stack).st = .run →
    exec (.hbmStackLost stack) s = .next
      (((s.updStack stack fun x => { x with st := .out }).raise (pgHbm stack) 5 0x0906 stack 0 0 0 none).review))
  ∧ (∀ (stack temp : Nat) (s : State), s.Inv → stack < 12 → temp < 95 →
    Runs (.hbmHot stack temp) s [.hbm] fun t =>
      t.stack stack = { s.stack stack with temp := temp } ∧ ∀ k, k ≠ stack → t.stack k = s.stack k)
  ∧ (∀ (stack temp : Nat) (s : State), stack < 12 → 95 ≤ temp → (s.stack stack).temp < 95 →
    exec (.hbmHot stack temp) s = .next ((((s.updStack stack fun x =>
      { x with temp := temp % 256, reduced := x.reduced || decide (95 ≤ temp) }).flag pgThm 3)).log (pgHbm stack) 0x1405 stack
        temp 0 0))
  ∧ (∀ (stack temp : Nat) (s : State), s.Inv → stack < 12 → temp < 90 →
    Runs (.hbmFullRateReturn stack temp) s [.hbm] fun t =>
      t.stack stack = { s.stack stack with temp := temp, reduced := false } ∧ ∀ k, k ≠ stack → t.stack k = s.stack k)
  ∧ (∀ (stack pos : Nat) (flips : List Flip) (ue : Bool) (d c : List Byte) (s u : State), stack < 12 →
    s.regN (pgHbm stack) 0x04C % 65536 ≠ 0 → (s.stack stack).st = .run → pos = s.regN (pgHbm stack) 0x068 →
    u = ((if pos = 0 then (s.setReg (pgHbm stack) 0x068 ((pos + 1) % stackUnits)).updStack stack fun x => { x with rows := [] }
      else s.setReg (pgHbm stack) 0x068 ((pos + 1) % stackUnits)).disturbHbm flips).markDie
        (if ue then [unitNum stack (64 * pos)] else []) →
    u.metUnit stack (64 * pos) flips = (d, c) → stsPoison c = false → u.dieBad stack (64 * pos) = true →
    u.keeperUnit (u.unitAddr stack (64 * pos)) = none →
    exec (.hbmScrubRead stack flips ue) s = .next ((u.hbmUe stack (64 * pos) 2 2 none).setUnit stack (64 * pos) d true))

/-! ### Treath and time (chapter 11) -/

/-- A packet in order on a port that is UP is taken: its LSEQ is the last seen, its bytes are counted, its ack fields and its body
act, its receive buffer is freed (R588); one that fails its CRC is refused; one out of order is dropped (R585 to R600, R625 to R627). A LINK packet goes out on a port that is UP
(R586). -/
def Obligations.TreathPackets : Prop :=
  (∀ (port : Nat) (k : TPkt) (h : THead) (s u w : State), port < 16 → s.tUp port = true → s.noCredit port k = false →
    k.good = true → tLseq k.hdr = ((s.tport port).lack + 1) % 65536 → h = headOf k.hdr →
    u = (s.updTP port fun t => { t with lack := tLseq k.hdr, refused := (0, 0) }).addReg64 (pgTrl port) 0x080
      (16 + (tBytes (h.cls == 3) k.body).length) →
    w = (u.takeAck port (tLack k.hdr) (tNak k.hdr)).trlTake port h (maskBody h.pmask k.body) →
    exec (.treathPacketReceive port k) s = .next (if h.cls = 0 ∨ (u.tport port).rxq.length < (w.tport port).rxq.length then w
      else w.freeRx port (chanOf h.cls) (tUnits h.cls k.body)))
  ∧ (∀ (port : Nat) (k : TPkt) (s : State), port < 16 → s.tUp port = true → s.noCredit port k = false → k.good = false →
    exec (.treathPacketReceive port k) s = .next (s.refusePkt port))
  ∧ (∀ (port : Nat) (k : TPkt) (s : State), port < 16 → (s.tUp port = false ∨
      (s.noCredit port k = false ∧ k.good = true ∧ tLseq k.hdr ≠ ((s.tport port).lack + 1) % 65536)) →
    exec (.treathPacketReceive port k) s = .next s)
  ∧ (∀ (port op : Nat) (c : Instr) (q : BitVec 512) (k : TPkt) (h : THead) (s u w : State),
    (op, c) ∈ ([(1, .maintRead port k), (2, .maintWrite port k), (3, .maintResponse port k), (8, .identityQuery port k),
      (9, .neighbourQuery port k)] : List (Nat × Instr)) → port < 16 → k.body = .maint q → h = headOf k.hdr → h.cls = 6 →
    mOp q.toNat = op → s.tUp port = true → s.noCredit port k = false → k.good = true →
    tLseq k.hdr = ((s.tport port).lack + 1) % 65536 →
    u = (s.updTP port fun t => { t with lack := tLseq k.hdr, refused := (0, 0) }).addReg64 (pgTrl port) 0x080
      (16 + (tBytes false k.body).length) →
    w = (u.takeAck port (tLack k.hdr) (tNak k.hdr)).trlTake port h (maskBody h.pmask k.body) →
    exec c s = .next (if (u.tport port).rxq.length < (w.tport port).rxq.length then w
      else w.freeRx port (chanOf 6) (tUnits 6 k.body)))
  ∧ (∀ (port : Nat) (s : State), port < 16 → s.tUp port = true →
    exec (.linkKeepalive port) s = .next (s.sendLink port false))

/-- A port that is UP goes down with its cause; an owner's retrain trains the port again, the Keeper's own attempt only where it is DOWN
with attempts left in the minute (R582, R587, R632); a reference lost takes every UP port with it when the ports run from it (R702, R703). -/
def Obligations.TreathPorts : Prop :=
  (∀ (port cause : Nat) (s : State), port < 16 → (s.tport port).st = 2 →
    exec (.trlPortDown port cause) s = .next (s.portDown port cause))
  ∧ (∀ (src : Source) (port : Nat) (info : TrainInfo) (s : State), port < 16 → src ≠ .keeper → s.writeRes src (pgTrl port) = 0 →
    bit (s.regN (pgTrl port) 0x048) 31 = false →
    exec (.trlRetrain src port info) s = .next
      (((((s.setReg (pgTrl port) 0x048 (s.regN (pgTrl port) 0x048 % 2 ^ 31)).updTP port fun t =>
        { t with tries := [], fails := 0 }).retrainOne port info).order src (pgTrl port) 0x048 0).goReply src (pgTrl port) 0x048 0))
  ∧ (∀ (port : Nat) (info : TrainInfo) (s : State), port < 16 → (s.tport port).st = 3 → (s.recentTries port).length < 3 →
    (s.tport port).fails < 3 → bit (s.regN (pgTrl port) 0x048) 30 = false →
    exec (.trlRetrain .keeper port info) s = .next
      ((s.updTP port fun t => { t with tries := s.recentTries port ++ [s.dev.chrono] }).retrainOne port info))
  ∧ (∀ (ref : Nat) (s u v : State), ref < 3 → bit s.dev.refs ref = false →
    u = { s with dev := { s.dev with refs := putBits s.dev.refs ref ref 1 } } →
    v = (if u.dev.running then u.report pgClk 0 0x1301 ref 0 0 else u) →
    exec (.clkRefLost ref) s = .next (if ref = 1 then
      ((List.range 16).filter fun p => (v.tport p).st == 2).foldl (fun s p => s.portDown p 2) v else v))

/-- A TIME exchange with the parent sets the offset: the CHRONO jumps for the first large one outside a slice, else it slews, and SYNC
is held within 20 ns at most eight hops away (R605 to R607); a parent that has been silent for ten periods ends it (R608). -/
def Obligations.TimeKeeping : Prop :=
  (∀ (port : Nat) (t1 t2 t3 t4 r1 r2 : DWord) (off : Int) (s u : State), port < 16 → s.dev.running = true →
    s.timePeriod ≠ 0 → s.carriesTime port = true → s.tre.time.parent = some port → u = s.announce port →
    off = timeOffset t1 t2 t3 t4 r1 r2 → (u.tre.time.stepped = true ∨ off.natAbs ≤ 10000 ∨ u.inSlice = true) →
    ∃ t, exec (.timeExchange port t1 t2 t3 t4 r1 r2) s = .next t ∧ t.tre.time.offset = off ∧ t.tre.time.slew = off
      ∧ t.tre.time.stepped = true ∧ t.tre.time.holdover = none ∧ t.dev.chrono = u.dev.chrono
      ∧ (t.tre.time.sync = true ↔ u.tre.time.hops ≤ 8 ∧ (off.natAbs < 20 ∨ (u.tre.time.sync = true ∧ off.natAbs = 20))))
  ∧ (∀ (port : Nat) (t1 t2 t3 t4 r1 r2 : DWord) (off : Int) (s u : State), port < 16 → s.dev.running = true →
    s.timePeriod ≠ 0 → s.carriesTime port = true → s.tre.time.parent = some port → u = s.announce port →
    off = timeOffset t1 t2 t3 t4 r1 r2 → u.tre.time.stepped = false → 10000 < off.natAbs → u.inSlice = false →
    ∃ t, exec (.timeExchange port t1 t2 t3 t4 r1 r2) s = .next t ∧ t.dev.chrono = ((u.dev.chrono : Int) + off).toNat
      ∧ t.tre.time.slew = 0 ∧ t.tre.time.stepped = true)
  ∧ (∀ (p : Nat) (s u : State), s.tre.time.parent = some p → s.timePeriod ≠ 0 → s.tre.time.holdover = none →
    s.tre.time.last + 10 * s.timePeriod ≤ s.dev.chrono →
    u = { s with tre := { s.tre with time := { s.tre.time with holdover := some s.dev.chrono } } } →
    exec .timeHoldover s = .next
      (((u.report pgRte 3 0x0B04 p (wrapN 32 u.tre.time.offset) 0).updTP p fun t => { t with heard := none }).chooseParent))

/-! ### Slices (chapter 11) -/

/-- What a member does with each message of the slice protocol (R611 to R618). -/
def Obligations.SliceMessages : Prop :=
  (∀ (step : Word) (l : Nat) (recs : List ResRec) (s u : State), s.takesPart = true → u = s.hear l → u.isLead = true →
    u.slc.applied < step.toNat →
    exec (.readyMsg step l recs) s = .next
      (u.updRound step.toNat fun r => { r with ready := (r.ready.filter fun x => x.1 != l) ++ [(l, recs)] }).tryCommit)
  ∧ (∀ (step : Word) (l : Nat) (code : BitVec 16) (s u : State), s.takesPart = true → u = s.hear l → u.isLead = true →
    u.slc.applied < step.toNat → exec (.notReadyMsg step l code) s = .next (u.leadAbort step.toNat l code.toNat))
  ∧ (∀ (step : Word) (l : Nat) (body : CommitBody) (s u v : State), s.takesPart = true → u = s.heed l → u.isLead = false →
    u.slc.applied < step.toNat → v = u.applyCommit step.toNat body →
    exec (.commitMsg step l body) s = .next (({ v with
      slc := { v.slc with lastWrites := if u.deputy == some u.myLogical then u.writesOf step.toNat body else [] }
      mrd := { v.mrd with next := max v.mrd.next (step.toNat + 1) } } : State).sendSlice l (.done (w32 step.toNat) v.myLogical)))
  ∧ (∀ (step : Word) (l k : Nat) (rest : List Nat) (s v u : State), s.takesPart = true → v = s.hear l → v.isLead = false →
    u = { v with slc := { v.slc with own := [] } } → ((u.mrd.steps.map (·.num)).filter fun k => decide (step.toNat ≤ k)) = k :: rest →
    exec (.abortMsg step l) s = .next (u.abandonFrom k 0x0B01 false))
  ∧ (∀ (step : Word) (l : Nat) (r : SRound) (s u : State), s.takesPart = true → u = s.hear l → u.isLead = true →
    u.round? step.toNat = some r → r.phase = 2 →
    exec (.doneMsg step l) s = .next
      ((u.updRound step.toNat fun x => { x with done := x.done.filter (· != l) ++ [l] }).endRound step.toNat).tryCommit)
  ∧ (∀ (l : Nat) (s u v : State), s.takesPart = true → u = s.hear l → v = s.heed l →
    exec (.statusQ l) s = .next (u.sendSlice l (.statusR u.myLogical (w32 u.slc.applied)))
      ∧ exec (.beatMsg l) s = .next (v.sendSlice l (.statusR v.myLogical (w32 v.slc.applied))))
  ∧ (∀ (l : Nat) (last : Word) (s u : State), s.takesPart = true → u = s.hear l → u.slc.takeover = false →
    exec (.statusR l last) s = .next { u with slc := { u.slc with status := sput u.slc.status l last.toNat } })

/-- What a device of a slice does of itself: its share is ready or cannot be, and faults streams alone when the same event of theirs
comes again (R612, R615); the lead beats when it has nothing to commit
(R616), gives a round up at the commit time (R615) and drops a member that is silent (R617); the deputy asks the others and takes a silent lead's place
(R618); with both silent the slice loses both (R799). -/
def Obligations.SliceTimers : Prop :=
  (∀ (step : Word) (x : StepRec) (s : State), s.takesPart = true → s.slc.applied < step.toNat →
    s.slc.rounds.any (fun r => r.step == step.toNat && r.phase != 0) = false → s.isLead = false →
    s.step? step.toNat = some x → s.stepReady x = true → s.ownEvent = none →
    exec (.sliceShareReady step none) s = .next (s.sendSlice s.leadId (.ready step s.myLogical x.results)))
  ∧ (∀ (step : Word) (x : StepRec) (s : State), s.takesPart = true → s.slc.applied < step.toNat →
    s.slc.rounds.any (fun r => r.step == step.toNat && r.phase != 0) = false → s.isLead = true →
    s.step? step.toNat = some x → s.stepReady x = true →
    exec (.sliceShareReady step none) s = .next (s.updRound step.toNat fun r => if r.own.isSome then r else
      { r with own := some x.results, since := s.dev.chrono }).tryCommit)
  ∧ (∀ (step : Word) (e : ShareEvent) (past : List Forbid) (s u : State), s.takesPart = true → s.slc.applied < step.toNat →
    s.slc.rounds.any (fun r => r.step == step.toNat && r.phase != 0) = false → s.isLead = false →
    past = sget listDflt s.slc.past step.toNat → shareNarrows e past = false →
    u = { s with slc := { s.slc with own := [], past := sset listDflt s.slc.past step.toNat (past ++ [forbidOf e]) } } →
    exec (.sliceShareReady step (some e)) s = .next
      (u.sendSlice u.leadId (.notReady step u.myLogical (BitVec.ofNat 16 e.code))))
  ∧ (∀ s : State, s.takesPart = true → s.isLead = true → s.slc.rounds = [] → s.sliceTime ≠ 0 →
    s.slc.beatAt + s.sliceTime / 2 ≤ s.dev.chrono →
    exec .sliceBeatTimer s = .next
      { s.sendAll s.peersUp (.beat s.myLogical) with slc := { s.slc with beatAt := s.dev.chrono } })
  ∧ (∀ (step : Word) (r : SRound) (l : Nat) (s : State), s.takesPart = true → s.isLead = true → s.sliceTime ≠ 0 →
    s.round? step.toNat = some r → (s.peersUp.find? fun l => !(r.ready.any fun x => x.1 == l)) = some l → r.phase = 0 →
    r.body.hasStep = true → r.own.isSome = true → r.since + s.sliceTime ≤ s.dev.chrono →
    exec (.sliceCommitTimeout step) s = .next (s.leadAbort step.toNat l 0))
  ∧ (∀ (l : Nat) (s : State), s.takesPart = true → s.isLead = true → s.members.contains l = true →
    s.slc.lost.contains l = false → s.silent l = true → exec (.sliceMemberLost l) s = .next (s.loseMember l))
  ∧ (∀ s : State, s.takesPart = true → s.isLead = false → s.deputy = some s.myLogical → s.silent s.leadId = true →
    s.slc.lost.contains s.leadId = false → s.slc.takeover = true → ((s.peersUp.filter fun l => l != s.leadId).all fun l => (sfind s.slc.status l).isSome) = true →
    exec .sliceLeadChange s = .next s.takeOver)
  ∧ (∀ s : State, s.takesPart = true → s.isLead = false → s.deputy = some s.myLogical → s.silent s.leadId = true →
    s.slc.lost.contains s.leadId = false → s.slc.takeover = false → (s.peersUp.filter fun l => l != s.leadId) ≠ [] →
    exec .sliceLeadChange s = .next (({ s with slc := { s.slc with takeover := true, status := [] } } : State).sendAll
      (s.peersUp.filter fun l => l != s.leadId) (.statusQ s.myLogical)))
  ∧ (∀ (l d : Nat) (s : State), s.takesPart = true → s.isLead = false → s.members.contains l = true →
    s.slc.lost.contains l = false → s.silent l = true → s.deputy = some d → d ≠ s.myLogical → (l = d ∨ l = s.leadId) →
    s.silent d = true → s.silent s.leadId = true → s.slc.lost.contains s.leadId = false →
    exec (.sliceMemberLost l) s = .next (s.loseBoth d))
  ∧ (∀ (step : Word) (e : ShareEvent) (x : StepRec) (past : List Forbid) (s u : State), s.takesPart = true → s.slc.applied < step.toNat →
    s.slc.rounds.any (fun r => r.step == step.toNat && r.phase != 0) = false → s.isLead = false →
    past = sget listDflt s.slc.past step.toNat → shareNarrows e past = true → s.step? step.toNat = some x →
    u = { s with slc := { s.slc with own := [], past := sset listDflt s.slc.past step.toNat (past ++ [forbidOf e]) } } →
    exec (.sliceShareReady step (some e)) s = .next
      (u.sendSlice u.leadId (.ready step u.myLogical (x.results ++ e.streams.map fun n => faultRec (n, e.code)))))
  ∧ (∀ (step : Word) (e : ShareEvent) (x : StepRec) (s : State), s.takesPart = true → s.slc.applied < step.toNat →
    s.slc.rounds.any (fun r => r.step == step.toNat && r.phase != 0) = false → s.isLead = true →
    s.step? step.toNat = some x → shareNarrows e x.past.flatten = false →
    exec (.sliceShareReady step (some e)) s = .next (s.abortFor step.toNat s.myLogical e.code (forbidOf e)))

/-! ### Host function (chapters 12, 15) -/

/-- A function-level reset and a hot reset do the same: Bus Master Enable off, no masks, no pending message, BAR4 at 16 GiB, the host's
pages unowned (R647, R655). Without the link the host's writes are held, in order; enabling releases them (R656, R657). -/
def Obligations.HostFunction : Prop :=
  (∀ s : State, s.Inv → s.dev.running = true → ∃ t, exec .functionLevelReset s = .next t ∧ exec .hotReset s = .next t
      ∧ t.host.bme = false ∧ t.host.funcMask = false ∧ t.host.msixPend = [] ∧ t.host.aer = 0 ∧ t.regN pgPci 0x078 = 4
      ∧ (∀ p, (t.page p).own ≠ some .host) ∧ (∀ p v, 32759 ≤ p → p < 32767 → v < 4096 → t.reg p v = regDflt (regKey p v)))
  ∧ (∀ s : State, s.Inv → s.host.linkUp = true →
    Runs .pciLinkDown s [.host, .regs, .ev, .out] fun t =>
      t.host.linkUp = false ∧ t.hostOpen = false ∧ t.host.held = s.host.held
        ∧ t.regN pgPci 0x074 = satInc (s.regN pgPci 0x074) % 2 ^ 32 ∧ t.flagged pgPci 0 = true)
  ∧ (∀ s : State, s.host.linkUp = true →
    Runs .busMasterEnableClear s [.host] fun t => t.host = { s.host with bme := false } ∧ t.hostOpen = false)
  ∧ (∀ s : State, s.dev.running = true → s.host.linkUp = true → s.host.funcMask = false →
    (∀ o ∈ s.host.held, ∀ v, o ≠ Out.msix v) →
    Runs .hostWritesRelease s [.host, .out] fun t =>
      t.host = { s.host with bme := true, held := [] } ∧ t.out = s.out ++ s.host.held)
  ∧ (∀ (status : Word) (s : State), s.dev.running = true →
    Runs (.pciAerUncorr status) s [.host, .out, .regs, .ev] fun t => t.host = { s.host with aer := s.host.aer ||| status })
  ∧ (∀ (v : Nat) (s : State), v < 2048 →
    exec (.msixUnmask (some v)) s = .next (s.setReg (32759 + v / 256) (v % 256 * 16 + 12)
      (putBits (s.regN (32759 + v / 256) (v % 256 * 16 + 12)) 0 0 0)).msixFlush)
  ∧ (∀ s : State, s.host.msixPend = [] →
    Runs (.msixUnmask none) s [.host] fun t => t.host = { s.host with funcMask := false })

/-! ### Management port (chapters 12, 15) -/

/-- The event batch goes out with its interrupt and the queue to the BMC is emptied (R659 to R664, R667); the BMC's page accesses are answered
(R669); ENTDAA sets the I3C address (R665); the sensors are published, a pin that reads other than it is driven shows its short (R666, R898, R899). -/
def Obligations.Management : Prop :=
  (∀ s : State, s.dev.keeper = true → (s.evtOn = false ∨ (s.ev.batch = [] ∧ s.ev.overflow = 0)) →
    exec .evtBatch s = .next s.bmcDrain)
  ∧ (∀ s : State, s.dev.keeper = true → s.evtOn = true → (s.ev.batch ≠ [] ∨ s.ev.overflow ≠ 0) →
    exec .evtBatch s = .next s.evtBatch.bmcDrain)
  ∧ (∀ (page off v : Nat) (s u : State), s.dev.keeper = true → bmcMalformed page off = false → s.read4 .bmc page off = (v, u) →
    exec (.bmcPageRead page off) s = .next (u.emit (.bmcResp (bmcBody 1 0 page off v))))
  ∧ (∀ (page off r : Nat) (val : Word) (s u : State), s.dev.keeper = true → bmcMalformed page off = false →
    s.write4 .bmc page off val.toNat = (r, u) →
    exec (.bmcPageWrite page off val) s = .next (u.emit (.bmcResp (bmcBody 2 0 page off r))))
  ∧ (∀ (addr : BitVec 7) (s : State), s.dev.st ≠ .off →
    Runs (.i3cEntdaa addr) s [.mgmt] fun t => t.mgmt = { s.mgmt with i3c := some addr.toNat })
  ∧ (∀ (a b : Bool) (s : State), s.dev.st ≠ .off → s.dev.keeper = true →
    Runs (.sensorUpdate a b) s [.mgmt] fun t =>
      t.mgmt.sensors = s.sensorNow ∧ t.mgmt.sensAlert = pinQuiet s.alertLow a s.mgmt.sensAlert
        ∧ t.mgmt.sensTrip = pinQuiet s.dev.thermtrip b s.mgmt.sensTrip ∧ t.mgmt.upd = s.mgmt.upd)
  ∧ (∀ (level : Bool) (s : State), s.dev.st ≠ .off →
    (Runs (.pinShort .thermtrip level) s [.mgmt] fun t =>
      t.mgmt = { s.mgmt with sensTrip := pinState s.dev.thermtrip level s.mgmt.sensTrip })
    ∧ Runs (.pinShort .alert level) s [.mgmt] fun t =>
      t.mgmt = { s.mgmt with sensAlert := pinState s.alertLow level s.mgmt.sensAlert })

/-- The attestation of a device that has its keys: the certificate chain in portions, a signed challenge answer, the measurement blocks,
the second signature over what was signed last (R849 to R852). -/
def Obligations.Attestation : Prop :=
  (∀ (ofs len : Nat) (d : List Byte) (s : State), s.dev.keeper = true → s.nv.attests = true →
    d = ((Config.certChain 0).drop ofs).take len →
    Runs (.spdmGetCertificate 0 ofs len) s [.out] fun t => t.out = s.out ++
      [.spdm 0x02 (leBytes 2 d.length ++ leBytes 2 ((Config.certChain 0).length - (ofs + d.length)) ++ d)])
  ∧ (∀ (nonce : BitVec 256) (r x : List Byte) (s u : State), s.dev.keeper = true → s.nv.attests = true →
    s.respNonce = (r, u) → x = leBytes 32 nonce.toNat ++ hashBytes (Config.sha384 (Config.certChain 0)) ++ r →
    exec (.spdmChallenge 0 nonce) s = .next (({ u with mgmt := { u.mgmt with chal := some x } } : State).emit
      (.spdm 0x03 (hashBytes (Config.sha384 (Config.certChain 0)) ++ r ++ Config.rsaSign x))))
  ∧ (∀ (index : Nat) (nonce : BitVec 256) (s : State), s.dev.keeper = true → s.nv.attests = true → index ≤ 10 →
    Runs (.spdmGetMeasurements index false nonce) s [.out] fun t =>
      t.out = s.out ++ [.spdm 0x60 (leBytes 1 10 ++ s.measBlocks index)])
  ∧ (∀ (index : Nat) (nonce : BitVec 256) (b r x : List Byte) (s u : State), s.dev.keeper = true → s.nv.attests = true →
    index ≤ 10 → b = leBytes 1 10 ++ s.measBlocks index → s.respNonce = (r, u) → x = leBytes 32 nonce.toNat ++ r ++ b →
    exec (.spdmGetMeasurements index true nonce) s = .next (({ u with mgmt := { u.mgmt with meas := some x } } : State).emit
      (.spdm 0x60 (b ++ r ++ Config.rsaSign x))))
  ∧ (∀ (b : List Byte) (s : State), s.dev.keeper = true → s.nv.attests = true →
    (s.mgmt.chal = some b → Runs (.slhDsaSignature 0) s [.out] fun t => t.out = s.out ++ [.spdm 0x7E (Config.slhSign b)])
    ∧ (s.mgmt.meas = some b → Runs (.slhDsaSignature 1) s [.out] fun t => t.out = s.out ++ [.spdm 0x7E (Config.slhSign b)]))
  ∧ (∀ s : State, s.dev.keeper = true → s.nv.attests = true →
    Runs .slhDsaCertChain s [.out] fun t => t.out = s.out ++ [.spdm 0x7E (Config.certChain 1)])

/-- The firmware device in its states (R839): idle 0, learning 1, ready 2, downloading 3, verifying 4, applying 5; a cancelled update leaves
it idle. -/
def Obligations.FirmwareDevice : Prop :=
  (∀ s : State, s.dev.keeper = true → s.nv.update = none → s.mgmt.upd = 0 →
    Runs .requestUpdate s [.out, .mgmt] fun t =>
      t.mgmt = { s.mgmt with upd := 1, comps := [], pkg := [] } ∧ t.out = s.out ++ [.pldm 0x10 [0]])
  ∧ (∀ (comps : List Nat) (s : State), s.dev.keeper = true → s.mgmt.upd = 1 →
    Runs (.passComponentTable comps) s [.out, .mgmt] fun t =>
      t.mgmt = { s.mgmt with upd := 2, comps := comps.filter fun c => decide (1 ≤ c) && decide (c ≤ 6) })
  ∧ (∀ (comp size : Nat) (s : State), s.dev.keeper = true → s.mgmt.upd = 2 → comp ∈ s.mgmt.comps →
    Runs (.updateComponent comp size) s [.out, .mgmt] fun t => t.mgmt = { s.mgmt with upd := 3, comp, size, pkg := [] })
  ∧ (∀ (data : List Byte) (s : State), s.dev.keeper = true → s.mgmt.upd = 3 →
    s.mgmt.pkg.length + data.length ≤ s.mgmt.size →
    Runs (.requestFirmwareData s.mgmt.pkg.length data) s [.out, .mgmt] fun t =>
      t.mgmt = { s.mgmt with pkg := s.mgmt.pkg ++ data })
  ∧ (∀ s : State, s.dev.keeper = true → s.mgmt.upd = 3 → s.mgmt.pkg.length = s.mgmt.size →
    Runs (.transferComplete true) s [.out, .mgmt] fun t => t.mgmt = { s.mgmt with upd := 4 })
  ∧ (∀ s : State, s.dev.keeper = true → s.mgmt.upd = 4 → s.nv.update = none → (s.nv.checkPkg s.mgmt.pkg).code = 0 →
    leAt s.mgmt.pkg 6 1 = s.mgmt.comp →
    Runs .verifyComplete s [.out, .mgmt, .nv] fun t =>
      t.mgmt.upd = 5 ∧ t.nv.update = some { comp := leAt s.mgmt.pkg 6 1, obj := (s.nv.checkPkg s.mgmt.pkg).obj
                                            adv := pkgAdvance s.mgmt.pkg, version := leAt s.mgmt.pkg 8 4, mailbox := none })
  ∧ (∀ s : State, s.dev.keeper = true → s.mgmt.upd = 5 → s.nv.update = none →
    Runs .applyComplete s [.out, .mgmt] fun t => t.mgmt = { s.mgmt with upd := 2 })
  ∧ (∀ s : State, s.dev.keeper = true → s.mgmt.upd = 2 →
    Runs (.activateFirmware false) s [.out, .mgmt] fun t => t.mgmt = { s.mgmt with upd := 0 })
  ∧ (∀ s : State, s.dev.keeper = true →
    Runs .getStatus s [.out] fun t => t.out = s.out ++ [.pldm 0x1B [0, BitVec.ofNat 8 s.mgmt.upd]])
  ∧ (∀ s : State, s.dev.keeper = true → s.mgmt.upd ≠ 0 →
    Runs .cancelUpdate s [.out, .mgmt, .nv] fun t => t.mgmt = { s.mgmt with upd := 0, comps := [], pkg := [] }
      ∧ (t.nv.update = none ∨ ∃ f, t.nv.update = some f ∧ f.mailbox ≠ none))

/-! ### Clocks, margins, temperature, power (chapter 13) -/

/-- Targets are chosen again; a local change switches its comb or is refused by its neighbours; a synchronous change makes its falls at
its instant and its rises 2,048 ns later (R287, R698, R706, R707); a comb that fails to lock is reported and left out (R711); PWR_BRAKE lowers
every comb above the brake code and its release chooses targets again (R735, R736). -/
def Obligations.ClockChanges : Prop :=
  (∀ s : State, s.dev.running = true → s.live = true → exec .combTarget s = .next (s.retarget 0 false))
  ∧ (∀ (comb code src : Nat) (s u : State), comb < 24 → (s.comb comb).localCh = some (code, src) →
    u = s.updComb comb (fun x => { x with localCh := none }) →
    exec (.localChangeSwitch comb) s = .next (if (u.breaks [(comb, code, src)] (comb, code, src)).isEmpty
      then (u.doSwitch (comb, code, src)).settleWaiting
      else (u.refuseMove [(comb, code, src)] (comb, code, src)).settleWaiting))
  ∧ (∀ (ch : SyncChange) (s u v : State), s.clk.sync = some ch → ch.fell = false → ch.at_ ≤ s.dev.chrono →
    u = s.makeMoves (s.movesOf ch false) →
    v = u.parkAll (((s.movesOf ch false).filter fun m => (u.comb m.1).parking && (u.comb m.1).nom == m.2.1).map (·.1)) →
    exec .syncFallSwitch s = .next (if (s.movesOf ch true).isEmpty then v.syncDone ch
      else { v with clk := { v.clk with sync := some { ch with fell := true, moves := s.movesOf ch true } } }))
  ∧ (∀ (ch : SyncChange) (s : State), s.clk.sync = some ch → ch.fell = true → ch.at_ + 2048 ≤ s.dev.chrono →
    exec .syncRiseSwitch s = .next ((s.makeMoves (s.movesOf ch true)).syncDone ch))
  ∧ (∀ (comb code src : Nat) (s u : State), comb < 24 → (s.comb comb).localCh = some (code, src) →
    u = s.updComb comb (fun x => { x with localCh := none }) →
    exec (.clkLockFail comb) s = .next
      (((u.changeResult comb 2).flag (pgCmb comb) 1).report pgClk 1 0x1302 comb (1 - (s.comb comb).adpll) code).settleWaiting)
  ∧ (∀ (comb : Nat) (ch : SyncChange) (m : Nat × Nat × Nat) (s : State), comb < 24 → (s.comb comb).localCh = none →
    s.clk.sync = some ch → (ch.moves.find? fun m => m.1 == comb) = some m → ch.failed.contains comb = false →
    exec (.clkLockFail comb) s = .next
      (((({ s with clk := { s.clk with sync := some { ch with failed := ch.failed ++ [comb] } } } : State).changeResult comb 2).flag
        (pgCmb comb) 1).report pgClk 1 0x1302 comb (1 - (s.comb comb).adpll) m.2.1))
  ∧ (∀ s : State, s.dev.running = true →
    exec .pwrBrake s = .next (({ s with dev := { s.dev with brakeIn := true } } : State).brakeOn))
  ∧ (∀ s : State, s.clk.brake = true → s.dev.keeper = true →
    exec .brakeRelease s = .next (({ s with dev := { s.dev with brakeIn := false }, clk := { s.clk with brake := false } } :
      State).retarget 5 true))

/-- A margin at or below the warning starts a stretch, all above it end it and add what was skipped (R716, R717); the GNOMON loop lends a
stretched comb voltage, else frequency, and takes it back after 10,000 calm passes (R718). -/
def Obligations.Margins : Prop :=
  (∀ (comb : Nat) (codes : List Nat) (s : State), s.Inv → comb < 24 → s.combOff comb = false → (∃ x ∈ codes, x ≤ s.warn comb) →
    Runs (.stretchStart comb codes) s [.regs, .combs] fun t =>
      t.comb comb = { s.comb comb with stretching := true } ∧ ∀ k, k ≠ comb → t.comb k = s.comb k)
  ∧ (∀ (comb skipped : Nat) (codes : List Nat) (s : State), s.Inv → comb < 24 → (s.comb comb).stretching = true →
    (∀ x ∈ codes, s.warn comb < x) →
    Runs (.stretchEnd comb codes skipped) s [.regs, .combs] fun t =>
      t.comb comb = { s.comb comb with stretching := false }
        ∧ t.regN (pgCmb comb) 0x060 = satAdd 0xFFFFFFFF (s.regN (pgCmb comb) 0x060) skipped ∧ ∀ k, k ≠ comb → t.comb k = s.comb k)
  ∧ (∀ (comb m w : Nat) (stretched : Bool) (s : State), comb < 24 → s.combOff comb = false → s.minded comb = true →
    ∃ t, exec (.gnomonLoop comb stretched m w) s = .next t
      ∧ ∀ f, f ∉ commandParts (.gnomonLoop comb stretched m w) → f.same s t)
  ∧ (∀ (comb : Nat) (codes : List Nat) (x : Nat) (s : State), comb < 24 → s.combOff comb = false → x ∈ codes → x ≤ s.warn comb →
    exec (.stretchStart comb codes) s = .next
      ((s.setMargins comb codes).updComb comb fun x => { x with stretching := true }))
  ∧ (∀ (comb skipped : Nat) (codes : List Nat) (s u : State), comb < 24 → (s.comb comb).stretching = true →
    (∀ x ∈ codes, s.warn comb < x) →
    u = (s.setMargins comb codes).updComb comb (fun x => { x with stretching := false }) →
    exec (.stretchEnd comb codes skipped) s = .next
      (u.setReg (pgCmb comb) 0x060 (satAdd 0xFFFFFFFF (u.regN (pgCmb comb) 0x060) skipped)))
  ∧ (∀ (comb m w : Nat) (s u : State), comb < 24 → s.combOff comb = false → s.minded comb = true →
    u = (s.minderActs (comb / 4)).updComb comb (fun x => { x with marginMin := m % 64 }) →
    (u.comb comb).vtrim < 12 → w < 125 →
    exec (.gnomonLoop comb true m w) s = .next (((u.updComb comb fun x => { x with calm := 0 }).updComb comb fun x =>
      { x with vtrim := x.vtrim + 1 }).shortfallCheck comb))
  ∧ (∀ (comb m w : Nat) (s u : State), comb < 24 → s.combOff comb = false → s.minded comb = true →
    u = (s.minderActs (comb / 4)).updComb comb (fun x => { x with marginMin := m % 64 }) → m < u.relax comb →
    exec (.gnomonLoop comb false m w) s = .next ((u.updComb comb fun x => { x with calm := 0 }).shortfallCheck comb))
  ∧ (∀ (comb m w : Nat) (s u : State), comb < 24 → s.combOff comb = false → s.minded comb = true →
    u = (s.minderActs (comb / 4)).updComb comb (fun x => { x with marginMin := m % 64 }) → u.relax comb ≤ m →
    (u.comb comb).calm + 1 ≠ 10000 →
    exec (.gnomonLoop comb false m w) s = .next
      ((u.updComb comb fun x => { x with calm := x.calm + 1, shortfall := 0 }).shortfallCheck comb))
  ∧ (∀ (comb m w : Nat) (s u v : State), comb < 24 → s.combOff comb = false → s.minded comb = true →
    u = (s.minderActs (comb / 4)).updComb comb (fun x => { x with marginMin := m % 64 }) →
    (12 ≤ (u.comb comb).vtrim ∨ 125 ≤ w) → v = u.updComb comb (fun x => { x with calm := 0 }) →
    exec (.gnomonLoop comb true m w) s = .next ((if v.steady = false ∧ 33 < (u.comb comb).gnomN then
      v.gnomRequest comb ((u.comb comb).nom - 1) else v.updComb comb fun x => { x with shortfall := x.shortfall + 10 }).shortfallCheck
        comb))
  ∧ (∀ (comb m w : Nat) (s u v : State), comb < 24 → s.combOff comb = false → s.minded comb = true →
    u = (s.minderActs (comb / 4)).updComb comb (fun x => { x with marginMin := m % 64 }) → u.relax comb ≤ m →
    (u.comb comb).calm + 1 = 10000 → v = u.updComb comb (fun x => { x with calm := 0, shortfall := 0 }) →
    exec (.gnomonLoop comb false m w) s = .next ((if 0 < (u.comb comb).vtrim then
      v.updComb comb fun x => { x with vtrim := x.vtrim - 1 } else if (u.comb comb).gnomN < 144 then
      v.gnomRequest comb ((u.comb comb).gnomN + 1) else v).shortfallCheck comb))

/-- Two readings at 105 degrees park a comb (R742); the thermal loop lowers each hot comb and chooses targets (R740); a trip turns
every comb off, drives THERMTRIP_N and fails the device (R744); an isolated comb is lost with its steps blamed and its work moved
(R727, R728, R792 to R794); a sense wire that opens is reported once (R729). -/
def Obligations.Thermal : Prop :=
  (∀ (comb : Nat) (sensors : List Nat) (s u v : State), comb < 24 → s.combOff comb = false → s.minded comb = true →
    u = s.setSensors comb sensors → 105 ≤ (u.comb comb).temp → 1 ≤ (u.comb comb).hot → s.Inv →
    v = u.updComb comb (fun x => { x with hot := x.hot + 1, cool := 0 }) →
    (v.parkComb comb 1).mayUnpark comb = false →
    exec (.tempSample comb sensors) s = .next (v.parkComb comb 1))
  ∧ (∀ (frame : Nat) (s u : State), frame < 6 → bit s.dev.minderLost frame = false → u = s.minderActs frame →
    exec (.thermalLoop frame) s = .next
      (((((List.range 4).map fun i => 4 * frame + i).filter fun c => !u.combOff c && !u.combParked c).foldl
        State.throttleComb u).leaveThrottle.retarget 2 false))
  ∧ (∀ (comb sensor temp : Nat) (s u : State), comb < 24 → sensor < 16 → 115 ≤ temp → s.dev.tripLatched = false →
    u = { s with dev := { s.dev with thermtrip := true, tripLatched := true, tripNew := true,
                                     tripLast := w32 (2 ^ 31 + comb * 2 ^ 24 + sensor * 2 ^ 20 + temp % 256) } } →
    exec (.thermalTrip comb sensor temp) s = .next (((List.range 24).foldl State.combLost u).failWith 3))
  ∧ (∀ (comb : Nat) (undervolt : Bool) (s a b c d : State), comb < 24 → s.combOff comb = false →
    a = ((s.flag (pgCmb comb) 0).flag pgPwr 2).setReg pgPwr 0x040
      (putBits (s.regN pgPwr 0x040) comb comb 1) →
    b = ((a.log (pgCmb comb) 0x0701 comb (b2n undervolt) 0 s.oldest).abandonAll
      { page := pgCmb comb, code := 0x0701, a0 := comb, a1 := b2n undervolt, a2 := 0, det := comb }).combLost comb →
    c = (((List.range 64).foldl (fun s n => s.replaceComb comb n) b).distWrite.queueSwitch true).switchWithout →
    d = (List.range ((logicals .m).filter fun l => s.mInService comb l).length).foldl (fun s _ => s.licenceReturn comb) c →
    exec (.combIsolated comb undervolt) s = .next
      (d.attachAll (((List.range 120).map (mkSite comb)).filter fun k => !s.die.holes.contains k)).review)
  ∧ (∀ (comb : Nat) (opened : Bool) (s : State), s.Inv → comb < 24 → s.combOff comb = false → (s.comb comb).sense = false →
    Runs (.senseFallback comb opened) s [.combs, .regs, .ev, .out] fun t =>
      (t.comb comb).sense = true ∧ t.flagged (pgCmb comb) 5 = true ∧ (∀ k, k ≠ comb → t.comb k = s.comb k))

/-- A power interval publishes the domains' currents, the combs' voltages and the input power, then the Ledger shares the energy and the cap
loop acts (R730 to R733, R737); LEDGER_CLEAR by a source that may write clears the Ledger (R739, R764). -/
def Obligations.Power : Prop :=
  (∀ (r : PowerReading) (p : Nat) (s a b c d : State), s.dev.running = true → s.dev.chrono % 1000000 = 0 →
    (s.page pgPwr).pending = false → (s.page pgLdg).pending = false →
    a = (List.range 56).foldl (fun s n => s.setReg pgPwr (0x100 + 4 * n) (nth 0 r.cur n)) s →
    b = (List.range 24).foldl (fun s c => s.updComb c fun x => { x with
      vmeas := nth 0 r.combMv c, railW := nth 0 r.combMv c * nth 0 r.cur c / 100000 }) a →
    c = ((b.setReg pgPwr 0x05C (r.vCore % 2 ^ 16 * 2 ^ 16 + r.vAux % 2 ^ 16)).setReg pgPwr 0x060 (r.vStby % 2 ^ 16)).vinRange
      r.vCore r.vAux → p = inputNj r / 1000000 →
    d = (c.setReg pgPwr 0x050 (p % 2 ^ 16)).setReg pgPwr 0x054
      (2 ^ 32 + c.capW - p % 2 ^ 32) →
    exec (.powerInterval r) s = .next (((d.wrapReg pgPwr 0x058).ledgerInterval r).capLoop p))
  ∧ (∀ (src : Source) (s : State), s.writeRes src pgLdg = 0 →
    exec (.ledgerClear src) s = .next ((s.clearLedger.order src pgLdg 0x04C 0).goReply src pgLdg 0x04C 0) ∧ s.clearLedger.ldg.device = 0
      ∧ s.clearLedger.ldg.job = [])

/-! ### Faults, recovery, start and test (chapters 14, 15, 17) -/

/-- A minder that restarts twice in a day is lost, its combs parked (R767, R768); the Keeper's watchdog fails the device (R769). -/
def Obligations.Minders : Prop :=
  (∀ (frame : Nat) (s u v : State), frame < 6 → s.live = true → s.dev.keeper = true → bit s.dev.minderLost frame = false →
    u = ((frameCombs frame).foldl (fun s c => s.updComb c fun x => { x with thermN := s.brakeN }) s).retarget 2 true →
    v = { u with dev := { u.dev with minderRestarts := (frame, u.dev.chrono) :: u.dev.minderRestarts,
                                     minderDown := putBits u.dev.minderDown frame frame 1 } } →
    exec (.minderRestart frame) s = .next (if 2 ≤ v.restarts frame then
      (v.log (pgFrm frame) 0x0801 frame (v.restarts frame) 0 0).loseMinder frame
      else v.log (pgFrm frame) 0x0801 frame (v.restarts frame) 0 0))
  ∧ (∀ (frame : Nat) (s : State), frame < 6 → s.live = true → s.dev.keeper = true → bit s.dev.minderLost frame = false →
    bit s.dev.minderDown frame = true → exec (.minderLost frame) s = .next (s.loseMinder frame))
  ∧ (∀ s : State, s.dev.running = true → s.dev.keeper = true →
    exec .keeperWatchdog s = .next
      (({ s with dev := { s.dev with keeper := false, wdog := some s.dev.chrono } } : State).brakeOn.failWith 4))

/-- The Keeper's care of its units (R782 to R785, R828, R830, R859): a fence takes a tile out of service; a known-answer run returns it or strikes
it; a unit is reinstated by a remap of its own comb; a router that answers no probe is lost; the field test rotates a free spare in. -/
def Obligations.TileCare : Prop :=
  (∀ (site : Nat) (s : State), site < 2880 → s.live = true → s.dev.keeper = true → s.inRun site = true →
    exec (.keeperFenceOrder site) s = .next (s.leaveRun site .fenced).review)
  ∧ (∀ (site : Nat) (s : State), site < 2880 → s.live = true → s.dev.keeper = true → (s.tile site).st = .quarantine →
    (s.tile site).rotating = false → s.die.reinst = [] → s.die.standIns = [] →
    exec (.karComplete site true) s = .next (s.returnUnit site)
      ∧ exec (.karComplete site false) s = .next (s.karFailed site).review)
  ∧ (∀ (site l : Nat) (s u : State), site < 2880 → s.die.reinst.find? (fun x => x.1 == site) = some (site, l) →
    s.dev.keeper = true → s.die.reinstStaged = [] → (s.page (pgDfm (siteComb site))).pending = false →
    s.shadowBusy = false → s.die.standIns = [] → u = s.stageRemap (siteComb site) l (remapFor site) → u.switchQueued = true →
    exec (.reinstateStage site) s = .next
      { u with die := { u.die with reinstStaged := u.die.reinstStaged ++ [(site, l)] } })
  ∧ (∀ (site : Nat) (s : State), site < 2880 → s.live = true → s.dev.keeper = true → s.physHole site = false →
    s.suspectRouter site = true →
    exec (.routerProbeTimeout site) s = .next
      (((s.appendDefect (.router site) (unitRef 4 (siteComb site) (siteIdx site)) (pgRouter site)).routerLost site).queueSwitch
        true))
  ∧ (∀ (sites : List Nat) (s : State), (sites.all fieldKind) = true → s.live = true → s.dev.keeper = true →
    s.fieldOn = true → s.rotating = [] → (sites.map siteComb).Nodup →
    exec (.fieldRotation sites) s = .next (sites.foldl State.rotateOne s))
  ∧ (∀ (site : Nat) (s u : State), fieldKind site = true → s.live = true → s.dev.keeper = true →
    (s.tile site).st = .quarantine → (s.tile site).rotating = true →
    u = (s.updTile site fun t => { t with rotating := false }).incReg pgBst 0x054 →
    exec (.fieldTestDone site true) s = .next (u.returnUnit site)
      ∧ exec (.fieldTestDone site false) s = .next
        (((((u.flag pgBst 1).setReg pgBst 0x05C (tileRef site)).log (pgKpr 0) 0x1703 (tileRef site) 0 0 0).strikeTile site
          0x1703).review))
  ∧ (∀ (ctl : Word) (site : Nat) (s : State), s.writeRes .keeper pgBst = 0 → scanSite ctl.toNat = some site →
    bit ctl.toNat 31 = true → ((s.tile site).st = .benched ∨ (s.tile site).st = .quarantine) →
    exec (.scanEnable .keeper ctl) s = .next
      ((((s.zeroise site).setReg pgBst 0x060 (2 ^ 31 + ctl.toNat % 2 ^ 24)).log site 0x1704 (tileRef site) 1 0 0).order .keeper
        pgBst 0x060 0))

/-- The supplies, the resets and the start (R744, R795, R807, R808, R816, R884, R885): STBY in range is STANDBY; losing it, PERST_N, RESET_N and an input
out of range leave only what the flash, the fuses and the pins hold; a wire and a defect once appended stay; a start boots, tests and
trains the ports, and ends where its boot or its test fails. -/
def Obligations.Supplies : Prop :=
  (∀ s : State, s.dev.st = .off →
    Runs .standbyInRange s [.dev] fun t => t.dev = { s.dev with st := .standby, bootLog := [(0, 1)] })
  ∧ (∀ s : State, s.dev.st ≠ .off → ∃ t, exec .standbyLost s = .next t ∧ t.dev.st = .off ∧ t.pending = s.pending
      ∧ t.regs = [] ∧ t.nv = { s.nv with update := none, dwait := [], cut := none } ∧ t.mem = State.reset.mem)
  ∧ (∀ s : State, s.dev.st ≠ .off → s.dev.tripLatched = false → ∃ t, exec .perstAssert s = .next t ∧ t.dev.st = .standby
      ∧ t.dev.perst = true ∧ t.pending = s.pending ∧ t.regs = [] ∧ t.nv = { s.nv with update := none, dwait := [] })
  ∧ (∀ s : State, s.dev.st ≠ .off → ∃ t, exec .resetAssert s = .next t ∧ t.dev.st = .standby ∧ t.dev.resetN = true
      ∧ t.dev.tripLatched = false ∧ t.pending = s.pending ∧ t.regs = [] ∧ t.nv = { s.nv with update := none, dwait := [] })
  ∧ (∀ (vCore vAux : Nat) (s : State), s.dev.running = true → cutRange vCore vAux = true → s.dev.tripLatched = false →
    ∃ t, exec (.inputRangeCut vCore vAux) s = .next t ∧ t.dev.st = .standby ∧ t.dev.inRange = false ∧ t.regs = []
      ∧ t.nv = { s.nv with update := none, dwait := [], cut := some (vCore, vAux) })
  ∧ (∀ s : State, s.nv.update = none → s.dev.keeper = true →
    Runs .defectAppendFlush s [.nv] fun t => t.nv = { s.nv with dlist := s.nv.dlist ++ s.nv.dwait, dwait := [] })
  ∧ (∀ (bridge wire : Nat) (s : State), bridge < 156 → wire < 544 → (bridge, wire) ∉ s.nv.badWires →
    Runs (.seamWireFail bridge wire) s [.nv] fun t => t.nv = { s.nv with badWires := s.nv.badWires ++ [(bridge, wire)] })
  ∧ (∀ (env : StartEnv) (s : State) (a : Boot), s.dev.st = .standby → s.dev.tripLatched = false → s.boot env = a →
    a.s.dev.st = .failed → exec (.startInstant env) s = .next a.s)
  ∧ (∀ (env : StartEnv) (s : State) (a : Boot), s.dev.st = .standby → s.dev.tripLatched = false → s.boot env = a →
    a.s.dev.st ≠ .failed → exec (.startInstant env) s = .next (if (a.s.test env).dev.st = .failed then a.s.test env
      else (a.s.test env).trainAll env a.banks a.s.nv.dlist.length))

/-- Before the device serves, and in STANDBY, every page is locked: a write, a commit, a claim and a release of a source other than the
Keeper change no register, no staged copy and no owner (R675). That this holds before READY too is the model's reading (log 12). -/
def Obligations.LockedPages : Prop :=
  ∀ (src : Source) (p q off : Nat) (r : RegRow) (v : DWord) (check : Bool) (seq : BitVec 16) (s : State), s.Inv → src ≠ .keeper →
    s.lock = true → p < 32759 → s.orderPage p = some q → 0x040 ≤ off → off < 0x800 → off % 4 = 0 → regRow q off = some r →
    r.acc = .rw → r.wide = false → pageClass q ≠ .trl → pageClass q ≠ .kpr → pageClass q ≠ .bst →
    (Runs (.registerWrite src p off 4 v false) s [.pages, .ev, .out] fun t => ∀ x, (t.page x).own = (s.page x).own)
    ∧ (Runs (.pageCommit src p check seq) s [.pages, .ev, .out] fun t => ∀ x, (t.page x).own = (s.page x).own)
    ∧ (Runs (.pageClaim src p) s [.pages, .ev, .out] fun t => ∀ x, (t.page x).own = (s.page x).own)
    ∧ (Runs (.pageRelease src p) s [.pages, .ev, .out] fun t => ∀ x, (t.page x).own = (s.page x).own)

end
end

