-- ==== Sys2Proof/WellFormed.lean ====
section
/-! DEFINITION. Well-formed commands: each operand names a unit that the device has and fits the width of its field. A command
outside these bounds stands for nothing that can reach the module; `exec` faults on a unit that does not exist. -/

namespace Sys2Proof

/-- A tile site (R2, R865). -/
def siteOk (s : Nat) : Bool := decide (s < 2880)

/-- A page and an offset of BAR0 (R864). -/
def pageOk (p : Nat) : Bool := decide (p < 32768)
def offOk (o : Nat) : Bool := decide (o < 4096)

/-- A mesh packet has a head flit and no more body flits than LEN can count (R228, R242). -/
def pktOk (p : MeshPkt) : Bool := decide (1 ≤ p.flits.length) && decide (p.flits.length ≤ 13)

/-- A comb, a stack, a Treath port, a frame, a mailbox, a stream, a logical device (R2, R15, R421, R593, R639, R853). -/
def combOk (c : Nat) : Bool := decide (c < 24)
def stackOk (h : Nat) : Bool := decide (h < 12)
def portOk (p : Nat) : Bool := decide (p < 16)
def frameOk (f : Nat) : Bool := decide (f < 6)
def mailboxOk (m : Nat) : Bool := decide (m < 4)
def streamOk (s : Nat) : Bool := decide (s < 2097152)
def logicalOk (l : Nat) : Bool := decide (l < 256)

/-- A margin code, a temperature and a millivolt reading as the sensors give them (R715, R731, R740). -/
def codesOk (l : List Nat) : Bool := l.length == 16 && l.all fun x => decide (x < 64)
def tempsOk (l : List Nat) : Bool := l.length == 16 && l.all fun x => decide (x < 256)

/-- A power reading covers the 56 domains and the 24 combs (R730). -/
def PowerReading.ok (r : PowerReading) : Bool :=
  r.cur.length == 56 && r.combMv.length == 24 && r.edges.length == 24 && r.occ.all fun x => decide (x.1 < 24)

/-- The findings of a start name units of the device (R2, R18, R811). -/
def StartEnv.ok (e : StartEnv) : Bool :=
  (e.bootFail.all fun x => decide (x.1 ≤ 6) && decide (x.2.1 ≤ 1) && decide (1 ≤ x.2.2) && decide (x.2.2 ≤ 6))
    && e.bistFail.all siteOk && e.karFail.all siteOk && e.routerFail.all siteOk
    && (e.seamFail.all fun x => decide (x.1 < 156) && decide (x.2 < 544))
    && (e.fmax.all fun x => siteOk x.1 && decide (x.2 ≤ 144))
    && e.hbmFail.all stackOk && (e.hbmLanes.all fun x => stackOk x.1) && e.ports.length == 16

/-- A command is well formed. -/
def Instr.wf : Instr → Bool
  | .registerWrite _ page off width _ _ => pageOk page && offOk off && (width == 4 || width == 8) && off % width == 0
  | .rcRead _ page off => pageOk page && offOk off && off % 4 == 0
  | .latchedRead _ page off => pageOk page && offOk off && off % 4 == 0
  | .pageCommit _ page _ _ => pageOk page
  | .pageDiscard _ page => pageOk page
  | .pageClaim _ page => pageOk page
  | .pageRelease _ page => pageOk page
  | .pass site _ _ _ _ => siteOk site
  | .groupEmit site _ _ => siteOk site
  | .weightPacketIntake site pkt _ => siteOk site && pktOk pkt
  | .load site _ _ => siteOk site
  | .planeLoadStart site _ => siteOk site
  | .planeLoadDone site _ => siteOk site
  | .wfill site _ _ _ => siteOk site
  | .opsDmaWrite site row data _ => siteOk site && decide (row < 1536) && data.data.length == 128
  | .sfn site w0 _ op _ => siteOk site && Machine.bits w0.toNat 55 48 == Machine.sopCode op
      && decide (Machine.bits w0.toNat 47 31 ≤ 65536)
  | .shadowCompare site _ => siteOk site
  | .arbiterVerdict site _ => siteOk site
  | .shadowStall site => siteOk site
  | .steerWordArrive site _ _ _ _ => siteOk site
  | .wagDataArrive site pkt _ => siteOk site && pktOk pkt
  | .steerOrphan site input _ => siteOk site && decide (input < 16)
  | .flitReceive site port _ _ => siteOk site && decide (port < 6)
  | .linkSilence site port => siteOk site && decide (port < 6)
  | .combineWindowExpire site _ _ => siteOk site
  | .sinkChunkReceive site pkt => siteOk site && pktOk pkt
  | .sealFlow site _ _ => siteOk site
  | .deadlockSuspect comb => combOk comb
  | .scheduledRead site port row _ _ _ => siteOk site && decide (port < 5) && decide (row < 16384)
  | .scheduledWrite site port row words _ => siteOk site && decide (port < 5) && decide (row < 16384) && (words.length == 16 || words.length == 32)
  | .bRead site _ _ _ _ => siteOk site
  | .bWrite site pkt _ => siteOk site && pktOk pkt
  | .partnerRead site port _ _ _ _ => siteOk site && decide (port < 4)
  | .partnerWrite site port pkt _ => siteOk site && decide (port < 4) && pktOk pkt
  | .areadRowPresent site _ _ => siteOk site
  | .holdAdmit site _ => siteOk site
  | .dmaWindowTimeout site _ => siteOk site
  | .bScrubRead site _ _ => siteOk site
  | .bScrubWriteback site _ => siteOk site
  | .win site _ _ => siteOk site
  | .fill site _ _ _ => siteOk site
  | .spill site _ _ _ => siteOk site
  | .send site _ _ _ => siteOk site
  | .wait site _ => siteOk site
  | .waitRelease site => siteOk site
  | .nop site => siteOk site
  | .endCode site => siteOk site
  | .fillDone site ctr _ => siteOk site && decide (ctr < 8)
  | .writeAckReceive site _ _ => siteOk site
  | .instanceComplete site _ => siteOk site
  | .templateRelease _ tmpl => decide (tmpl < 65536)
  | .forage site => siteOk site
  | .gangStart comb _ => combOk comb
  | .launch => true
  | .switchRecord => true
  | .switchShadowLoad => true
  | .combEpochSwitch comb _ => combOk comb
  | .epochDrainTimeout comb _ => combOk comb
  | .imageInstall _ mb => mailboxOk mb
  | .imageRemove _ mb => mailboxOk mb
  | .imageQuery _ mb => mailboxOk mb
  | .treathRetrain _ mb ports => mailboxOk mb && ports.length == 16
  | .policySet _ mb => mailboxOk mb
  | .fwUpdate _ mb => mailboxOk mb
  | .fwUpdateDone => true
  | .floorCommit _ mb => mailboxOk mb
  | .licenceInstall _ mb => mailboxOk mb
  | .ownerKeySet _ mb => mailboxOk mb
  | .lcsRequest _ mb => mailboxOk mb
  | .intakeWrite off data _ => decide (off + data.length ≤ 2 ^ 28)
  | .intakePartial stream => streamOk stream
  | .appendFetchDone stream _ => streamOk stream
  | .openRec stream => streamOk stream
  | .appendRec stream => streamOk stream
  | .generateRec stream => streamOk stream
  | .pauseRec stream => streamOk stream
  | .resumeRec stream => streamOk stream
  | .forkRec stream => streamOk stream
  | .closeRec stream => streamOk stream
  | .queryRec stream => streamOk stream
  | .stepCommit => true
  | .decisionTick => true
  | .stepRecord => true
  | .lqTailWrite _ _ => true
  | .stepReissue => true
  | .almanacSlotClose => true
  | .hbmRead stack _ _ _ _ => stackOk stack
  | .hbmWrite stack pkt _ => stackOk stack && pktOk pkt
  | .hbmScrubRead stack _ _ => stackOk stack
  | .hbmSoftRepair _ stack _ _ _ => stackOk stack
  | .hbmHardRepair _ stack _ _ => stackOk stack
  | .hbmStackLost stack => stackOk stack
  | .hbmHot stack temp => stackOk stack && decide (temp < 256)
  | .bar4Read _ len => decide (len ≤ 4096)
  | .bar4Write _ data _ => decide (data.length ≤ 4096)
  | .bar4Resize n => decide (n < 64)
  | .treathPacketReceive port _ => portOk port
  | .linkKeepalive port => portOk port
  | .trlPortDown port cause => portOk port && decide (1 ≤ cause) && decide (cause ≤ 3)
  | .trlRetrain _ port _ => portOk port
  | .timeExchange port _ _ _ _ _ _ => portOk port
  | .timeHoldover => true
  | .sliceShareReady _ _ => true
  | .readyMsg _ sender _ => logicalOk sender
  | .notReadyMsg _ sender _ => logicalOk sender
  | .commitMsg _ sender _ => logicalOk sender
  | .abortMsg _ sender => logicalOk sender
  | .doneMsg _ sender => logicalOk sender
  | .statusQ sender => logicalOk sender
  | .statusR sender _ => logicalOk sender
  | .beatMsg sender => logicalOk sender
  | .sliceBeatTimer => true
  | .sliceCommitTimeout _ => true
  | .sliceMemberLost l => logicalOk l
  | .sliceLeadChange => true
  | .maintRead port _ => portOk port
  | .maintWrite port _ => portOk port
  | .maintResponse port _ => portOk port
  | .identityQuery port _ => portOk port
  | .neighbourQuery port _ => portOk port
  | .functionLevelReset => true
  | .hotReset => true
  | .pciLinkDown => true
  | .hostWritesRelease => true
  | .pciAerUncorr _ => true
  | .msixUnmask v => v.all fun n => decide (n < 2048)
  | .evtBatch => true
  | .bmcPageRead page off => decide (page < 65536) && decide (off < 65536)
  | .bmcPageWrite page off _ => decide (page < 65536) && decide (off < 65536)
  | .i3cEntdaa _ => true
  | .sensorUpdate _ _ => true
  | .spdmGetCertificate slot _ _ => decide (slot < 8)
  | .spdmChallenge slot _ => decide (slot < 8)
  | .spdmGetMeasurements i _ _ => decide (i < 256)
  | .slhDsaSignature sel => decide (sel < 256)
  | .slhDsaCertChain => true
  | .requestUpdate => true
  | .passComponentTable _ => true
  | .updateComponent _ size => decide (size < 2 ^ 32)
  | .requestFirmwareData ofs _ => decide (ofs < 2 ^ 32)
  | .transferComplete _ => true
  | .verifyComplete => true
  | .applyComplete => true
  | .activateFirmware _ => true
  | .getStatus => true
  | .cancelUpdate => true
  | .combTarget => true
  | .localChangeSwitch comb => combOk comb
  | .syncFallSwitch => true
  | .syncRiseSwitch => true
  | .clkLockFail comb => combOk comb
  | .clkRefLost ref => decide (ref < 3)
  | .stretchStart comb codes => combOk comb && codesOk codes
  | .stretchEnd comb codes _ => combOk comb && codesOk codes
  | .gnomonLoop comb _ m _ => combOk comb && decide (m < 64)
  | .tempSample comb sensors => combOk comb && tempsOk sensors
  | .thermalLoop frame => frameOk frame
  | .thermalTrip comb sensor temp => combOk comb && decide (sensor < 16) && decide (temp < 256)
  | .combIsolated comb _ => combOk comb
  | .senseFallback comb _ => combOk comb
  | .powerInterval r => r.ok
  | .pwrBrake => true
  | .brakeRelease => true
  | .ledgerClear _ => true
  | .minderRestart frame => frameOk frame
  | .minderLost frame => frameOk frame
  | .keeperWatchdog => true
  | .keeperFenceOrder site => siteOk site
  | .karComplete site _ => siteOk site
  | .reinstateStage site => siteOk site
  | .routerProbeTimeout site => siteOk site
  | .standbyInRange => true
  | .standbyLost => true
  | .startInstant env => env.ok
  | .perstAssert => true
  | .resetAssert => true
  | .fieldRotation sites => sites.all siteOk
  | .fieldTestDone site _ => siteOk site
  | .scanEnable _ _ => true
  | .defectAppendFlush => true
  | .inputRangeCut _ _ => true
  | .pinShort _ _ => true
  | .seamWireFail b w => decide (b < 156) && decide (w < 544)
  | .busMasterEnableClear => true
  | .hostReadCompletionTimeout stream => streamOk stream
  | .hbmFullRateReturn stack temp => stackOk stack && decide (temp < 256)

end Sys2Proof
end

