-- ==== Sys2Proof/Laws/PerInstr.lean ====
section
/-! SUPPORT. The family `Units`: a well-formed command names only units that the device has, and pages, streams and logical devices
within their ranges. One lemma for each command. -/

namespace Sys2Proof.Laws

set_option Elab.async false

/-- The units that a command names, each with the bound of its kind. -/
def Units.named : Instr → List (Nat × Nat)
  | .registerWrite _ page _ _ _ _ => [(page, 32768)]
  | .rcRead _ page _ => [(page, 32768)]
  | .latchedRead _ page _ => [(page, 32768)]
  | .pageCommit _ page _ _ => [(page, 32768)]
  | .pageDiscard _ page => [(page, 32768)]
  | .pageClaim _ page => [(page, 32768)]
  | .pageRelease _ page => [(page, 32768)]
  | .pass site _ _ _ _ => [(site, 2880)]
  | .groupEmit site _ _ => [(site, 2880)]
  | .weightPacketIntake site _ _ => [(site, 2880)]
  | .load site _ _ => [(site, 2880)]
  | .planeLoadStart site _ => [(site, 2880)]
  | .planeLoadDone site _ => [(site, 2880)]
  | .wfill site _ _ _ => [(site, 2880)]
  | .opsDmaWrite site _ _ _ => [(site, 2880)]
  | .sfn site _ _ _ _ => [(site, 2880)]
  | .shadowCompare site _ => [(site, 2880)]
  | .arbiterVerdict site _ => [(site, 2880)]
  | .shadowStall site => [(site, 2880)]
  | .steerWordArrive site _ _ _ _ => [(site, 2880)]
  | .wagDataArrive site _ _ => [(site, 2880)]
  | .steerOrphan site _ _ => [(site, 2880)]
  | .flitReceive site _ _ _ => [(site, 2880)]
  | .linkSilence site _ => [(site, 2880)]
  | .combineWindowExpire site _ _ => [(site, 2880)]
  | .sinkChunkReceive site _ => [(site, 2880)]
  | .sealFlow site _ _ => [(site, 2880)]
  | .deadlockSuspect comb => [(comb, 24)]
  | .scheduledRead site _ _ _ _ _ => [(site, 2880)]
  | .scheduledWrite site _ _ _ _ => [(site, 2880)]
  | .bRead site _ _ _ _ => [(site, 2880)]
  | .bWrite site _ _ => [(site, 2880)]
  | .partnerRead site _ _ _ _ _ => [(site, 2880)]
  | .partnerWrite site _ _ _ => [(site, 2880)]
  | .areadRowPresent site _ _ => [(site, 2880)]
  | .holdAdmit site _ => [(site, 2880)]
  | .dmaWindowTimeout site _ => [(site, 2880)]
  | .bScrubRead site _ _ => [(site, 2880)]
  | .bScrubWriteback site _ => [(site, 2880)]
  | .win site _ _ => [(site, 2880)]
  | .fill site _ _ _ => [(site, 2880)]
  | .spill site _ _ _ => [(site, 2880)]
  | .send site _ _ _ => [(site, 2880)]
  | .wait site _ => [(site, 2880)]
  | .waitRelease site => [(site, 2880)]
  | .nop site => [(site, 2880)]
  | .endCode site => [(site, 2880)]
  | .fillDone site _ _ => [(site, 2880)]
  | .writeAckReceive site _ _ => [(site, 2880)]
  | .instanceComplete site _ => [(site, 2880)]
  | .templateRelease _ _ => []
  | .forage site => [(site, 2880)]
  | .gangStart comb _ => [(comb, 24)]
  | .launch => []
  | .switchRecord => []
  | .switchShadowLoad => []
  | .combEpochSwitch comb _ => [(comb, 24)]
  | .epochDrainTimeout comb _ => [(comb, 24)]
  | .imageInstall _ mb => [(mb, 4)]
  | .imageRemove _ mb => [(mb, 4)]
  | .imageQuery _ mb => [(mb, 4)]
  | .treathRetrain _ mb _ => [(mb, 4)]
  | .policySet _ mb => [(mb, 4)]
  | .fwUpdate _ mb => [(mb, 4)]
  | .fwUpdateDone => []
  | .floorCommit _ mb => [(mb, 4)]
  | .licenceInstall _ mb => [(mb, 4)]
  | .ownerKeySet _ mb => [(mb, 4)]
  | .lcsRequest _ mb => [(mb, 4)]
  | .intakeWrite _ _ _ => []
  | .intakePartial stream => [(stream, 2097152)]
  | .appendFetchDone stream _ => [(stream, 2097152)]
  | .openRec stream => [(stream, 2097152)]
  | .appendRec stream => [(stream, 2097152)]
  | .generateRec stream => [(stream, 2097152)]
  | .pauseRec stream => [(stream, 2097152)]
  | .resumeRec stream => [(stream, 2097152)]
  | .forkRec stream => [(stream, 2097152)]
  | .closeRec stream => [(stream, 2097152)]
  | .queryRec stream => [(stream, 2097152)]
  | .stepCommit => []
  | .decisionTick => []
  | .stepRecord => []
  | .lqTailWrite _ _ => []
  | .stepReissue => []
  | .almanacSlotClose => []
  | .hbmRead stack _ _ _ _ => [(stack, 12)]
  | .hbmWrite stack _ _ => [(stack, 12)]
  | .hbmScrubRead stack _ _ => [(stack, 12)]
  | .hbmSoftRepair _ stack _ _ _ => [(stack, 12)]
  | .hbmHardRepair _ stack _ _ => [(stack, 12)]
  | .hbmStackLost stack => [(stack, 12)]
  | .hbmHot stack _ => [(stack, 12)]
  | .bar4Read _ _ => []
  | .bar4Write _ _ _ => []
  | .bar4Resize _ => []
  | .treathPacketReceive port _ => [(port, 16)]
  | .linkKeepalive port => [(port, 16)]
  | .trlPortDown port _ => [(port, 16)]
  | .trlRetrain _ port _ => [(port, 16)]
  | .timeExchange port _ _ _ _ _ _ => [(port, 16)]
  | .timeHoldover => []
  | .sliceShareReady _ _ => []
  | .readyMsg _ sender _ => [(sender, 256)]
  | .notReadyMsg _ sender _ => [(sender, 256)]
  | .commitMsg _ sender _ => [(sender, 256)]
  | .abortMsg _ sender => [(sender, 256)]
  | .doneMsg _ sender => [(sender, 256)]
  | .statusQ sender => [(sender, 256)]
  | .statusR sender _ => [(sender, 256)]
  | .beatMsg sender => [(sender, 256)]
  | .sliceBeatTimer => []
  | .sliceCommitTimeout _ => []
  | .sliceMemberLost l => [(l, 256)]
  | .sliceLeadChange => []
  | .maintRead port _ => [(port, 16)]
  | .maintWrite port _ => [(port, 16)]
  | .maintResponse port _ => [(port, 16)]
  | .identityQuery port _ => [(port, 16)]
  | .neighbourQuery port _ => [(port, 16)]
  | .functionLevelReset => []
  | .hotReset => []
  | .pciLinkDown => []
  | .hostWritesRelease => []
  | .pciAerUncorr _ => []
  | .msixUnmask _ => []
  | .evtBatch => []
  | .bmcPageRead _ _ => []
  | .bmcPageWrite _ _ _ => []
  | .i3cEntdaa _ => []
  | .sensorUpdate _ _ => []
  | .spdmGetCertificate _ _ _ => []
  | .spdmChallenge _ _ => []
  | .spdmGetMeasurements _ _ _ => []
  | .slhDsaSignature _ => []
  | .slhDsaCertChain => []
  | .requestUpdate => []
  | .passComponentTable _ => []
  | .updateComponent _ _ => []
  | .requestFirmwareData _ _ => []
  | .transferComplete _ => []
  | .verifyComplete => []
  | .applyComplete => []
  | .activateFirmware _ => []
  | .getStatus => []
  | .cancelUpdate => []
  | .combTarget => []
  | .localChangeSwitch comb => [(comb, 24)]
  | .syncFallSwitch => []
  | .syncRiseSwitch => []
  | .clkLockFail comb => [(comb, 24)]
  | .clkRefLost _ => []
  | .stretchStart comb _ => [(comb, 24)]
  | .stretchEnd comb _ _ => [(comb, 24)]
  | .gnomonLoop comb _ _ _ => [(comb, 24)]
  | .tempSample comb _ => [(comb, 24)]
  | .thermalLoop frame => [(frame, 6)]
  | .thermalTrip comb _ _ => [(comb, 24)]
  | .combIsolated comb _ => [(comb, 24)]
  | .senseFallback comb _ => [(comb, 24)]
  | .powerInterval _ => []
  | .pwrBrake => []
  | .brakeRelease => []
  | .ledgerClear _ => []
  | .minderRestart frame => [(frame, 6)]
  | .minderLost frame => [(frame, 6)]
  | .keeperWatchdog => []
  | .keeperFenceOrder site => [(site, 2880)]
  | .karComplete site _ => [(site, 2880)]
  | .reinstateStage site => [(site, 2880)]
  | .routerProbeTimeout site => [(site, 2880)]
  | .standbyInRange => []
  | .standbyLost => []
  | .startInstant _ => []
  | .perstAssert => []
  | .resetAssert => []
  | .fieldRotation _ => []
  | .fieldTestDone site _ => [(site, 2880)]
  | .scanEnable _ _ => []
  | .defectAppendFlush => []
  | .inputRangeCut _ _ => []
  | .pinShort _ _ => []
  | .seamWireFail _ _ => []
  | .busMasterEnableClear => []
  | .hostReadCompletionTimeout stream => [(stream, 2097152)]
  | .hbmFullRateReturn stack _ => [(stack, 12)]

/-- Every unit that a well-formed command names exists. -/
def Units.Statement (i : Instr) : Prop := i.wf = true → ∀ x ∈ Units.named i, x.1 < x.2

theorem Units.registerWrite (src : Source) (page : Nat) (off : Nat) (width : Nat) (val : DWord) (poisoned : Bool) : Units.Statement (.registerWrite src page off width val poisoned) := by
  simp +contextual [Units.Statement, Units.named, Instr.wf, pageOk]
theorem Units.rcRead (src : Source) (page : Nat) (off : Nat) : Units.Statement (.rcRead src page off) := by
  simp +contextual [Units.Statement, Units.named, Instr.wf, pageOk]
theorem Units.latchedRead (src : Source) (page : Nat) (off : Nat) : Units.Statement (.latchedRead src page off) := by
  simp +contextual [Units.Statement, Units.named, Instr.wf, pageOk]
theorem Units.pageCommit (src : Source) (page : Nat) (check : Bool) (seq : BitVec 16) : Units.Statement (.pageCommit src page check seq) := by
  simp +contextual [Units.Statement, Units.named, Instr.wf, pageOk]
theorem Units.pageDiscard (src : Source) (page : Nat) : Units.Statement (.pageDiscard src page) := by
  simp +contextual [Units.Statement, Units.named, Instr.wf, pageOk]
theorem Units.pageClaim (src : Source) (page : Nat) : Units.Statement (.pageClaim src page) := by
  simp +contextual [Units.Statement, Units.named, Instr.wf, pageOk]
theorem Units.pageRelease (src : Source) (page : Nat) : Units.Statement (.pageRelease src page) := by
  simp +contextual [Units.Statement, Units.named, Instr.wf, pageOk]
theorem Units.pass (site : Nat) (w0 : DWord) (rec_ : BitVec 128) (cyc : Nat) (upsets : List Upset) : Units.Statement (.pass site w0 rec_ cyc upsets) := by
  simp +contextual [Units.Statement, Units.named, Instr.wf, siteOk]
theorem Units.groupEmit (site : Nat) (cyc : Nat) (hit : Option (Nat × Tally)) : Units.Statement (.groupEmit site cyc hit) := by
  simp +contextual [Units.Statement, Units.named, Instr.wf, siteOk]
theorem Units.weightPacketIntake (site : Nat) (pkt : MeshPkt) (cyc : Nat) : Units.Statement (.weightPacketIntake site pkt cyc) := by
  simp +contextual [Units.Statement, Units.named, Instr.wf, siteOk]
theorem Units.load (site : Nat) (w0 : DWord) (rec_ : DWord) : Units.Statement (.load site w0 rec_) := by
  simp +contextual [Units.Statement, Units.named, Instr.wf, siteOk]
theorem Units.planeLoadStart (site : Nat) (cyc : Nat) : Units.Statement (.planeLoadStart site cyc) := by
  simp +contextual [Units.Statement, Units.named, Instr.wf, siteOk]
theorem Units.planeLoadDone (site : Nat) (cyc : Nat) : Units.Statement (.planeLoadDone site cyc) := by
  simp +contextual [Units.Statement, Units.named, Instr.wf, siteOk]
theorem Units.wfill (site : Nat) (w0 : DWord) (ofs : DWord) (cyc : Nat) : Units.Statement (.wfill site w0 ofs cyc) := by
  simp +contextual [Units.Statement, Units.named, Instr.wf, siteOk]
theorem Units.opsDmaWrite (site : Nat) (row : Nat) (data : OpsRow) (src : BitVec 16) : Units.Statement (.opsDmaWrite site row data src) := by
  simp +contextual [Units.Statement, Units.named, Instr.wf, siteOk]
theorem Units.sfn (site : Nat) (w0 : DWord) (w1 : DWord) (op : SOp) (flips : List Flip) : Units.Statement (.sfn site w0 w1 op flips) := by
  simp +contextual [Units.Statement, Units.named, Instr.wf, siteOk]
theorem Units.shadowCompare (site : Nat) (out : SOut) : Units.Statement (.shadowCompare site out) := by
  simp +contextual [Units.Statement, Units.named, Instr.wf, siteOk]
theorem Units.arbiterVerdict (site : Nat) (out : SOut) : Units.Statement (.arbiterVerdict site out) := by
  simp +contextual [Units.Statement, Units.named, Instr.wf, siteOk]
theorem Units.shadowStall (site : Nat) : Units.Statement (.shadowStall site) := by
  simp +contextual [Units.Statement, Units.named, Instr.wf, siteOk]
theorem Units.steerWordArrive (site : Nat) (hdr : BitVec 128) (w : DWord) (poison : Bool) (cyc : Nat) : Units.Statement (.steerWordArrive site hdr w poison cyc) := by
  simp +contextual [Units.Statement, Units.named, Instr.wf, siteOk]
theorem Units.wagDataArrive (site : Nat) (pkt : MeshPkt) (cyc : Nat) : Units.Statement (.wagDataArrive site pkt cyc) := by
  simp +contextual [Units.Statement, Units.named, Instr.wf, siteOk]
theorem Units.steerOrphan (site : Nat) (input : Nat) (cyc : Nat) : Units.Statement (.steerOrphan site input cyc) := by
  simp +contextual [Units.Statement, Units.named, Instr.wf, siteOk]
theorem Units.flitReceive (site : Nat) (port : Nat) (word : LinkIn) (cyc : Nat) : Units.Statement (.flitReceive site port word cyc) := by
  simp +contextual [Units.Statement, Units.named, Instr.wf, siteOk]
theorem Units.linkSilence (site : Nat) (port : Nat) : Units.Statement (.linkSilence site port) := by
  simp +contextual [Units.Statement, Units.named, Instr.wf, siteOk]
theorem Units.combineWindowExpire (site : Nat) (slot : Nat) (cyc : Nat) : Units.Statement (.combineWindowExpire site slot cyc) := by
  simp +contextual [Units.Statement, Units.named, Instr.wf, siteOk]
theorem Units.sinkChunkReceive (site : Nat) (pkt : MeshPkt) : Units.Statement (.sinkChunkReceive site pkt) := by
  simp +contextual [Units.Statement, Units.named, Instr.wf, siteOk]
theorem Units.sealFlow (site : Nat) (dest : BitVec 16) (flow : BitVec 12) : Units.Statement (.sealFlow site dest flow) := by
  simp +contextual [Units.Statement, Units.named, Instr.wf, siteOk]
theorem Units.deadlockSuspect (comb : Nat) : Units.Statement (.deadlockSuspect comb) := by
  simp +contextual [Units.Statement, Units.named, Instr.wf, combOk]
theorem Units.scheduledRead (site : Nat) (port : Nat) (row : Nat) (pair : Bool) (cyc : Nat) (flips : List Flip) : Units.Statement (.scheduledRead site port row pair cyc flips) := by
  simp +contextual [Units.Statement, Units.named, Instr.wf, siteOk]
theorem Units.scheduledWrite (site : Nat) (port : Nat) (row : Nat) (words : List RowWord) (cyc : Nat) : Units.Statement (.scheduledWrite site port row words cyc) := by
  simp +contextual [Units.Statement, Units.named, Instr.wf, siteOk]
theorem Units.bRead (site : Nat) (head : BitVec 512) (hdr : BitVec 128) (poison : Bool) (cyc : Nat) : Units.Statement (.bRead site head hdr poison cyc) := by
  simp +contextual [Units.Statement, Units.named, Instr.wf, siteOk]
theorem Units.bWrite (site : Nat) (pkt : MeshPkt) (cyc : Nat) : Units.Statement (.bWrite site pkt cyc) := by
  simp +contextual [Units.Statement, Units.named, Instr.wf, siteOk]
theorem Units.partnerRead (site : Nat) (port : Nat) (head : BitVec 512) (hdr : BitVec 128) (poison : Bool) (cyc : Nat) : Units.Statement (.partnerRead site port head hdr poison cyc) := by
  simp +contextual [Units.Statement, Units.named, Instr.wf, siteOk]
theorem Units.partnerWrite (site : Nat) (port : Nat) (pkt : MeshPkt) (cyc : Nat) : Units.Statement (.partnerWrite site port pkt cyc) := by
  simp +contextual [Units.Statement, Units.named, Instr.wf, siteOk]
theorem Units.areadRowPresent (site : Nat) (cyc : Nat) (flips : List Flip) : Units.Statement (.areadRowPresent site cyc flips) := by
  simp +contextual [Units.Statement, Units.named, Instr.wf, siteOk]
theorem Units.holdAdmit (site : Nat) (cyc : Nat) : Units.Statement (.holdAdmit site cyc) := by
  simp +contextual [Units.Statement, Units.named, Instr.wf, siteOk]
theorem Units.dmaWindowTimeout (site : Nat) (cyc : Nat) : Units.Statement (.dmaWindowTimeout site cyc) := by
  simp +contextual [Units.Statement, Units.named, Instr.wf, siteOk]
theorem Units.bScrubRead (site : Nat) (cyc : Nat) (flips : List Flip) : Units.Statement (.bScrubRead site cyc flips) := by
  simp +contextual [Units.Statement, Units.named, Instr.wf, siteOk]
theorem Units.bScrubWriteback (site : Nat) (cyc : Nat) : Units.Statement (.bScrubWriteback site cyc) := by
  simp +contextual [Units.Statement, Units.named, Instr.wf, siteOk]
theorem Units.win (site : Nat) (w0 : DWord) (cyc : Nat) : Units.Statement (.win site w0 cyc) := by
  simp +contextual [Units.Statement, Units.named, Instr.wf, siteOk]
theorem Units.fill (site : Nat) (w0 : DWord) (ofs : DWord) (cyc : Nat) : Units.Statement (.fill site w0 ofs cyc) := by
  simp +contextual [Units.Statement, Units.named, Instr.wf, siteOk]
theorem Units.spill (site : Nat) (w0 : DWord) (ofs : DWord) (cyc : Nat) : Units.Statement (.spill site w0 ofs cyc) := by
  simp +contextual [Units.Statement, Units.named, Instr.wf, siteOk]
theorem Units.send (site : Nat) (w0 : DWord) (w1 : DWord) (cyc : Nat) : Units.Statement (.send site w0 w1 cyc) := by
  simp +contextual [Units.Statement, Units.named, Instr.wf, siteOk]
theorem Units.wait (site : Nat) (w0 : DWord) : Units.Statement (.wait site w0) := by
  simp +contextual [Units.Statement, Units.named, Instr.wf, siteOk]
theorem Units.waitRelease (site : Nat) : Units.Statement (.waitRelease site) := by
  simp +contextual [Units.Statement, Units.named, Instr.wf, siteOk]
theorem Units.nop (site : Nat) : Units.Statement (.nop site) := by
  simp +contextual [Units.Statement, Units.named, Instr.wf, siteOk]
theorem Units.endCode (site : Nat) : Units.Statement (.endCode site) := by
  simp +contextual [Units.Statement, Units.named, Instr.wf, siteOk]
theorem Units.fillDone (site : Nat) (ctr : Nat) (cyc : Nat) : Units.Statement (.fillDone site ctr cyc) := by
  simp +contextual [Units.Statement, Units.named, Instr.wf, siteOk]
theorem Units.writeAckReceive (site : Nat) (rflow : BitVec 12) (stat : BitVec 2) : Units.Statement (.writeAckReceive site rflow stat) := by
  simp +contextual [Units.Statement, Units.named, Instr.wf, siteOk]
theorem Units.instanceComplete (site : Nat) (cyc : Nat) : Units.Statement (.instanceComplete site cyc) := by
  simp +contextual [Units.Statement, Units.named, Instr.wf, siteOk]
theorem Units.templateRelease (launch : Nat) (tmpl : Nat) : Units.Statement (.templateRelease launch tmpl) := by simp [Units.Statement, Units.named]
theorem Units.forage (site : Nat) : Units.Statement (.forage site) := by
  simp +contextual [Units.Statement, Units.named, Instr.wf, siteOk]
theorem Units.gangStart (comb : Nat) (pool : Nat) : Units.Statement (.gangStart comb pool) := by
  simp +contextual [Units.Statement, Units.named, Instr.wf, combOk]
theorem Units.launch : Units.Statement (.launch) := by simp [Units.Statement, Units.named]
theorem Units.switchRecord : Units.Statement (.switchRecord) := by simp [Units.Statement, Units.named]
theorem Units.switchShadowLoad : Units.Statement (.switchShadowLoad) := by simp [Units.Statement, Units.named]
theorem Units.combEpochSwitch (comb : Nat) (cyc : Nat) : Units.Statement (.combEpochSwitch comb cyc) := by
  simp +contextual [Units.Statement, Units.named, Instr.wf, combOk]
theorem Units.epochDrainTimeout (comb : Nat) (cyc : Nat) : Units.Statement (.epochDrainTimeout comb cyc) := by
  simp +contextual [Units.Statement, Units.named, Instr.wf, combOk]
theorem Units.imageInstall (src : Source) (mb : Nat) : Units.Statement (.imageInstall src mb) := by
  simp +contextual [Units.Statement, Units.named, Instr.wf, mailboxOk]
theorem Units.imageRemove (src : Source) (mb : Nat) : Units.Statement (.imageRemove src mb) := by
  simp +contextual [Units.Statement, Units.named, Instr.wf, mailboxOk]
theorem Units.imageQuery (src : Source) (mb : Nat) : Units.Statement (.imageQuery src mb) := by
  simp +contextual [Units.Statement, Units.named, Instr.wf, mailboxOk]
theorem Units.treathRetrain (src : Source) (mb : Nat) (ports : List TrainInfo) : Units.Statement (.treathRetrain src mb ports) := by
  simp +contextual [Units.Statement, Units.named, Instr.wf, mailboxOk]
theorem Units.policySet (src : Source) (mb : Nat) : Units.Statement (.policySet src mb) := by
  simp +contextual [Units.Statement, Units.named, Instr.wf, mailboxOk]
theorem Units.fwUpdate (src : Source) (mb : Nat) : Units.Statement (.fwUpdate src mb) := by
  simp +contextual [Units.Statement, Units.named, Instr.wf, mailboxOk]
theorem Units.fwUpdateDone : Units.Statement (.fwUpdateDone) := by simp [Units.Statement, Units.named]
theorem Units.floorCommit (src : Source) (mb : Nat) : Units.Statement (.floorCommit src mb) := by
  simp +contextual [Units.Statement, Units.named, Instr.wf, mailboxOk]
theorem Units.licenceInstall (src : Source) (mb : Nat) : Units.Statement (.licenceInstall src mb) := by
  simp +contextual [Units.Statement, Units.named, Instr.wf, mailboxOk]
theorem Units.ownerKeySet (src : Source) (mb : Nat) : Units.Statement (.ownerKeySet src mb) := by
  simp +contextual [Units.Statement, Units.named, Instr.wf, mailboxOk]
theorem Units.lcsRequest (src : Source) (mb : Nat) : Units.Statement (.lcsRequest src mb) := by
  simp +contextual [Units.Statement, Units.named, Instr.wf, mailboxOk]
theorem Units.intakeWrite (off : Nat) (data : List Byte) (poisoned : Bool) : Units.Statement (.intakeWrite off data poisoned) := by simp [Units.Statement, Units.named]
theorem Units.intakePartial (stream : Nat) : Units.Statement (.intakePartial stream) := by
  simp +contextual [Units.Statement, Units.named, Instr.wf, streamOk]
theorem Units.appendFetchDone (stream : Nat) (toks : List Word) : Units.Statement (.appendFetchDone stream toks) := by
  simp +contextual [Units.Statement, Units.named, Instr.wf, streamOk]
theorem Units.openRec (stream : Nat) : Units.Statement (.openRec stream) := by
  simp +contextual [Units.Statement, Units.named, Instr.wf, streamOk]
theorem Units.appendRec (stream : Nat) : Units.Statement (.appendRec stream) := by
  simp +contextual [Units.Statement, Units.named, Instr.wf, streamOk]
theorem Units.generateRec (stream : Nat) : Units.Statement (.generateRec stream) := by
  simp +contextual [Units.Statement, Units.named, Instr.wf, streamOk]
theorem Units.pauseRec (stream : Nat) : Units.Statement (.pauseRec stream) := by
  simp +contextual [Units.Statement, Units.named, Instr.wf, streamOk]
theorem Units.resumeRec (stream : Nat) : Units.Statement (.resumeRec stream) := by
  simp +contextual [Units.Statement, Units.named, Instr.wf, streamOk]
theorem Units.forkRec (stream : Nat) : Units.Statement (.forkRec stream) := by
  simp +contextual [Units.Statement, Units.named, Instr.wf, streamOk]
theorem Units.closeRec (stream : Nat) : Units.Statement (.closeRec stream) := by
  simp +contextual [Units.Statement, Units.named, Instr.wf, streamOk]
theorem Units.queryRec (stream : Nat) : Units.Statement (.queryRec stream) := by
  simp +contextual [Units.Statement, Units.named, Instr.wf, streamOk]
theorem Units.stepCommit : Units.Statement (.stepCommit) := by simp [Units.Statement, Units.named]
theorem Units.decisionTick : Units.Statement (.decisionTick) := by simp [Units.Statement, Units.named]
theorem Units.stepRecord : Units.Statement (.stepRecord) := by simp [Units.Statement, Units.named]
theorem Units.lqTailWrite (src : Source) (val : Word) : Units.Statement (.lqTailWrite src val) := by simp [Units.Statement, Units.named]
theorem Units.stepReissue : Units.Statement (.stepReissue) := by simp [Units.Statement, Units.named]
theorem Units.almanacSlotClose : Units.Statement (.almanacSlotClose) := by simp [Units.Statement, Units.named]
theorem Units.hbmRead (stack : Nat) (head : BitVec 512) (hdr : BitVec 128) (flips : List Flip) (stackUe : List Nat) : Units.Statement (.hbmRead stack head hdr flips stackUe) := by
  simp +contextual [Units.Statement, Units.named, Instr.wf, stackOk]
theorem Units.hbmWrite (stack : Nat) (pkt : MeshPkt) (flips : List Flip) : Units.Statement (.hbmWrite stack pkt flips) := by
  simp +contextual [Units.Statement, Units.named, Instr.wf, stackOk]
theorem Units.hbmScrubRead (stack : Nat) (flips : List Flip) (stackUe : Bool) : Units.Statement (.hbmScrubRead stack flips stackUe) := by
  simp +contextual [Units.Statement, Units.named, Instr.wf, stackOk]
theorem Units.hbmSoftRepair (src : Source) (stack : Nat) (cmd : DWord) (noSpare : Bool) (flips : List Flip) : Units.Statement (.hbmSoftRepair src stack cmd noSpare flips) := by
  simp +contextual [Units.Statement, Units.named, Instr.wf, stackOk]
theorem Units.hbmHardRepair (src : Source) (stack : Nat) (cmd : DWord) (noSpare : Bool) : Units.Statement (.hbmHardRepair src stack cmd noSpare) := by
  simp +contextual [Units.Statement, Units.named, Instr.wf, stackOk]
theorem Units.hbmStackLost (stack : Nat) : Units.Statement (.hbmStackLost stack) := by
  simp +contextual [Units.Statement, Units.named, Instr.wf, stackOk]
theorem Units.hbmHot (stack : Nat) (temp : Nat) : Units.Statement (.hbmHot stack temp) := by
  simp +contextual [Units.Statement, Units.named, Instr.wf, stackOk]
theorem Units.bar4Read (off : Nat) (len : Nat) : Units.Statement (.bar4Read off len) := by simp [Units.Statement, Units.named]
theorem Units.bar4Write (off : Nat) (data : List Byte) (poisoned : Bool) : Units.Statement (.bar4Write off data poisoned) := by simp [Units.Statement, Units.named]
theorem Units.bar4Resize (log2 : Nat) : Units.Statement (.bar4Resize log2) := by simp [Units.Statement, Units.named]
theorem Units.treathPacketReceive (port : Nat) (pkt : TPkt) : Units.Statement (.treathPacketReceive port pkt) := by
  simp +contextual [Units.Statement, Units.named, Instr.wf, portOk]
theorem Units.linkKeepalive (port : Nat) : Units.Statement (.linkKeepalive port) := by
  simp +contextual [Units.Statement, Units.named, Instr.wf, portOk]
theorem Units.trlPortDown (port : Nat) (cause : Nat) : Units.Statement (.trlPortDown port cause) := by
  simp +contextual [Units.Statement, Units.named, Instr.wf, portOk]
theorem Units.trlRetrain (src : Source) (port : Nat) (info : TrainInfo) : Units.Statement (.trlRetrain src port info) := by
  simp +contextual [Units.Statement, Units.named, Instr.wf, portOk]
theorem Units.timeExchange (port : Nat) (t1 : DWord) (t2 : DWord) (t3 : DWord) (t4 : DWord) (resid1 : DWord) (resid2 : DWord) : Units.Statement (.timeExchange port t1 t2 t3 t4 resid1 resid2) := by
  simp +contextual [Units.Statement, Units.named, Instr.wf, portOk]
theorem Units.timeHoldover : Units.Statement (.timeHoldover) := by simp [Units.Statement, Units.named]
theorem Units.sliceShareReady (step : Word) (cannot : Option ShareEvent) : Units.Statement (.sliceShareReady step cannot) := by simp [Units.Statement, Units.named]
theorem Units.readyMsg (step : Word) (sender : Nat) (recs : List ResRec) : Units.Statement (.readyMsg step sender recs) := by
  simp +contextual [Units.Statement, Units.named, Instr.wf, logicalOk]
theorem Units.notReadyMsg (step : Word) (sender : Nat) (code : BitVec 16) : Units.Statement (.notReadyMsg step sender code) := by
  simp +contextual [Units.Statement, Units.named, Instr.wf, logicalOk]
theorem Units.commitMsg (step : Word) (sender : Nat) (body : CommitBody) : Units.Statement (.commitMsg step sender body) := by
  simp +contextual [Units.Statement, Units.named, Instr.wf, logicalOk]
theorem Units.abortMsg (step : Word) (sender : Nat) : Units.Statement (.abortMsg step sender) := by
  simp +contextual [Units.Statement, Units.named, Instr.wf, logicalOk]
theorem Units.doneMsg (step : Word) (sender : Nat) : Units.Statement (.doneMsg step sender) := by
  simp +contextual [Units.Statement, Units.named, Instr.wf, logicalOk]
theorem Units.statusQ (sender : Nat) : Units.Statement (.statusQ sender) := by
  simp +contextual [Units.Statement, Units.named, Instr.wf, logicalOk]
theorem Units.statusR (sender : Nat) (lastStep : Word) : Units.Statement (.statusR sender lastStep) := by
  simp +contextual [Units.Statement, Units.named, Instr.wf, logicalOk]
theorem Units.beatMsg (sender : Nat) : Units.Statement (.beatMsg sender) := by
  simp +contextual [Units.Statement, Units.named, Instr.wf, logicalOk]
theorem Units.sliceBeatTimer : Units.Statement (.sliceBeatTimer) := by simp [Units.Statement, Units.named]
theorem Units.sliceCommitTimeout (step : Word) : Units.Statement (.sliceCommitTimeout step) := by simp [Units.Statement, Units.named]
theorem Units.sliceMemberLost (logical : Nat) : Units.Statement (.sliceMemberLost logical) := by
  simp +contextual [Units.Statement, Units.named, Instr.wf, logicalOk]
theorem Units.sliceLeadChange : Units.Statement (.sliceLeadChange) := by simp [Units.Statement, Units.named]
theorem Units.maintRead (port : Nat) (pkt : TPkt) : Units.Statement (.maintRead port pkt) := by
  simp +contextual [Units.Statement, Units.named, Instr.wf, portOk]
theorem Units.maintWrite (port : Nat) (pkt : TPkt) : Units.Statement (.maintWrite port pkt) := by
  simp +contextual [Units.Statement, Units.named, Instr.wf, portOk]
theorem Units.maintResponse (port : Nat) (pkt : TPkt) : Units.Statement (.maintResponse port pkt) := by
  simp +contextual [Units.Statement, Units.named, Instr.wf, portOk]
theorem Units.identityQuery (port : Nat) (pkt : TPkt) : Units.Statement (.identityQuery port pkt) := by
  simp +contextual [Units.Statement, Units.named, Instr.wf, portOk]
theorem Units.neighbourQuery (port : Nat) (pkt : TPkt) : Units.Statement (.neighbourQuery port pkt) := by
  simp +contextual [Units.Statement, Units.named, Instr.wf, portOk]
theorem Units.functionLevelReset : Units.Statement (.functionLevelReset) := by simp [Units.Statement, Units.named]
theorem Units.hotReset : Units.Statement (.hotReset) := by simp [Units.Statement, Units.named]
theorem Units.pciLinkDown : Units.Statement (.pciLinkDown) := by simp [Units.Statement, Units.named]
theorem Units.hostWritesRelease : Units.Statement (.hostWritesRelease) := by simp [Units.Statement, Units.named]
theorem Units.pciAerUncorr (status : Word) : Units.Statement (.pciAerUncorr status) := by simp [Units.Statement, Units.named]
theorem Units.msixUnmask (vector : Option Nat) : Units.Statement (.msixUnmask vector) := by simp [Units.Statement, Units.named]
theorem Units.evtBatch : Units.Statement (.evtBatch) := by simp [Units.Statement, Units.named]
theorem Units.bmcPageRead (page : Nat) (off : Nat) : Units.Statement (.bmcPageRead page off) := by simp [Units.Statement, Units.named]
theorem Units.bmcPageWrite (page : Nat) (off : Nat) (val : Word) : Units.Statement (.bmcPageWrite page off val) := by simp [Units.Statement, Units.named]
theorem Units.i3cEntdaa (addr : BitVec 7) : Units.Statement (.i3cEntdaa addr) := by simp [Units.Statement, Units.named]
theorem Units.sensorUpdate (alertLevel : Bool) (tripLevel : Bool) : Units.Statement (.sensorUpdate alertLevel tripLevel) := by simp [Units.Statement, Units.named]
theorem Units.spdmGetCertificate (slot : Nat) (ofs : Nat) (len : Nat) : Units.Statement (.spdmGetCertificate slot ofs len) := by simp [Units.Statement, Units.named]
theorem Units.spdmChallenge (slot : Nat) (nonce : BitVec 256) : Units.Statement (.spdmChallenge slot nonce) := by simp [Units.Statement, Units.named]
theorem Units.spdmGetMeasurements (index : Nat) (signed : Bool) (nonce : BitVec 256) : Units.Statement (.spdmGetMeasurements index signed nonce) := by simp [Units.Statement, Units.named]
theorem Units.slhDsaSignature (selector : Nat) : Units.Statement (.slhDsaSignature selector) := by simp [Units.Statement, Units.named]
theorem Units.slhDsaCertChain : Units.Statement (.slhDsaCertChain) := by simp [Units.Statement, Units.named]
theorem Units.requestUpdate : Units.Statement (.requestUpdate) := by simp [Units.Statement, Units.named]
theorem Units.passComponentTable (comps : List Nat) : Units.Statement (.passComponentTable comps) := by simp [Units.Statement, Units.named]
theorem Units.updateComponent (comp : Nat) (size : Nat) : Units.Statement (.updateComponent comp size) := by simp [Units.Statement, Units.named]
theorem Units.requestFirmwareData (ofs : Nat) (data : List Byte) : Units.Statement (.requestFirmwareData ofs data) := by simp [Units.Statement, Units.named]
theorem Units.transferComplete (ok : Bool) : Units.Statement (.transferComplete ok) := by simp [Units.Statement, Units.named]
theorem Units.verifyComplete : Units.Statement (.verifyComplete) := by simp [Units.Statement, Units.named]
theorem Units.applyComplete : Units.Statement (.applyComplete) := by simp [Units.Statement, Units.named]
theorem Units.activateFirmware (selfContained : Bool) : Units.Statement (.activateFirmware selfContained) := by simp [Units.Statement, Units.named]
theorem Units.getStatus : Units.Statement (.getStatus) := by simp [Units.Statement, Units.named]
theorem Units.cancelUpdate : Units.Statement (.cancelUpdate) := by simp [Units.Statement, Units.named]
theorem Units.combTarget : Units.Statement (.combTarget) := by simp [Units.Statement, Units.named]
theorem Units.localChangeSwitch (comb : Nat) : Units.Statement (.localChangeSwitch comb) := by
  simp +contextual [Units.Statement, Units.named, Instr.wf, combOk]
theorem Units.syncFallSwitch : Units.Statement (.syncFallSwitch) := by simp [Units.Statement, Units.named]
theorem Units.syncRiseSwitch : Units.Statement (.syncRiseSwitch) := by simp [Units.Statement, Units.named]
theorem Units.clkLockFail (comb : Nat) : Units.Statement (.clkLockFail comb) := by
  simp +contextual [Units.Statement, Units.named, Instr.wf, combOk]
theorem Units.clkRefLost (ref : Nat) : Units.Statement (.clkRefLost ref) := by simp [Units.Statement, Units.named]
theorem Units.stretchStart (comb : Nat) (codes : List Nat) : Units.Statement (.stretchStart comb codes) := by
  simp +contextual [Units.Statement, Units.named, Instr.wf, combOk]
theorem Units.stretchEnd (comb : Nat) (codes : List Nat) (skipped : Nat) : Units.Statement (.stretchEnd comb codes skipped) := by
  simp +contextual [Units.Statement, Units.named, Instr.wf, combOk]
theorem Units.gnomonLoop (comb : Nat) (stretched : Bool) (minMargin : Nat) (powerW : Nat) : Units.Statement (.gnomonLoop comb stretched minMargin powerW) := by
  simp +contextual [Units.Statement, Units.named, Instr.wf, combOk]
theorem Units.tempSample (comb : Nat) (sensors : List Nat) : Units.Statement (.tempSample comb sensors) := by
  simp +contextual [Units.Statement, Units.named, Instr.wf, combOk]
theorem Units.thermalLoop (frame : Nat) : Units.Statement (.thermalLoop frame) := by
  simp +contextual [Units.Statement, Units.named, Instr.wf, frameOk]
theorem Units.thermalTrip (comb : Nat) (sensor : Nat) (temp : Nat) : Units.Statement (.thermalTrip comb sensor temp) := by
  simp +contextual [Units.Statement, Units.named, Instr.wf, combOk]
theorem Units.combIsolated (comb : Nat) (undervolt : Bool) : Units.Statement (.combIsolated comb undervolt) := by
  simp +contextual [Units.Statement, Units.named, Instr.wf, combOk]
theorem Units.senseFallback (comb : Nat) (opened : Bool) : Units.Statement (.senseFallback comb opened) := by
  simp +contextual [Units.Statement, Units.named, Instr.wf, combOk]
theorem Units.powerInterval (r : PowerReading) : Units.Statement (.powerInterval r) := by simp [Units.Statement, Units.named]
theorem Units.pwrBrake : Units.Statement (.pwrBrake) := by simp [Units.Statement, Units.named]
theorem Units.brakeRelease : Units.Statement (.brakeRelease) := by simp [Units.Statement, Units.named]
theorem Units.ledgerClear (src : Source) : Units.Statement (.ledgerClear src) := by simp [Units.Statement, Units.named]
theorem Units.minderRestart (frame : Nat) : Units.Statement (.minderRestart frame) := by
  simp +contextual [Units.Statement, Units.named, Instr.wf, frameOk]
theorem Units.minderLost (frame : Nat) : Units.Statement (.minderLost frame) := by
  simp +contextual [Units.Statement, Units.named, Instr.wf, frameOk]
theorem Units.keeperWatchdog : Units.Statement (.keeperWatchdog) := by simp [Units.Statement, Units.named]
theorem Units.keeperFenceOrder (site : Nat) : Units.Statement (.keeperFenceOrder site) := by
  simp +contextual [Units.Statement, Units.named, Instr.wf, siteOk]
theorem Units.karComplete (site : Nat) (passed : Bool) : Units.Statement (.karComplete site passed) := by
  simp +contextual [Units.Statement, Units.named, Instr.wf, siteOk]
theorem Units.reinstateStage (site : Nat) : Units.Statement (.reinstateStage site) := by
  simp +contextual [Units.Statement, Units.named, Instr.wf, siteOk]
theorem Units.routerProbeTimeout (site : Nat) : Units.Statement (.routerProbeTimeout site) := by
  simp +contextual [Units.Statement, Units.named, Instr.wf, siteOk]
theorem Units.standbyInRange : Units.Statement (.standbyInRange) := by simp [Units.Statement, Units.named]
theorem Units.standbyLost : Units.Statement (.standbyLost) := by simp [Units.Statement, Units.named]
theorem Units.startInstant (env : StartEnv) : Units.Statement (.startInstant env) := by simp [Units.Statement, Units.named]
theorem Units.perstAssert : Units.Statement (.perstAssert) := by simp [Units.Statement, Units.named]
theorem Units.resetAssert : Units.Statement (.resetAssert) := by simp [Units.Statement, Units.named]
theorem Units.fieldRotation (sites : List Nat) : Units.Statement (.fieldRotation sites) := by simp [Units.Statement, Units.named]
theorem Units.fieldTestDone (site : Nat) (passed : Bool) : Units.Statement (.fieldTestDone site passed) := by
  simp +contextual [Units.Statement, Units.named, Instr.wf, siteOk]
theorem Units.scanEnable (src : Source) (ctl : Word) : Units.Statement (.scanEnable src ctl) := by simp [Units.Statement, Units.named]
theorem Units.defectAppendFlush : Units.Statement (.defectAppendFlush) := by simp [Units.Statement, Units.named]
theorem Units.inputRangeCut (vCore : Nat) (vAux : Nat) : Units.Statement (.inputRangeCut vCore vAux) := by simp [Units.Statement, Units.named]
theorem Units.pinShort (pin : OutPin) (level : Bool) : Units.Statement (.pinShort pin level) := by simp [Units.Statement, Units.named]
theorem Units.seamWireFail (bridge : Nat) (wire : Nat) : Units.Statement (.seamWireFail bridge wire) := by simp [Units.Statement, Units.named]
theorem Units.busMasterEnableClear : Units.Statement (.busMasterEnableClear) := by simp [Units.Statement, Units.named]
theorem Units.hostReadCompletionTimeout (stream : Nat) : Units.Statement (.hostReadCompletionTimeout stream) := by
  simp +contextual [Units.Statement, Units.named, Instr.wf, streamOk]
theorem Units.hbmFullRateReturn (stack : Nat) (temp : Nat) : Units.Statement (.hbmFullRateReturn stack temp) := by
  simp +contextual [Units.Statement, Units.named, Instr.wf, stackOk]

end Sys2Proof.Laws
end

