-- ==== Sys2Proof/Laws/Stores.lean ====
section
/-! SUPPORT. The canonical stores: every operation keeps the canonical form, and a read after a write. -/

namespace Sys2Proof.Machine

variable {α : Type}

/-- Every listed key is at least a bound. -/
def sabove (n : Nat) (m : Sparse α) : Prop := ∀ e ∈ m, n ≤ e.1

theorem srising_cons {k : Nat} {v : α} {t : Sparse α} :
    srising ((k, v) :: t) = true ↔ sabove (k + 1) t ∧ srising t = true := by
  constructor
  · intro h
    induction t generalizing k v with
    | nil => exact ⟨fun e he => (List.not_mem_nil he).elim, rfl⟩
    | cons a t ih =>
      obtain ⟨k', v'⟩ := a
      simp only [srising, Bool.and_eq_true, decide_eq_true_eq] at h
      have h2 : srising ((k', v') :: t) = true := by simpa [srising] using h.2
      refine ⟨fun e he => ?_, h2⟩
      rcases List.mem_cons.1 he with rfl | he
      · exact h.1
      · have := (ih h2).1 e he
        omega
  · rintro ⟨h, ht⟩
    cases t with
    | nil => rfl
    | cons a t =>
      obtain ⟨k', v'⟩ := a
      have := h (k', v') (by simp)
      simp only [srising, Bool.and_eq_true, decide_eq_true_eq]
      exact ⟨by omega, by simpa [srising] using ht⟩

theorem sfind_of_above {m : Sparse α} {n k : Nat} (h : sabove n m) (hk : k < n) : sfind m k = none := by
  induction m with
  | nil => rfl
  | cons a t ih =>
    obtain ⟨k', v⟩ := a
    have := h (k', v) (by simp)
    simp only [sfind]
    rw [if_neg (by simp at this; omega)]
    exact ih fun e he => h e (by simp [he])

theorem sput_above {m : Sparse α} {n k : Nat} {x : α} (h : sabove n m) (hk : n ≤ k) : sabove n (sput m k x) := by
  induction m with
  | nil => intro e he; simp [sput] at he; subst he; exact hk
  | cons a t ih =>
    obtain ⟨k', v⟩ := a
    have h1 := h (k', v) (by simp)
    have h2 : sabove n t := fun e he => h e (by simp [he])
    simp only [sput]
    split
    · intro e he; rcases List.mem_cons.1 he with rfl | he
      · exact h1
      · exact h2 e he
    · split
      · intro e he; rcases List.mem_cons.1 he with rfl | he
        · exact hk
        · exact h e he
      · intro e he; rcases List.mem_cons.1 he with rfl | he
        · exact h1
        · exact ih h2 e he

theorem sput_rising {m : Sparse α} {k : Nat} {x : α} (h : srising m = true) : srising (sput m k x) = true := by
  induction m with
  | nil => rfl
  | cons a t ih =>
    obtain ⟨k', v⟩ := a
    have ⟨h1, h2⟩ := srising_cons.1 h
    simp only [sput]
    split
    · subst_vars; exact srising_cons.2 ⟨h1, h2⟩
    · split
      · refine srising_cons.2 ⟨fun e he => ?_, h⟩
        rcases List.mem_cons.1 he with rfl | he
        · simpa using by omega
        · have := h1 e he; omega
      · exact srising_cons.2 ⟨sput_above h1 (by omega), ih h2⟩

theorem filter_rising {m : Sparse α} {p : Nat × α → Bool} (h : srising m = true) : srising (m.filter p) = true := by
  induction m with
  | nil => rfl
  | cons a t ih =>
    obtain ⟨k', v⟩ := a
    have ⟨h1, h2⟩ := srising_cons.1 h
    simp only [List.filter]
    split
    · exact srising_cons.2 ⟨fun e he => h1 e (List.mem_filter.1 he).1, ih h2⟩
    · exact ih h2

theorem serase_mem {m : Sparse α} {k : Nat} {e : Nat × α} (h : e ∈ serase m k) : e ∈ m := by
  induction m with
  | nil => exact h
  | cons a t ih =>
    obtain ⟨k', v⟩ := a
    simp only [serase] at h
    split at h
    · simp [h]
    · split at h
      · exact h
      · rcases List.mem_cons.1 h with rfl | h
        · simp
        · simp [ih h]

theorem serase_rising {m : Sparse α} {k : Nat} (h : srising m = true) : srising (serase m k) = true := by
  induction m with
  | nil => rfl
  | cons a t ih =>
    obtain ⟨k', v⟩ := a
    have ⟨h1, h2⟩ := srising_cons.1 h
    simp only [serase]
    split
    · exact h2
    · split
      · exact h
      · exact srising_cons.2 ⟨fun e he => h1 e (serase_mem he), ih h2⟩

theorem map_rising {β : Type} {m : Sparse α} {f : Nat × α → β} (h : srising m = true) :
    srising (m.map fun e => (e.1, f e)) = true := by
  induction m with
  | nil => rfl
  | cons a t ih =>
    obtain ⟨k', v⟩ := a
    have ⟨h1, h2⟩ := srising_cons.1 h
    refine srising_cons.2 ⟨fun e he => ?_, ih h2⟩
    obtain ⟨a, ha, rfl⟩ := List.mem_map.1 he
    exact h1 a ha

theorem sput_mem {m : Sparse α} {k : Nat} {x : α} {e : Nat × α} (h : e ∈ sput m k x) : e = (k, x) ∨ e ∈ m := by
  induction m with
  | nil => simpa [sput] using h
  | cons a t ih =>
    obtain ⟨k', v⟩ := a
    simp only [sput] at h
    split at h
    · subst_vars; rcases List.mem_cons.1 h with h | h <;> simp [h]
    · split at h
      · rcases List.mem_cons.1 h with h | h
        · simp [h]
        · exact .inr h
      · rcases List.mem_cons.1 h with h | h
        · simp [h]
        · rcases ih h with h | h <;> simp [h]

variable [DecidableEq α] {d : Nat → α} {m : Sparse α}

theorem swf_iff : swf d m = true ↔ srising m = true ∧ ∀ e ∈ m, e.2 ≠ d e.1 := by
  simp [swf, List.all_eq_true]

theorem swf_nil : swf d [] = true := rfl

theorem swf_filter {p : Nat × α → Bool} (h : swf d m = true) : swf d (m.filter p) = true :=
  swf_iff.2 ⟨filter_rising (swf_iff.1 h).1, fun e he => (swf_iff.1 h).2 e (List.mem_filter.1 he).1⟩

theorem swf_serase {k : Nat} (h : swf d m = true) : swf d (serase m k) = true :=
  swf_iff.2 ⟨serase_rising (swf_iff.1 h).1, fun e he => (swf_iff.1 h).2 e (serase_mem he)⟩

theorem swf_sset {k : Nat} {x : α} (h : swf d m = true) : swf d (sset d m k x) = true := by
  unfold sset
  split
  · exact swf_serase h
  · refine swf_iff.2 ⟨sput_rising (swf_iff.1 h).1, fun e he => ?_⟩
    rcases sput_mem he with rfl | he
    · assumption
    · exact (swf_iff.1 h).2 e he

theorem swf_supd {k : Nat} {f : α → α} (h : swf d m = true) : swf d (supd d m k f) = true := swf_sset h

theorem swf_ssetMany {k : Nat} {l : List α} (h : swf d m = true) : swf d (ssetMany d m k l) = true := by
  induction l generalizing m k with
  | nil => exact h
  | cons x xs ih => exact ih (swf_sset h)

/-- A fold whose every move keeps the canonical form keeps it. -/
theorem swf_foldl {β : Type} {l : List β} {f : Sparse α → β → Sparse α} (h : swf d m = true)
    (hf : ∀ m x, swf d m = true → swf d (f m x) = true) : swf d (l.foldl f m) = true := by
  induction l generalizing m with
  | nil => exact h
  | cons x xs ih => exact ih (hf _ _ h)

/-- A store whose entries are all mapped, without those that become the default. -/
theorem swf_map {f : Nat × α → α} (h : swf d m = true) :
    swf d ((m.map fun e => (e.1, f e)).filter fun e => decide (e.2 ≠ d e.1)) = true :=
  swf_iff.2 ⟨filter_rising (map_rising (swf_iff.1 h).1), fun e he => by simpa using (List.mem_filter.1 he).2⟩

/-! ### Reading after a write -/

omit [DecidableEq α] in
theorem sfind_sput {k n : Nat} {x : α} : sfind (sput m k x) n = if n = k then some x else sfind m n := by
  induction m with
  | nil => simp [sput, sfind]
  | cons a t ih =>
    obtain ⟨k', v⟩ := a
    simp only [sput]
    split
    · subst_vars; by_cases hn : n = k' <;> simp [sfind, hn]
    · split
      · by_cases hn : n = k <;> simp [sfind, hn]
      · by_cases hn : n = k'
        · subst hn; simp [sfind]; intro h; omega
        · simp [sfind, hn, ih]

omit [DecidableEq α] in
theorem sfind_serase {k n : Nat} (h : srising m = true) : sfind (serase m k) n = if n = k then none else sfind m n := by
  induction m with
  | nil => simp [serase, sfind]
  | cons a t ih =>
    obtain ⟨k', v⟩ := a
    have ⟨h1, h2⟩ := srising_cons.1 h
    simp only [serase]
    split
    · subst_vars
      by_cases hn : n = k'
      · subst hn; simpa using sfind_of_above h1 (by omega)
      · simp [sfind, hn]
    · split
      · by_cases hn : n = k
        · subst hn; simp only [if_true]
          exact sfind_of_above (n := n + 1) (fun e he => by
            rcases List.mem_cons.1 he with rfl | he
            · simpa using by omega
            · have := h1 e he; omega) (by omega)
        · simp [hn]
      · by_cases hn : n = k'
        · subst hn; simp [sfind]; omega
        · simp [sfind, hn, ih h2]

/-- A read after a write: the value at its own key, what was there at any other. -/
theorem sget_sset {k n : Nat} {x : α} (h : swf d m = true) : sget d (sset d m k x) n = if n = k then x else sget d m n := by
  unfold sget sset
  split
  · rw [sfind_serase (swf_iff.1 h).1]; split <;> simp_all
  · rw [sfind_sput]; split <;> simp

theorem sget_supd {k n : Nat} {f : α → α} (h : swf d m = true) :
    sget d (supd d m k f) n = if n = k then f (sget d m k) else sget d m n := sget_sset h

end Sys2Proof.Machine
end

