-- ==== Sys2Proof/Laws/State.lean ====
section
/-! SUPPORT. The small lemmas of the updates of State: an update of one part leaves every other part, and a read after an update of
a canonical store. No later proof unfolds a record update. -/

namespace Sys2Proof.Machine

variable (s : State)

/-! ### `setReg` changes the active register words only -/

@[simp] theorem State.setReg_pending (p off v : Nat) : (s.setReg p off v).pending = s.pending := rfl
@[simp] theorem State.setReg_staged (p off v : Nat) : (s.setReg p off v).staged = s.staged := rfl
@[simp] theorem State.setReg_limits (p off v : Nat) : (s.setReg p off v).limits = s.limits := rfl
@[simp] theorem State.setReg_limStaged (p off v : Nat) : (s.setReg p off v).limStaged = s.limStaged := rfl
@[simp] theorem State.setReg_pages (p off v : Nat) : (s.setReg p off v).pages = s.pages := rfl
@[simp] theorem State.setReg_latch (p off v : Nat) : (s.setReg p off v).latch = s.latch := rfl
@[simp] theorem State.setReg_lowHeld (p off v : Nat) : (s.setReg p off v).lowHeld = s.lowHeld := rfl
@[simp] theorem State.setReg_ev (p off v : Nat) : (s.setReg p off v).ev = s.ev := rfl
@[simp] theorem State.setReg_out (p off v : Nat) : (s.setReg p off v).out = s.out := rfl
@[simp] theorem State.setReg_dev (p off v : Nat) : (s.setReg p off v).dev = s.dev := rfl
@[simp] theorem State.setReg_die (p off v : Nat) : (s.setReg p off v).die = s.die := rfl
@[simp] theorem State.setReg_mem (p off v : Nat) : (s.setReg p off v).mem = s.mem := rfl
@[simp] theorem State.setReg_prog (p off v : Nat) : (s.setReg p off v).prog = s.prog := rfl
@[simp] theorem State.setReg_intake (p off v : Nat) : (s.setReg p off v).intake = s.intake := rfl
@[simp] theorem State.setReg_kv (p off v : Nat) : (s.setReg p off v).kv = s.kv := rfl
@[simp] theorem State.setReg_mrd (p off v : Nat) : (s.setReg p off v).mrd = s.mrd := rfl
@[simp] theorem State.setReg_alm (p off v : Nat) : (s.setReg p off v).alm = s.alm := rfl
@[simp] theorem State.setReg_hbm (p off v : Nat) : (s.setReg p off v).hbm = s.hbm := rfl
@[simp] theorem State.setReg_host (p off v : Nat) : (s.setReg p off v).host = s.host := rfl
@[simp] theorem State.setReg_combs (p off v : Nat) : (s.setReg p off v).combs = s.combs := rfl
@[simp] theorem State.setReg_clk (p off v : Nat) : (s.setReg p off v).clk = s.clk := rfl
@[simp] theorem State.setReg_ldg (p off v : Nat) : (s.setReg p off v).ldg = s.ldg := rfl
@[simp] theorem State.setReg_mt (p off v : Nat) : (s.setReg p off v).mt = s.mt := rfl
@[simp] theorem State.setReg_st (p off v : Nat) : (s.setReg p off v).st = s.st := rfl
@[simp] theorem State.setReg_wt (p off v : Nat) : (s.setReg p off v).wt = s.wt := rfl
@[simp] theorem State.setReg_rt (p off v : Nat) : (s.setReg p off v).rt = s.rt := rfl
@[simp] theorem State.setReg_bt (p off v : Nat) : (s.setReg p off v).bt = s.bt := rfl
@[simp] theorem State.setReg_tre (p off v : Nat) : (s.setReg p off v).tre = s.tre := rfl
@[simp] theorem State.setReg_slc (p off v : Nat) : (s.setReg p off v).slc = s.slc := rfl
@[simp] theorem State.setReg_nv (p off v : Nat) : (s.setReg p off v).nv = s.nv := rfl
@[simp] theorem State.setReg_mgmt (p off v : Nat) : (s.setReg p off v).mgmt = s.mgmt := rfl
@[simp] theorem State.setReg_freeCtr (p off v : Nat) : (s.setReg p off v).freeCtr = s.freeCtr := rfl

/-! ### `updPage` changes the page headers only -/

@[simp] theorem State.updPage_pending (p : Nat) (f : PageSt → PageSt) : (s.updPage p f).pending = s.pending := rfl
@[simp] theorem State.updPage_regs (p : Nat) (f : PageSt → PageSt) : (s.updPage p f).regs = s.regs := rfl
@[simp] theorem State.updPage_staged (p : Nat) (f : PageSt → PageSt) : (s.updPage p f).staged = s.staged := rfl
@[simp] theorem State.updPage_limits (p : Nat) (f : PageSt → PageSt) : (s.updPage p f).limits = s.limits := rfl
@[simp] theorem State.updPage_limStaged (p : Nat) (f : PageSt → PageSt) : (s.updPage p f).limStaged = s.limStaged := rfl
@[simp] theorem State.updPage_latch (p : Nat) (f : PageSt → PageSt) : (s.updPage p f).latch = s.latch := rfl
@[simp] theorem State.updPage_lowHeld (p : Nat) (f : PageSt → PageSt) : (s.updPage p f).lowHeld = s.lowHeld := rfl
@[simp] theorem State.updPage_ev (p : Nat) (f : PageSt → PageSt) : (s.updPage p f).ev = s.ev := rfl
@[simp] theorem State.updPage_out (p : Nat) (f : PageSt → PageSt) : (s.updPage p f).out = s.out := rfl
@[simp] theorem State.updPage_dev (p : Nat) (f : PageSt → PageSt) : (s.updPage p f).dev = s.dev := rfl
@[simp] theorem State.updPage_die (p : Nat) (f : PageSt → PageSt) : (s.updPage p f).die = s.die := rfl
@[simp] theorem State.updPage_mem (p : Nat) (f : PageSt → PageSt) : (s.updPage p f).mem = s.mem := rfl
@[simp] theorem State.updPage_prog (p : Nat) (f : PageSt → PageSt) : (s.updPage p f).prog = s.prog := rfl
@[simp] theorem State.updPage_intake (p : Nat) (f : PageSt → PageSt) : (s.updPage p f).intake = s.intake := rfl
@[simp] theorem State.updPage_kv (p : Nat) (f : PageSt → PageSt) : (s.updPage p f).kv = s.kv := rfl
@[simp] theorem State.updPage_mrd (p : Nat) (f : PageSt → PageSt) : (s.updPage p f).mrd = s.mrd := rfl
@[simp] theorem State.updPage_alm (p : Nat) (f : PageSt → PageSt) : (s.updPage p f).alm = s.alm := rfl
@[simp] theorem State.updPage_hbm (p : Nat) (f : PageSt → PageSt) : (s.updPage p f).hbm = s.hbm := rfl
@[simp] theorem State.updPage_host (p : Nat) (f : PageSt → PageSt) : (s.updPage p f).host = s.host := rfl
@[simp] theorem State.updPage_combs (p : Nat) (f : PageSt → PageSt) : (s.updPage p f).combs = s.combs := rfl
@[simp] theorem State.updPage_clk (p : Nat) (f : PageSt → PageSt) : (s.updPage p f).clk = s.clk := rfl
@[simp] theorem State.updPage_ldg (p : Nat) (f : PageSt → PageSt) : (s.updPage p f).ldg = s.ldg := rfl
@[simp] theorem State.updPage_mt (p : Nat) (f : PageSt → PageSt) : (s.updPage p f).mt = s.mt := rfl
@[simp] theorem State.updPage_st (p : Nat) (f : PageSt → PageSt) : (s.updPage p f).st = s.st := rfl
@[simp] theorem State.updPage_wt (p : Nat) (f : PageSt → PageSt) : (s.updPage p f).wt = s.wt := rfl
@[simp] theorem State.updPage_rt (p : Nat) (f : PageSt → PageSt) : (s.updPage p f).rt = s.rt := rfl
@[simp] theorem State.updPage_bt (p : Nat) (f : PageSt → PageSt) : (s.updPage p f).bt = s.bt := rfl
@[simp] theorem State.updPage_tre (p : Nat) (f : PageSt → PageSt) : (s.updPage p f).tre = s.tre := rfl
@[simp] theorem State.updPage_slc (p : Nat) (f : PageSt → PageSt) : (s.updPage p f).slc = s.slc := rfl
@[simp] theorem State.updPage_nv (p : Nat) (f : PageSt → PageSt) : (s.updPage p f).nv = s.nv := rfl
@[simp] theorem State.updPage_mgmt (p : Nat) (f : PageSt → PageSt) : (s.updPage p f).mgmt = s.mgmt := rfl
@[simp] theorem State.updPage_freeCtr (p : Nat) (f : PageSt → PageSt) : (s.updPage p f).freeCtr = s.freeCtr := rfl

/-! ### `emit` changes the output trace only -/

@[simp] theorem State.emit_pending (o : Out) : (s.emit o).pending = s.pending := rfl
@[simp] theorem State.emit_regs (o : Out) : (s.emit o).regs = s.regs := rfl
@[simp] theorem State.emit_staged (o : Out) : (s.emit o).staged = s.staged := rfl
@[simp] theorem State.emit_limits (o : Out) : (s.emit o).limits = s.limits := rfl
@[simp] theorem State.emit_limStaged (o : Out) : (s.emit o).limStaged = s.limStaged := rfl
@[simp] theorem State.emit_pages (o : Out) : (s.emit o).pages = s.pages := rfl
@[simp] theorem State.emit_latch (o : Out) : (s.emit o).latch = s.latch := rfl
@[simp] theorem State.emit_lowHeld (o : Out) : (s.emit o).lowHeld = s.lowHeld := rfl
@[simp] theorem State.emit_ev (o : Out) : (s.emit o).ev = s.ev := rfl
@[simp] theorem State.emit_dev (o : Out) : (s.emit o).dev = s.dev := rfl
@[simp] theorem State.emit_die (o : Out) : (s.emit o).die = s.die := rfl
@[simp] theorem State.emit_mem (o : Out) : (s.emit o).mem = s.mem := rfl
@[simp] theorem State.emit_prog (o : Out) : (s.emit o).prog = s.prog := rfl
@[simp] theorem State.emit_intake (o : Out) : (s.emit o).intake = s.intake := rfl
@[simp] theorem State.emit_kv (o : Out) : (s.emit o).kv = s.kv := rfl
@[simp] theorem State.emit_mrd (o : Out) : (s.emit o).mrd = s.mrd := rfl
@[simp] theorem State.emit_alm (o : Out) : (s.emit o).alm = s.alm := rfl
@[simp] theorem State.emit_hbm (o : Out) : (s.emit o).hbm = s.hbm := rfl
@[simp] theorem State.emit_host (o : Out) : (s.emit o).host = s.host := rfl
@[simp] theorem State.emit_combs (o : Out) : (s.emit o).combs = s.combs := rfl
@[simp] theorem State.emit_clk (o : Out) : (s.emit o).clk = s.clk := rfl
@[simp] theorem State.emit_ldg (o : Out) : (s.emit o).ldg = s.ldg := rfl
@[simp] theorem State.emit_mt (o : Out) : (s.emit o).mt = s.mt := rfl
@[simp] theorem State.emit_st (o : Out) : (s.emit o).st = s.st := rfl
@[simp] theorem State.emit_wt (o : Out) : (s.emit o).wt = s.wt := rfl
@[simp] theorem State.emit_rt (o : Out) : (s.emit o).rt = s.rt := rfl
@[simp] theorem State.emit_bt (o : Out) : (s.emit o).bt = s.bt := rfl
@[simp] theorem State.emit_tre (o : Out) : (s.emit o).tre = s.tre := rfl
@[simp] theorem State.emit_slc (o : Out) : (s.emit o).slc = s.slc := rfl
@[simp] theorem State.emit_nv (o : Out) : (s.emit o).nv = s.nv := rfl
@[simp] theorem State.emit_mgmt (o : Out) : (s.emit o).mgmt = s.mgmt := rfl
@[simp] theorem State.emit_freeCtr (o : Out) : (s.emit o).freeCtr = s.freeCtr := rfl

/-! ### `updTile` changes the tiles only -/

@[simp] theorem State.updTile_pending (k : Nat) (f : TileSt → TileSt) : (s.updTile k f).pending = s.pending := rfl
@[simp] theorem State.updTile_regs (k : Nat) (f : TileSt → TileSt) : (s.updTile k f).regs = s.regs := rfl
@[simp] theorem State.updTile_staged (k : Nat) (f : TileSt → TileSt) : (s.updTile k f).staged = s.staged := rfl
@[simp] theorem State.updTile_limits (k : Nat) (f : TileSt → TileSt) : (s.updTile k f).limits = s.limits := rfl
@[simp] theorem State.updTile_limStaged (k : Nat) (f : TileSt → TileSt) : (s.updTile k f).limStaged = s.limStaged := rfl
@[simp] theorem State.updTile_pages (k : Nat) (f : TileSt → TileSt) : (s.updTile k f).pages = s.pages := rfl
@[simp] theorem State.updTile_latch (k : Nat) (f : TileSt → TileSt) : (s.updTile k f).latch = s.latch := rfl
@[simp] theorem State.updTile_lowHeld (k : Nat) (f : TileSt → TileSt) : (s.updTile k f).lowHeld = s.lowHeld := rfl
@[simp] theorem State.updTile_ev (k : Nat) (f : TileSt → TileSt) : (s.updTile k f).ev = s.ev := rfl
@[simp] theorem State.updTile_out (k : Nat) (f : TileSt → TileSt) : (s.updTile k f).out = s.out := rfl
@[simp] theorem State.updTile_dev (k : Nat) (f : TileSt → TileSt) : (s.updTile k f).dev = s.dev := rfl
@[simp] theorem State.updTile_mem (k : Nat) (f : TileSt → TileSt) : (s.updTile k f).mem = s.mem := rfl
@[simp] theorem State.updTile_prog (k : Nat) (f : TileSt → TileSt) : (s.updTile k f).prog = s.prog := rfl
@[simp] theorem State.updTile_intake (k : Nat) (f : TileSt → TileSt) : (s.updTile k f).intake = s.intake := rfl
@[simp] theorem State.updTile_kv (k : Nat) (f : TileSt → TileSt) : (s.updTile k f).kv = s.kv := rfl
@[simp] theorem State.updTile_mrd (k : Nat) (f : TileSt → TileSt) : (s.updTile k f).mrd = s.mrd := rfl
@[simp] theorem State.updTile_alm (k : Nat) (f : TileSt → TileSt) : (s.updTile k f).alm = s.alm := rfl
@[simp] theorem State.updTile_hbm (k : Nat) (f : TileSt → TileSt) : (s.updTile k f).hbm = s.hbm := rfl
@[simp] theorem State.updTile_host (k : Nat) (f : TileSt → TileSt) : (s.updTile k f).host = s.host := rfl
@[simp] theorem State.updTile_combs (k : Nat) (f : TileSt → TileSt) : (s.updTile k f).combs = s.combs := rfl
@[simp] theorem State.updTile_clk (k : Nat) (f : TileSt → TileSt) : (s.updTile k f).clk = s.clk := rfl
@[simp] theorem State.updTile_ldg (k : Nat) (f : TileSt → TileSt) : (s.updTile k f).ldg = s.ldg := rfl
@[simp] theorem State.updTile_mt (k : Nat) (f : TileSt → TileSt) : (s.updTile k f).mt = s.mt := rfl
@[simp] theorem State.updTile_st (k : Nat) (f : TileSt → TileSt) : (s.updTile k f).st = s.st := rfl
@[simp] theorem State.updTile_wt (k : Nat) (f : TileSt → TileSt) : (s.updTile k f).wt = s.wt := rfl
@[simp] theorem State.updTile_rt (k : Nat) (f : TileSt → TileSt) : (s.updTile k f).rt = s.rt := rfl
@[simp] theorem State.updTile_bt (k : Nat) (f : TileSt → TileSt) : (s.updTile k f).bt = s.bt := rfl
@[simp] theorem State.updTile_tre (k : Nat) (f : TileSt → TileSt) : (s.updTile k f).tre = s.tre := rfl
@[simp] theorem State.updTile_slc (k : Nat) (f : TileSt → TileSt) : (s.updTile k f).slc = s.slc := rfl
@[simp] theorem State.updTile_nv (k : Nat) (f : TileSt → TileSt) : (s.updTile k f).nv = s.nv := rfl
@[simp] theorem State.updTile_mgmt (k : Nat) (f : TileSt → TileSt) : (s.updTile k f).mgmt = s.mgmt := rfl
@[simp] theorem State.updTile_freeCtr (k : Nat) (f : TileSt → TileSt) : (s.updTile k f).freeCtr = s.freeCtr := rfl

/-! ### `updComb` changes the combs only -/

@[simp] theorem State.updComb_pending (k : Nat) (f : Comb → Comb) : (s.updComb k f).pending = s.pending := rfl
@[simp] theorem State.updComb_regs (k : Nat) (f : Comb → Comb) : (s.updComb k f).regs = s.regs := rfl
@[simp] theorem State.updComb_staged (k : Nat) (f : Comb → Comb) : (s.updComb k f).staged = s.staged := rfl
@[simp] theorem State.updComb_limits (k : Nat) (f : Comb → Comb) : (s.updComb k f).limits = s.limits := rfl
@[simp] theorem State.updComb_limStaged (k : Nat) (f : Comb → Comb) : (s.updComb k f).limStaged = s.limStaged := rfl
@[simp] theorem State.updComb_pages (k : Nat) (f : Comb → Comb) : (s.updComb k f).pages = s.pages := rfl
@[simp] theorem State.updComb_latch (k : Nat) (f : Comb → Comb) : (s.updComb k f).latch = s.latch := rfl
@[simp] theorem State.updComb_lowHeld (k : Nat) (f : Comb → Comb) : (s.updComb k f).lowHeld = s.lowHeld := rfl
@[simp] theorem State.updComb_ev (k : Nat) (f : Comb → Comb) : (s.updComb k f).ev = s.ev := rfl
@[simp] theorem State.updComb_out (k : Nat) (f : Comb → Comb) : (s.updComb k f).out = s.out := rfl
@[simp] theorem State.updComb_dev (k : Nat) (f : Comb → Comb) : (s.updComb k f).dev = s.dev := rfl
@[simp] theorem State.updComb_die (k : Nat) (f : Comb → Comb) : (s.updComb k f).die = s.die := rfl
@[simp] theorem State.updComb_mem (k : Nat) (f : Comb → Comb) : (s.updComb k f).mem = s.mem := rfl
@[simp] theorem State.updComb_prog (k : Nat) (f : Comb → Comb) : (s.updComb k f).prog = s.prog := rfl
@[simp] theorem State.updComb_intake (k : Nat) (f : Comb → Comb) : (s.updComb k f).intake = s.intake := rfl
@[simp] theorem State.updComb_kv (k : Nat) (f : Comb → Comb) : (s.updComb k f).kv = s.kv := rfl
@[simp] theorem State.updComb_mrd (k : Nat) (f : Comb → Comb) : (s.updComb k f).mrd = s.mrd := rfl
@[simp] theorem State.updComb_alm (k : Nat) (f : Comb → Comb) : (s.updComb k f).alm = s.alm := rfl
@[simp] theorem State.updComb_hbm (k : Nat) (f : Comb → Comb) : (s.updComb k f).hbm = s.hbm := rfl
@[simp] theorem State.updComb_host (k : Nat) (f : Comb → Comb) : (s.updComb k f).host = s.host := rfl
@[simp] theorem State.updComb_clk (k : Nat) (f : Comb → Comb) : (s.updComb k f).clk = s.clk := rfl
@[simp] theorem State.updComb_ldg (k : Nat) (f : Comb → Comb) : (s.updComb k f).ldg = s.ldg := rfl
@[simp] theorem State.updComb_mt (k : Nat) (f : Comb → Comb) : (s.updComb k f).mt = s.mt := rfl
@[simp] theorem State.updComb_st (k : Nat) (f : Comb → Comb) : (s.updComb k f).st = s.st := rfl
@[simp] theorem State.updComb_wt (k : Nat) (f : Comb → Comb) : (s.updComb k f).wt = s.wt := rfl
@[simp] theorem State.updComb_rt (k : Nat) (f : Comb → Comb) : (s.updComb k f).rt = s.rt := rfl
@[simp] theorem State.updComb_bt (k : Nat) (f : Comb → Comb) : (s.updComb k f).bt = s.bt := rfl
@[simp] theorem State.updComb_tre (k : Nat) (f : Comb → Comb) : (s.updComb k f).tre = s.tre := rfl
@[simp] theorem State.updComb_slc (k : Nat) (f : Comb → Comb) : (s.updComb k f).slc = s.slc := rfl
@[simp] theorem State.updComb_nv (k : Nat) (f : Comb → Comb) : (s.updComb k f).nv = s.nv := rfl
@[simp] theorem State.updComb_mgmt (k : Nat) (f : Comb → Comb) : (s.updComb k f).mgmt = s.mgmt := rfl
@[simp] theorem State.updComb_freeCtr (k : Nat) (f : Comb → Comb) : (s.updComb k f).freeCtr = s.freeCtr := rfl

/-! ### `updRun` changes the tile runs only -/

@[simp] theorem State.updRun_pending (k : Nat) (f : TileRun → TileRun) : (s.updRun k f).pending = s.pending := rfl
@[simp] theorem State.updRun_regs (k : Nat) (f : TileRun → TileRun) : (s.updRun k f).regs = s.regs := rfl
@[simp] theorem State.updRun_staged (k : Nat) (f : TileRun → TileRun) : (s.updRun k f).staged = s.staged := rfl
@[simp] theorem State.updRun_limits (k : Nat) (f : TileRun → TileRun) : (s.updRun k f).limits = s.limits := rfl
@[simp] theorem State.updRun_limStaged (k : Nat) (f : TileRun → TileRun) : (s.updRun k f).limStaged = s.limStaged := rfl
@[simp] theorem State.updRun_pages (k : Nat) (f : TileRun → TileRun) : (s.updRun k f).pages = s.pages := rfl
@[simp] theorem State.updRun_latch (k : Nat) (f : TileRun → TileRun) : (s.updRun k f).latch = s.latch := rfl
@[simp] theorem State.updRun_lowHeld (k : Nat) (f : TileRun → TileRun) : (s.updRun k f).lowHeld = s.lowHeld := rfl
@[simp] theorem State.updRun_ev (k : Nat) (f : TileRun → TileRun) : (s.updRun k f).ev = s.ev := rfl
@[simp] theorem State.updRun_out (k : Nat) (f : TileRun → TileRun) : (s.updRun k f).out = s.out := rfl
@[simp] theorem State.updRun_dev (k : Nat) (f : TileRun → TileRun) : (s.updRun k f).dev = s.dev := rfl
@[simp] theorem State.updRun_die (k : Nat) (f : TileRun → TileRun) : (s.updRun k f).die = s.die := rfl
@[simp] theorem State.updRun_mem (k : Nat) (f : TileRun → TileRun) : (s.updRun k f).mem = s.mem := rfl
@[simp] theorem State.updRun_intake (k : Nat) (f : TileRun → TileRun) : (s.updRun k f).intake = s.intake := rfl
@[simp] theorem State.updRun_kv (k : Nat) (f : TileRun → TileRun) : (s.updRun k f).kv = s.kv := rfl
@[simp] theorem State.updRun_mrd (k : Nat) (f : TileRun → TileRun) : (s.updRun k f).mrd = s.mrd := rfl
@[simp] theorem State.updRun_alm (k : Nat) (f : TileRun → TileRun) : (s.updRun k f).alm = s.alm := rfl
@[simp] theorem State.updRun_hbm (k : Nat) (f : TileRun → TileRun) : (s.updRun k f).hbm = s.hbm := rfl
@[simp] theorem State.updRun_host (k : Nat) (f : TileRun → TileRun) : (s.updRun k f).host = s.host := rfl
@[simp] theorem State.updRun_combs (k : Nat) (f : TileRun → TileRun) : (s.updRun k f).combs = s.combs := rfl
@[simp] theorem State.updRun_clk (k : Nat) (f : TileRun → TileRun) : (s.updRun k f).clk = s.clk := rfl
@[simp] theorem State.updRun_ldg (k : Nat) (f : TileRun → TileRun) : (s.updRun k f).ldg = s.ldg := rfl
@[simp] theorem State.updRun_mt (k : Nat) (f : TileRun → TileRun) : (s.updRun k f).mt = s.mt := rfl
@[simp] theorem State.updRun_st (k : Nat) (f : TileRun → TileRun) : (s.updRun k f).st = s.st := rfl
@[simp] theorem State.updRun_wt (k : Nat) (f : TileRun → TileRun) : (s.updRun k f).wt = s.wt := rfl
@[simp] theorem State.updRun_rt (k : Nat) (f : TileRun → TileRun) : (s.updRun k f).rt = s.rt := rfl
@[simp] theorem State.updRun_bt (k : Nat) (f : TileRun → TileRun) : (s.updRun k f).bt = s.bt := rfl
@[simp] theorem State.updRun_tre (k : Nat) (f : TileRun → TileRun) : (s.updRun k f).tre = s.tre := rfl
@[simp] theorem State.updRun_slc (k : Nat) (f : TileRun → TileRun) : (s.updRun k f).slc = s.slc := rfl
@[simp] theorem State.updRun_nv (k : Nat) (f : TileRun → TileRun) : (s.updRun k f).nv = s.nv := rfl
@[simp] theorem State.updRun_mgmt (k : Nat) (f : TileRun → TileRun) : (s.updRun k f).mgmt = s.mgmt := rfl
@[simp] theorem State.updRun_freeCtr (k : Nat) (f : TileRun → TileRun) : (s.updRun k f).freeCtr = s.freeCtr := rfl

/-! ### `updSlot` changes the image slots only -/

@[simp] theorem State.updSlot_pending (k : Nat) (f : Slot → Slot) : (s.updSlot k f).pending = s.pending := rfl
@[simp] theorem State.updSlot_regs (k : Nat) (f : Slot → Slot) : (s.updSlot k f).regs = s.regs := rfl
@[simp] theorem State.updSlot_staged (k : Nat) (f : Slot → Slot) : (s.updSlot k f).staged = s.staged := rfl
@[simp] theorem State.updSlot_limits (k : Nat) (f : Slot → Slot) : (s.updSlot k f).limits = s.limits := rfl
@[simp] theorem State.updSlot_limStaged (k : Nat) (f : Slot → Slot) : (s.updSlot k f).limStaged = s.limStaged := rfl
@[simp] theorem State.updSlot_pages (k : Nat) (f : Slot → Slot) : (s.updSlot k f).pages = s.pages := rfl
@[simp] theorem State.updSlot_latch (k : Nat) (f : Slot → Slot) : (s.updSlot k f).latch = s.latch := rfl
@[simp] theorem State.updSlot_lowHeld (k : Nat) (f : Slot → Slot) : (s.updSlot k f).lowHeld = s.lowHeld := rfl
@[simp] theorem State.updSlot_ev (k : Nat) (f : Slot → Slot) : (s.updSlot k f).ev = s.ev := rfl
@[simp] theorem State.updSlot_out (k : Nat) (f : Slot → Slot) : (s.updSlot k f).out = s.out := rfl
@[simp] theorem State.updSlot_dev (k : Nat) (f : Slot → Slot) : (s.updSlot k f).dev = s.dev := rfl
@[simp] theorem State.updSlot_die (k : Nat) (f : Slot → Slot) : (s.updSlot k f).die = s.die := rfl
@[simp] theorem State.updSlot_mem (k : Nat) (f : Slot → Slot) : (s.updSlot k f).mem = s.mem := rfl
@[simp] theorem State.updSlot_intake (k : Nat) (f : Slot → Slot) : (s.updSlot k f).intake = s.intake := rfl
@[simp] theorem State.updSlot_kv (k : Nat) (f : Slot → Slot) : (s.updSlot k f).kv = s.kv := rfl
@[simp] theorem State.updSlot_mrd (k : Nat) (f : Slot → Slot) : (s.updSlot k f).mrd = s.mrd := rfl
@[simp] theorem State.updSlot_alm (k : Nat) (f : Slot → Slot) : (s.updSlot k f).alm = s.alm := rfl
@[simp] theorem State.updSlot_hbm (k : Nat) (f : Slot → Slot) : (s.updSlot k f).hbm = s.hbm := rfl
@[simp] theorem State.updSlot_host (k : Nat) (f : Slot → Slot) : (s.updSlot k f).host = s.host := rfl
@[simp] theorem State.updSlot_combs (k : Nat) (f : Slot → Slot) : (s.updSlot k f).combs = s.combs := rfl
@[simp] theorem State.updSlot_clk (k : Nat) (f : Slot → Slot) : (s.updSlot k f).clk = s.clk := rfl
@[simp] theorem State.updSlot_ldg (k : Nat) (f : Slot → Slot) : (s.updSlot k f).ldg = s.ldg := rfl
@[simp] theorem State.updSlot_mt (k : Nat) (f : Slot → Slot) : (s.updSlot k f).mt = s.mt := rfl
@[simp] theorem State.updSlot_st (k : Nat) (f : Slot → Slot) : (s.updSlot k f).st = s.st := rfl
@[simp] theorem State.updSlot_wt (k : Nat) (f : Slot → Slot) : (s.updSlot k f).wt = s.wt := rfl
@[simp] theorem State.updSlot_rt (k : Nat) (f : Slot → Slot) : (s.updSlot k f).rt = s.rt := rfl
@[simp] theorem State.updSlot_bt (k : Nat) (f : Slot → Slot) : (s.updSlot k f).bt = s.bt := rfl
@[simp] theorem State.updSlot_tre (k : Nat) (f : Slot → Slot) : (s.updSlot k f).tre = s.tre := rfl
@[simp] theorem State.updSlot_slc (k : Nat) (f : Slot → Slot) : (s.updSlot k f).slc = s.slc := rfl
@[simp] theorem State.updSlot_nv (k : Nat) (f : Slot → Slot) : (s.updSlot k f).nv = s.nv := rfl
@[simp] theorem State.updSlot_mgmt (k : Nat) (f : Slot → Slot) : (s.updSlot k f).mgmt = s.mgmt := rfl
@[simp] theorem State.updSlot_freeCtr (k : Nat) (f : Slot → Slot) : (s.updSlot k f).freeCtr = s.freeCtr := rfl

/-! ### `updLaunch` changes the launches only -/

@[simp] theorem State.updLaunch_pending (k : Nat) (f : Launch → Launch) : (s.updLaunch k f).pending = s.pending := rfl
@[simp] theorem State.updLaunch_regs (k : Nat) (f : Launch → Launch) : (s.updLaunch k f).regs = s.regs := rfl
@[simp] theorem State.updLaunch_staged (k : Nat) (f : Launch → Launch) : (s.updLaunch k f).staged = s.staged := rfl
@[simp] theorem State.updLaunch_limits (k : Nat) (f : Launch → Launch) : (s.updLaunch k f).limits = s.limits := rfl
@[simp] theorem State.updLaunch_limStaged (k : Nat) (f : Launch → Launch) : (s.updLaunch k f).limStaged = s.limStaged := rfl
@[simp] theorem State.updLaunch_pages (k : Nat) (f : Launch → Launch) : (s.updLaunch k f).pages = s.pages := rfl
@[simp] theorem State.updLaunch_latch (k : Nat) (f : Launch → Launch) : (s.updLaunch k f).latch = s.latch := rfl
@[simp] theorem State.updLaunch_lowHeld (k : Nat) (f : Launch → Launch) : (s.updLaunch k f).lowHeld = s.lowHeld := rfl
@[simp] theorem State.updLaunch_ev (k : Nat) (f : Launch → Launch) : (s.updLaunch k f).ev = s.ev := rfl
@[simp] theorem State.updLaunch_out (k : Nat) (f : Launch → Launch) : (s.updLaunch k f).out = s.out := rfl
@[simp] theorem State.updLaunch_dev (k : Nat) (f : Launch → Launch) : (s.updLaunch k f).dev = s.dev := rfl
@[simp] theorem State.updLaunch_die (k : Nat) (f : Launch → Launch) : (s.updLaunch k f).die = s.die := rfl
@[simp] theorem State.updLaunch_mem (k : Nat) (f : Launch → Launch) : (s.updLaunch k f).mem = s.mem := rfl
@[simp] theorem State.updLaunch_intake (k : Nat) (f : Launch → Launch) : (s.updLaunch k f).intake = s.intake := rfl
@[simp] theorem State.updLaunch_kv (k : Nat) (f : Launch → Launch) : (s.updLaunch k f).kv = s.kv := rfl
@[simp] theorem State.updLaunch_mrd (k : Nat) (f : Launch → Launch) : (s.updLaunch k f).mrd = s.mrd := rfl
@[simp] theorem State.updLaunch_alm (k : Nat) (f : Launch → Launch) : (s.updLaunch k f).alm = s.alm := rfl
@[simp] theorem State.updLaunch_hbm (k : Nat) (f : Launch → Launch) : (s.updLaunch k f).hbm = s.hbm := rfl
@[simp] theorem State.updLaunch_host (k : Nat) (f : Launch → Launch) : (s.updLaunch k f).host = s.host := rfl
@[simp] theorem State.updLaunch_combs (k : Nat) (f : Launch → Launch) : (s.updLaunch k f).combs = s.combs := rfl
@[simp] theorem State.updLaunch_clk (k : Nat) (f : Launch → Launch) : (s.updLaunch k f).clk = s.clk := rfl
@[simp] theorem State.updLaunch_ldg (k : Nat) (f : Launch → Launch) : (s.updLaunch k f).ldg = s.ldg := rfl
@[simp] theorem State.updLaunch_mt (k : Nat) (f : Launch → Launch) : (s.updLaunch k f).mt = s.mt := rfl
@[simp] theorem State.updLaunch_st (k : Nat) (f : Launch → Launch) : (s.updLaunch k f).st = s.st := rfl
@[simp] theorem State.updLaunch_wt (k : Nat) (f : Launch → Launch) : (s.updLaunch k f).wt = s.wt := rfl
@[simp] theorem State.updLaunch_rt (k : Nat) (f : Launch → Launch) : (s.updLaunch k f).rt = s.rt := rfl
@[simp] theorem State.updLaunch_bt (k : Nat) (f : Launch → Launch) : (s.updLaunch k f).bt = s.bt := rfl
@[simp] theorem State.updLaunch_tre (k : Nat) (f : Launch → Launch) : (s.updLaunch k f).tre = s.tre := rfl
@[simp] theorem State.updLaunch_slc (k : Nat) (f : Launch → Launch) : (s.updLaunch k f).slc = s.slc := rfl
@[simp] theorem State.updLaunch_nv (k : Nat) (f : Launch → Launch) : (s.updLaunch k f).nv = s.nv := rfl
@[simp] theorem State.updLaunch_mgmt (k : Nat) (f : Launch → Launch) : (s.updLaunch k f).mgmt = s.mgmt := rfl
@[simp] theorem State.updLaunch_freeCtr (k : Nat) (f : Launch → Launch) : (s.updLaunch k f).freeCtr = s.freeCtr := rfl

/-! ### `updStep` changes the steps in flight only -/

@[simp] theorem State.updStep_pending (k : Nat) (f : StepRec → StepRec) : (s.updStep k f).pending = s.pending := rfl
@[simp] theorem State.updStep_regs (k : Nat) (f : StepRec → StepRec) : (s.updStep k f).regs = s.regs := rfl
@[simp] theorem State.updStep_staged (k : Nat) (f : StepRec → StepRec) : (s.updStep k f).staged = s.staged := rfl
@[simp] theorem State.updStep_limits (k : Nat) (f : StepRec → StepRec) : (s.updStep k f).limits = s.limits := rfl
@[simp] theorem State.updStep_limStaged (k : Nat) (f : StepRec → StepRec) : (s.updStep k f).limStaged = s.limStaged := rfl
@[simp] theorem State.updStep_pages (k : Nat) (f : StepRec → StepRec) : (s.updStep k f).pages = s.pages := rfl
@[simp] theorem State.updStep_latch (k : Nat) (f : StepRec → StepRec) : (s.updStep k f).latch = s.latch := rfl
@[simp] theorem State.updStep_lowHeld (k : Nat) (f : StepRec → StepRec) : (s.updStep k f).lowHeld = s.lowHeld := rfl
@[simp] theorem State.updStep_ev (k : Nat) (f : StepRec → StepRec) : (s.updStep k f).ev = s.ev := rfl
@[simp] theorem State.updStep_out (k : Nat) (f : StepRec → StepRec) : (s.updStep k f).out = s.out := rfl
@[simp] theorem State.updStep_dev (k : Nat) (f : StepRec → StepRec) : (s.updStep k f).dev = s.dev := rfl
@[simp] theorem State.updStep_die (k : Nat) (f : StepRec → StepRec) : (s.updStep k f).die = s.die := rfl
@[simp] theorem State.updStep_mem (k : Nat) (f : StepRec → StepRec) : (s.updStep k f).mem = s.mem := rfl
@[simp] theorem State.updStep_prog (k : Nat) (f : StepRec → StepRec) : (s.updStep k f).prog = s.prog := rfl
@[simp] theorem State.updStep_intake (k : Nat) (f : StepRec → StepRec) : (s.updStep k f).intake = s.intake := rfl
@[simp] theorem State.updStep_kv (k : Nat) (f : StepRec → StepRec) : (s.updStep k f).kv = s.kv := rfl
@[simp] theorem State.updStep_alm (k : Nat) (f : StepRec → StepRec) : (s.updStep k f).alm = s.alm := rfl
@[simp] theorem State.updStep_hbm (k : Nat) (f : StepRec → StepRec) : (s.updStep k f).hbm = s.hbm := rfl
@[simp] theorem State.updStep_host (k : Nat) (f : StepRec → StepRec) : (s.updStep k f).host = s.host := rfl
@[simp] theorem State.updStep_combs (k : Nat) (f : StepRec → StepRec) : (s.updStep k f).combs = s.combs := rfl
@[simp] theorem State.updStep_clk (k : Nat) (f : StepRec → StepRec) : (s.updStep k f).clk = s.clk := rfl
@[simp] theorem State.updStep_ldg (k : Nat) (f : StepRec → StepRec) : (s.updStep k f).ldg = s.ldg := rfl
@[simp] theorem State.updStep_mt (k : Nat) (f : StepRec → StepRec) : (s.updStep k f).mt = s.mt := rfl
@[simp] theorem State.updStep_st (k : Nat) (f : StepRec → StepRec) : (s.updStep k f).st = s.st := rfl
@[simp] theorem State.updStep_wt (k : Nat) (f : StepRec → StepRec) : (s.updStep k f).wt = s.wt := rfl
@[simp] theorem State.updStep_rt (k : Nat) (f : StepRec → StepRec) : (s.updStep k f).rt = s.rt := rfl
@[simp] theorem State.updStep_bt (k : Nat) (f : StepRec → StepRec) : (s.updStep k f).bt = s.bt := rfl
@[simp] theorem State.updStep_tre (k : Nat) (f : StepRec → StepRec) : (s.updStep k f).tre = s.tre := rfl
@[simp] theorem State.updStep_slc (k : Nat) (f : StepRec → StepRec) : (s.updStep k f).slc = s.slc := rfl
@[simp] theorem State.updStep_nv (k : Nat) (f : StepRec → StepRec) : (s.updStep k f).nv = s.nv := rfl
@[simp] theorem State.updStep_mgmt (k : Nat) (f : StepRec → StepRec) : (s.updStep k f).mgmt = s.mgmt := rfl
@[simp] theorem State.updStep_freeCtr (k : Nat) (f : StepRec → StepRec) : (s.updStep k f).freeCtr = s.freeCtr := rfl

/-! ### `updM` changes the M tiles only -/

@[simp] theorem State.updM_pending (k : Nat) (f : MTile → MTile) : (s.updM k f).pending = s.pending := rfl
@[simp] theorem State.updM_regs (k : Nat) (f : MTile → MTile) : (s.updM k f).regs = s.regs := rfl
@[simp] theorem State.updM_staged (k : Nat) (f : MTile → MTile) : (s.updM k f).staged = s.staged := rfl
@[simp] theorem State.updM_limits (k : Nat) (f : MTile → MTile) : (s.updM k f).limits = s.limits := rfl
@[simp] theorem State.updM_limStaged (k : Nat) (f : MTile → MTile) : (s.updM k f).limStaged = s.limStaged := rfl
@[simp] theorem State.updM_pages (k : Nat) (f : MTile → MTile) : (s.updM k f).pages = s.pages := rfl
@[simp] theorem State.updM_latch (k : Nat) (f : MTile → MTile) : (s.updM k f).latch = s.latch := rfl
@[simp] theorem State.updM_lowHeld (k : Nat) (f : MTile → MTile) : (s.updM k f).lowHeld = s.lowHeld := rfl
@[simp] theorem State.updM_ev (k : Nat) (f : MTile → MTile) : (s.updM k f).ev = s.ev := rfl
@[simp] theorem State.updM_out (k : Nat) (f : MTile → MTile) : (s.updM k f).out = s.out := rfl
@[simp] theorem State.updM_dev (k : Nat) (f : MTile → MTile) : (s.updM k f).dev = s.dev := rfl
@[simp] theorem State.updM_die (k : Nat) (f : MTile → MTile) : (s.updM k f).die = s.die := rfl
@[simp] theorem State.updM_mem (k : Nat) (f : MTile → MTile) : (s.updM k f).mem = s.mem := rfl
@[simp] theorem State.updM_prog (k : Nat) (f : MTile → MTile) : (s.updM k f).prog = s.prog := rfl
@[simp] theorem State.updM_intake (k : Nat) (f : MTile → MTile) : (s.updM k f).intake = s.intake := rfl
@[simp] theorem State.updM_kv (k : Nat) (f : MTile → MTile) : (s.updM k f).kv = s.kv := rfl
@[simp] theorem State.updM_mrd (k : Nat) (f : MTile → MTile) : (s.updM k f).mrd = s.mrd := rfl
@[simp] theorem State.updM_alm (k : Nat) (f : MTile → MTile) : (s.updM k f).alm = s.alm := rfl
@[simp] theorem State.updM_hbm (k : Nat) (f : MTile → MTile) : (s.updM k f).hbm = s.hbm := rfl
@[simp] theorem State.updM_host (k : Nat) (f : MTile → MTile) : (s.updM k f).host = s.host := rfl
@[simp] theorem State.updM_combs (k : Nat) (f : MTile → MTile) : (s.updM k f).combs = s.combs := rfl
@[simp] theorem State.updM_clk (k : Nat) (f : MTile → MTile) : (s.updM k f).clk = s.clk := rfl
@[simp] theorem State.updM_ldg (k : Nat) (f : MTile → MTile) : (s.updM k f).ldg = s.ldg := rfl
@[simp] theorem State.updM_st (k : Nat) (f : MTile → MTile) : (s.updM k f).st = s.st := rfl
@[simp] theorem State.updM_wt (k : Nat) (f : MTile → MTile) : (s.updM k f).wt = s.wt := rfl
@[simp] theorem State.updM_rt (k : Nat) (f : MTile → MTile) : (s.updM k f).rt = s.rt := rfl
@[simp] theorem State.updM_bt (k : Nat) (f : MTile → MTile) : (s.updM k f).bt = s.bt := rfl
@[simp] theorem State.updM_tre (k : Nat) (f : MTile → MTile) : (s.updM k f).tre = s.tre := rfl
@[simp] theorem State.updM_slc (k : Nat) (f : MTile → MTile) : (s.updM k f).slc = s.slc := rfl
@[simp] theorem State.updM_nv (k : Nat) (f : MTile → MTile) : (s.updM k f).nv = s.nv := rfl
@[simp] theorem State.updM_mgmt (k : Nat) (f : MTile → MTile) : (s.updM k f).mgmt = s.mgmt := rfl
@[simp] theorem State.updM_freeCtr (k : Nat) (f : MTile → MTile) : (s.updM k f).freeCtr = s.freeCtr := rfl

/-! ### `updS` changes the S tiles only -/

@[simp] theorem State.updS_pending (k : Nat) (f : STile → STile) : (s.updS k f).pending = s.pending := rfl
@[simp] theorem State.updS_regs (k : Nat) (f : STile → STile) : (s.updS k f).regs = s.regs := rfl
@[simp] theorem State.updS_staged (k : Nat) (f : STile → STile) : (s.updS k f).staged = s.staged := rfl
@[simp] theorem State.updS_limits (k : Nat) (f : STile → STile) : (s.updS k f).limits = s.limits := rfl
@[simp] theorem State.updS_limStaged (k : Nat) (f : STile → STile) : (s.updS k f).limStaged = s.limStaged := rfl
@[simp] theorem State.updS_pages (k : Nat) (f : STile → STile) : (s.updS k f).pages = s.pages := rfl
@[simp] theorem State.updS_latch (k : Nat) (f : STile → STile) : (s.updS k f).latch = s.latch := rfl
@[simp] theorem State.updS_lowHeld (k : Nat) (f : STile → STile) : (s.updS k f).lowHeld = s.lowHeld := rfl
@[simp] theorem State.updS_ev (k : Nat) (f : STile → STile) : (s.updS k f).ev = s.ev := rfl
@[simp] theorem State.updS_out (k : Nat) (f : STile → STile) : (s.updS k f).out = s.out := rfl
@[simp] theorem State.updS_dev (k : Nat) (f : STile → STile) : (s.updS k f).dev = s.dev := rfl
@[simp] theorem State.updS_die (k : Nat) (f : STile → STile) : (s.updS k f).die = s.die := rfl
@[simp] theorem State.updS_mem (k : Nat) (f : STile → STile) : (s.updS k f).mem = s.mem := rfl
@[simp] theorem State.updS_prog (k : Nat) (f : STile → STile) : (s.updS k f).prog = s.prog := rfl
@[simp] theorem State.updS_intake (k : Nat) (f : STile → STile) : (s.updS k f).intake = s.intake := rfl
@[simp] theorem State.updS_kv (k : Nat) (f : STile → STile) : (s.updS k f).kv = s.kv := rfl
@[simp] theorem State.updS_mrd (k : Nat) (f : STile → STile) : (s.updS k f).mrd = s.mrd := rfl
@[simp] theorem State.updS_alm (k : Nat) (f : STile → STile) : (s.updS k f).alm = s.alm := rfl
@[simp] theorem State.updS_hbm (k : Nat) (f : STile → STile) : (s.updS k f).hbm = s.hbm := rfl
@[simp] theorem State.updS_host (k : Nat) (f : STile → STile) : (s.updS k f).host = s.host := rfl
@[simp] theorem State.updS_combs (k : Nat) (f : STile → STile) : (s.updS k f).combs = s.combs := rfl
@[simp] theorem State.updS_clk (k : Nat) (f : STile → STile) : (s.updS k f).clk = s.clk := rfl
@[simp] theorem State.updS_ldg (k : Nat) (f : STile → STile) : (s.updS k f).ldg = s.ldg := rfl
@[simp] theorem State.updS_mt (k : Nat) (f : STile → STile) : (s.updS k f).mt = s.mt := rfl
@[simp] theorem State.updS_wt (k : Nat) (f : STile → STile) : (s.updS k f).wt = s.wt := rfl
@[simp] theorem State.updS_rt (k : Nat) (f : STile → STile) : (s.updS k f).rt = s.rt := rfl
@[simp] theorem State.updS_bt (k : Nat) (f : STile → STile) : (s.updS k f).bt = s.bt := rfl
@[simp] theorem State.updS_tre (k : Nat) (f : STile → STile) : (s.updS k f).tre = s.tre := rfl
@[simp] theorem State.updS_slc (k : Nat) (f : STile → STile) : (s.updS k f).slc = s.slc := rfl
@[simp] theorem State.updS_nv (k : Nat) (f : STile → STile) : (s.updS k f).nv = s.nv := rfl
@[simp] theorem State.updS_mgmt (k : Nat) (f : STile → STile) : (s.updS k f).mgmt = s.mgmt := rfl
@[simp] theorem State.updS_freeCtr (k : Nat) (f : STile → STile) : (s.updS k f).freeCtr = s.freeCtr := rfl

/-! ### `updW` changes the W tiles only -/

@[simp] theorem State.updW_pending (k : Nat) (f : WTile → WTile) : (s.updW k f).pending = s.pending := rfl
@[simp] theorem State.updW_regs (k : Nat) (f : WTile → WTile) : (s.updW k f).regs = s.regs := rfl
@[simp] theorem State.updW_staged (k : Nat) (f : WTile → WTile) : (s.updW k f).staged = s.staged := rfl
@[simp] theorem State.updW_limits (k : Nat) (f : WTile → WTile) : (s.updW k f).limits = s.limits := rfl
@[simp] theorem State.updW_limStaged (k : Nat) (f : WTile → WTile) : (s.updW k f).limStaged = s.limStaged := rfl
@[simp] theorem State.updW_pages (k : Nat) (f : WTile → WTile) : (s.updW k f).pages = s.pages := rfl
@[simp] theorem State.updW_latch (k : Nat) (f : WTile → WTile) : (s.updW k f).latch = s.latch := rfl
@[simp] theorem State.updW_lowHeld (k : Nat) (f : WTile → WTile) : (s.updW k f).lowHeld = s.lowHeld := rfl
@[simp] theorem State.updW_ev (k : Nat) (f : WTile → WTile) : (s.updW k f).ev = s.ev := rfl
@[simp] theorem State.updW_out (k : Nat) (f : WTile → WTile) : (s.updW k f).out = s.out := rfl
@[simp] theorem State.updW_dev (k : Nat) (f : WTile → WTile) : (s.updW k f).dev = s.dev := rfl
@[simp] theorem State.updW_die (k : Nat) (f : WTile → WTile) : (s.updW k f).die = s.die := rfl
@[simp] theorem State.updW_mem (k : Nat) (f : WTile → WTile) : (s.updW k f).mem = s.mem := rfl
@[simp] theorem State.updW_prog (k : Nat) (f : WTile → WTile) : (s.updW k f).prog = s.prog := rfl
@[simp] theorem State.updW_intake (k : Nat) (f : WTile → WTile) : (s.updW k f).intake = s.intake := rfl
@[simp] theorem State.updW_kv (k : Nat) (f : WTile → WTile) : (s.updW k f).kv = s.kv := rfl
@[simp] theorem State.updW_mrd (k : Nat) (f : WTile → WTile) : (s.updW k f).mrd = s.mrd := rfl
@[simp] theorem State.updW_alm (k : Nat) (f : WTile → WTile) : (s.updW k f).alm = s.alm := rfl
@[simp] theorem State.updW_hbm (k : Nat) (f : WTile → WTile) : (s.updW k f).hbm = s.hbm := rfl
@[simp] theorem State.updW_host (k : Nat) (f : WTile → WTile) : (s.updW k f).host = s.host := rfl
@[simp] theorem State.updW_combs (k : Nat) (f : WTile → WTile) : (s.updW k f).combs = s.combs := rfl
@[simp] theorem State.updW_clk (k : Nat) (f : WTile → WTile) : (s.updW k f).clk = s.clk := rfl
@[simp] theorem State.updW_ldg (k : Nat) (f : WTile → WTile) : (s.updW k f).ldg = s.ldg := rfl
@[simp] theorem State.updW_mt (k : Nat) (f : WTile → WTile) : (s.updW k f).mt = s.mt := rfl
@[simp] theorem State.updW_st (k : Nat) (f : WTile → WTile) : (s.updW k f).st = s.st := rfl
@[simp] theorem State.updW_rt (k : Nat) (f : WTile → WTile) : (s.updW k f).rt = s.rt := rfl
@[simp] theorem State.updW_bt (k : Nat) (f : WTile → WTile) : (s.updW k f).bt = s.bt := rfl
@[simp] theorem State.updW_tre (k : Nat) (f : WTile → WTile) : (s.updW k f).tre = s.tre := rfl
@[simp] theorem State.updW_slc (k : Nat) (f : WTile → WTile) : (s.updW k f).slc = s.slc := rfl
@[simp] theorem State.updW_nv (k : Nat) (f : WTile → WTile) : (s.updW k f).nv = s.nv := rfl
@[simp] theorem State.updW_mgmt (k : Nat) (f : WTile → WTile) : (s.updW k f).mgmt = s.mgmt := rfl
@[simp] theorem State.updW_freeCtr (k : Nat) (f : WTile → WTile) : (s.updW k f).freeCtr = s.freeCtr := rfl

/-! ### `updR` changes the routers only -/

@[simp] theorem State.updR_pending (k : Nat) (f : Router → Router) : (s.updR k f).pending = s.pending := rfl
@[simp] theorem State.updR_regs (k : Nat) (f : Router → Router) : (s.updR k f).regs = s.regs := rfl
@[simp] theorem State.updR_staged (k : Nat) (f : Router → Router) : (s.updR k f).staged = s.staged := rfl
@[simp] theorem State.updR_limits (k : Nat) (f : Router → Router) : (s.updR k f).limits = s.limits := rfl
@[simp] theorem State.updR_limStaged (k : Nat) (f : Router → Router) : (s.updR k f).limStaged = s.limStaged := rfl
@[simp] theorem State.updR_pages (k : Nat) (f : Router → Router) : (s.updR k f).pages = s.pages := rfl
@[simp] theorem State.updR_latch (k : Nat) (f : Router → Router) : (s.updR k f).latch = s.latch := rfl
@[simp] theorem State.updR_lowHeld (k : Nat) (f : Router → Router) : (s.updR k f).lowHeld = s.lowHeld := rfl
@[simp] theorem State.updR_ev (k : Nat) (f : Router → Router) : (s.updR k f).ev = s.ev := rfl
@[simp] theorem State.updR_out (k : Nat) (f : Router → Router) : (s.updR k f).out = s.out := rfl
@[simp] theorem State.updR_dev (k : Nat) (f : Router → Router) : (s.updR k f).dev = s.dev := rfl
@[simp] theorem State.updR_die (k : Nat) (f : Router → Router) : (s.updR k f).die = s.die := rfl
@[simp] theorem State.updR_mem (k : Nat) (f : Router → Router) : (s.updR k f).mem = s.mem := rfl
@[simp] theorem State.updR_prog (k : Nat) (f : Router → Router) : (s.updR k f).prog = s.prog := rfl
@[simp] theorem State.updR_intake (k : Nat) (f : Router → Router) : (s.updR k f).intake = s.intake := rfl
@[simp] theorem State.updR_kv (k : Nat) (f : Router → Router) : (s.updR k f).kv = s.kv := rfl
@[simp] theorem State.updR_mrd (k : Nat) (f : Router → Router) : (s.updR k f).mrd = s.mrd := rfl
@[simp] theorem State.updR_alm (k : Nat) (f : Router → Router) : (s.updR k f).alm = s.alm := rfl
@[simp] theorem State.updR_hbm (k : Nat) (f : Router → Router) : (s.updR k f).hbm = s.hbm := rfl
@[simp] theorem State.updR_host (k : Nat) (f : Router → Router) : (s.updR k f).host = s.host := rfl
@[simp] theorem State.updR_combs (k : Nat) (f : Router → Router) : (s.updR k f).combs = s.combs := rfl
@[simp] theorem State.updR_clk (k : Nat) (f : Router → Router) : (s.updR k f).clk = s.clk := rfl
@[simp] theorem State.updR_ldg (k : Nat) (f : Router → Router) : (s.updR k f).ldg = s.ldg := rfl
@[simp] theorem State.updR_mt (k : Nat) (f : Router → Router) : (s.updR k f).mt = s.mt := rfl
@[simp] theorem State.updR_st (k : Nat) (f : Router → Router) : (s.updR k f).st = s.st := rfl
@[simp] theorem State.updR_wt (k : Nat) (f : Router → Router) : (s.updR k f).wt = s.wt := rfl
@[simp] theorem State.updR_bt (k : Nat) (f : Router → Router) : (s.updR k f).bt = s.bt := rfl
@[simp] theorem State.updR_tre (k : Nat) (f : Router → Router) : (s.updR k f).tre = s.tre := rfl
@[simp] theorem State.updR_slc (k : Nat) (f : Router → Router) : (s.updR k f).slc = s.slc := rfl
@[simp] theorem State.updR_nv (k : Nat) (f : Router → Router) : (s.updR k f).nv = s.nv := rfl
@[simp] theorem State.updR_mgmt (k : Nat) (f : Router → Router) : (s.updR k f).mgmt = s.mgmt := rfl
@[simp] theorem State.updR_freeCtr (k : Nat) (f : Router → Router) : (s.updR k f).freeCtr = s.freeCtr := rfl

/-! ### `updB` changes the B tiles only -/

@[simp] theorem State.updB_pending (k : Nat) (f : BTile → BTile) : (s.updB k f).pending = s.pending := rfl
@[simp] theorem State.updB_regs (k : Nat) (f : BTile → BTile) : (s.updB k f).regs = s.regs := rfl
@[simp] theorem State.updB_staged (k : Nat) (f : BTile → BTile) : (s.updB k f).staged = s.staged := rfl
@[simp] theorem State.updB_limits (k : Nat) (f : BTile → BTile) : (s.updB k f).limits = s.limits := rfl
@[simp] theorem State.updB_limStaged (k : Nat) (f : BTile → BTile) : (s.updB k f).limStaged = s.limStaged := rfl
@[simp] theorem State.updB_pages (k : Nat) (f : BTile → BTile) : (s.updB k f).pages = s.pages := rfl
@[simp] theorem State.updB_latch (k : Nat) (f : BTile → BTile) : (s.updB k f).latch = s.latch := rfl
@[simp] theorem State.updB_lowHeld (k : Nat) (f : BTile → BTile) : (s.updB k f).lowHeld = s.lowHeld := rfl
@[simp] theorem State.updB_ev (k : Nat) (f : BTile → BTile) : (s.updB k f).ev = s.ev := rfl
@[simp] theorem State.updB_out (k : Nat) (f : BTile → BTile) : (s.updB k f).out = s.out := rfl
@[simp] theorem State.updB_dev (k : Nat) (f : BTile → BTile) : (s.updB k f).dev = s.dev := rfl
@[simp] theorem State.updB_die (k : Nat) (f : BTile → BTile) : (s.updB k f).die = s.die := rfl
@[simp] theorem State.updB_mem (k : Nat) (f : BTile → BTile) : (s.updB k f).mem = s.mem := rfl
@[simp] theorem State.updB_prog (k : Nat) (f : BTile → BTile) : (s.updB k f).prog = s.prog := rfl
@[simp] theorem State.updB_intake (k : Nat) (f : BTile → BTile) : (s.updB k f).intake = s.intake := rfl
@[simp] theorem State.updB_kv (k : Nat) (f : BTile → BTile) : (s.updB k f).kv = s.kv := rfl
@[simp] theorem State.updB_mrd (k : Nat) (f : BTile → BTile) : (s.updB k f).mrd = s.mrd := rfl
@[simp] theorem State.updB_alm (k : Nat) (f : BTile → BTile) : (s.updB k f).alm = s.alm := rfl
@[simp] theorem State.updB_hbm (k : Nat) (f : BTile → BTile) : (s.updB k f).hbm = s.hbm := rfl
@[simp] theorem State.updB_host (k : Nat) (f : BTile → BTile) : (s.updB k f).host = s.host := rfl
@[simp] theorem State.updB_combs (k : Nat) (f : BTile → BTile) : (s.updB k f).combs = s.combs := rfl
@[simp] theorem State.updB_clk (k : Nat) (f : BTile → BTile) : (s.updB k f).clk = s.clk := rfl
@[simp] theorem State.updB_ldg (k : Nat) (f : BTile → BTile) : (s.updB k f).ldg = s.ldg := rfl
@[simp] theorem State.updB_mt (k : Nat) (f : BTile → BTile) : (s.updB k f).mt = s.mt := rfl
@[simp] theorem State.updB_st (k : Nat) (f : BTile → BTile) : (s.updB k f).st = s.st := rfl
@[simp] theorem State.updB_wt (k : Nat) (f : BTile → BTile) : (s.updB k f).wt = s.wt := rfl
@[simp] theorem State.updB_rt (k : Nat) (f : BTile → BTile) : (s.updB k f).rt = s.rt := rfl
@[simp] theorem State.updB_tre (k : Nat) (f : BTile → BTile) : (s.updB k f).tre = s.tre := rfl
@[simp] theorem State.updB_slc (k : Nat) (f : BTile → BTile) : (s.updB k f).slc = s.slc := rfl
@[simp] theorem State.updB_nv (k : Nat) (f : BTile → BTile) : (s.updB k f).nv = s.nv := rfl
@[simp] theorem State.updB_mgmt (k : Nat) (f : BTile → BTile) : (s.updB k f).mgmt = s.mgmt := rfl
@[simp] theorem State.updB_freeCtr (k : Nat) (f : BTile → BTile) : (s.updB k f).freeCtr = s.freeCtr := rfl

/-! ### `updStack` changes the stacks only -/

@[simp] theorem State.updStack_pending (k : Nat) (f : Stack → Stack) : (s.updStack k f).pending = s.pending := rfl
@[simp] theorem State.updStack_regs (k : Nat) (f : Stack → Stack) : (s.updStack k f).regs = s.regs := rfl
@[simp] theorem State.updStack_staged (k : Nat) (f : Stack → Stack) : (s.updStack k f).staged = s.staged := rfl
@[simp] theorem State.updStack_limits (k : Nat) (f : Stack → Stack) : (s.updStack k f).limits = s.limits := rfl
@[simp] theorem State.updStack_limStaged (k : Nat) (f : Stack → Stack) : (s.updStack k f).limStaged = s.limStaged := rfl
@[simp] theorem State.updStack_pages (k : Nat) (f : Stack → Stack) : (s.updStack k f).pages = s.pages := rfl
@[simp] theorem State.updStack_latch (k : Nat) (f : Stack → Stack) : (s.updStack k f).latch = s.latch := rfl
@[simp] theorem State.updStack_lowHeld (k : Nat) (f : Stack → Stack) : (s.updStack k f).lowHeld = s.lowHeld := rfl
@[simp] theorem State.updStack_ev (k : Nat) (f : Stack → Stack) : (s.updStack k f).ev = s.ev := rfl
@[simp] theorem State.updStack_out (k : Nat) (f : Stack → Stack) : (s.updStack k f).out = s.out := rfl
@[simp] theorem State.updStack_dev (k : Nat) (f : Stack → Stack) : (s.updStack k f).dev = s.dev := rfl
@[simp] theorem State.updStack_die (k : Nat) (f : Stack → Stack) : (s.updStack k f).die = s.die := rfl
@[simp] theorem State.updStack_mem (k : Nat) (f : Stack → Stack) : (s.updStack k f).mem = s.mem := rfl
@[simp] theorem State.updStack_prog (k : Nat) (f : Stack → Stack) : (s.updStack k f).prog = s.prog := rfl
@[simp] theorem State.updStack_intake (k : Nat) (f : Stack → Stack) : (s.updStack k f).intake = s.intake := rfl
@[simp] theorem State.updStack_kv (k : Nat) (f : Stack → Stack) : (s.updStack k f).kv = s.kv := rfl
@[simp] theorem State.updStack_mrd (k : Nat) (f : Stack → Stack) : (s.updStack k f).mrd = s.mrd := rfl
@[simp] theorem State.updStack_alm (k : Nat) (f : Stack → Stack) : (s.updStack k f).alm = s.alm := rfl
@[simp] theorem State.updStack_host (k : Nat) (f : Stack → Stack) : (s.updStack k f).host = s.host := rfl
@[simp] theorem State.updStack_combs (k : Nat) (f : Stack → Stack) : (s.updStack k f).combs = s.combs := rfl
@[simp] theorem State.updStack_clk (k : Nat) (f : Stack → Stack) : (s.updStack k f).clk = s.clk := rfl
@[simp] theorem State.updStack_ldg (k : Nat) (f : Stack → Stack) : (s.updStack k f).ldg = s.ldg := rfl
@[simp] theorem State.updStack_mt (k : Nat) (f : Stack → Stack) : (s.updStack k f).mt = s.mt := rfl
@[simp] theorem State.updStack_st (k : Nat) (f : Stack → Stack) : (s.updStack k f).st = s.st := rfl
@[simp] theorem State.updStack_wt (k : Nat) (f : Stack → Stack) : (s.updStack k f).wt = s.wt := rfl
@[simp] theorem State.updStack_rt (k : Nat) (f : Stack → Stack) : (s.updStack k f).rt = s.rt := rfl
@[simp] theorem State.updStack_bt (k : Nat) (f : Stack → Stack) : (s.updStack k f).bt = s.bt := rfl
@[simp] theorem State.updStack_tre (k : Nat) (f : Stack → Stack) : (s.updStack k f).tre = s.tre := rfl
@[simp] theorem State.updStack_slc (k : Nat) (f : Stack → Stack) : (s.updStack k f).slc = s.slc := rfl
@[simp] theorem State.updStack_nv (k : Nat) (f : Stack → Stack) : (s.updStack k f).nv = s.nv := rfl
@[simp] theorem State.updStack_mgmt (k : Nat) (f : Stack → Stack) : (s.updStack k f).mgmt = s.mgmt := rfl
@[simp] theorem State.updStack_freeCtr (k : Nat) (f : Stack → Stack) : (s.updStack k f).freeCtr = s.freeCtr := rfl

/-! ### `updTP` changes the Treath ports only -/

@[simp] theorem State.updTP_pending (k : Nat) (f : TPort → TPort) : (s.updTP k f).pending = s.pending := rfl
@[simp] theorem State.updTP_regs (k : Nat) (f : TPort → TPort) : (s.updTP k f).regs = s.regs := rfl
@[simp] theorem State.updTP_staged (k : Nat) (f : TPort → TPort) : (s.updTP k f).staged = s.staged := rfl
@[simp] theorem State.updTP_limits (k : Nat) (f : TPort → TPort) : (s.updTP k f).limits = s.limits := rfl
@[simp] theorem State.updTP_limStaged (k : Nat) (f : TPort → TPort) : (s.updTP k f).limStaged = s.limStaged := rfl
@[simp] theorem State.updTP_pages (k : Nat) (f : TPort → TPort) : (s.updTP k f).pages = s.pages := rfl
@[simp] theorem State.updTP_latch (k : Nat) (f : TPort → TPort) : (s.updTP k f).latch = s.latch := rfl
@[simp] theorem State.updTP_lowHeld (k : Nat) (f : TPort → TPort) : (s.updTP k f).lowHeld = s.lowHeld := rfl
@[simp] theorem State.updTP_ev (k : Nat) (f : TPort → TPort) : (s.updTP k f).ev = s.ev := rfl
@[simp] theorem State.updTP_out (k : Nat) (f : TPort → TPort) : (s.updTP k f).out = s.out := rfl
@[simp] theorem State.updTP_dev (k : Nat) (f : TPort → TPort) : (s.updTP k f).dev = s.dev := rfl
@[simp] theorem State.updTP_die (k : Nat) (f : TPort → TPort) : (s.updTP k f).die = s.die := rfl
@[simp] theorem State.updTP_mem (k : Nat) (f : TPort → TPort) : (s.updTP k f).mem = s.mem := rfl
@[simp] theorem State.updTP_prog (k : Nat) (f : TPort → TPort) : (s.updTP k f).prog = s.prog := rfl
@[simp] theorem State.updTP_intake (k : Nat) (f : TPort → TPort) : (s.updTP k f).intake = s.intake := rfl
@[simp] theorem State.updTP_kv (k : Nat) (f : TPort → TPort) : (s.updTP k f).kv = s.kv := rfl
@[simp] theorem State.updTP_mrd (k : Nat) (f : TPort → TPort) : (s.updTP k f).mrd = s.mrd := rfl
@[simp] theorem State.updTP_alm (k : Nat) (f : TPort → TPort) : (s.updTP k f).alm = s.alm := rfl
@[simp] theorem State.updTP_hbm (k : Nat) (f : TPort → TPort) : (s.updTP k f).hbm = s.hbm := rfl
@[simp] theorem State.updTP_host (k : Nat) (f : TPort → TPort) : (s.updTP k f).host = s.host := rfl
@[simp] theorem State.updTP_combs (k : Nat) (f : TPort → TPort) : (s.updTP k f).combs = s.combs := rfl
@[simp] theorem State.updTP_clk (k : Nat) (f : TPort → TPort) : (s.updTP k f).clk = s.clk := rfl
@[simp] theorem State.updTP_ldg (k : Nat) (f : TPort → TPort) : (s.updTP k f).ldg = s.ldg := rfl
@[simp] theorem State.updTP_mt (k : Nat) (f : TPort → TPort) : (s.updTP k f).mt = s.mt := rfl
@[simp] theorem State.updTP_st (k : Nat) (f : TPort → TPort) : (s.updTP k f).st = s.st := rfl
@[simp] theorem State.updTP_wt (k : Nat) (f : TPort → TPort) : (s.updTP k f).wt = s.wt := rfl
@[simp] theorem State.updTP_rt (k : Nat) (f : TPort → TPort) : (s.updTP k f).rt = s.rt := rfl
@[simp] theorem State.updTP_bt (k : Nat) (f : TPort → TPort) : (s.updTP k f).bt = s.bt := rfl
@[simp] theorem State.updTP_slc (k : Nat) (f : TPort → TPort) : (s.updTP k f).slc = s.slc := rfl
@[simp] theorem State.updTP_nv (k : Nat) (f : TPort → TPort) : (s.updTP k f).nv = s.nv := rfl
@[simp] theorem State.updTP_mgmt (k : Nat) (f : TPort → TPort) : (s.updTP k f).mgmt = s.mgmt := rfl
@[simp] theorem State.updTP_freeCtr (k : Nat) (f : TPort → TPort) : (s.updTP k f).freeCtr = s.freeCtr := rfl

/-! ### `updRound` changes the slice rounds only -/

@[simp] theorem State.updRound_pending (k : Nat) (f : SRound → SRound) : (s.updRound k f).pending = s.pending := rfl
@[simp] theorem State.updRound_regs (k : Nat) (f : SRound → SRound) : (s.updRound k f).regs = s.regs := rfl
@[simp] theorem State.updRound_staged (k : Nat) (f : SRound → SRound) : (s.updRound k f).staged = s.staged := rfl
@[simp] theorem State.updRound_limits (k : Nat) (f : SRound → SRound) : (s.updRound k f).limits = s.limits := rfl
@[simp] theorem State.updRound_limStaged (k : Nat) (f : SRound → SRound) : (s.updRound k f).limStaged = s.limStaged := rfl
@[simp] theorem State.updRound_pages (k : Nat) (f : SRound → SRound) : (s.updRound k f).pages = s.pages := rfl
@[simp] theorem State.updRound_latch (k : Nat) (f : SRound → SRound) : (s.updRound k f).latch = s.latch := rfl
@[simp] theorem State.updRound_lowHeld (k : Nat) (f : SRound → SRound) : (s.updRound k f).lowHeld = s.lowHeld := rfl
@[simp] theorem State.updRound_ev (k : Nat) (f : SRound → SRound) : (s.updRound k f).ev = s.ev := rfl
@[simp] theorem State.updRound_out (k : Nat) (f : SRound → SRound) : (s.updRound k f).out = s.out := rfl
@[simp] theorem State.updRound_dev (k : Nat) (f : SRound → SRound) : (s.updRound k f).dev = s.dev := rfl
@[simp] theorem State.updRound_die (k : Nat) (f : SRound → SRound) : (s.updRound k f).die = s.die := rfl
@[simp] theorem State.updRound_mem (k : Nat) (f : SRound → SRound) : (s.updRound k f).mem = s.mem := rfl
@[simp] theorem State.updRound_prog (k : Nat) (f : SRound → SRound) : (s.updRound k f).prog = s.prog := rfl
@[simp] theorem State.updRound_intake (k : Nat) (f : SRound → SRound) : (s.updRound k f).intake = s.intake := rfl
@[simp] theorem State.updRound_kv (k : Nat) (f : SRound → SRound) : (s.updRound k f).kv = s.kv := rfl
@[simp] theorem State.updRound_mrd (k : Nat) (f : SRound → SRound) : (s.updRound k f).mrd = s.mrd := rfl
@[simp] theorem State.updRound_alm (k : Nat) (f : SRound → SRound) : (s.updRound k f).alm = s.alm := rfl
@[simp] theorem State.updRound_hbm (k : Nat) (f : SRound → SRound) : (s.updRound k f).hbm = s.hbm := rfl
@[simp] theorem State.updRound_host (k : Nat) (f : SRound → SRound) : (s.updRound k f).host = s.host := rfl
@[simp] theorem State.updRound_combs (k : Nat) (f : SRound → SRound) : (s.updRound k f).combs = s.combs := rfl
@[simp] theorem State.updRound_clk (k : Nat) (f : SRound → SRound) : (s.updRound k f).clk = s.clk := rfl
@[simp] theorem State.updRound_ldg (k : Nat) (f : SRound → SRound) : (s.updRound k f).ldg = s.ldg := rfl
@[simp] theorem State.updRound_mt (k : Nat) (f : SRound → SRound) : (s.updRound k f).mt = s.mt := rfl
@[simp] theorem State.updRound_st (k : Nat) (f : SRound → SRound) : (s.updRound k f).st = s.st := rfl
@[simp] theorem State.updRound_wt (k : Nat) (f : SRound → SRound) : (s.updRound k f).wt = s.wt := rfl
@[simp] theorem State.updRound_rt (k : Nat) (f : SRound → SRound) : (s.updRound k f).rt = s.rt := rfl
@[simp] theorem State.updRound_bt (k : Nat) (f : SRound → SRound) : (s.updRound k f).bt = s.bt := rfl
@[simp] theorem State.updRound_tre (k : Nat) (f : SRound → SRound) : (s.updRound k f).tre = s.tre := rfl
@[simp] theorem State.updRound_nv (k : Nat) (f : SRound → SRound) : (s.updRound k f).nv = s.nv := rfl
@[simp] theorem State.updRound_mgmt (k : Nat) (f : SRound → SRound) : (s.updRound k f).mgmt = s.mgmt := rfl
@[simp] theorem State.updRound_freeCtr (k : Nat) (f : SRound → SRound) : (s.updRound k f).freeCtr = s.freeCtr := rfl

/-! ### Reading back -/

theorem State.reg_setReg (h : swf regDflt s.regs = true) (p off v q o : Nat) :
    (s.setReg p off v).reg q o = if regKey q o = regKey p off then w32 v else s.reg q o := sget_sset h

theorem State.page_updPage (h : swf pageDflt s.pages = true) (p q : Nat) (f : PageSt → PageSt) :
    (s.updPage p f).page q = if q = p then f (s.page p) else s.page q := sget_supd h

theorem State.setReg_regs_wf (h : swf regDflt s.regs = true) (p off v : Nat) : swf regDflt (s.setReg p off v).regs = true :=
  swf_sset h

theorem State.tile_updTile (h : swf tileDflt s.die.tiles = true) (k n : Nat) (f : TileSt → TileSt) :
    (s.updTile k f).tile n = if n = k then f (s.tile k) else s.tile n := sget_supd h

theorem State.comb_updComb (h : swf combDflt s.combs = true) (k n : Nat) (f : Comb → Comb) :
    (s.updComb k f).comb n = if n = k then f (s.comb k) else s.comb n := sget_supd h

theorem State.run_updRun (h : swf runDflt s.prog.runs = true) (k n : Nat) (f : TileRun → TileRun) :
    (s.updRun k f).run n = if n = k then f (s.run k) else s.run n := sget_supd h

theorem State.slot_updSlot (h : swf slotDflt s.prog.slots = true) (k n : Nat) (f : Slot → Slot) :
    (s.updSlot k f).slot n = if n = k then f (s.slot k) else s.slot n := sget_supd h

theorem State.mtile_updM (h : swf mtDflt s.mt = true) (k n : Nat) (f : MTile → MTile) :
    (s.updM k f).mtile n = if n = k then f (s.mtile k) else s.mtile n := sget_supd h

theorem State.stile_updS (h : swf stDflt s.st = true) (k n : Nat) (f : STile → STile) :
    (s.updS k f).stile n = if n = k then f (s.stile k) else s.stile n := sget_supd h

theorem State.wtile_updW (h : swf wtDflt s.wt = true) (k n : Nat) (f : WTile → WTile) :
    (s.updW k f).wtile n = if n = k then f (s.wtile k) else s.wtile n := sget_supd h

theorem State.router_updR (h : swf rtDflt s.rt = true) (k n : Nat) (f : Router → Router) :
    (s.updR k f).router n = if n = k then f (s.router k) else s.router n := sget_supd h

theorem State.btile_updB (h : swf btDflt s.bt = true) (k n : Nat) (f : BTile → BTile) :
    (s.updB k f).btile n = if n = k then f (s.btile k) else s.btile n := sget_supd h

theorem State.stack_updStack (h : swf stackDflt s.hbm.stk = true) (k n : Nat) (f : Stack → Stack) :
    (s.updStack k f).stack n = if n = k then f (s.stack k) else s.stack n := sget_supd h

theorem State.tport_updTP (h : swf tpDflt s.tre.ports = true) (k n : Nat) (f : TPort → TPort) :
    (s.updTP k f).tport n = if n = k then f (s.tport k) else s.tport n := sget_supd h

/-! ### A read of one part after an update of another -/

@[simp] theorem State.page_setReg_other (p off v : Nat) (q : Nat) : (s.setReg p off v).page q = s.page q := rfl
@[simp] theorem State.tile_setReg_other (p off v : Nat) (q : Nat) : (s.setReg p off v).tile q = s.tile q := rfl
@[simp] theorem State.comb_setReg_other (p off v : Nat) (q : Nat) : (s.setReg p off v).comb q = s.comb q := rfl
@[simp] theorem State.run_setReg_other (p off v : Nat) (q : Nat) : (s.setReg p off v).run q = s.run q := rfl
@[simp] theorem State.mtile_setReg_other (p off v : Nat) (q : Nat) : (s.setReg p off v).mtile q = s.mtile q := rfl
@[simp] theorem State.stile_setReg_other (p off v : Nat) (q : Nat) : (s.setReg p off v).stile q = s.stile q := rfl
@[simp] theorem State.wtile_setReg_other (p off v : Nat) (q : Nat) : (s.setReg p off v).wtile q = s.wtile q := rfl
@[simp] theorem State.router_setReg_other (p off v : Nat) (q : Nat) : (s.setReg p off v).router q = s.router q := rfl
@[simp] theorem State.btile_setReg_other (p off v : Nat) (q : Nat) : (s.setReg p off v).btile q = s.btile q := rfl
@[simp] theorem State.stack_setReg_other (p off v : Nat) (q : Nat) : (s.setReg p off v).stack q = s.stack q := rfl
@[simp] theorem State.tport_setReg_other (p off v : Nat) (q : Nat) : (s.setReg p off v).tport q = s.tport q := rfl
@[simp] theorem State.stream_setReg_other (p off v : Nat) (q : Nat) : (s.setReg p off v).stream q = s.stream q := rfl
@[simp] theorem State.reg_updPage_other (p : Nat) (f : PageSt → PageSt) (q x : Nat) : (s.updPage p f).reg q x = s.reg q x := rfl
@[simp] theorem State.tile_updPage_other (p : Nat) (f : PageSt → PageSt) (q : Nat) : (s.updPage p f).tile q = s.tile q := rfl
@[simp] theorem State.comb_updPage_other (p : Nat) (f : PageSt → PageSt) (q : Nat) : (s.updPage p f).comb q = s.comb q := rfl
@[simp] theorem State.run_updPage_other (p : Nat) (f : PageSt → PageSt) (q : Nat) : (s.updPage p f).run q = s.run q := rfl
@[simp] theorem State.mtile_updPage_other (p : Nat) (f : PageSt → PageSt) (q : Nat) : (s.updPage p f).mtile q = s.mtile q := rfl
@[simp] theorem State.stile_updPage_other (p : Nat) (f : PageSt → PageSt) (q : Nat) : (s.updPage p f).stile q = s.stile q := rfl
@[simp] theorem State.wtile_updPage_other (p : Nat) (f : PageSt → PageSt) (q : Nat) : (s.updPage p f).wtile q = s.wtile q := rfl
@[simp] theorem State.router_updPage_other (p : Nat) (f : PageSt → PageSt) (q : Nat) : (s.updPage p f).router q = s.router q := rfl
@[simp] theorem State.btile_updPage_other (p : Nat) (f : PageSt → PageSt) (q : Nat) : (s.updPage p f).btile q = s.btile q := rfl
@[simp] theorem State.stack_updPage_other (p : Nat) (f : PageSt → PageSt) (q : Nat) : (s.updPage p f).stack q = s.stack q := rfl
@[simp] theorem State.tport_updPage_other (p : Nat) (f : PageSt → PageSt) (q : Nat) : (s.updPage p f).tport q = s.tport q := rfl
@[simp] theorem State.stream_updPage_other (p : Nat) (f : PageSt → PageSt) (q : Nat) : (s.updPage p f).stream q = s.stream q := rfl
@[simp] theorem State.reg_emit_other (o : Out) (q x : Nat) : (s.emit o).reg q x = s.reg q x := rfl
@[simp] theorem State.page_emit_other (o : Out) (q : Nat) : (s.emit o).page q = s.page q := rfl
@[simp] theorem State.tile_emit_other (o : Out) (q : Nat) : (s.emit o).tile q = s.tile q := rfl
@[simp] theorem State.comb_emit_other (o : Out) (q : Nat) : (s.emit o).comb q = s.comb q := rfl
@[simp] theorem State.run_emit_other (o : Out) (q : Nat) : (s.emit o).run q = s.run q := rfl
@[simp] theorem State.mtile_emit_other (o : Out) (q : Nat) : (s.emit o).mtile q = s.mtile q := rfl
@[simp] theorem State.stile_emit_other (o : Out) (q : Nat) : (s.emit o).stile q = s.stile q := rfl
@[simp] theorem State.wtile_emit_other (o : Out) (q : Nat) : (s.emit o).wtile q = s.wtile q := rfl
@[simp] theorem State.router_emit_other (o : Out) (q : Nat) : (s.emit o).router q = s.router q := rfl
@[simp] theorem State.btile_emit_other (o : Out) (q : Nat) : (s.emit o).btile q = s.btile q := rfl
@[simp] theorem State.stack_emit_other (o : Out) (q : Nat) : (s.emit o).stack q = s.stack q := rfl
@[simp] theorem State.tport_emit_other (o : Out) (q : Nat) : (s.emit o).tport q = s.tport q := rfl
@[simp] theorem State.stream_emit_other (o : Out) (q : Nat) : (s.emit o).stream q = s.stream q := rfl
@[simp] theorem State.reg_updTile_other (k : Nat) (f : TileSt → TileSt) (q x : Nat) : (s.updTile k f).reg q x = s.reg q x := rfl
@[simp] theorem State.page_updTile_other (k : Nat) (f : TileSt → TileSt) (q : Nat) : (s.updTile k f).page q = s.page q := rfl
@[simp] theorem State.comb_updTile_other (k : Nat) (f : TileSt → TileSt) (q : Nat) : (s.updTile k f).comb q = s.comb q := rfl
@[simp] theorem State.run_updTile_other (k : Nat) (f : TileSt → TileSt) (q : Nat) : (s.updTile k f).run q = s.run q := rfl
@[simp] theorem State.mtile_updTile_other (k : Nat) (f : TileSt → TileSt) (q : Nat) : (s.updTile k f).mtile q = s.mtile q := rfl
@[simp] theorem State.stile_updTile_other (k : Nat) (f : TileSt → TileSt) (q : Nat) : (s.updTile k f).stile q = s.stile q := rfl
@[simp] theorem State.wtile_updTile_other (k : Nat) (f : TileSt → TileSt) (q : Nat) : (s.updTile k f).wtile q = s.wtile q := rfl
@[simp] theorem State.router_updTile_other (k : Nat) (f : TileSt → TileSt) (q : Nat) : (s.updTile k f).router q = s.router q := rfl
@[simp] theorem State.btile_updTile_other (k : Nat) (f : TileSt → TileSt) (q : Nat) : (s.updTile k f).btile q = s.btile q := rfl
@[simp] theorem State.stack_updTile_other (k : Nat) (f : TileSt → TileSt) (q : Nat) : (s.updTile k f).stack q = s.stack q := rfl
@[simp] theorem State.tport_updTile_other (k : Nat) (f : TileSt → TileSt) (q : Nat) : (s.updTile k f).tport q = s.tport q := rfl
@[simp] theorem State.stream_updTile_other (k : Nat) (f : TileSt → TileSt) (q : Nat) : (s.updTile k f).stream q = s.stream q := rfl
@[simp] theorem State.reg_updComb_other (k : Nat) (f : Comb → Comb) (q x : Nat) : (s.updComb k f).reg q x = s.reg q x := rfl
@[simp] theorem State.page_updComb_other (k : Nat) (f : Comb → Comb) (q : Nat) : (s.updComb k f).page q = s.page q := rfl
@[simp] theorem State.tile_updComb_other (k : Nat) (f : Comb → Comb) (q : Nat) : (s.updComb k f).tile q = s.tile q := rfl
@[simp] theorem State.run_updComb_other (k : Nat) (f : Comb → Comb) (q : Nat) : (s.updComb k f).run q = s.run q := rfl
@[simp] theorem State.mtile_updComb_other (k : Nat) (f : Comb → Comb) (q : Nat) : (s.updComb k f).mtile q = s.mtile q := rfl
@[simp] theorem State.stile_updComb_other (k : Nat) (f : Comb → Comb) (q : Nat) : (s.updComb k f).stile q = s.stile q := rfl
@[simp] theorem State.wtile_updComb_other (k : Nat) (f : Comb → Comb) (q : Nat) : (s.updComb k f).wtile q = s.wtile q := rfl
@[simp] theorem State.router_updComb_other (k : Nat) (f : Comb → Comb) (q : Nat) : (s.updComb k f).router q = s.router q := rfl
@[simp] theorem State.btile_updComb_other (k : Nat) (f : Comb → Comb) (q : Nat) : (s.updComb k f).btile q = s.btile q := rfl
@[simp] theorem State.stack_updComb_other (k : Nat) (f : Comb → Comb) (q : Nat) : (s.updComb k f).stack q = s.stack q := rfl
@[simp] theorem State.tport_updComb_other (k : Nat) (f : Comb → Comb) (q : Nat) : (s.updComb k f).tport q = s.tport q := rfl
@[simp] theorem State.stream_updComb_other (k : Nat) (f : Comb → Comb) (q : Nat) : (s.updComb k f).stream q = s.stream q := rfl
@[simp] theorem State.reg_updRun_other (k : Nat) (f : TileRun → TileRun) (q x : Nat) : (s.updRun k f).reg q x = s.reg q x := rfl
@[simp] theorem State.page_updRun_other (k : Nat) (f : TileRun → TileRun) (q : Nat) : (s.updRun k f).page q = s.page q := rfl
@[simp] theorem State.tile_updRun_other (k : Nat) (f : TileRun → TileRun) (q : Nat) : (s.updRun k f).tile q = s.tile q := rfl
@[simp] theorem State.comb_updRun_other (k : Nat) (f : TileRun → TileRun) (q : Nat) : (s.updRun k f).comb q = s.comb q := rfl
@[simp] theorem State.mtile_updRun_other (k : Nat) (f : TileRun → TileRun) (q : Nat) : (s.updRun k f).mtile q = s.mtile q := rfl
@[simp] theorem State.stile_updRun_other (k : Nat) (f : TileRun → TileRun) (q : Nat) : (s.updRun k f).stile q = s.stile q := rfl
@[simp] theorem State.wtile_updRun_other (k : Nat) (f : TileRun → TileRun) (q : Nat) : (s.updRun k f).wtile q = s.wtile q := rfl
@[simp] theorem State.router_updRun_other (k : Nat) (f : TileRun → TileRun) (q : Nat) : (s.updRun k f).router q = s.router q := rfl
@[simp] theorem State.btile_updRun_other (k : Nat) (f : TileRun → TileRun) (q : Nat) : (s.updRun k f).btile q = s.btile q := rfl
@[simp] theorem State.stack_updRun_other (k : Nat) (f : TileRun → TileRun) (q : Nat) : (s.updRun k f).stack q = s.stack q := rfl
@[simp] theorem State.tport_updRun_other (k : Nat) (f : TileRun → TileRun) (q : Nat) : (s.updRun k f).tport q = s.tport q := rfl
@[simp] theorem State.stream_updRun_other (k : Nat) (f : TileRun → TileRun) (q : Nat) : (s.updRun k f).stream q = s.stream q := rfl
@[simp] theorem State.reg_updSlot_other (k : Nat) (f : Slot → Slot) (q x : Nat) : (s.updSlot k f).reg q x = s.reg q x := rfl
@[simp] theorem State.page_updSlot_other (k : Nat) (f : Slot → Slot) (q : Nat) : (s.updSlot k f).page q = s.page q := rfl
@[simp] theorem State.tile_updSlot_other (k : Nat) (f : Slot → Slot) (q : Nat) : (s.updSlot k f).tile q = s.tile q := rfl
@[simp] theorem State.comb_updSlot_other (k : Nat) (f : Slot → Slot) (q : Nat) : (s.updSlot k f).comb q = s.comb q := rfl
@[simp] theorem State.run_updSlot_other (k : Nat) (f : Slot → Slot) (q : Nat) : (s.updSlot k f).run q = s.run q := rfl
@[simp] theorem State.mtile_updSlot_other (k : Nat) (f : Slot → Slot) (q : Nat) : (s.updSlot k f).mtile q = s.mtile q := rfl
@[simp] theorem State.stile_updSlot_other (k : Nat) (f : Slot → Slot) (q : Nat) : (s.updSlot k f).stile q = s.stile q := rfl
@[simp] theorem State.wtile_updSlot_other (k : Nat) (f : Slot → Slot) (q : Nat) : (s.updSlot k f).wtile q = s.wtile q := rfl
@[simp] theorem State.router_updSlot_other (k : Nat) (f : Slot → Slot) (q : Nat) : (s.updSlot k f).router q = s.router q := rfl
@[simp] theorem State.btile_updSlot_other (k : Nat) (f : Slot → Slot) (q : Nat) : (s.updSlot k f).btile q = s.btile q := rfl
@[simp] theorem State.stack_updSlot_other (k : Nat) (f : Slot → Slot) (q : Nat) : (s.updSlot k f).stack q = s.stack q := rfl
@[simp] theorem State.tport_updSlot_other (k : Nat) (f : Slot → Slot) (q : Nat) : (s.updSlot k f).tport q = s.tport q := rfl
@[simp] theorem State.stream_updSlot_other (k : Nat) (f : Slot → Slot) (q : Nat) : (s.updSlot k f).stream q = s.stream q := rfl
@[simp] theorem State.reg_updLaunch_other (k : Nat) (f : Launch → Launch) (q x : Nat) : (s.updLaunch k f).reg q x = s.reg q x := rfl
@[simp] theorem State.page_updLaunch_other (k : Nat) (f : Launch → Launch) (q : Nat) : (s.updLaunch k f).page q = s.page q := rfl
@[simp] theorem State.tile_updLaunch_other (k : Nat) (f : Launch → Launch) (q : Nat) : (s.updLaunch k f).tile q = s.tile q := rfl
@[simp] theorem State.comb_updLaunch_other (k : Nat) (f : Launch → Launch) (q : Nat) : (s.updLaunch k f).comb q = s.comb q := rfl
@[simp] theorem State.run_updLaunch_other (k : Nat) (f : Launch → Launch) (q : Nat) : (s.updLaunch k f).run q = s.run q := rfl
@[simp] theorem State.mtile_updLaunch_other (k : Nat) (f : Launch → Launch) (q : Nat) : (s.updLaunch k f).mtile q = s.mtile q := rfl
@[simp] theorem State.stile_updLaunch_other (k : Nat) (f : Launch → Launch) (q : Nat) : (s.updLaunch k f).stile q = s.stile q := rfl
@[simp] theorem State.wtile_updLaunch_other (k : Nat) (f : Launch → Launch) (q : Nat) : (s.updLaunch k f).wtile q = s.wtile q := rfl
@[simp] theorem State.router_updLaunch_other (k : Nat) (f : Launch → Launch) (q : Nat) : (s.updLaunch k f).router q = s.router q := rfl
@[simp] theorem State.btile_updLaunch_other (k : Nat) (f : Launch → Launch) (q : Nat) : (s.updLaunch k f).btile q = s.btile q := rfl
@[simp] theorem State.stack_updLaunch_other (k : Nat) (f : Launch → Launch) (q : Nat) : (s.updLaunch k f).stack q = s.stack q := rfl
@[simp] theorem State.tport_updLaunch_other (k : Nat) (f : Launch → Launch) (q : Nat) : (s.updLaunch k f).tport q = s.tport q := rfl
@[simp] theorem State.stream_updLaunch_other (k : Nat) (f : Launch → Launch) (q : Nat) : (s.updLaunch k f).stream q = s.stream q := rfl
@[simp] theorem State.reg_updStep_other (k : Nat) (f : StepRec → StepRec) (q x : Nat) : (s.updStep k f).reg q x = s.reg q x := rfl
@[simp] theorem State.page_updStep_other (k : Nat) (f : StepRec → StepRec) (q : Nat) : (s.updStep k f).page q = s.page q := rfl
@[simp] theorem State.tile_updStep_other (k : Nat) (f : StepRec → StepRec) (q : Nat) : (s.updStep k f).tile q = s.tile q := rfl
@[simp] theorem State.comb_updStep_other (k : Nat) (f : StepRec → StepRec) (q : Nat) : (s.updStep k f).comb q = s.comb q := rfl
@[simp] theorem State.run_updStep_other (k : Nat) (f : StepRec → StepRec) (q : Nat) : (s.updStep k f).run q = s.run q := rfl
@[simp] theorem State.mtile_updStep_other (k : Nat) (f : StepRec → StepRec) (q : Nat) : (s.updStep k f).mtile q = s.mtile q := rfl
@[simp] theorem State.stile_updStep_other (k : Nat) (f : StepRec → StepRec) (q : Nat) : (s.updStep k f).stile q = s.stile q := rfl
@[simp] theorem State.wtile_updStep_other (k : Nat) (f : StepRec → StepRec) (q : Nat) : (s.updStep k f).wtile q = s.wtile q := rfl
@[simp] theorem State.router_updStep_other (k : Nat) (f : StepRec → StepRec) (q : Nat) : (s.updStep k f).router q = s.router q := rfl
@[simp] theorem State.btile_updStep_other (k : Nat) (f : StepRec → StepRec) (q : Nat) : (s.updStep k f).btile q = s.btile q := rfl
@[simp] theorem State.stack_updStep_other (k : Nat) (f : StepRec → StepRec) (q : Nat) : (s.updStep k f).stack q = s.stack q := rfl
@[simp] theorem State.tport_updStep_other (k : Nat) (f : StepRec → StepRec) (q : Nat) : (s.updStep k f).tport q = s.tport q := rfl
@[simp] theorem State.stream_updStep_other (k : Nat) (f : StepRec → StepRec) (q : Nat) : (s.updStep k f).stream q = s.stream q := rfl
@[simp] theorem State.reg_updM_other (k : Nat) (f : MTile → MTile) (q x : Nat) : (s.updM k f).reg q x = s.reg q x := rfl
@[simp] theorem State.page_updM_other (k : Nat) (f : MTile → MTile) (q : Nat) : (s.updM k f).page q = s.page q := rfl
@[simp] theorem State.tile_updM_other (k : Nat) (f : MTile → MTile) (q : Nat) : (s.updM k f).tile q = s.tile q := rfl
@[simp] theorem State.comb_updM_other (k : Nat) (f : MTile → MTile) (q : Nat) : (s.updM k f).comb q = s.comb q := rfl
@[simp] theorem State.run_updM_other (k : Nat) (f : MTile → MTile) (q : Nat) : (s.updM k f).run q = s.run q := rfl
@[simp] theorem State.stile_updM_other (k : Nat) (f : MTile → MTile) (q : Nat) : (s.updM k f).stile q = s.stile q := rfl
@[simp] theorem State.wtile_updM_other (k : Nat) (f : MTile → MTile) (q : Nat) : (s.updM k f).wtile q = s.wtile q := rfl
@[simp] theorem State.router_updM_other (k : Nat) (f : MTile → MTile) (q : Nat) : (s.updM k f).router q = s.router q := rfl
@[simp] theorem State.btile_updM_other (k : Nat) (f : MTile → MTile) (q : Nat) : (s.updM k f).btile q = s.btile q := rfl
@[simp] theorem State.stack_updM_other (k : Nat) (f : MTile → MTile) (q : Nat) : (s.updM k f).stack q = s.stack q := rfl
@[simp] theorem State.tport_updM_other (k : Nat) (f : MTile → MTile) (q : Nat) : (s.updM k f).tport q = s.tport q := rfl
@[simp] theorem State.stream_updM_other (k : Nat) (f : MTile → MTile) (q : Nat) : (s.updM k f).stream q = s.stream q := rfl
@[simp] theorem State.reg_updS_other (k : Nat) (f : STile → STile) (q x : Nat) : (s.updS k f).reg q x = s.reg q x := rfl
@[simp] theorem State.page_updS_other (k : Nat) (f : STile → STile) (q : Nat) : (s.updS k f).page q = s.page q := rfl
@[simp] theorem State.tile_updS_other (k : Nat) (f : STile → STile) (q : Nat) : (s.updS k f).tile q = s.tile q := rfl
@[simp] theorem State.comb_updS_other (k : Nat) (f : STile → STile) (q : Nat) : (s.updS k f).comb q = s.comb q := rfl
@[simp] theorem State.run_updS_other (k : Nat) (f : STile → STile) (q : Nat) : (s.updS k f).run q = s.run q := rfl
@[simp] theorem State.mtile_updS_other (k : Nat) (f : STile → STile) (q : Nat) : (s.updS k f).mtile q = s.mtile q := rfl
@[simp] theorem State.wtile_updS_other (k : Nat) (f : STile → STile) (q : Nat) : (s.updS k f).wtile q = s.wtile q := rfl
@[simp] theorem State.router_updS_other (k : Nat) (f : STile → STile) (q : Nat) : (s.updS k f).router q = s.router q := rfl
@[simp] theorem State.btile_updS_other (k : Nat) (f : STile → STile) (q : Nat) : (s.updS k f).btile q = s.btile q := rfl
@[simp] theorem State.stack_updS_other (k : Nat) (f : STile → STile) (q : Nat) : (s.updS k f).stack q = s.stack q := rfl
@[simp] theorem State.tport_updS_other (k : Nat) (f : STile → STile) (q : Nat) : (s.updS k f).tport q = s.tport q := rfl
@[simp] theorem State.stream_updS_other (k : Nat) (f : STile → STile) (q : Nat) : (s.updS k f).stream q = s.stream q := rfl
@[simp] theorem State.reg_updW_other (k : Nat) (f : WTile → WTile) (q x : Nat) : (s.updW k f).reg q x = s.reg q x := rfl
@[simp] theorem State.page_updW_other (k : Nat) (f : WTile → WTile) (q : Nat) : (s.updW k f).page q = s.page q := rfl
@[simp] theorem State.tile_updW_other (k : Nat) (f : WTile → WTile) (q : Nat) : (s.updW k f).tile q = s.tile q := rfl
@[simp] theorem State.comb_updW_other (k : Nat) (f : WTile → WTile) (q : Nat) : (s.updW k f).comb q = s.comb q := rfl
@[simp] theorem State.run_updW_other (k : Nat) (f : WTile → WTile) (q : Nat) : (s.updW k f).run q = s.run q := rfl
@[simp] theorem State.mtile_updW_other (k : Nat) (f : WTile → WTile) (q : Nat) : (s.updW k f).mtile q = s.mtile q := rfl
@[simp] theorem State.stile_updW_other (k : Nat) (f : WTile → WTile) (q : Nat) : (s.updW k f).stile q = s.stile q := rfl
@[simp] theorem State.router_updW_other (k : Nat) (f : WTile → WTile) (q : Nat) : (s.updW k f).router q = s.router q := rfl
@[simp] theorem State.btile_updW_other (k : Nat) (f : WTile → WTile) (q : Nat) : (s.updW k f).btile q = s.btile q := rfl
@[simp] theorem State.stack_updW_other (k : Nat) (f : WTile → WTile) (q : Nat) : (s.updW k f).stack q = s.stack q := rfl
@[simp] theorem State.tport_updW_other (k : Nat) (f : WTile → WTile) (q : Nat) : (s.updW k f).tport q = s.tport q := rfl
@[simp] theorem State.stream_updW_other (k : Nat) (f : WTile → WTile) (q : Nat) : (s.updW k f).stream q = s.stream q := rfl
@[simp] theorem State.reg_updR_other (k : Nat) (f : Router → Router) (q x : Nat) : (s.updR k f).reg q x = s.reg q x := rfl
@[simp] theorem State.page_updR_other (k : Nat) (f : Router → Router) (q : Nat) : (s.updR k f).page q = s.page q := rfl
@[simp] theorem State.tile_updR_other (k : Nat) (f : Router → Router) (q : Nat) : (s.updR k f).tile q = s.tile q := rfl
@[simp] theorem State.comb_updR_other (k : Nat) (f : Router → Router) (q : Nat) : (s.updR k f).comb q = s.comb q := rfl
@[simp] theorem State.run_updR_other (k : Nat) (f : Router → Router) (q : Nat) : (s.updR k f).run q = s.run q := rfl
@[simp] theorem State.mtile_updR_other (k : Nat) (f : Router → Router) (q : Nat) : (s.updR k f).mtile q = s.mtile q := rfl
@[simp] theorem State.stile_updR_other (k : Nat) (f : Router → Router) (q : Nat) : (s.updR k f).stile q = s.stile q := rfl
@[simp] theorem State.wtile_updR_other (k : Nat) (f : Router → Router) (q : Nat) : (s.updR k f).wtile q = s.wtile q := rfl
@[simp] theorem State.btile_updR_other (k : Nat) (f : Router → Router) (q : Nat) : (s.updR k f).btile q = s.btile q := rfl
@[simp] theorem State.stack_updR_other (k : Nat) (f : Router → Router) (q : Nat) : (s.updR k f).stack q = s.stack q := rfl
@[simp] theorem State.tport_updR_other (k : Nat) (f : Router → Router) (q : Nat) : (s.updR k f).tport q = s.tport q := rfl
@[simp] theorem State.stream_updR_other (k : Nat) (f : Router → Router) (q : Nat) : (s.updR k f).stream q = s.stream q := rfl
@[simp] theorem State.reg_updB_other (k : Nat) (f : BTile → BTile) (q x : Nat) : (s.updB k f).reg q x = s.reg q x := rfl
@[simp] theorem State.page_updB_other (k : Nat) (f : BTile → BTile) (q : Nat) : (s.updB k f).page q = s.page q := rfl
@[simp] theorem State.tile_updB_other (k : Nat) (f : BTile → BTile) (q : Nat) : (s.updB k f).tile q = s.tile q := rfl
@[simp] theorem State.comb_updB_other (k : Nat) (f : BTile → BTile) (q : Nat) : (s.updB k f).comb q = s.comb q := rfl
@[simp] theorem State.run_updB_other (k : Nat) (f : BTile → BTile) (q : Nat) : (s.updB k f).run q = s.run q := rfl
@[simp] theorem State.mtile_updB_other (k : Nat) (f : BTile → BTile) (q : Nat) : (s.updB k f).mtile q = s.mtile q := rfl
@[simp] theorem State.stile_updB_other (k : Nat) (f : BTile → BTile) (q : Nat) : (s.updB k f).stile q = s.stile q := rfl
@[simp] theorem State.wtile_updB_other (k : Nat) (f : BTile → BTile) (q : Nat) : (s.updB k f).wtile q = s.wtile q := rfl
@[simp] theorem State.router_updB_other (k : Nat) (f : BTile → BTile) (q : Nat) : (s.updB k f).router q = s.router q := rfl
@[simp] theorem State.stack_updB_other (k : Nat) (f : BTile → BTile) (q : Nat) : (s.updB k f).stack q = s.stack q := rfl
@[simp] theorem State.tport_updB_other (k : Nat) (f : BTile → BTile) (q : Nat) : (s.updB k f).tport q = s.tport q := rfl
@[simp] theorem State.stream_updB_other (k : Nat) (f : BTile → BTile) (q : Nat) : (s.updB k f).stream q = s.stream q := rfl
@[simp] theorem State.reg_updStack_other (k : Nat) (f : Stack → Stack) (q x : Nat) : (s.updStack k f).reg q x = s.reg q x := rfl
@[simp] theorem State.page_updStack_other (k : Nat) (f : Stack → Stack) (q : Nat) : (s.updStack k f).page q = s.page q := rfl
@[simp] theorem State.tile_updStack_other (k : Nat) (f : Stack → Stack) (q : Nat) : (s.updStack k f).tile q = s.tile q := rfl
@[simp] theorem State.comb_updStack_other (k : Nat) (f : Stack → Stack) (q : Nat) : (s.updStack k f).comb q = s.comb q := rfl
@[simp] theorem State.run_updStack_other (k : Nat) (f : Stack → Stack) (q : Nat) : (s.updStack k f).run q = s.run q := rfl
@[simp] theorem State.mtile_updStack_other (k : Nat) (f : Stack → Stack) (q : Nat) : (s.updStack k f).mtile q = s.mtile q := rfl
@[simp] theorem State.stile_updStack_other (k : Nat) (f : Stack → Stack) (q : Nat) : (s.updStack k f).stile q = s.stile q := rfl
@[simp] theorem State.wtile_updStack_other (k : Nat) (f : Stack → Stack) (q : Nat) : (s.updStack k f).wtile q = s.wtile q := rfl
@[simp] theorem State.router_updStack_other (k : Nat) (f : Stack → Stack) (q : Nat) : (s.updStack k f).router q = s.router q := rfl
@[simp] theorem State.btile_updStack_other (k : Nat) (f : Stack → Stack) (q : Nat) : (s.updStack k f).btile q = s.btile q := rfl
@[simp] theorem State.tport_updStack_other (k : Nat) (f : Stack → Stack) (q : Nat) : (s.updStack k f).tport q = s.tport q := rfl
@[simp] theorem State.stream_updStack_other (k : Nat) (f : Stack → Stack) (q : Nat) : (s.updStack k f).stream q = s.stream q := rfl
@[simp] theorem State.reg_updTP_other (k : Nat) (f : TPort → TPort) (q x : Nat) : (s.updTP k f).reg q x = s.reg q x := rfl
@[simp] theorem State.page_updTP_other (k : Nat) (f : TPort → TPort) (q : Nat) : (s.updTP k f).page q = s.page q := rfl
@[simp] theorem State.tile_updTP_other (k : Nat) (f : TPort → TPort) (q : Nat) : (s.updTP k f).tile q = s.tile q := rfl
@[simp] theorem State.comb_updTP_other (k : Nat) (f : TPort → TPort) (q : Nat) : (s.updTP k f).comb q = s.comb q := rfl
@[simp] theorem State.run_updTP_other (k : Nat) (f : TPort → TPort) (q : Nat) : (s.updTP k f).run q = s.run q := rfl
@[simp] theorem State.mtile_updTP_other (k : Nat) (f : TPort → TPort) (q : Nat) : (s.updTP k f).mtile q = s.mtile q := rfl
@[simp] theorem State.stile_updTP_other (k : Nat) (f : TPort → TPort) (q : Nat) : (s.updTP k f).stile q = s.stile q := rfl
@[simp] theorem State.wtile_updTP_other (k : Nat) (f : TPort → TPort) (q : Nat) : (s.updTP k f).wtile q = s.wtile q := rfl
@[simp] theorem State.router_updTP_other (k : Nat) (f : TPort → TPort) (q : Nat) : (s.updTP k f).router q = s.router q := rfl
@[simp] theorem State.btile_updTP_other (k : Nat) (f : TPort → TPort) (q : Nat) : (s.updTP k f).btile q = s.btile q := rfl
@[simp] theorem State.stack_updTP_other (k : Nat) (f : TPort → TPort) (q : Nat) : (s.updTP k f).stack q = s.stack q := rfl
@[simp] theorem State.stream_updTP_other (k : Nat) (f : TPort → TPort) (q : Nat) : (s.updTP k f).stream q = s.stream q := rfl
@[simp] theorem State.reg_updRound_other (k : Nat) (f : SRound → SRound) (q x : Nat) : (s.updRound k f).reg q x = s.reg q x := rfl
@[simp] theorem State.page_updRound_other (k : Nat) (f : SRound → SRound) (q : Nat) : (s.updRound k f).page q = s.page q := rfl
@[simp] theorem State.tile_updRound_other (k : Nat) (f : SRound → SRound) (q : Nat) : (s.updRound k f).tile q = s.tile q := rfl
@[simp] theorem State.comb_updRound_other (k : Nat) (f : SRound → SRound) (q : Nat) : (s.updRound k f).comb q = s.comb q := rfl
@[simp] theorem State.run_updRound_other (k : Nat) (f : SRound → SRound) (q : Nat) : (s.updRound k f).run q = s.run q := rfl
@[simp] theorem State.mtile_updRound_other (k : Nat) (f : SRound → SRound) (q : Nat) : (s.updRound k f).mtile q = s.mtile q := rfl
@[simp] theorem State.stile_updRound_other (k : Nat) (f : SRound → SRound) (q : Nat) : (s.updRound k f).stile q = s.stile q := rfl
@[simp] theorem State.wtile_updRound_other (k : Nat) (f : SRound → SRound) (q : Nat) : (s.updRound k f).wtile q = s.wtile q := rfl
@[simp] theorem State.router_updRound_other (k : Nat) (f : SRound → SRound) (q : Nat) : (s.updRound k f).router q = s.router q := rfl
@[simp] theorem State.btile_updRound_other (k : Nat) (f : SRound → SRound) (q : Nat) : (s.updRound k f).btile q = s.btile q := rfl
@[simp] theorem State.stack_updRound_other (k : Nat) (f : SRound → SRound) (q : Nat) : (s.updRound k f).stack q = s.stack q := rfl
@[simp] theorem State.tport_updRound_other (k : Nat) (f : SRound → SRound) (q : Nat) : (s.updRound k f).tport q = s.tport q := rfl
@[simp] theorem State.stream_updRound_other (k : Nat) (f : SRound → SRound) (q : Nat) : (s.updRound k f).stream q = s.stream q := rfl

end Sys2Proof.Machine
end

