-- ==== Sys2Proof/Laws/Within.lean ====
section
/-! SUPPORT. `Within M s t`: from `s` to `t` the queue is untouched, only the parts of the state named by the mask `M` may
differ, the invariant is kept, and fuses and flash only go forward. One lemma per part says what changing it needs; the
files beside this one say it of every shared operation. -/

namespace Sys2Proof.Machine

/-- The bit of a part in a mask. -/
def Field.bit : Field → Nat
  | .regs => 0 | .staged => 1 | .limits => 2 | .limStaged => 3 | .pages => 4 | .latch => 5 | .lowHeld => 6 | .ev => 7
  | .out => 8 | .dev => 9 | .die => 10 | .mem => 11 | .prog => 12 | .intake => 13 | .kv => 14 | .mrd => 15 | .alm => 16
  | .hbm => 17 | .host => 18 | .combs => 19 | .clk => 20 | .ldg => 21 | .mt => 22 | .st => 23 | .wt => 24 | .rt => 25
  | .bt => 26 | .tre => 27 | .slc => 28 | .nv => 29 | .mgmt => 30 | .freeCtr => 31

theorem Nv.Forward.refl (a : Nv) : a.Forward a := ⟨id, id, id, le_rfl, fun _ => le_rfl⟩

theorem Nv.Forward.trans {a b c : Nv} (h : a.Forward b) (g : b.Forward c) : a.Forward c :=
  ⟨g.prov ∘ h.prov, g.seal_ ∘ h.seal_, g.void ∘ h.void, h.ret.trans g.ret, fun x => (h.floor x).trans (g.floor x)⟩

/-- What a move between two states may do. -/
structure Within (M : Nat) (s t : State) : Prop where
  queue : t.pending = s.pending
  same : ∀ f : Field, M.testBit f.bit = false → f.same s t
  inv : s.Inv → t.Inv
  fwd : s.nv.Forward t.nv

theorem Field.same_refl (f : Field) (s : State) : f.same s s := by cases f <;> rfl

theorem Field.same_trans {f : Field} {s t u : State} (h : f.same s t) (g : f.same t u) : f.same s u := by
  cases f <;> exact Eq.trans g h

theorem Within.refl {M : Nat} {s : State} : Within M s s := ⟨rfl, fun f _ => f.same_refl s, id, .refl _⟩

theorem mask_out {m M i : Nat} (h : m &&& M = m) (g : M.testBit i = false) : m.testBit i = false := by
  rw [← h, Nat.testBit_and, g, Bool.and_false]

theorem Within.next {M m : Nat} {s0 s t : State} (h : Within M s0 s) (g : Within m s t) (hm : m &&& M = m) : Within M s0 t :=
  ⟨g.queue.trans h.queue, fun f hf => Field.same_trans (h.same f hf) (g.same f (mask_out hm hf)), g.inv ∘ h.inv, h.fwd.trans g.fwd⟩

/-! ### Branches, folds, pairs -/

section
variable {M : Nat} {s0 : State}

theorem Within.ite {c : Prop} [Decidable c] {a b : State} (ha : c → Within M s0 a) (hb : ¬c → Within M s0 b) :
    Within M s0 (if c then a else b) := by split <;> simp_all

theorem Within.foldl {α : Type} {l : List α} {f : State → α → State} {s : State} (h : Within M s0 s)
    (hf : ∀ s x, Within M s0 s → Within M s0 (f s x)) : Within M s0 (l.foldl f s) := by
  induction l generalizing s with
  | nil => exact h
  | cons x xs ih => exact ih (hf _ _ h)

theorem Within.snd {α : Type} {p : α × State} {a : α} {t : State} (e : p = (a, t)) (h : Within M s0 p.2) : Within M s0 t := by
  subst e; exact h

theorem Within.thd {α β : Type} {p : α × β × State} {a : α} {b : β} {t : State} (e : p = (a, b, t)) (h : Within M s0 p.2.2) :
    Within M s0 t := by subst e; exact h

/-- The outcome of a command moves only within the mask. -/
def ResWithin (M : Nat) (s0 : State) (r : Res) : Prop := ∀ t, r = .next t → Within M s0 t

theorem ResWithin.next {t : State} (h : Within M s0 t) : ResWithin M s0 (.next t) := fun _ e => by cases e; exact h
theorem ResWithin.fault {f : Fault} : ResWithin M s0 (.fault f) := fun _ e => by cases e
theorem ResWithin.ite {c : Prop} [Decidable c] {a b : Res} (ha : c → ResWithin M s0 a) (hb : ¬c → ResWithin M s0 b) :
    ResWithin M s0 (if c then a else b) := by split <;> simp_all

/-! ### One part at a time -/

variable {s : State}

theorem Within.set_regs {x} (h : Within M s0 s) (hm : 1 &&& M = 1) (h0 : swf regDflt s.regs = true → swf regDflt x = true) : Within M s0 { s with regs := x } :=
  h.next ⟨rfl, fun f hf => (by cases f <;> first | rfl | cases hf), fun i => { i with regs := h0 i.regs }, Nv.Forward.refl _⟩ hm

theorem Within.set_staged {x} (h : Within M s0 s) (hm : 2 &&& M = 2) (h0 : srising s.staged = true → srising x = true) : Within M s0 { s with staged := x } :=
  h.next ⟨rfl, fun f hf => (by cases f <;> first | rfl | cases hf), fun i => { i with staged := h0 i.staged }, Nv.Forward.refl _⟩ hm

theorem Within.set_limits {x} (h : Within M s0 s) (hm : 4 &&& M = 4) (h0 : swf slotsDflt s.limits = true → swf slotsDflt x = true) : Within M s0 { s with limits := x } :=
  h.next ⟨rfl, fun f hf => (by cases f <;> first | rfl | cases hf), fun i => { i with limits := h0 i.limits }, Nv.Forward.refl _⟩ hm

theorem Within.set_limStaged {x} (h : Within M s0 s) (hm : 8 &&& M = 8) (h0 : swf slotsDflt s.limStaged = true → swf slotsDflt x = true) : Within M s0 { s with limStaged := x } :=
  h.next ⟨rfl, fun f hf => (by cases f <;> first | rfl | cases hf), fun i => { i with limStaged := h0 i.limStaged }, Nv.Forward.refl _⟩ hm

theorem Within.set_latch {x} (h : Within M s0 s) (hm : 32 &&& M = 32) : Within M s0 { s with latch := x } :=
  h.next ⟨rfl, fun f hf => (by cases f <;> first | rfl | cases hf), fun i => { i with }, Nv.Forward.refl _⟩ hm

theorem Within.set_lowHeld {x} (h : Within M s0 s) (hm : 64 &&& M = 64) : Within M s0 { s with lowHeld := x } :=
  h.next ⟨rfl, fun f hf => (by cases f <;> first | rfl | cases hf), fun i => { i with }, Nv.Forward.refl _⟩ hm

theorem Within.set_ev {x} (h : Within M s0 s) (hm : 128 &&& M = 128) (h0 : s.ev.retained.length ≤ 1024 → x.retained.length ≤ 1024) (h1 : s.ev.bmc.length ≤ 256 → x.bmc.length ≤ 256) : Within M s0 { s with ev := x } :=
  h.next ⟨rfl, fun f hf => (by cases f <;> first | rfl | cases hf), fun i => { i with retained := h0 i.retained, bmc := h1 i.bmc }, Nv.Forward.refl _⟩ hm

theorem Within.set_out {x} (h : Within M s0 s) (hm : 256 &&& M = 256) : Within M s0 { s with out := x } :=
  h.next ⟨rfl, fun f hf => (by cases f <;> first | rfl | cases hf), fun i => { i with }, Nv.Forward.refl _⟩ hm

theorem Within.set_dev {x} (h : Within M s0 s) (hm : 512 &&& M = 512) : Within M s0 { s with dev := x } :=
  h.next ⟨rfl, fun f hf => (by cases f <;> first | rfl | cases hf), fun i => { i with }, Nv.Forward.refl _⟩ hm

theorem Within.set_die {x} (h : Within M s0 s) (hm : 1024 &&& M = 1024) (h0 : swf tileDflt s.die.tiles = true → swf tileDflt x.tiles = true) : Within M s0 { s with die := x } :=
  h.next ⟨rfl, fun f hf => (by cases f <;> first | rfl | cases hf), fun i => { i with tiles := h0 i.tiles }, Nv.Forward.refl _⟩ hm

theorem Within.set_mem {x} (h : Within M s0 s) (hm : 2048 &&& M = 2048) (h0 : s.mem.wf = true → x.wf = true) : Within M s0 { s with mem := x } :=
  h.next ⟨rfl, fun f hf => (by cases f <;> first | rfl | cases hf), fun i => { i with mem := h0 i.mem }, Nv.Forward.refl _⟩ hm

theorem Within.set_prog {x} (h : Within M s0 s) (hm : 4096 &&& M = 4096) (h0 : swf slotDflt s.prog.slots = true → swf slotDflt x.slots = true) (h1 : swf runDflt s.prog.runs = true → swf runDflt x.runs = true) : Within M s0 { s with prog := x } :=
  h.next ⟨rfl, fun f hf => (by cases f <;> first | rfl | cases hf), fun i => { i with slots := h0 i.slots, runs := h1 i.runs }, Nv.Forward.refl _⟩ hm

theorem Within.set_intake {x} (h : Within M s0 s) (hm : 8192 &&& M = 8192) (h0 : swf streamDflt s.intake.table = true → swf streamDflt x.table = true) : Within M s0 { s with intake := x } :=
  h.next ⟨rfl, fun f hf => (by cases f <;> first | rfl | cases hf), fun i => { i with table := h0 i.table }, Nv.Forward.refl _⟩ hm

theorem Within.set_kv {x} (h : Within M s0 s) (hm : 16384 &&& M = 16384) : Within M s0 { s with kv := x } :=
  h.next ⟨rfl, fun f hf => (by cases f <;> first | rfl | cases hf), fun i => { i with }, Nv.Forward.refl _⟩ hm

theorem Within.set_mrd {x} (h : Within M s0 s) (hm : 32768 &&& M = 32768) : Within M s0 { s with mrd := x } :=
  h.next ⟨rfl, fun f hf => (by cases f <;> first | rfl | cases hf), fun i => { i with }, Nv.Forward.refl _⟩ hm

theorem Within.set_alm {x} (h : Within M s0 s) (hm : 65536 &&& M = 65536) : Within M s0 { s with alm := x } :=
  h.next ⟨rfl, fun f hf => (by cases f <;> first | rfl | cases hf), fun i => { i with }, Nv.Forward.refl _⟩ hm

theorem Within.set_hbm {x} (h : Within M s0 s) (hm : 131072 &&& M = 131072) (h0 : swf stackDflt s.hbm.stk = true → swf stackDflt x.stk = true) : Within M s0 { s with hbm := x } :=
  h.next ⟨rfl, fun f hf => (by cases f <;> first | rfl | cases hf), fun i => { i with stk := h0 i.stk }, Nv.Forward.refl _⟩ hm

theorem Within.set_host {x} (h : Within M s0 s) (hm : 262144 &&& M = 262144) : Within M s0 { s with host := x } :=
  h.next ⟨rfl, fun f hf => (by cases f <;> first | rfl | cases hf), fun i => { i with }, Nv.Forward.refl _⟩ hm

theorem Within.set_combs {x} (h : Within M s0 s) (hm : 524288 &&& M = 524288) (h0 : swf combDflt s.combs = true → swf combDflt x = true) : Within M s0 { s with combs := x } :=
  h.next ⟨rfl, fun f hf => (by cases f <;> first | rfl | cases hf), fun i => { i with combs := h0 i.combs }, Nv.Forward.refl _⟩ hm

theorem Within.set_clk {x} (h : Within M s0 s) (hm : 1048576 &&& M = 1048576) : Within M s0 { s with clk := x } :=
  h.next ⟨rfl, fun f hf => (by cases f <;> first | rfl | cases hf), fun i => { i with }, Nv.Forward.refl _⟩ hm

theorem Within.set_ldg {x} (h : Within M s0 s) (hm : 2097152 &&& M = 2097152) : Within M s0 { s with ldg := x } :=
  h.next ⟨rfl, fun f hf => (by cases f <;> first | rfl | cases hf), fun i => { i with }, Nv.Forward.refl _⟩ hm

theorem Within.set_mt {x} (h : Within M s0 s) (hm : 4194304 &&& M = 4194304) (h0 : swf mtDflt s.mt = true → swf mtDflt x = true) : Within M s0 { s with mt := x } :=
  h.next ⟨rfl, fun f hf => (by cases f <;> first | rfl | cases hf), fun i => { i with mt := h0 i.mt }, Nv.Forward.refl _⟩ hm

theorem Within.set_st {x} (h : Within M s0 s) (hm : 8388608 &&& M = 8388608) (h0 : swf stDflt s.st = true → swf stDflt x = true) : Within M s0 { s with st := x } :=
  h.next ⟨rfl, fun f hf => (by cases f <;> first | rfl | cases hf), fun i => { i with st := h0 i.st }, Nv.Forward.refl _⟩ hm

theorem Within.set_wt {x} (h : Within M s0 s) (hm : 16777216 &&& M = 16777216) (h0 : swf wtDflt s.wt = true → swf wtDflt x = true) : Within M s0 { s with wt := x } :=
  h.next ⟨rfl, fun f hf => (by cases f <;> first | rfl | cases hf), fun i => { i with wt := h0 i.wt }, Nv.Forward.refl _⟩ hm

theorem Within.set_rt {x} (h : Within M s0 s) (hm : 33554432 &&& M = 33554432) (h0 : swf rtDflt s.rt = true → swf rtDflt x = true) : Within M s0 { s with rt := x } :=
  h.next ⟨rfl, fun f hf => (by cases f <;> first | rfl | cases hf), fun i => { i with rt := h0 i.rt }, Nv.Forward.refl _⟩ hm

theorem Within.set_bt {x} (h : Within M s0 s) (hm : 67108864 &&& M = 67108864) (h0 : swf btDflt s.bt = true → swf btDflt x = true) : Within M s0 { s with bt := x } :=
  h.next ⟨rfl, fun f hf => (by cases f <;> first | rfl | cases hf), fun i => { i with bt := h0 i.bt }, Nv.Forward.refl _⟩ hm

theorem Within.set_tre {x} (h : Within M s0 s) (hm : 134217728 &&& M = 134217728) (h0 : swf tpDflt s.tre.ports = true → swf tpDflt x.ports = true) : Within M s0 { s with tre := x } :=
  h.next ⟨rfl, fun f hf => (by cases f <;> first | rfl | cases hf), fun i => { i with ports := h0 i.ports }, Nv.Forward.refl _⟩ hm

theorem Within.set_slc {x} (h : Within M s0 s) (hm : 268435456 &&& M = 268435456) : Within M s0 { s with slc := x } :=
  h.next ⟨rfl, fun f hf => (by cases f <;> first | rfl | cases hf), fun i => { i with }, Nv.Forward.refl _⟩ hm

theorem Within.set_nv {x} (h : Within M s0 s) (hm : 536870912 &&& M = 536870912) (h0 : s.nv.Forward x) : Within M s0 { s with nv := x } :=
  h.next ⟨rfl, fun f hf => (by cases f <;> first | rfl | cases hf), fun i => { i with }, h0⟩ hm

theorem Within.set_mgmt {x} (h : Within M s0 s) (hm : 1073741824 &&& M = 1073741824) : Within M s0 { s with mgmt := x } :=
  h.next ⟨rfl, fun f hf => (by cases f <;> first | rfl | cases hf), fun i => { i with }, Nv.Forward.refl _⟩ hm

theorem Within.set_freeCtr {x} (h : Within M s0 s) (hm : 2147483648 &&& M = 2147483648) : Within M s0 { s with freeCtr := x } :=
  h.next ⟨rfl, fun f hf => (by cases f <;> first | rfl | cases hf), fun i => { i with }, Nv.Forward.refl _⟩ hm

theorem Within.updPage {p : Nat} {f : PageSt → PageSt} (h : Within M s0 s) (hm : 16 &&& M = 16)
    (ho : ∀ g, g.own = some .keeper → (f g).own = some .keeper) : Within M s0 (s.updPage p f) :=
  h.next ⟨rfl, fun f hf => (by cases f <;> first | rfl | cases hf), fun i => { i with
    pages := swf_supd i.pages
    fixed := fun q hq => by
      have := i.fixed q hq
      simp only [State.page, State.updPage, sget_supd i.pages] at *
      split
      · subst_vars; exact ho _ this
      · exact this }, Nv.Forward.refl _⟩ hm

end

end Sys2Proof.Machine
end

