-- ==== Sys2Proof/Tests/Slice0.lean ====
section
/-! SUPPORT. Tests: the smoke of WellFormed (an ill-formed command for each check), a few values worked out by hand from the
manual, and for every statement the states and operands that meet its hypotheses, clause by clause. -/

namespace Sys2Proof.Tests

open Sys2Proof Sys2Proof.Machine

set_option Elab.async false

/-! ### WellFormed: every list below holds commands with one ill-formed operand each -/

def oneFlit : MeshPkt := { flits := [{ lane := 0, pay := 0, poison := false }], esc := false }
def noFlit : MeshPkt := { flits := [], esc := false }
def tooLong : MeshPkt := { flits := List.replicate 14 { lane := 0, pay := 0, poison := false }, esc := false }
def noTPkt : TPkt := { hdr := 0, body := .link 0, good := true }
def quietPort : TrainInfo :=
  { short := 0, opened := 0, eqFail := 0, polInv := 0, order := .straight, fecLock := true, nbr := none }
def quietEnv : StartEnv :=
  { bootFail := [], flashLost := false, bistFail := [], karFail := [], routerFail := [], seamFail := [], fmax := [],
    hbmFail := [], hbmLanes := [], ports := List.replicate 16 quietPort, nonce := 0, msTest := 0, msTrain := 0 }
def quietPower : PowerReading :=
  { cur := List.replicate 56 0, vStby := 3300, vCore := 1800, vAux := 12000, combMv := List.replicate 24 0,
    edges := List.replicate 24 0, occ := [] }

theorem test_wf_pages : ([.registerWrite .host 32768 0x40 4 0 false, .registerWrite .host 0 4096 4 0 false,
    .registerWrite .host 0 0x40 2 0 false, .registerWrite .host 0 0x44 8 0 false, .rcRead .host 32768 0, .rcRead .host 0 2,
    .rcRead .host 0 4096, .latchedRead .host 32768 0, .latchedRead .host 0 6, .latchedRead .host 0 4096,
    .pageCommit .host 32768 false 0, .pageDiscard .host 32768, .pageClaim .host 32768, .pageRelease .host 32768]
      : List Instr).all (fun c => !c.wf) = true := by decide +kernel

theorem test_wf_tiles : ([.pass 2880 0 0 0 [], .groupEmit 2880 0 none, .weightPacketIntake 2880 oneFlit 0,
    .weightPacketIntake 0 noFlit 0, .weightPacketIntake 0 tooLong 0, .load 2880 0 0, .planeLoadStart 2880 0, .planeLoadDone 2880 0,
    .wfill 2880 0 0 0, .opsDmaWrite 2880 0 ⟨List.replicate 128 0, 0⟩ 0, .opsDmaWrite 0 1536 ⟨List.replicate 128 0, 0⟩ 0,
    .opsDmaWrite 0 0 ⟨[], 0⟩ 0, .sfn 2880 0 0 .exp [], .shadowCompare 2880 ⟨[], false, []⟩, .arbiterVerdict 2880 ⟨[], false, []⟩,
    .shadowStall 2880, .steerWordArrive 2880 0 0 false 0, .wagDataArrive 2880 oneFlit 0, .wagDataArrive 0 noFlit 0,
    .wagDataArrive 0 tooLong 0, .steerOrphan 2880 0 0, .steerOrphan 0 16 0] : List Instr).all (fun c => !c.wf) = true := by
  decide +kernel

theorem test_wf_mesh : ([.flitReceive 2880 0 (.flit ⟨0, 0, 0⟩ 0) 0, .flitReceive 0 6 (.flit ⟨0, 0, 0⟩ 0) 0, .linkSilence 2880 1, .linkSilence 0 6,
    .combineWindowExpire 2880 0 0, .sinkChunkReceive 2880 oneFlit, .sinkChunkReceive 0 noFlit, .sealFlow 2880 0 0,
    .deadlockSuspect 24] : List Instr).all (fun c => !c.wf) = true := by decide +kernel

theorem test_wf_buffers : ([.scheduledRead 2880 0 0 false 0 [], .scheduledRead 0 5 0 false 0 [],
    .scheduledRead 0 0 16384 false 0 [], .scheduledWrite 2880 0 0 (List.replicate 16 ⟨0, 0⟩) 0,
    .scheduledWrite 0 5 0 (List.replicate 16 ⟨0, 0⟩) 0, .scheduledWrite 0 0 16384 (List.replicate 16 ⟨0, 0⟩) 0,
    .scheduledWrite 0 0 0 [] 0, .bRead 2880 0 0 false 0, .bWrite 2880 oneFlit 0, .bWrite 0 noFlit 0, .partnerRead 2880 0 0 0 false 0,
    .partnerRead 0 4 0 0 false 0, .partnerWrite 2880 0 oneFlit 0, .partnerWrite 0 4 oneFlit 0, .partnerWrite 0 0 noFlit 0,
    .areadRowPresent 2880 0 [], .holdAdmit 2880 0, .dmaWindowTimeout 2880 0, .bScrubRead 2880 0 [], .bScrubWriteback 2880 0]
      : List Instr).all (fun c => !c.wf) = true := by decide +kernel

theorem test_wf_programs : ([.win 2880 0 0, .fill 2880 0 0 0, .spill 2880 0 0 0, .send 2880 0 0 0, .wait 2880 0, .waitRelease 2880,
    .nop 2880, .endCode 2880, .fillDone 2880 0 0, .fillDone 0 8 0, .writeAckReceive 2880 0 0, .instanceComplete 2880 0,
    .templateRelease 0 65536, .forage 2880, .gangStart 24 0, .combEpochSwitch 24 0, .epochDrainTimeout 24 0]
      : List Instr).all (fun c => !c.wf) = true := by decide +kernel

theorem test_wf_keeper : ([.imageInstall .host 4, .imageRemove .host 4, .imageQuery .host 4, .treathRetrain .host 4
    (List.replicate 16 quietPort), .treathRetrain .host 0 [], .policySet .host 4, .fwUpdate .host 4, .floorCommit .host 4,
    .licenceInstall .host 4, .ownerKeySet .host 4, .lcsRequest .host 4, .minderRestart 6, .minderLost 6, .keeperFenceOrder 2880,
    .karComplete 2880 true, .reinstateStage 2880, .routerProbeTimeout 2880, .fieldRotation [2880], .fieldTestDone 2880 true,
    .seamWireFail 156 0, .seamWireFail 0 544] : List Instr).all (fun c => !c.wf) = true := by decide +kernel

theorem test_wf_streams : ([.intakeWrite (2 ^ 28) [0] false, .intakePartial 2097152, .appendFetchDone 2097152 [],
    .hostReadCompletionTimeout 2097152, .openRec 2097152, .appendRec 2097152, .generateRec 2097152, .pauseRec 2097152,
    .resumeRec 2097152, .forkRec 2097152, .closeRec 2097152, .queryRec 2097152] : List Instr).all (fun c => !c.wf) = true := by
  decide +kernel

theorem test_wf_hbm : ([.hbmRead 12 0 0 [] [], .hbmWrite 12 oneFlit [], .hbmWrite 0 noFlit [], .hbmScrubRead 12 [] false,
    .hbmSoftRepair .host 12 0 false [], .hbmHardRepair .host 12 0 false, .hbmStackLost 12, .hbmHot 12 0, .hbmHot 0 256,
    .hbmFullRateReturn 12 0, .hbmFullRateReturn 0 256, .bar4Read 0 4097, .bar4Write 0 (List.replicate 4097 0) false,
    .bar4Resize 64] : List Instr).all (fun c => !c.wf) = true := by decide +kernel

theorem test_wf_links : ([.treathPacketReceive 16 noTPkt, .linkKeepalive 16, .trlPortDown 16 1, .trlPortDown 0 0,
    .trlPortDown 0 4, .trlRetrain .host 16 quietPort, .timeExchange 16 0 0 0 0 0 0, .readyMsg 0 256 [], .notReadyMsg 0 256 0,
    .commitMsg 0 256 noBody, .abortMsg 0 256, .doneMsg 0 256, .statusQ 256, .statusR 256 0, .beatMsg 256,
    .sliceMemberLost 256, .maintRead 16 noTPkt, .maintWrite 16 noTPkt, .maintResponse 16 noTPkt, .identityQuery 16 noTPkt,
    .neighbourQuery 16 noTPkt] : List Instr).all (fun c => !c.wf) = true := by decide +kernel

theorem test_wf_host : ([.msixUnmask (some 2048), .bmcPageRead 65536 0, .bmcPageRead 0 65536, .bmcPageWrite 65536 0 0,
    .bmcPageWrite 0 65536 0, .spdmGetCertificate 8 0 0, .spdmChallenge 8 0, .spdmGetMeasurements 256 false 0,
    .slhDsaSignature 256, .updateComponent 1 (2 ^ 32), .requestFirmwareData (2 ^ 32) []] : List Instr).all
      (fun c => !c.wf) = true := by decide +kernel

theorem test_wf_clocks : ([.localChangeSwitch 24, .clkLockFail 24, .clkRefLost 3, .stretchStart 24 (List.replicate 16 0),
    .stretchStart 0 [], .stretchStart 0 (List.replicate 16 64), .stretchEnd 24 (List.replicate 16 0) 0, .stretchEnd 0 [] 0,
    .gnomonLoop 24 true 0 0, .gnomonLoop 0 true 64 0, .tempSample 24 (List.replicate 16 0), .tempSample 0 [],
    .tempSample 0 (List.replicate 16 256), .thermalLoop 6, .thermalTrip 24 0 0, .thermalTrip 0 16 0, .thermalTrip 0 0 256,
    .combIsolated 24 true, .senseFallback 24 true, .powerInterval { quietPower with cur := [] },
    .powerInterval { quietPower with combMv := [] }, .powerInterval { quietPower with edges := [] },
    .powerInterval { quietPower with occ := [(24, 0, 0)] }] : List Instr).all (fun c => !c.wf) = true := by decide +kernel

theorem test_wf_start : ([.startInstant { quietEnv with bootFail := [(7, 0, 1)] },
    .startInstant { quietEnv with bootFail := [(0, 2, 1)] }, .startInstant { quietEnv with bootFail := [(0, 0, 7)] },
    .startInstant { quietEnv with bistFail := [2880] }, .startInstant { quietEnv with karFail := [2880] },
    .startInstant { quietEnv with routerFail := [2880] }, .startInstant { quietEnv with seamFail := [(156, 0)] },
    .startInstant { quietEnv with seamFail := [(0, 544)] }, .startInstant { quietEnv with fmax := [(2880, 132)] },
    .startInstant { quietEnv with fmax := [(0, 145)] }, .startInstant { quietEnv with hbmFail := [12] },
    .startInstant { quietEnv with hbmLanes := [(12, 1)] }, .startInstant { quietEnv with ports := [] }]
      : List Instr).all (fun c => !c.wf) = true := by decide +kernel

/-- Well-formed commands at the upper end of their ranges. -/
theorem test_wf_accepts : ([.registerWrite .keeper 32767 4088 8 0 false, .rcRead .bmc 32767 4092, .pass 2879 0 0 0 [],
    .steerOrphan 2879 15 0, .scheduledRead 2879 4 16383 true 0 [], .seamWireFail 155 543, .startInstant quietEnv,
    .powerInterval quietPower, .tempSample 23 (List.replicate 16 255), .msixUnmask (some 2047)] : List Instr).all
      (fun c => c.wf) = true := by decide +kernel

/-! ### Values worked out by hand -/

/-- The check value of CRC-32C, of the nine digits. -/
theorem test_crc32c : crc32c [0x31, 0x32, 0x33, 0x34, 0x35, 0x36, 0x37, 0x38, 0x39] = 0xE3069283 := by decide +kernel

/-- 1 + 1 = 2, 1.5 × −2 = −3, and 1 / 3 rounded to nearest, in FP32. -/
theorem test_fp32 : fAdd 0x3F800000 0x3F800000 = 0x40000000 ∧ fMul 0x3FC00000 0xC0000000 = 0xC0400000
    ∧ fDiv 0x3F800000 0x40400000 = 0x3EAAAAAB := by decide +kernel

/-- Comb 23, physical index 119 is page 2879, and row 4 of the comb holds S and W tiles (R13, R24, R865). -/
theorem test_sites : mkSite 23 119 = 2879 ∧ siteKind 48 = .s ∧ siteKind 49 = .w ∧ siteKind 1 = .b ∧ siteKind 0 = .m := by decide

/-- Eight flipped bits of a stored row word's check byte mark it as poisoned; one flipped bit is corrected. -/
theorem test_word_code : wordDecode (wordForm 5 7 true) 7 = .poisoned 5
    ∧ wordDecode { wordForm 5 7 false with data := 4 } 7 = .corrected 5 := by decide +kernel

/-! ### States for the witnesses -/

/-- The invariant as a test that evaluates: the stores, the owners listed, the queues of events. -/
def invOk (s : State) : Bool :=
  s.mem.wf && swf regDflt s.regs && swf slotsDflt s.limits && swf slotsDflt s.limStaged && srising s.staged
    && swf pageDflt s.pages && s.pages.all (fun e => !fixedPage e.1 || e.2.own == some .keeper)
    && decide (s.ev.retained.length ≤ 1024) && decide (s.ev.bmc.length ≤ 256)
    && swf tileDflt s.die.tiles && swf combDflt s.combs && swf mtDflt s.mt && swf stDflt s.st && swf wtDflt s.wt
    && swf rtDflt s.rt && swf btDflt s.bt && swf stackDflt s.hbm.stk && swf streamDflt s.intake.table
    && swf slotDflt s.prog.slots && swf runDflt s.prog.runs && swf tpDflt s.tre.ports

theorem mem_of_sfind {α : Type} {m : Sparse α} {k : Nat} {v : α} (h : sfind m k = some v) : (k, v) ∈ m := by
  induction m with
  | nil => simp [sfind] at h
  | cons a t ih =>
    obtain ⟨k', v'⟩ := a
    simp only [sfind] at h
    split at h
    · rename_i e; cases h; simp [e]
    · exact List.mem_cons_of_mem _ (ih h)

theorem inv_of_ok {s : State} (h : invOk s = true) : s.Inv := by
  simp only [invOk, Bool.and_eq_true, decide_eq_true_eq] at h
  obtain ⟨⟨⟨⟨⟨⟨⟨⟨⟨⟨⟨⟨⟨⟨⟨⟨⟨⟨⟨⟨h1, h2⟩, h3⟩, h4⟩, h5⟩, h6⟩, h7⟩, h8⟩, h9⟩, h10⟩, h11⟩, h12⟩, h13⟩, h14⟩, h15⟩, h16⟩, h17⟩, h18⟩,
    h19⟩, h20⟩, h21⟩ := h
  refine ⟨h1, h2, h3, h4, h5, h6, fun p hp => ?_, h8, h9, h10, h11, h12, h13, h14, h15, h16, h17, h18, h19, h20, h21⟩
  unfold State.page sget
  cases e : sfind s.pages p with
  | none => simpa [pageDflt, fixedPage] using hp
  | some v =>
    have := List.all_eq_true.1 h7 _ (mem_of_sfind e)
    simpa [hp] using this

/-- A register's row of its page. -/
def rowOf (p off : Nat) : RegRow := (regRow p off).getD ⟨0, 0, .ro, false, 0⟩

/-- Loader geometry that agrees (R171): a tensor of 1 x `w` positions of 32 channels from row `row` of B site 1 of the comb, its scales from
row 1, for the page of site 0. -/
def geomFor (w row : Nat) : Sparse Word :=
  [(regKey 0 0x100, BitVec.ofNat 32 (2 ^ 16 + w)), (regKey 0 0x104, BitVec.ofNat 32 (2 ^ 16 + w)), (regKey 0 0x108, 0x00200020),
    (regKey 0 0x110, 0x00010000), (regKey 0 0x114, BitVec.ofNat 32 (row * 2 ^ 18 + 0x11)),
    (regKey 0 0x118, 1)]
def geomWords : Sparse Word := geomFor 1 0

/-- Logical sites 1 and 48 to 52 of comb 0 in their own places. -/
def mapWords : Sparse Word := [1, 48, 49, 50, 51, 52].map fun l => (regKey (pgDfm 0) (0x100 + 4 * l), BitVec.ofNat 32 l)

/-- A tile in RUN, a comb in RUN. -/
def tileRun : TileSt := { tileDflt 0 with st := .run }
def combRun : Comb := { combDflt 0 with st := .run }

/-- A running device: READY, the host open, comb 0 with M, B, S and W tiles in RUN. -/
def up : State := { State.reset with
  regs := mapWords
  dev := { resetDev with st := .ready, chrono := 5000000000, running := true, keeper := true, servedOnce := true, perst := false,
                         resetN := false, inRange := true, bootLog := [] }
  host := { resetHost with linkUp := true, bme := true }
  combs := [(0, combRun), (1, combRun)]
  die := { resetDie with tiles := [(0, tileRun), (1, tileRun), (48, tileRun), (49, tileRun), (50, tileRun), (51, tileRun), (52, tileRun)] } }

/-- The same device with other parts. -/
def withPage (p : Nat) (g : PageSt) (s : State) : State := { s with pages := [(p, g)] }
def withReg (p off v : Nat) (s : State) : State := s.setReg p off v

theorem test_up_inv : up.Inv := inv_of_ok (by decide +kernel)

/-- A launch, an instance of it, and the device with that instance on the tiles of comb 0. -/
def lau : Launch :=
  { id := 1, step := 1, role := 0, slot := 0, graph := 0, bucket := 0, d0 := 1, d1 := 1, ptrs := [], anchors := []
    cmask := 0xFFFFFFFF, rmask := 0xFFFFFFFF, map := 0, done := 0, job := 0, first := 0, tasks := 1, tmpls := [], reds := []
    start := 0, started := true, finished := false, energy := 0 }
def instA : Inst := ⟨1, 0, 0, 5, 0⟩
def runA : TileRun := { runDflt 0 with inst := some instA }
def work : State := { up with
  prog := { resetProg with launches := [lau], runs := [(0, runA), (1, runA), (48, runA), (49, runA)] } }

/-- Tallies of two features, a group of them, and the M tile of site 0 that holds one. -/
def talZ : Tal := ⟨0, 0, residueOf 0⟩
def groupZ : TGroup := ⟨0, 0, 5, none, 0, 0, [List.replicate 32 talZ, List.replicate 32 talZ], 0, 0, 5⟩
def withM (t : MTile) (s : State) : State := { s with mt := [(0, t)] }
/-- One plane of the tensor of `geomWords`. -/
def loadA : MLoad := ⟨BitVec.ofNat 64 (2 ^ 54), false, false, 0xFFFFFFFF, 0xFFFFFFFF, 1, 1, 5, none, 0, 0, false, false⟩
/-- A shadowed operation of the S tile at site 48. -/
def shadowA : Shadow := ⟨1, 5, ⟨[1], false, []⟩, 50, none, none, 1, false⟩
def withShadow (x : Shadow) (s : State) : State := { s with st := [(48, { stDflt 48 with shadows := [x] })] }

/-- A group that a W-tile input forwards, with its last packet at cycle 9; the W tile of site 49. -/
def wgroupA : WGroup := ⟨0, 0, BitVec.ofNat 64 (2 ^ 24 + 2 * 2 ^ 15), [], 1, [], [], 9, false, 2, 9⟩
def withW (t : WTile) (s : State) : State := { s with wt := [(49, t)] }
/-- A flit whose CRC is right, and a flit that stays in its queue. -/
def goodFlit (ctl : Nat) : Flit := ⟨BitVec.ofNat 23 (ctl + flitCrc ctl 0 0), 0, 0⟩
def stuckFlit : QFlit := ⟨⟨0, 0, false⟩, true, true, 100, 0, false, false, false⟩
/-- A reduction sink of the S tile at site 48: ID 3, 4 chunks, `expect` contributors; a chunk for it. -/
def sinkRegs (expect : Nat) : Sparse Word :=
  [(regKey (pgRouter 48) 0x600, BitVec.ofNat 32 (expect * 2 ^ 25 + 4 * 2 ^ 17)), (regKey (pgRouter 48) 0x604, BitVec.ofNat 32 (2 ^ 31 + 3))]
def chunkA : MeshPkt :=
  { flits := List.replicate 4 ⟨BitVec.ofNat 128 (3 * 2 ^ 96 + 2 * 2 ^ 81 + 2 ^ 73), 0, false⟩, esc := false }
def withR (r : Router) (s : State) : State := { s with rt := [(48, r)] }

/-- A B tile at site 1 whose bank 7 takes writes, and logical site 0 of its comb served by the spare 108. -/
def withB (t : BTile) (s : State) : State := { s with bt := [(1, t)], regs := (regKey 1 (0x100 + 4 * 7), 0x81FF0000) :: mapWords }
def lostMap : Sparse Word := (regKey (pgDfm 0) 0x100, 108) :: mapWords

theorem all_banks {s : State} {site p : Nat} (h : ∀ r : Fin 32, s.portBank site p r = true) (r : Nat) :
    s.portBank site p r = true := by
  have e : s.portBank site p r = s.portBank site p (r % 32) := by simp [State.portBank, bankOf]
  rw [e]
  exact h ⟨r % 32, Nat.mod_lt _ (by decide)⟩

/-- A request for `n` rows from `row`; a request to write one row, as a packet; a held row; its packet. -/
def bHeadA (op row n : Nat) : BitVec 512 := BitVec.ofNat 512 (op * 2 ^ 508 + row * 2 ^ 488 + n * 2 ^ 481)
def bPktA (op row : Nat) : MeshPkt :=
  mkPkt (mkHdr 0 0 1 0 3 0 0 0 0) (op * 2 ^ 508 + row * 2 ^ 488 + 2 ^ 481 + 0xFFFF * 2 ^ 465) [(1, false), (2, false)]
def bReadA (left : Nat) : BReadReq := ⟨7, left, 0, 0, 0, none, 7, [], 10, false, none⟩
def heldA : BHeld := ⟨5, List.replicate 16 ⟨0, 0⟩, 0xFFFF, 3, 0, 9, false, 0⟩
def bPacketA : BPkt := ⟨0, 1, false, false, none, true, 0, 0, 0⟩
def segA : SegRead := ⟨0, 1, 3, 0, 2, none, 0⟩

/-- A template for every M tile, an image with one graph and one bucket of it, a slot that holds the image active. -/
def tmplA (flags elig : Nat) : Template := ⟨0, flags, 0, 1, 0, 0, 0, 1, elig, 0, 0⟩
def imageA (t : Template) : Image :=
  { size := 208, crc := 0, footprint := 0, formats := 0, fallback := 0, ngraph := 1, pages := [], mcast := [], sinks := [], micro := []
    tasks := [t], graphs := [⟨0, 1, 0, 0, 0⟩], buckets := [⟨4, 4, 0, 1, 0⟩], queues := [], data := [] }
def slotA (t : Template) : Slot := { slotDflt 0 with st := .active, img := some (imageA t), addr := 2 ^ 20 }
/-- The device with that image in slot 0 and the launch waiting for its instances. -/
def ready (t : Template) (tr : List TmplRun) (pools : Sparse (List Inst)) (runs : Sparse TileRun) : State := { up with
  prog := { resetProg with slots := [(0, slotA t)], launches := [{ lau with tmpls := tr }], pools := pools, runs := runs } }
/-- A launch record of the graph for 1 x 1, with `v` in its first byte. -/
def launchRec (v : Byte) : LRec := ⟨[v, 0, 0, 0, 1, 0, 0, 0, 1, 0, 0, 0], 0, 0, 0⟩
def withProg (p : Prog) (s : State) : State := { s with prog := p }
/-- A switch to slot 0 or to no program, not loaded yet. -/
def toSlot (n : Nat) (flush loaded : Bool) : Switching := ⟨⟨true, n, flush, 5, 0⟩, loaded, 0, [], []⟩

/-- One HBM stack in RUN, in the map. -/
def hbmUp : Hbm := { stk := [(0, { stackDflt 0 with st := .run, inMap := true, lanes := 2 ^ 32 - 1 })], kpoison := [], undef := [], rewritten := [], onDie := [] }
def mem0 : State := { up with hbm := hbmUp }
/-- A program image of 208 bytes (R365 to R367): one graph with one bucket without tasks. -/
def imgHead (crc : Nat) : List Byte :=
  leBytes 4 0x504E5A4B ++ leBytes 2 1 ++ [2, 1] ++ leBytes 4 208 ++ leBytes 4 0 ++ [0, 0, 0xFF, 0] ++ leBytes 4 crc
    ++ List.replicate 104 0 ++ [6, 0xFF, 0, 0, 1, 0, 0, 0, 160, 0, 0, 0, 32, 0, 0, 0, 7, 0xFF, 0, 0, 1, 0, 0, 0, 192, 0, 0, 0, 16, 0, 0, 0]
    ++ [0, 1] ++ List.replicate 30 0 ++ [4, 0, 0, 0, 4] ++ List.replicate 11 0
def imgBytes : List Byte := imgHead (crc32c (imgHead 0))
def withImg (b : List Byte) (s : State) : State := { s with mem := (mem0.dramWrite (2 ^ 20) b).mem, hbm := hbmUp }

/-- The host owns mailbox 3, with these arguments. -/
def mbx (a0 a1 : Nat) (s : State) : State := withPage (pgKpr 3) { pageDflt (pgKpr 3) with own := some .host } { s with
  regs := (regKey (pgKpr 3) 0x050, BitVec.ofNat 32 a0) :: (regKey (pgKpr 3) 0x058, BitVec.ofNat 32 a1) :: s.regs }
def withNv (n : Nv) (s : State) : State := { s with nv := n }
/-- Stream 5 with a waiting record of this opcode. -/
def pendA (op : Byte) : Pend := ⟨op :: List.replicate 63 0, [], [], [], true, false⟩
def strm (st : Nat) : Stream := { streamDflt 0 with st := st }
def withStream (st : Nat) (p : Pend) (s : State) : State := { s with
  intake := { resetIntake with table := [(5, strm st)], pend := [(5, [p])], init := true } }

/-- Every comb in RUN; a Treath port; a page that the host owns. -/
def wide : State := { up with combs := (List.range 24).map fun c => (c, combRun) }
def withPort (n : Nat) (t : TPort) (s : State) : State := { s with tre := { s.tre with ports := [(n, t)] } }
def portUp : TPort := { tpDflt 0 with st := 2 }
def hostPage (p : Nat) (s : State) : State := withPage p { pageDflt p with own := some .host } s
/-- The launch queue at 2 ^ 20 with one record, whose first byte is `v`. -/
def queued (v : Byte) (m : Nat) : State := { up with
  hbm := hbmUp
  mem := (mem0.dramWrite (2 ^ 20) [v]).mem
  mrd := { resetMrd with configured := true, mode := m }
  regs := [(regKey pgMrd 0x078, BitVec.ofNat 32 (2 ^ 20)), (regKey pgMrd 0x084, 1)] }
def stepA : StepRec := synthStep 7 noBody
def withSteps (l a : List StepRec) (s : State) : State := { s with mrd := { resetMrd with configured := true, steps := l, abandoned := a } }
/-- An HBM request: operation, address, units; a Treath port's training that finds nothing wrong; a maintenance packet. -/
def hReq (op a n : Nat) : BitVec 512 := BitVec.ofNat 512 (op * 2 ^ 508 + a * 2 ^ 462 + n * 2 ^ 455)
def calm : TrainInfo := ⟨0, 0, 0, 0, .straight, true, none⟩
def maintA (op : Nat) : TPkt := ⟨BitVec.ofNat 128 (6 * 2 ^ 102), .maint (BitVec.ofNat 512 (op * 2 ^ 508)), true⟩
def withTime (t : TimeSt) (s : State) : State := { s with tre := { s.tre with time := t } }
def timeA : TimeSt := { resetTreath.time with parent := some 15 }

/-- A member of a slice of three: own and lead's logical ID; nothing heard for long. -/
def member (my lead : Nat) (slc : Slice) (s : State) : State := { s with
  slc := slc
  regs := [(regKey pgRte 0x04C, BitVec.ofNat 32 (2 ^ 31 + my * 2 ^ 16 + lead * 2 ^ 8 + 2)), (regKey pgRte 0x050, 100)] }
def round (k phase : Nat) : SRound :=
  { step := k, own := some [], since := 0, ready := [], phase := phase, body := { noBody with hasStep := true }, done := [] }
def withMgmt (m : Mgmt) (s : State) : State := { s with mgmt := m }

/-- A device in STANDBY whose flash holds six objects without content (SVN 0, key slot 0); what its start finds. -/
def fresh : State := { State.reset with nv := { makerNv with
  bankA := { gen := 1, objs := (List.range 6).map fun i => (i + 1, []), adv := [] } } }
def goodEnv : StartEnv :=
  { bootFail := [], flashLost := false, bistFail := [], karFail := [], routerFail := [], seamFail := [], fmax := [],
    hbmFail := [], hbmLanes := [], ports := List.replicate 16 calm, nonce := 0, msTest := 0, msTrain := 0 }

/-! ### Witnesses that need a signed object

What verifies is uninterpreted (log 17), so these five say what holds on a device whose keys accept an object signed with zeros; where the
object lies in memory, that the memory holds it is a premise too: reading 17,108 bytes back is too long a computation for a test. -/

/-- Values of the uninterpreted hash, signatures and serial number under which zeros verify. -/
def Unsealed : Prop :=
  (∀ l, Config.sha384 l = 0) ∧ (∀ k, Config.fuseHash k = 0) ∧ (∀ o k, Config.verifies o k = true) ∧ Config.serial = 0

def signed (h : List Byte) : List Byte := h ++ List.replicate sigLen 0
/-- A licence of tier 1, issue 5; a token that returns the device to RETURNED; a full package of component 1 and its object. -/
def licA : List Byte := signed (leBytes 4 0x434C5A4B ++ [1, 0, 1, 0] ++ leBytes 8 0 ++ leBytes 4 5 ++ List.replicate 44 0)
def tokA : List Byte := signed (leBytes 4 0x544B5A4B ++ [3, 0, 0, 0] ++ List.replicate 56 0)
def objHead : List Byte := leBytes 4 0x4F435A4B ++ [1] ++ List.replicate 59 0
def pkgOps : List Byte := [3] ++ leBytes 4 64 ++ objHead ++ [4] ++ leBytes 4 sigLen ++ [0, 0]
def pkgA : List Byte := signed (leBytes 4 0x50445A4B ++ [1, 0, 1, 1] ++ List.replicate 8 0 ++ leBytes 4 (64 + sigLen)
  ++ leBytes 4 pkgOps.length ++ List.replicate 104 0 ++ partName ++ List.replicate 112 0 ++ pkgOps)
def openNv : Nv := { makerNv with bankA := { gen := 1, objs := [(1, [])], adv := [] } }
def openDev : State := { up with nv := openNv, hbm := hbmUp }

theorem lic_ok (h : Unsealed) : openNv.licFault licA = 0 := by
  obtain ⟨h1, h2, h3, h4⟩ := h
  simp only [Nv.licFault, Nv.vendorOk, Nv.verifies, Nv.keyHash, h1, h2, h3, h4]
  decide +kernel

theorem pkg_ok (h : Unsealed) : (openNv.checkPkg pkgA).code = 0 := by
  obtain ⟨h1, h2, h3, -⟩ := h
  simp only [Nv.checkPkg, Nv.objOk, Nv.vendorOk, Nv.verifies, Nv.keyHash, h1, h2, h3]
  decide +kernel

theorem tok_ok (h : Unsealed) {s : State} (hs : s.nonce = 0) : s.tokenOk tokA = true ∧ openNv.vendorOk tokA = true := by
  obtain ⟨h1, h2, h3, h4⟩ := h
  simp only [State.tokenOk, State.bodyOk, Nv.vendorOk, Nv.verifies, Nv.keyHash, h1, h2, h3, h4, hs]
  decide +kernel

/-- An authorisation body of the owner, and a flash that holds an owner key. -/
def ownA : List Byte := leBytes 4 0x544B5A4B ++ List.replicate 60 0 ++ [0xFF] ++ List.replicate (sigLen - 1) 0
def keyNv : Nv := { openNv with owner := some [1] }

theorem own_ok (h : Unsealed) {s : State} (hs : s.nonce = 0) : s.bodyOk ownA = true ∧ keyNv.ownerOk ownA = true := by
  obtain ⟨h1, h2, h3, h4⟩ := h
  simp only [State.bodyOk, Nv.ownerOk, Nv.verifies, Nv.keyHash, keyNv, Option.map, h1, h2, h3, h4, hs]
  decide +kernel

/-- Mailbox 3 after an operation has been taken and its object read: the package (0x20) or the licence (0x30), and the token (0x40). -/
def owned (src : Source) (len : Nat) : State :=
  withPage (pgKpr 3) { pageDflt (pgKpr 3) with own := some src } (mbx (2 ^ 20) len openDev)
def rdObj (op len : Nat) : State :=
  ((owned .host len).mbGo .host 3 op).noteRead (((owned .host len).mbGo .host 3 op).mbArg 3 0) (((owned .host len).mbGo .host 3 op).mbArg 3 1) none
def rdTok : State := ((owned .bmc 0).mbGo .bmc 3 0x40).noteRead (((owned .bmc 0).mbGo .bmc 3 0x40).mbArg 3 0) (64 + sigLen) none

/-- The owner's mailbox when a key is set over another: what the operation starts from, and after both objects are read. -/
def owning : State := mbx (2 ^ 20) (2 ^ 21) (withNv keyNv openDev)
def rdKey : State := (owning.mbGo .host 3 0x31).noteRead ((owning.mbGo .host 3 0x31).mbArg 3 0) 432 none
def rdOwn : State := rdKey.noteRead (rdKey.mbArg 3 1) (64 + sigLen) none

/-! ### Witnesses of the statements' hypotheses, by clause -/

theorem witness_StepRunsFront_1 : ∃ (c : Instr) (rest : List Instr) (s : State),
    s.pending = c :: rest :=
  ⟨.nop 0, [], { up with pending := [.nop 0] }, by decide +kernel⟩

theorem witness_StepRunsFront_2 : ∃ (s : State),
    s.pending = [] ∧
    s.dev.running = true :=
  ⟨up, by decide +kernel⟩

theorem witness_StepRunsFront_3 : ∃ (s : State),
    s.pending = [] ∧
    s.dev.running = false :=
  ⟨State.reset, by decide +kernel⟩

theorem witness_StepKeepsInv : ∃ (s : State) (t : State),
    s.Inv ∧
    step s = .next t :=
  ⟨{ up with pending := [.nop 0] }, up, inv_of_ok (by decide +kernel), rfl⟩

theorem witness_QueueUntouched : ∃ (c : Instr) (s : State) (t : State),
    exec c s = .next t :=
  ⟨.nop 2879, up, up, rfl⟩

theorem witness_OnlyForward : ∃ (c : Instr) (s : State) (t : State),
    exec c s = .next t :=
  ⟨.nop 2879, up, up, rfl⟩

theorem witness_CommandFrames : ∃ (c : Instr) (s : State) (t : State) (f : Field),
    exec c s = .next t ∧
    f ∉ commandParts c :=
  ⟨.nop 0, up, up, .regs, rfl, by decide +kernel⟩

theorem witness_StopsOnlyWithoutUnit_2 : ∃ (c : Instr) (s : State),
    exec c s = .fault .noSuchUnit :=
  ⟨.nop 2880, up, rfl⟩

/-- MTL_OPS_ECC of site 0. -/
theorem witness_PageReads_1 : ∃ (p : Nat) (off : Nat) (q : Nat) (o : Nat) (r : RegRow) (s : State),
    s.Inv ∧
    p < 32768 ∧
    off < 4096 ∧
    off % 4 = 0 ∧
    s.target p off = some (q, o) ∧
    regRow q o = some r ∧
    r.acc = .rc :=
  ⟨0, 0x05C, 0, 0x05C, rowOf (0) 0x05C, withReg 0 0x05C 7 up, inv_of_ok (by decide +kernel), by decide +kernel⟩

/-- TRL_TX_BYTES of the last port. -/
theorem witness_PageReads_2 : ∃ (p : Nat) (off : Nat) (q : Nat) (o : Nat) (r : RegRow) (s : State),
    p < 32768 ∧
    off < 4096 ∧
    off % 4 = 0 ∧
    s.target p off = some (q, o) ∧
    regRow q o = some r ∧
    r.acc ≠ .rc ∧
    r.wide = true ∧
    (o - r.lo) % 8 = 0 :=
  ⟨pgTrl 15, 0x078, pgTrl 15, 0x078, rowOf (pgTrl 15) 0x078, withReg (pgTrl 15) 0x07C 9 up, by decide +kernel⟩

/-- Its high half, which waits in the latch. -/
theorem witness_PageReads_3 : ∃ (src : Source) (p : Nat) (off : Nat) (q : Nat) (o : Nat) (r : RegRow) (w : Word) (s : State),
    p < 32768 ∧
    off < 4096 ∧
    off % 4 = 0 ∧
    s.target p off = some (q, o) ∧
    regRow q o = some r ∧
    r.acc ≠ .rc ∧
    r.wide = true ∧
    (o - r.lo) % 8 ≠ 0 ∧
    sfind s.latch (halfKey src q o) = some w :=
  ⟨.host, pgTrl 15, 0x07C, pgTrl 15, 0x07C, rowOf (pgTrl 15) 0x07C, 7, { up with latch := [(halfKey .host (pgTrl 15) 0x07C, 7)] }, by decide +kernel⟩

/-- PCI_EVT_HEAD. -/
theorem witness_PageWrites_1 : ∃ (src : Source) (p : Nat) (off : Nat) (q : Nat) (r : RegRow) (s : State),
    s.Inv ∧
    p < 32759 ∧
    0x040 ≤ off ∧
    off < 0x800 ∧
    off % 4 = 0 ∧
    s.orderPage p = some q ∧
    regRow q off = some r ∧
    r.acc = .rw ∧
    r.wide = false ∧
    pageClass q ≠ .trl ∧
    pageClass q ≠ .kpr ∧
    pageClass q ≠ .bst ∧
    s.writeRes src q = 0 :=
  ⟨.host, pgPci, 0x05C, pgPci, rowOf (pgPci) 0x05C, withPage pgPci { pageDflt pgPci with own := some .host } up, inv_of_ok (by decide +kernel), by decide +kernel⟩

/-- MTL_LD_DIM0 of site 0. -/
theorem witness_PageWrites_2 : ∃ (src : Source) (p : Nat) (off : Nat) (q : Nat) (r : RegRow) (s : State),
    s.Inv ∧
    p < 32759 ∧
    0x040 ≤ off ∧
    off < 0x800 ∧
    off % 4 = 0 ∧
    s.orderPage p = some q ∧
    regRow q off = some r ∧
    r.acc = .st ∧
    isLimit q off = false ∧
    (pageClass q = .msh → s.copyState (q - 3072) = 0) ∧
    s.writeRes src q = 0 ∧
    (s.page q).pending = false :=
  ⟨.host, 0, 0x100, 0, rowOf (0) 0x100, withPage 0 { pageDflt 0 with own := some .host } up, inv_of_ok (by decide +kernel), by decide +kernel⟩

theorem witness_PageCommits_1 : ∃ (src : Source) (p : Nat) (q : Nat) (check : Bool) (seq : BitVec 16) (s : State),
    s.Inv ∧
    p < 32759 ∧
    s.orderPage p = some q ∧
    pageClass q = .mtl ∧
    (s.lock && src != .keeper) = false ∧
    (s.page q).pending = false ∧
    (check = true → (s.page q).seq % 65536 = seq.toNat) ∧
    s.ownsOk src q = true ∧
    (s.page q).slotDirty = [] ∧
    s.stagedOf q ≠ [] ∧
    s.agrees q = true :=
  ⟨.host, 0, 0, true, 3, withPage 0 { pageDflt 0 with own := some .host, seq := 65539 } { up with staged := geomWords }, inv_of_ok (by decide +kernel), by decide +kernel⟩

theorem witness_PageCommits_2 : ∃ (src : Source) (p : Nat) (q : Nat) (s : State),
    s.Inv ∧
    p < 32759 ∧
    s.orderPage p = some q ∧
    (s.lock && src != .keeper) = false ∧
    (s.page q).pending = false ∧
    s.ownsOk src q = true :=
  ⟨.bmc, 0, 0, withPage 0 { pageDflt 0 with own := some .bmc } { up with staged := [(regKey 0 0x118, 0), (regKey 1 0x070, 5)] }, inv_of_ok (by decide +kernel), by decide +kernel⟩

theorem witness_PageCommits_3 : ∃ (src : Source) (p : Nat) (q : Nat) (s : State),
    s.Inv ∧
    p < 32759 ∧
    s.orderPage p = some q ∧
    (s.lock && src != .keeper) = false ∧
    fixedPage q = false ∧
    (s.page q).own = none ∧
    (s.page q).pending = true :=
  ⟨.host, 0, 0, withPage 0 { pageDflt 0 with pending := true } { up with staged := [(regKey 0 0x118, 0)] }, inv_of_ok (by decide +kernel), by decide +kernel⟩

theorem witness_PageOwners_1 : ∃ (src : Source) (p : Nat) (q : Nat) (s : State),
    s.Inv ∧
    p < 32759 ∧
    s.orderPage p = some q ∧
    (s.lock && src != .keeper) = false ∧
    fixedPage q = false ∧
    (s.page q).own = none :=
  ⟨.host, 0, 0, { up with staged := [(regKey 0 0x118, 0), (regKey 1 0x070, 5)] }, inv_of_ok (by decide +kernel), by decide +kernel⟩

theorem witness_PageOwners_2 : ∃ (p : Nat) (q : Nat) (s : State),
    s.Inv ∧
    p < 32759 ∧
    s.orderPage p = some q ∧
    (s.page q).own ≠ some .keeper :=
  ⟨0, 0, withPage 0 { pageDflt 0 with own := some .host } { up with staged := [(regKey 0 0x118, 0)] }, inv_of_ok (by decide +kernel), by decide +kernel⟩

theorem witness_PageOwners_3 : ∃ (src : Source) (p : Nat) (q : Nat) (s : State),
    s.Inv ∧
    p < 32759 ∧
    s.orderPage p = some q ∧
    (s.lock && src != .keeper) = false ∧
    fixedPage q = false ∧
    (s.page q).own = some src :=
  ⟨.host, 0, 0, withPage 0 { pageDflt 0 with own := some .host } up, inv_of_ok (by decide +kernel), by decide +kernel⟩

theorem witness_PageOwners_4 : ∃ (p : Nat) (q : Nat) (s : State),
    s.Inv ∧
    p < 32759 ∧
    s.orderPage p = some q ∧
    fixedPage q = false :=
  ⟨0, 0, withPage 0 { pageDflt 0 with own := some .bmc } up, inv_of_ok (by decide +kernel), by decide +kernel⟩

theorem witness_PageOwners_5 : ∃ (p : Nat) (q : Nat) (s : State),
    s.Inv ∧
    p < 32759 ∧
    s.orderPage p = some q ∧
    fixedPage q = true :=
  ⟨pgCmb 0, pgCmb 0, up, inv_of_ok (by decide +kernel), by decide +kernel⟩

theorem witness_PageOwners_6 : ∃ (src : Source) (p : Nat) (q : Nat) (s : State),
    p < 32759 ∧
    s.orderPage p = some q ∧
    s.lock = false ∧
    src ≠ .keeper ∧
    (s.page q).own ≠ some src ∧
    (fixedPage q = true ∨ (s.page q).own ≠ none) :=
  ⟨.host, 0, 0, withPage 0 { pageDflt 0 with own := some .bmc } up, by decide +kernel⟩

theorem witness_NotOwnerRefused : ∃ (src : Source) (o : Source) (p : Nat) (off : Nat) (q : Nat) (r : RegRow) (s : State),
    s.Inv ∧
    p < 32759 ∧
    0x040 ≤ off ∧
    off < 0x800 ∧
    off % 4 = 0 ∧
    s.orderPage p = some q ∧
    regRow q off = some r ∧
    isLimit q off = false ∧
    r.wide = false ∧
    (r.acc = .rw ∨ r.acc = .st) ∧
    (s.page q).pending = false ∧
    (s.lock && src != .keeper) = false ∧
    (s.page q).own = some o ∧
    o ≠ src :=
  ⟨.host, .bmc, 0, 0x100, 0, rowOf 0 0x100, withPage 0 { pageDflt 0 with own := some .bmc } up, inv_of_ok (by decide +kernel), by decide +kernel⟩

theorem witness_LockedPages : ∃ (src : Source) (p : Nat) (q : Nat) (off : Nat) (r : RegRow) (s : State),
    s.Inv ∧
    src ≠ .keeper ∧
    s.lock = true ∧
    p < 32759 ∧
    s.orderPage p = some q ∧
    0x040 ≤ off ∧
    off < 0x800 ∧
    off % 4 = 0 ∧
    regRow q off = some r ∧
    r.acc = .rw ∧
    r.wide = false ∧
    pageClass q ≠ .trl ∧
    pageClass q ≠ .kpr ∧
    pageClass q ≠ .bst :=
  ⟨.host, pgPci, pgPci, 0x05C, rowOf (pgPci) 0x05C, State.reset, inv_of_ok (by decide +kernel), by decide +kernel⟩

/-- An argument of mailbox 3. -/
theorem witness_PageWrites_3 : ∃ (src : Source) (p : Nat) (off : Nat) (q : Nat) (r : RegRow) (s : State),
    s.Inv ∧
    p < 32759 ∧
    0x040 ≤ off ∧
    off < 0x800 ∧
    off % 8 = 0 ∧
    s.orderPage p = some q ∧
    regRow q off = some r ∧
    r.acc = .rw ∧
    r.wide = true ∧
    (off - r.lo) % 8 = 0 ∧
    pageClass q ≠ .hbm ∧
    s.writeRes src q = 0 :=
  ⟨.host, pgKpr 3, 0x068, pgKpr 3, rowOf (pgKpr 3) 0x068, withPage (pgKpr 3) { pageDflt (pgKpr 3) with own := some .host } up, inv_of_ok (by decide +kernel), by decide +kernel⟩

/-- MTL_FLAGS of site 0. -/
theorem witness_PageWrites_4 : ∃ (src : Source) (p : Nat) (q : Nat) (r : RegRow) (s : State),
    s.Inv ∧
    p < 32759 ∧
    s.orderPage p = some q ∧
    regRow q 0x044 = some r ∧
    r.acc = .w1c ∧
    pageClass q ≠ .msh ∧
    s.writeRes src q = 0 :=
  ⟨.host, 0, 0, rowOf 0 0x044, withPage 0 { pageDflt 0 with own := some .host } (withReg 0 0x044 7 up), inv_of_ok (by decide +kernel), by decide +kernel⟩

theorem witness_PageWrites_5 : ∃ (p : Nat) (off : Nat),
    p < 32768 ∧
    off < 4096 :=
  ⟨32767, 4088, by decide +kernel⟩

theorem witness_MTileWork_1 : ∃ (site : Nat) (rec_ : BitVec 128) (cyc : Nat) (l : Launch) (s : State) (u : State),
    isKind .m site = true ∧
    s.mayRun site = true ∧
    pPlanes rec_.toNat ≠ 0 ∧
    pNfeat rec_.toNat ≠ 0 ∧
    u = s.mAdvance site cyc ∧
    u.launchAt site = some l :=
  ⟨0, BitVec.ofNat 128 (2 ^ 115 + 32 * 2 ^ 87 + 7 * 2 ^ 64), 5, lau, work, _, by decide +kernel, by decide +kernel, by decide +kernel, by decide +kernel, rfl, by decide +kernel⟩

theorem witness_MTileWork_2 : ∃ (site : Nat) (rec_ : BitVec 128) (s : State),
    isKind .m site = true ∧
    s.mayRun site = true ∧
    (pPlanes rec_.toNat = 0 ∨ pNfeat rec_.toNat = 0) :=
  ⟨0, BitVec.ofNat 128 (2 ^ 115), work, by decide +kernel⟩

/-- The longest body. -/
theorem witness_MTileWork_3 : ∃ (site : Nat) (pkt : MeshPkt) (s : State),
    isKind .m site = true ∧
    s.inRun site = true ∧
    hVc (MeshPkt.hdr pkt) = 1 ∧
    1 ≤ (MeshPkt.body pkt).length ∧
    (MeshPkt.body pkt).length ≤ 12 :=
  ⟨0, mkPkt (mkHdr 0 0 1 0 12 0 0 0 0) 0 (List.replicate 12 (0, false)), work, by decide +kernel⟩

/-- The cycle of the last flit. -/
theorem witness_GroupLeaves_1 : ∃ (site : Nat) (cyc : Nat) (fixed : Nat) (hit : Option (Nat × Tally)) (g : TGroup) (rest : List TGroup) (feats : List (List Tal)) (lost : List (Nat × Nat × Nat)) (s : State) (u : State) (v : State) (w : State),
    isKind .m site = true ∧
    u = (s.mAdvance site cyc).runM site cyc ∧
    (u.mtile site).groups = g :: rest ∧
    g.lastFlit ≤ cyc ∧
    v = (if rest.isEmpty then u else u.mAdvance site (cyc + 1)) ∧
    hitTally g.slot hit g.feats = (feats, fixed, lost) ∧
    w = (v.updM site fun t => { t with groups := rest }).tallyEcc site fixed lost g.step ∧
    (w.mtile site).groupFailed g = false ∧
    badResidue feats = none :=
  ⟨0, 20, _, some (3, 4), groupZ, [], _, _, withM { mtDflt 0 with groups := [groupZ] } work, _, _, _, by decide +kernel, rfl, by decide +kernel, by decide +kernel, rfl, rfl, rfl, by decide +kernel⟩

theorem witness_GroupLeaves_2 : ∃ (site : Nat) (cyc : Nat) (i : Nat) (fixed : Nat) (hit : Option (Nat × Tally)) (g : TGroup) (rest : List TGroup) (feats : List (List Tal)) (lost : List (Nat × Nat × Nat)) (s : State) (u : State) (v : State) (w : State),
    isKind .m site = true ∧
    u = (s.mAdvance site cyc).runM site cyc ∧
    (u.mtile site).groups = g :: rest ∧
    g.lastFlit ≤ cyc ∧
    v = (if rest.isEmpty then u else u.mAdvance site (cyc + 1)) ∧
    hitTally g.slot hit g.feats = (feats, fixed, lost) ∧
    w = (v.updM site fun t => { t with groups := rest }).tallyEcc site fixed lost g.step ∧
    (w.mtile site).groupFailed g = false ∧
    badResidue feats = some i :=
  ⟨0, 20, 35, _, none, { groupZ with feats := [List.replicate 32 talZ, setNth (List.replicate 32 talZ) 3 ⟨1, 0, residueOf 0⟩] }, [], _, _, withM { mtDflt 0 with groups := [{ groupZ with feats := [List.replicate 32 talZ, setNth (List.replicate 32 talZ) 3 ⟨1, 0, residueOf 0⟩] }] } work, _, _, _, by decide +kernel, rfl, by decide +kernel, by decide +kernel, rfl, rfl, rfl, by decide +kernel⟩

theorem witness_GroupLeaves_3 : ∃ (site : Nat) (cyc : Nat) (fixed : Nat) (hit : Option (Nat × Tally)) (g : TGroup) (rest : List TGroup) (feats : List (List Tal)) (lost : List (Nat × Nat × Nat)) (s : State) (u : State) (v : State) (w : State),
    isKind .m site = true ∧
    u = (s.mAdvance site cyc).runM site cyc ∧
    (u.mtile site).groups = g :: rest ∧
    g.lastFlit ≤ cyc ∧
    v = (if rest.isEmpty then u else u.mAdvance site (cyc + 1)) ∧
    hitTally g.slot hit g.feats = (feats, fixed, lost) ∧
    w = (v.updM site fun t => { t with groups := rest }).tallyEcc site fixed lost g.step ∧
    (w.mtile site).groupFailed g = true :=
  ⟨0, 20, _, none, groupZ, [], _, _, withM { mtDflt 0 with groups := [groupZ], failed := [(0, 0)] } work, _, _, _, by decide +kernel, rfl, by decide +kernel, by decide +kernel, rfl, rfl, rfl, by decide +kernel⟩

theorem witness_GroupLeaves_5 : ∃ (site : Nat) (cyc : Nat) (g : TGroup) (rest : List TGroup) (s : State) (u : State),
    isKind .m site = true ∧
    u = (s.mAdvance site cyc).runM site cyc ∧
    (u.mtile site).groups = g :: rest ∧
    cyc < g.lastFlit :=
  ⟨0, 19, groupZ, [], withM { mtDflt 0 with groups := [groupZ] } work, _, by decide +kernel, rfl, by decide +kernel⟩

theorem witness_LoadQueues_1 : ∃ (site : Nat) (rec_ : DWord) (s : State),
    s.Inv ∧
    isKind .m site = true ∧
    s.mayRun site = true ∧
    loadBad (geomOf (s.regN site)) rec_.toNat = 0 :=
  ⟨0, BitVec.ofNat 64 (2 ^ 54), { work with regs := geomWords ++ mapWords }, inv_of_ok (by decide +kernel), by decide +kernel⟩

theorem witness_LoadQueues_2 : ∃ (site : Nat) (rec_ : DWord) (s : State),
    isKind .m site = true ∧
    s.mayRun site = true ∧
    ldPlanes rec_.toNat = 0 :=
  ⟨0, 0, work, by decide +kernel⟩

theorem witness_LoadQueues_3 : ∃ (site : Nat) (rec_ : DWord) (s : State),
    isKind .m site = true ∧
    s.mayRun site = true ∧
    loadBad (geomOf (s.regN site)) rec_.toNat = 2 :=
  ⟨0, BitVec.ofNat 64 (2 ^ 54 + 1), { work with regs := geomWords ++ mapWords }, by decide +kernel⟩

theorem witness_PlaneLoads_1 : ∃ (site : Nat) (cyc : Nat) (l : MLoad) (rest : List MLoad) (s : State) (u : State) (v : State),
    isKind .m site = true ∧
    u = (s.mAdvance site cyc).runM site cyc ∧
    (u.mtile site).loads = l :: rest ∧
    l.started = false ∧
    (u.mtile site).reads l = false ∧
    (u.mtile site).freeAt (ldSet l.rec_.toNat) ≤ cyc ∧
    v = (u.setReg64 site 0x070 l.rec_.toNat).updM site (fun t =>
      { t.putSet (ldSet l.rec_.toNat) { t.set (ldSet l.rec_.toNat) with ready := false } with
        loads := { l with started := true } :: rest, got := [] }) ∧
    v.loadRows l (geomOf (v.regN site)) = false :=
  ⟨0, 10, loadA, [], withM { mtDflt 0 with loads := [loadA] } { work with regs := geomWords ++ mapWords }, _, _, by decide +kernel, rfl, by decide +kernel, by decide +kernel, by decide +kernel, by decide +kernel, rfl, by decide +kernel⟩

theorem witness_PlaneLoads_2 : ∃ (site : Nat) (cyc : Nat) (l : MLoad) (rest : List MLoad) (s : State) (u : State),
    isKind .m site = true ∧
    u = (s.mAdvance site cyc).runM site cyc ∧
    (u.mtile site).loads = l :: rest ∧
    l.started = false ∧
    ((u.mtile site).reads l = true ∨ cyc < (u.mtile site).freeAt (ldSet l.rec_.toNat)) :=
  ⟨0, 10, loadA, [], withM { mtDflt 0 with loads := [loadA], freeA := 100 } work, _, by decide +kernel, rfl, by decide +kernel⟩

/-- A row of data and a row of scales have come. -/
theorem witness_PlaneLoads_3 : ∃ (site : Nat) (cyc : Nat) (l : MLoad) (rest : List MLoad) (s : State) (u : State) (v : State),
    isKind .m site = true ∧
    (s.mtile site).loads = l :: rest ∧
    l.started = true ∧
    u = s.loadRun site (cyc - 4) ∧
    u.loadCame site l = true ∧
    v = u.mAdvance site cyc :=
  ⟨0, 10, { loadA with started := true }, [], withM { mtDflt 0 with loads := [{ loadA with started := true }], got := [(0, List.replicate 16 ⟨0, 0⟩), (1, List.replicate 16 ⟨0, 0⟩)] } ({ work with regs := geomWords ++ mapWords }), _, _, by decide +kernel, by decide +kernel, by decide +kernel, rfl, by decide +kernel, rfl⟩

/-- The row of scales is still to come. -/
theorem witness_PlaneLoads_4 : ∃ (site : Nat) (cyc : Nat) (l : MLoad) (rest : List MLoad) (s : State) (u : State),
    isKind .m site = true ∧
    (s.mtile site).loads = l :: rest ∧
    l.started = true ∧
    u = s.loadRun site (cyc - 4) ∧
    u.loadCame site l = false :=
  ⟨0, 10, { loadA with started := true }, [], withM { mtDflt 0 with loads := [{ loadA with started := true }], got := [(0, List.replicate 16 ⟨0, 0⟩)] } ({ work with regs := geomWords ++ mapWords }), _, by decide +kernel, by decide +kernel, by decide +kernel, rfl, by decide +kernel⟩

/-- A tensor of two rows from the last row of the B tile. -/
theorem witness_PlaneLoads_5 : ∃ (site : Nat) (cyc : Nat) (l : MLoad) (rest : List MLoad) (s : State) (u : State) (v : State),
    isKind .m site = true ∧
    u = (s.mAdvance site cyc).runM site cyc ∧
    (u.mtile site).loads = l :: rest ∧
    l.started = false ∧
    (u.mtile site).reads l = false ∧
    (u.mtile site).freeAt (ldSet l.rec_.toNat) ≤ cyc ∧
    v = (u.setReg64 site 0x070 l.rec_.toNat).updM site (fun t =>
      { t.putSet (ldSet l.rec_.toNat) { t.set (ldSet l.rec_.toNat) with ready := false } with
        loads := { l with started := true } :: rest, got := [] }) ∧
    v.loadRows l (geomOf (v.regN site)) = true :=
  ⟨0, 10, loadA, [], withM { mtDflt 0 with loads := [loadA] } { work with regs := geomFor 8 16383 ++ mapWords }, _, _, by decide +kernel, rfl, by decide +kernel, by decide +kernel, by decide +kernel, by decide +kernel, rfl, by decide +kernel⟩

/-- The last row that takes a DMA write. -/
theorem witness_OperandStore_1 : ∃ (site : Nat) (row : Nat) (data : OpsRow) (s : State) (u : State),
    isKind .m site = true ∧
    row < 1280 ∧
    s.inRun site = true ∧
    u = (s.mAdvance site data.cyc).runM site data.cyc :=
  ⟨0, 1279, ⟨[1, 2], 5⟩, work, _, by decide +kernel, by decide +kernel, by decide +kernel, rfl⟩

/-- The first row that takes none. -/
theorem witness_OperandStore_2 : ∃ (site : Nat) (row : Nat) (data : OpsRow) (s : State) (u : State),
    isKind .m site = true ∧
    1280 ≤ row ∧
    row < 1536 ∧
    s.inRun site = true ∧
    u = (s.mAdvance site data.cyc).runM site data.cyc :=
  ⟨0, 1280, ⟨[1, 2], 5⟩, work, _, by decide +kernel, by decide +kernel, by decide +kernel, by decide +kernel, rfl⟩

theorem witness_OperandStore_3 : ∃ (site : Nat) (w0 : DWord) (s : State),
    isKind .m site = true ∧
    s.mayRun site = true ∧
    bits w0.toNat 47 32 = 0 :=
  ⟨0, 3, work, by decide +kernel⟩

theorem witness_OperandStore_4 : ∃ (site : Nat) (cyc : Nat) (w0 : DWord) (ofs : DWord) (a : Nat) (n : Nat) (row : Nat) (x : Xfer) (s : State) (u : State),
    isKind .m site = true ∧
    s.mayRun site = true ∧
    n = bits w0.toNat 47 32 ∧
    n ≠ 0 ∧
    row = bits w0.toNat 31 16 ∧
    u = (s.mAdvance site cyc).runM site cyc ∧
    a = u.operand site (bits w0.toNat 55 48) ofs.toNat ∧
    u.isLocal a = true ∧
    x = { id := u.prog.nextXfer, ctr := bits w0.toNat 2 0, kind := 2, addr := a % 2 ^ 40, row, left := 2 * n, step := u.stepAt site, gone := false } :=
  ⟨0, 5, BitVec.ofNat 64 (0xFF * 2 ^ 48 + 2 ^ 32), 0, _, _, _, _, { work with hbm := hbmUp }, _, by decide +kernel, by decide +kernel, rfl, by decide +kernel, rfl, rfl, rfl, by decide +kernel, rfl⟩

theorem witness_OperandStore_6 : ∃ (site : Nat) (row : Nat) (s : State),
    isKind .m site = true ∧
    row < 1536 ∧
    s.inRun site = false :=
  ⟨0, 1535, State.reset, by decide +kernel⟩

theorem witness_OperandStore_5 : ∃ (site : Nat) (cyc : Nat) (w0 : DWord) (ofs : DWord) (a : Nat) (n : Nat) (row : Nat) (s : State) (u : State),
    isKind .m site = true ∧
    s.mayRun site = true ∧
    n = bits w0.toNat 47 32 ∧
    n ≠ 0 ∧
    row = bits w0.toNat 31 16 ∧
    u = (s.mAdvance site cyc).runM site cyc ∧
    a = u.operand site (bits w0.toNat 55 48) ofs.toNat ∧
    u.isLocal a = false :=
  ⟨0, 5, BitVec.ofNat 64 (0xFF * 2 ^ 48 + 2 ^ 32), BitVec.ofNat 64 (5 * 2 ^ 40), _, _, _, withReg pgRte 0x04C 0x80010000 work, _, by decide +kernel, by decide +kernel, rfl, by decide +kernel, rfl, rfl, rfl, by decide +kernel⟩

/-- The longest vector. -/
theorem witness_SfnResult_1 : ∃ (site : Nat) (n : Nat) (w0 : DWord) (w1 : DWord) (op : SOp) (flips : List Flip) (x : List SElem) (s : State) (u : State) (v : State),
    isKind .s site = true ∧
    s.mayRun site = true ∧
    n = bits w0.toNat 47 31 ∧
    1 ≤ n ∧
    n ≤ 65536 ∧
    bits w0.toNat 55 48 = sopCode op ∧
    u = { s with mem := { s.mem with sst := disturb sstDflt s.mem.sst flips } } ∧
    u.sVector site (bits w1.toNat 63 53) (bits w1.toNat 41 38) n (u.sAnchor site w1.toNat) = (x, v) :=
  ⟨48, 65536, BitVec.ofNat 64 (2 ^ 48 + 65536 * 2 ^ 31), BitVec.ofNat 64 (8 * 2 ^ 38 + 8 * 2 ^ 34), .add [], [], _, work, _, _, by decide +kernel, by decide +kernel, by decide +kernel, by decide +kernel, by decide +kernel, by decide +kernel, rfl, Prod.mk.eta.symm⟩

theorem witness_SfnResult_2 : ∃ (site : Nat) (n : Nat) (w0 : DWord) (w1 : DWord) (op : SOp) (s : State) (v : State) (w : State) (x : List SElem) (xs : List SElem) (t : STile) (ev : SEval) (live : Nat → Bool),
    isKind .s site = true ∧
    s.mayRun site = true ∧
    n = bits w0.toNat 47 31 ∧
    1 ≤ n ∧
    n ≤ 65536 ∧
    bits w0.toNat 55 48 = sopCode op ∧
    s.sVector site (bits w1.toNat 63 53) (bits w1.toNat 41 38) n (s.sAnchor site w1.toNat) = (x, v) ∧
    live = v.sLive site w0.toNat ∧
    xs = (List.range n).map (fun i => if live i then nth (sElemF 0) x i else sElemF 0) ∧
    xs.any (·.poison) = false ∧
    xs.any (·.ovf) = false ∧
    sopPoisoned op xs.length live = false ∧
    ev = evalOp (cleanOp op) (xs.map (·.c)) live ∧
    ev.bad = false ∧
    (v.stile site).before (v.stepAt site) = (false, t) ∧
    w = ((v.updS site fun _ => t).wrapReg site 0x04C).sWrite site (v.taskAt site) w1.toNat (s.sAnchor site w1.toNat) op xs ev false :=
  ⟨48, 1, BitVec.ofNat 64 (2 ^ 48 + 2 ^ 31), BitVec.ofNat 64 (8 * 2 ^ 38 + 8 * 2 ^ 34), .add [], work, _, _, _, _, ((work.stile 48).before (work.stepAt 48)).2, _, _, by decide +kernel, by decide +kernel, by decide +kernel, by decide +kernel, by decide +kernel, by decide +kernel, Prod.mk.eta.symm, rfl, rfl, by decide +kernel, by decide +kernel, by decide +kernel, rfl, by decide +kernel, by decide +kernel, rfl⟩

theorem witness_SfnResult_3 : ∃ (site : Nat) (w0 : DWord) (op : SOp) (s : State),
    isKind .s site = true ∧
    s.mayRun site = true ∧
    bits w0.toNat 47 31 = 0 ∧
    bits w0.toNat 55 48 = sopCode op :=
  ⟨48, BitVec.ofNat 64 (2 ^ 48), .add [], work, by decide +kernel⟩

theorem witness_SfnResult_4 : ∃ (site : Nat) (w0 : DWord) (op : SOp) (s : State),
    isKind .s site = true ∧
    s.mayRun site = true ∧
    bits w0.toNat 47 31 ≠ 0 ∧
    bits w0.toNat 47 31 ≤ 65536 ∧
    bits w0.toNat 55 48 = sopCode op :=
  ⟨48, BitVec.ofNat 64 (2 ^ 48 + 2 ^ 31), .add [], work, by decide +kernel⟩

theorem witness_SfnResult_5 : ∃ (site : Nat) (w1 : Nat) (op : SOp) (anchor : Int) (live : Nat → Bool) (xs : List SElem) (s : State) (w : State) (t : STile) (ev : SEval),
    xs.any (·.ovf) = false ∧
    ev = evalOp (cleanOp op) (xs.map (·.c)) live ∧
    ev.bad = false ∧
    (xs.any (·.poison) = true ∨ sopPoisoned op xs.length live = true) ∧
    (s.stile site).before (s.stepAt site) = (false, t) ∧
    w = ((s.updS site fun _ => t).wrapReg site 0x04C).sWrite site (s.taskAt site) w1 anchor op xs ev true :=
  ⟨48, (BitVec.ofNat 64 (8 * 2 ^ 38 + 8 * 2 ^ 34)).toNat, .add [], 0, fun _ => true, [{ sElemF 0 with poison := true }], work, _, ((work.stile 48).before (work.stepAt 48)).2, _, by decide +kernel, rfl, by decide +kernel, by decide +kernel, by decide +kernel, rfl⟩

theorem witness_ShadowRuns_1 : ∃ (site : Nat) (x : Shadow) (s : State),
    isKind .s site = true ∧
    (s.stile site).shadows.find? (fun x => x.pout.isNone) = some x :=
  ⟨48, shadowA, withShadow shadowA work, by decide +kernel⟩

theorem witness_ShadowRuns_2 : ∃ (site : Nat) (arb : Nat) (out : SOut) (x : Shadow) (s : State) (u : State),
    isKind .s site = true ∧
    (s.stile site).shadows.find? (fun x => x.pout.isNone) = some x ∧
    x.out ≠ out ∧
    s.arbiterOf site x.partner = some arb ∧
    u = (s.updS site fun t =>
      { t with shadows := updShadow (fun x => x.pout.isNone) (fun x => some { x with pout := some out, arb := some arb }) t.shadows }) :=
  ⟨48, 51, ⟨[2], false, []⟩, shadowA, withShadow shadowA work, _, by decide +kernel, by decide +kernel, by decide +kernel, by decide +kernel, rfl⟩

theorem witness_ShadowRuns_3 : ∃ (site : Nat) (arb : Nat) (out : SOut) (x : Shadow) (s : State) (u : State),
    isKind .s site = true ∧
    (s.stile site).shadows.find? (fun x => x.pout.isSome && x.arb.isSome) = some x ∧
    x.arb = some arb ∧
    out = x.out ∧
    u = (s.updS site fun t => { t with shadows := (updShadow (fun x => x.pout.isSome && x.arb.isSome) (fun _ => none)
      t.shadows) }) :=
  ⟨48, 51, _, { shadowA with pout := some ⟨[2], false, []⟩, arb := some 51 }, withShadow { shadowA with pout := some ⟨[2], false, []⟩, arb := some 51 } work, _, by decide +kernel, by decide +kernel, by decide +kernel, rfl, rfl⟩

theorem witness_ShadowRuns_4 : ∃ (site : Nat) (arb : Nat) (out : SOut) (x : Shadow) (s : State) (u : State),
    isKind .s site = true ∧
    (s.stile site).shadows.find? (fun x => x.pout.isSome && x.arb.isSome) = some x ∧
    x.arb = some arb ∧
    out ≠ x.out ∧
    x.pout = some out ∧
    u = (s.updS site fun t => { t with shadows := (updShadow (fun x => x.pout.isSome && x.arb.isSome) (fun _ => none)
      t.shadows) }) :=
  ⟨48, 51, ⟨[2], false, []⟩, { shadowA with pout := some ⟨[2], false, []⟩, arb := some 51 }, withShadow { shadowA with pout := some ⟨[2], false, []⟩, arb := some 51 } work, _, by decide +kernel, by decide +kernel, by decide +kernel, by decide +kernel, by decide +kernel, rfl⟩

theorem witness_ShadowRuns_5 : ∃ (site : Nat) (arb : Nat) (out : SOut) (x : Shadow) (s : State) (u : State),
    isKind .s site = true ∧
    (s.stile site).shadows.find? (fun x => x.pout.isSome && x.arb.isSome) = some x ∧
    x.arb = some arb ∧
    out ≠ x.out ∧
    x.pout ≠ some out ∧
    u = (s.updS site fun t => { t with shadows := (updShadow (fun x => x.pout.isSome && x.arb.isSome) (fun _ => none)
      t.shadows) }) :=
  ⟨48, 51, ⟨[3], false, []⟩, { shadowA with pout := some ⟨[2], false, []⟩, arb := some 51 }, withShadow { shadowA with pout := some ⟨[2], false, []⟩, arb := some 51 } work, _, by decide +kernel, by decide +kernel, by decide +kernel, by decide +kernel, by decide +kernel, rfl⟩

theorem witness_ShadowRuns_6 : ∃ (site : Nat) (x : Shadow) (s : State),
    s.Inv ∧
    isKind .s site = true ∧
    (s.stile site).shadows.find? (fun x => x.pout.isNone && !x.stalled) = some x :=
  ⟨48, shadowA, withShadow shadowA work, inv_of_ok (by decide +kernel), by decide +kernel⟩

theorem witness_WaggleArrivals_1 : ∃ (site : Nat) (i : Nat) (hdr : BitVec 128) (w : DWord) (cyc : Nat) (s : State) (r : State),
    s.Inv ∧
    isKind .w site = true ∧
    s.inRun site = true ∧
    hPk hdr.toNat ≠ 1 ∧
    s.wInputOf site (hFlow hdr.toNat) = some i ∧
    r = s.wRun site cyc ∧
    r.wInputOf site (hFlow hdr.toNat) = some i ∧
    ((r.wtile site).input i).halted = false ∧
    r.draining (siteComb site) = false ∧
    (r.wtile site).wait = [] ∧
    (r.wtile site).entries < 64 ∧
    r.steerBad site w.toNat = false ∧
    swEpoch w.toNat = r.epochOf (siteComb site) ∧
    swSeq w.toNat = ((r.wtile site).input i).next ∧
    ((r.wtile site).input i).st = 0 ∧
    swCount w.toNat ≠ 0 :=
  ⟨49, 0, mkHdr 0 0 0 0 0 0 0 5 0, BitVec.ofNat 64 (2 ^ 24 + 2 * 2 ^ 15), 9, { work with regs := (regKey 49 0x100, BitVec.ofNat 32 (2 ^ 31 + 5 * 2 ^ 16)) :: (regKey 49 0x140, BitVec.ofNat 32 (2 ^ 31)) :: mapWords }, _, inv_of_ok (by decide +kernel), by decide +kernel, by decide +kernel, by decide +kernel, by decide +kernel, rfl, by decide +kernel⟩

theorem witness_WaggleArrivals_2 : ∃ (site : Nat) (i : Nat) (pkt : MeshPkt) (cyc : Nat) (s : State) (r : State),
    s.Inv ∧
    isKind .w site = true ∧
    s.inRun site = true ∧
    hPk (MeshPkt.hdr pkt) ≠ 1 ∧
    s.wInputOf site (hFlow (MeshPkt.hdr pkt)) = some i ∧
    r = s.wRun site cyc ∧
    r.wInputOf site (hFlow (MeshPkt.hdr pkt)) = some i ∧
    ((r.wtile site).input i).halted = false ∧
    r.draining (siteComb site) = false ∧
    (r.wtile site).wait = [] ∧
    (r.wtile site).entries < 64 ∧
    hEpoch (MeshPkt.hdr pkt) = r.epochOf (siteComb site) ∧
    ((r.wtile site).input i).st = 0 :=
  ⟨49, 0, mkPkt (mkHdr 0 0 0 0 1 0 0 5 0) 7 [], 9, { work with regs := (regKey 49 0x100, BitVec.ofNat 32 (2 ^ 31 + 5 * 2 ^ 16)) :: (regKey 49 0x140, BitVec.ofNat 32 (2 ^ 31)) :: mapWords }, _, inv_of_ok (by decide +kernel), by decide +kernel, by decide +kernel, by decide +kernel, by decide +kernel, rfl, by decide +kernel⟩

/-- The first cycle at which the word is orphaned. -/
theorem witness_WaggleArrivals_3 : ∃ (site : Nat) (i : Nat) (cyc : Nat) (arr : Nat) (w : DWord) (rest : List WItem) (s : State) (r : State),
    isKind .w site = true ∧
    i < 16 ∧
    r = s.wRun site cyc ∧
    ((r.wtile site).input i).halted = false ∧
    ((r.wtile site).input i).st ≠ 3 ∧
    ((r.wtile site).input i).held = .steer w arr :: rest ∧
    arr + 65536 < cyc :=
  ⟨49, 15, 65546, 9, BitVec.ofNat 64 (2 ^ 24 + 2 * 2 ^ 15), [], withW { wtDflt 0 with ins := [(15, { wiDflt 0 with st := 1, held := [.steer (BitVec.ofNat 64 (2 ^ 24 + 2 * 2 ^ 15)) 9] })] } work, _, by decide +kernel, by decide +kernel, rfl, by decide +kernel⟩

theorem witness_WaggleArrivals_4 : ∃ (site : Nat) (i : Nat) (cyc : Nat) (g : WGroup) (s : State) (r : State),
    isKind .w site = true ∧
    i < 16 ∧
    r = s.wRun site cyc ∧
    ((r.wtile site).input i).halted = false ∧
    ((r.wtile site).input i).st = 3 ∧
    (r.wtile site).groupOf i = some g ∧
    g.last + 65536 < cyc :=
  ⟨49, 0, 65546, wgroupA, withW { wtDflt 0 with ins := [(0, { wiDflt 0 with st := 3, ord := 1, remain := 1 })], groups := [wgroupA] } work, _, by decide +kernel, by decide +kernel, rfl, by decide +kernel⟩

theorem witness_FlitsArrive_1 : ∃ (site : Nat) (port : Nat) (cyc : Nat) (f : Flit) (cr : BitVec 4) (s : State) (u : State),
    isSite site = true ∧
    portExists site port = true ∧
    s.physHole site = false ∧
    isSeamPort site port = false ∧
    u = (s.meshTo site cyc).takeCredit site port cr ∧
    u.takes site port f = true ∧
    fGood f = true ∧
    fType f = 1 :=
  ⟨0, 2, 9, goodFlit (1 * 2 ^ 17), 0, up, _, by decide +kernel, by decide +kernel, by decide +kernel, by decide +kernel, rfl, by decide +kernel⟩

theorem witness_FlitsArrive_3 : ∃ (site : Nat) (port : Nat) (cyc : Nat) (f : Flit) (cr : BitVec 4) (s : State) (u : State),
    isSite site = true ∧
    portExists site port = true ∧
    s.physHole site = false ∧
    isSeamPort site port = false ∧
    u = (s.meshTo site cyc).takeCredit site port cr ∧
    fGood f = false ∧
    fType f = 1 :=
  ⟨0, 2, 9, ⟨BitVec.ofNat 23 (1 * 2 ^ 17 + 1), 0, 0⟩, 0, up, _, by decide +kernel, by decide +kernel, by decide +kernel, by decide +kernel, rfl, by decide +kernel⟩

theorem witness_FlitsArrive_2 : ∃ (site : Nat) (port : Nat) (cyc : Nat) (f : Flit) (cr : BitVec 4) (s : State) (u : State),
    isSite site = true ∧
    portExists site port = true ∧
    s.physHole site = false ∧
    isSeamPort site port = false ∧
    u = (s.meshTo site cyc).takeCredit site port cr ∧
    u.takes site port f = true ∧
    fGood f = true ∧
    fType f = 2 :=
  ⟨0, 3, 9, goodFlit (2 * 2 ^ 17), 0, up, _, by decide +kernel, by decide +kernel, by decide +kernel, by decide +kernel, rfl, by decide +kernel⟩

theorem witness_FlitsArrive_4 : ∃ (site : Nat) (port : Nat) (cyc : Nat) (f : Flit) (cr : BitVec 4) (s : State) (u : State),
    isSite site = true ∧
    portExists site port = true ∧
    s.physHole site = false ∧
    isSeamPort site port = false ∧
    u = (s.meshTo site cyc).takeCredit site port cr ∧
    u.takes site port f = true ∧
    fGood f = false ∧
    fType f = 2 :=
  ⟨0, 3, 9, ⟨BitVec.ofNat 23 (2 * 2 ^ 17 + 1), 0, 0⟩, 0, up, _, by decide +kernel, by decide +kernel, by decide +kernel, by decide +kernel, rfl, by decide +kernel⟩

/-- The queue of the lane is full. -/
theorem witness_FlitsArrive_6 : ∃ (site : Nat) (port : Nat) (cyc : Nat) (f : Flit) (cr : BitVec 4) (s : State) (u : State),
    isSite site = true ∧
    portExists site port = true ∧
    s.physHole site = false ∧
    isSeamPort site port = false ∧
    u = (s.meshTo site cyc).takeCredit site port cr ∧
    fGood f = false ∧
    fType f ≠ 1 ∧
    (u.takes site port f = false ∨ fType f ≠ 2) :=
  ⟨0, 2, 0, ⟨BitVec.ofNat 23 (2 ^ 18 + 1), 0, 0⟩, 0, { up with rt := [(0, { rtDflt 0 with lanes := [(16, { laneDflt 0 with q := List.replicate 12 stuckFlit })] })] }, _, by decide +kernel, by decide +kernel, by decide +kernel, by decide +kernel, rfl, by decide +kernel, by decide +kernel, .inl (by decide +kernel)⟩

/-- A flit of neither type. -/
theorem witness_FlitsArrive_5 : ∃ (site : Nat) (port : Nat) (cyc : Nat) (f : Flit) (cr : BitVec 4) (s : State) (u : State),
    isSite site = true ∧
    portExists site port = true ∧
    s.physHole site = false ∧
    isSeamPort site port = false ∧
    u = (s.meshTo site cyc).takeCredit site port cr ∧
    (u.takes site port f = false ∨ (fType f ≠ 1 ∧ fType f ≠ 2)) ∧
    fGood f = true :=
  ⟨0, 2, 0, goodFlit (0 * 2 ^ 17), 0, up, _, by decide +kernel, by decide +kernel, by decide +kernel, by decide +kernel, rfl, by decide +kernel⟩

theorem witness_MeshTimers_1 : ∃ (site : Nat) (port : Nat) (s : State),
    isSite site = true ∧
    1 ≤ port ∧
    portExists site port = true ∧
    s.physHole site = false :=
  ⟨0, 2, up, by decide +kernel⟩

theorem witness_MeshTimers_2 : ∃ (site : Nat) (slot : Nat) (cyc : Nat) (c : CSlot) (s : State) (u : State),
    isSite site = true ∧
    slot < 4 ∧
    u = s.meshTo site cyc ∧
    sfind (u.router site).slots slot = some c ∧
    c.deadline ≤ cyc :=
  ⟨0, 3, 9, ⟨[], false, 9⟩, { up with rt := [(0, { rtDflt 0 with slots := [(3, ⟨[], false, 9⟩)] })] }, _, by decide +kernel, by decide +kernel, rfl, by decide +kernel⟩

theorem witness_MeshTimers_4 : ∃ (comb : Nat) (s : State) (u : State),
    comb < 24 ∧
    s.tasksPending comb ≠ 0 ∧
    u = (List.range 120).foldl (fun s p => (s.flag (pgRouter (mkSite comb p)) 9).updR (mkSite comb p) Router.snap) s :=
  ⟨0, work, _, by decide +kernel, by decide +kernel, rfl⟩

/-- A slot that is free. -/
theorem witness_MeshTimers_3 : ∃ (site : Nat) (slot : Nat) (cyc : Nat) (s : State) (u : State),
    isSite site = true ∧
    slot < 4 ∧
    u = s.meshTo site cyc ∧
    (sfind (u.router site).slots slot).all (fun c => decide (cyc < c.deadline)) = true :=
  ⟨0, 3, 9, up, _, by decide +kernel, by decide +kernel, rfl, by decide +kernel⟩

/-- Sixteen accumulators are taken by other chunks. -/
theorem witness_SinksAndSeals_1 : ∃ (site : Nat) (pkt : MeshPkt) (s : State),
    isSite site = true ∧
    s.portOpenFor site 0 = true ∧
    s.sinkFull site (chunkOf pkt) = true :=
  ⟨48, chunkA, withR { rtDflt 0 with acc := (List.range 16).map fun n => { chunkOf chunkA with off := n + 3 } } ({ up with regs := sinkRegs 2 ++ mapWords }), by decide +kernel⟩

/-- The last chunk, one contributor short. -/
theorem witness_SinksAndSeals_2 : ∃ (site : Nat) (e : Nat) (pkt : MeshPkt) (c : ChunkAcc) (n : ChunkAcc) (s : State),
    s.Inv ∧
    isSite site = true ∧
    s.portOpenFor site 0 = true ∧
    c = chunkOf pkt ∧
    s.sinkFull site c = false ∧
    s.sinkFor site c.red = some e ∧
    c.off < seChunks e ∧
    (s.router site).doneCh.contains (c.red, c.off) = false ∧
    n = ((s.router site).accOf c).elim c (ChunkAcc.add · c) ∧
    n.contrib < seExpect e ∧
    (s.router site).waiting = [] :=
  ⟨48, ({ up with regs := sinkRegs 2 ++ mapWords }).sinkEntry 48 0, chunkA, _, _, { up with regs := sinkRegs 2 ++ mapWords }, inv_of_ok (by decide +kernel), by decide +kernel, by decide +kernel, rfl, by decide +kernel, by decide +kernel, by decide +kernel, by decide +kernel, rfl, by decide +kernel⟩

theorem witness_SinksAndSeals_3 : ∃ (site : Nat) (e : Nat) (pkt : MeshPkt) (c : ChunkAcc) (n : ChunkAcc) (s : State),
    isSite site = true ∧
    s.portOpenFor site 0 = true ∧
    c = chunkOf pkt ∧
    s.sinkFull site c = false ∧
    s.sinkFor site c.red = some e ∧
    c.off < seChunks e ∧
    (s.router site).doneCh.contains (c.red, c.off) = false ∧
    n = ((s.router site).accOf c).elim c (ChunkAcc.add · c) ∧
    n.contrib = seExpect e ∧
    n.agrees = true :=
  ⟨48, ({ up with regs := sinkRegs 1 ++ mapWords }).sinkEntry 48 0, chunkA, _, _, { up with regs := sinkRegs 1 ++ mapWords }, by decide +kernel, by decide +kernel, rfl, by decide +kernel, by decide +kernel, by decide +kernel, by decide +kernel, rfl, by decide +kernel⟩

theorem witness_SinksAndSeals_4 : ∃ (site : Nat),
    isSite site = true :=
  ⟨48, by decide +kernel⟩

theorem witness_SinksAndSeals_5 : ∃ (site : Nat) (dest : BitVec 16) (flow : BitVec 12) (f : Flow) (s : State),
    isSite site = true ∧
    (s.router site).flows.find? (fun f => f.dest == dest.toNat && f.flow == flow.toNat && f.guard) = some f :=
  ⟨48, 0x1234, 5, ⟨0x1234, 5, 3, 1, true⟩, withR { rtDflt 0 with flows := [⟨0x1234, 5, 3, 1, true⟩] } up, by decide +kernel⟩

theorem witness_SinksAndSeals_6 : ∃ (site : Nat) (dest : BitVec 16) (flow : BitVec 12) (s : State),
    isSite site = true ∧
    (s.router site).flows.find? (fun f => f.dest == dest.toNat && f.flow == flow.toNat && f.guard) = none :=
  ⟨48, 0x1234, 5, withR { rtDflt 0 with flows := [⟨0x1234, 5, 3, 1, false⟩] } up, by decide +kernel⟩

theorem witness_WaggleArrivals_5 : ∃ (site : Nat) (i : Nat) (pkt : MeshPkt) (w : DWord) (arr : Nat) (cyc : Nat) (rest : List WItem) (s : State) (r : State),
    isKind .w site = true ∧
    s.inRun site = true ∧
    hPk (MeshPkt.hdr pkt) ≠ 1 ∧
    s.wInputOf site (hFlow (MeshPkt.hdr pkt)) = some i ∧
    r = s.wRun site cyc ∧
    r.wInputOf site (hFlow (MeshPkt.hdr pkt)) = some i ∧
    ((r.wtile site).input i).halted = false ∧
    r.draining (siteComb site) = false ∧
    (r.wtile site).wait = [] ∧
    hEpoch (MeshPkt.hdr pkt) = r.epochOf (siteComb site) ∧
    ((r.wtile site).input i).st = 1 ∧
    ((r.wtile site).input i).held = .steer w arr :: rest ∧
    (r.wtile site).expects i = hSeq (MeshPkt.hdr pkt) % 4096 :=
  ⟨49, 0, mkPkt (mkHdr 0 0 0 0 1 0 0 5 0) 7 [], BitVec.ofNat 64 (2 ^ 24 + 2 * 2 ^ 15), 9, 12, [], withW { wtDflt 0 with ins := [(0, { wiDflt 0 with st := 1, held := [.steer (BitVec.ofNat 64 (2 ^ 24 + 2 * 2 ^ 15)) 9] })] } ({ work with regs := (regKey 49 0x100, BitVec.ofNat 32 (2 ^ 31 + 5 * 2 ^ 16)) :: (regKey 49 0x140, BitVec.ofNat 32 (2 ^ 31)) :: mapWords }), _, by decide +kernel, by decide +kernel, by decide +kernel, by decide +kernel, rfl, by decide +kernel⟩

/-- A flow that no input accepts. -/
theorem witness_WaggleArrivals_6 : ∃ (site : Nat) (hdr : BitVec 128) (pkt : MeshPkt) (s : State),
    isKind .w site = true ∧
    s.inRun site = true ∧
    hPk hdr.toNat ≠ 1 ∧
    s.wInputOf site (hFlow hdr.toNat) = none ∧
    hPk (MeshPkt.hdr pkt) ≠ 1 ∧
    s.wInputOf site (hFlow (MeshPkt.hdr pkt)) = none :=
  ⟨49, mkHdr 0 0 0 0 0 0 0 6 0, mkPkt (mkHdr 0 0 0 0 1 0 0 6 0) 7 [], { work with regs := (regKey 49 0x100, BitVec.ofNat 32 (2 ^ 31 + 5 * 2 ^ 16)) :: (regKey 49 0x140, BitVec.ofNat 32 (2 ^ 31)) :: mapWords }, by decide +kernel⟩

theorem witness_WaggleArrivals_7 : ∃ (site : Nat) (i : Nat) (hdr : BitVec 128) (w : DWord) (cyc : Nat) (s : State) (r : State) (v : State),
    isKind .w site = true ∧
    s.inRun site = true ∧
    hPk hdr.toNat ≠ 1 ∧
    s.wInputOf site (hFlow hdr.toNat) = some i ∧
    r = s.wRun site cyc ∧
    r.wInputOf site (hFlow hdr.toNat) = some i ∧
    (r.wtile site).wait = [] ∧
    v = (r.updW site fun t => { t with wait := [(hdr.toNat, .steer w cyc)] }).updW site (fun t => { t with wait := [] }) ∧
    ((r.wtile site).input i).halted = true :=
  ⟨49, 0, mkHdr 0 0 0 0 0 0 0 5 0, BitVec.ofNat 64 (2 ^ 24 + 2 * 2 ^ 15), 9, withW { wtDflt 0 with ins := [(0, { wiDflt 0 with halted := true })] } ({ work with regs := (regKey 49 0x100, BitVec.ofNat 32 (2 ^ 31 + 5 * 2 ^ 16)) :: (regKey 49 0x140, BitVec.ofNat 32 (2 ^ 31)) :: mapWords }), _, _, by decide +kernel, by decide +kernel, by decide +kernel, by decide +kernel, rfl, by decide +kernel, by decide +kernel, rfl, by decide +kernel⟩

/-- The SEQ before the one that is next. -/
theorem witness_WaggleArrivals_8 : ∃ (site : Nat) (i : Nat) (hdr : BitVec 128) (w : DWord) (cyc : Nat) (s : State) (r : State) (v : State),
    isKind .w site = true ∧
    s.inRun site = true ∧
    hPk hdr.toNat ≠ 1 ∧
    s.wInputOf site (hFlow hdr.toNat) = some i ∧
    r = s.wRun site cyc ∧
    r.wInputOf site (hFlow hdr.toNat) = some i ∧
    (r.wtile site).wait = [] ∧
    (r.wtile site).entries < 64 ∧
    v = (r.updW site fun t => { t with wait := [(hdr.toNat, .steer w cyc)] }).updW site (fun t => { t with wait := [] }) ∧
    ((r.wtile site).input i).halted = false ∧
    r.draining (siteComb site) = false ∧
    (v.steerBad site w.toNat = true ∨ swSeq w.toNat ≠ ((v.wtile site).input i).next) :=
  ⟨49, 0, mkHdr 0 0 0 0 0 0 0 5 0, BitVec.ofNat 64 (2 ^ 24 + 2 * 2 ^ 15), 9, withW { wtDflt 0 with ins := [(0, { wiDflt 0 with next := (swSeq (BitVec.ofNat 64 (2 ^ 24 + 2 * 2 ^ 15)).toNat + 1) % 4096 })] } ({ work with regs := (regKey 49 0x100, BitVec.ofNat 32 (2 ^ 31 + 5 * 2 ^ 16)) :: (regKey 49 0x140, BitVec.ofNat 32 (2 ^ 31)) :: mapWords }), _, _, by decide +kernel, by decide +kernel, by decide +kernel, by decide +kernel, rfl, by decide +kernel, by decide +kernel, by decide +kernel, rfl, by decide +kernel⟩

theorem witness_WaggleArrivals_9 : ∃ (site : Nat) (hdr : BitVec 128) (pkt : MeshPkt) (s : State),
    isKind .w site = true ∧
    s.inRun site = true ∧
    hPk hdr.toNat = 1 ∧
    hPk (MeshPkt.hdr pkt) = 1 :=
  ⟨49, mkHdr 0 0 0 0 0 0 1 5 0, mkPkt (mkHdr 0 0 0 0 1 0 1 5 0) 7 [], { work with regs := (regKey 49 0x100, BitVec.ofNat 32 (2 ^ 31 + 5 * 2 ^ 16)) :: (regKey 49 0x140, BitVec.ofNat 32 (2 ^ 31)) :: mapWords }, by decide +kernel⟩

theorem witness_WaggleArrivals_10 : ∃ (site : Nat) (s : State),
    isKind .w site = true ∧
    s.inRun site = false :=
  ⟨49, State.reset, by decide +kernel⟩

/-- A pair on side channel 3. -/
theorem witness_ScheduledAccess_1 : ∃ (site : Nat) (port : Nat) (row : Nat) (cyc : Nat) (pair : Bool) (s : State) (r : State),
    schedOk site port row pair = true ∧
    r = s.bRun site cyc ∧
    r.bLive site = true ∧
    r.portUsed site port = true ∧
    (r.btile site).busy port (cyc + 2) = false :=
  ⟨1, 3, 16382, 10, true, up, _, by decide +kernel, rfl, by decide +kernel⟩

theorem witness_ScheduledAccess_2 : ∃ (site : Nat) (port : Nat) (row : Nat) (cyc : Nat) (words : List RowWord) (ws : List RowWord) (s : State) (r : State) (u : State),
    schedOk site port row false = true ∧
    words.length = 16 ∧
    r = s.bRun site cyc ∧
    r.bLive site = true ∧
    r.portUsed site port = true ∧
    (r.btile site).busy port (cyc + 2) = false ∧
    r.portBank site port row = true ∧
    r.sideWords site row words 0 = (ws, u) :=
  ⟨1, 0, 7, 10, List.replicate 16 ⟨0, 0⟩, _, up, _, _, by decide +kernel, by decide +kernel, rfl, by decide +kernel, by decide +kernel, by decide +kernel, by decide +kernel, Prod.mk.eta.symm⟩

theorem witness_ScheduledAccess_3 : ∃ (site : Nat) (port : Nat) (row : Nat) (cyc : Nat) (words : List RowWord) (s : State) (r : State),
    schedOk site port row false = true ∧
    words.length = 16 ∧
    r = s.bRun site cyc ∧
    r.bLive site = true ∧
    r.portUsed site port = true ∧
    (r.btile site).busy port (cyc + 2) = false ∧
    r.portBank site port row = false :=
  ⟨1, 4, 7, 10, List.replicate 16 ⟨0, 0⟩, withReg 1 0x080 0 up, _, by decide +kernel, by decide +kernel, rfl, by decide +kernel⟩

theorem witness_RowReads_1 : ∃ (site : Nat) (cyc : Nat) (head : BitVec 512) (hdr : BitVec 128) (s : State) (r : State),
    isKind .b site = true ∧
    s.bLive site = true ∧
    bIsWrite head.toNat = false ∧
    bOp head.toNat ≠ 5 ∧
    bMalformed head.toNat (hLen hdr.toNat) = false ∧
    bRows head.toNat ≠ 0 ∧
    r = s.bRun site cyc ∧
    (r.btile site).reads.length < 8 ∧
    (r.btile site).waiting.any (fun x => x.vc == hVc hdr.toNat && x.packet) = false :=
  ⟨1, 10, bHeadA 1 16383 1, mkHdr 0 0 0 0 1 0 0 0 0, up, _, by decide +kernel, by decide +kernel, by decide +kernel, by decide +kernel, by decide +kernel, by decide +kernel, rfl, by decide +kernel⟩

theorem witness_RowReads_2 : ∃ (site : Nat) (cyc : Nat) (head : BitVec 512) (hdr : BitVec 128) (s : State) (r : State),
    isKind .b site = true ∧
    s.bLive site = true ∧
    bIsWrite head.toNat = false ∧
    bOp head.toNat ≠ 5 ∧
    bMalformed head.toNat (hLen hdr.toNat) = false ∧
    bRows head.toNat ≠ 0 ∧
    r = s.bRun site cyc ∧
    8 ≤ (r.btile site).reads.length :=
  ⟨1, 10, bHeadA 1 16288 96, mkHdr 0 0 0 0 1 0 0 0 0, withB { btDflt 0 with reads := List.replicate 8 (bReadA 1) } up, _, by decide +kernel, by decide +kernel, by decide +kernel, by decide +kernel, by decide +kernel, by decide +kernel, rfl, by decide +kernel⟩

theorem witness_RowReads_3 : ∃ (site : Nat) (port : Nat) (cyc : Nat) (head : BitVec 512) (hdr : BitVec 128) (s : State) (r : State),
    isKind .b site = true ∧
    port < 4 ∧
    s.bLive site = true ∧
    bOp head.toNat = 5 ∧
    s.partnerOk site port (hVc hdr.toNat) (hSrc hdr.toNat) = true ∧
    bMalformed head.toNat (hLen hdr.toNat) = false ∧
    bRows head.toNat ≠ 0 ∧
    r = s.bRun site cyc ∧
    (r.btile site).reads.length < 8 ∧
    (r.btile site).waiting.any (fun x => x.vc == hVc hdr.toNat && x.packet) = false :=
  ⟨1, 0, 10, bHeadA 5 7 1, mkHdr 0 0 1 0 1 0 0 0 0, { up with regs := lostMap }, _, by decide +kernel, by decide +kernel, by decide +kernel, by decide +kernel, by decide +kernel, by decide +kernel, by decide +kernel, rfl, by decide +kernel⟩

theorem witness_RowReads_4 : ∃ (site : Nat) (cyc : Nat) (flips : List Flip) (q : BReadReq) (rest : List BReadReq) (l : List WordRead) (s : State) (r : State) (u : State),
    isKind .b site = true ∧
    s.bRun site cyc = r ∧
    (r.btile site).reads = q :: rest ∧
    r.bLive site = true ∧
    (r.btile site).busy 5 (cyc + 1) = false ∧
    (r.btile site).claimed false q.row (cyc + 1) = false ∧
    q.left = 1 ∧
    q.seg = none ∧
    r.areadRow site q flips = (l, u) :=
  ⟨1, 10, [], bReadA 1, [], _, withB { btDflt 0 with reads := [bReadA 1] } up, _, _, by decide +kernel, rfl, by decide +kernel, by decide +kernel, by decide +kernel, by decide +kernel, by decide +kernel, by decide +kernel, Prod.mk.eta.symm⟩

theorem witness_RowReads_5 : ∃ (site : Nat) (cyc : Nat) (flips : List Flip) (q : BReadReq) (rest : List BReadReq) (l : List WordRead) (s : State) (r : State) (u : State),
    isKind .b site = true ∧
    s.bRun site cyc = r ∧
    (r.btile site).reads = q :: rest ∧
    r.bLive site = true ∧
    (r.btile site).busy 5 (cyc + 1) = false ∧
    (r.btile site).claimed false q.row (cyc + 1) = false ∧
    q.left ≠ 1 ∧
    r.areadRow site q flips = (l, u) ∧
    (q.seg ≠ none ∨ (q.got ++ rowHalves l).length < 12) :=
  ⟨1, 10, [], bReadA 2, [], _, withB { btDflt 0 with reads := [bReadA 2] } up, _, _, by decide +kernel, rfl, by decide +kernel, by decide +kernel, by decide +kernel, by decide +kernel, by decide +kernel, Prod.mk.eta.symm, by decide +kernel⟩

theorem witness_RowWrites_1 : ∃ (site : Nat) (cyc : Nat) (pkt : MeshPkt) (s : State) (u : State),
    isKind .b site = true ∧
    s.bLive site = true ∧
    bIsRead (MeshPkt.head pkt) = false ∧
    bOp (MeshPkt.head pkt) ≠ 6 ∧
    s.bRun site cyc = u ∧
    bMalformed (MeshPkt.head pkt) (hLen (MeshPkt.hdr pkt)) = false ∧
    bRows (MeshPkt.head pkt) ≠ 0 ∧
    bRows (MeshPkt.head pkt) ≤ (u.btile site).holdFree ∧
    (u.btile site).waiting.any (fun x => x.vc == hVc (MeshPkt.hdr pkt) && x.packet) = false :=
  ⟨1, 10, bPktA 2 16383, up, _, by decide +kernel, by decide +kernel, by decide +kernel, by decide +kernel, rfl, by decide +kernel⟩

theorem witness_RowWrites_2 : ∃ (site : Nat) (cyc : Nat) (pkt : MeshPkt) (s : State) (u : State),
    isKind .b site = true ∧
    s.bLive site = true ∧
    bIsRead (MeshPkt.head pkt) = false ∧
    bOp (MeshPkt.head pkt) ≠ 6 ∧
    s.bRun site cyc = u ∧
    bMalformed (MeshPkt.head pkt) (hLen (MeshPkt.hdr pkt)) = false ∧
    (u.btile site).holdFree < bRows (MeshPkt.head pkt) :=
  ⟨1, 10, bPktA 2 7, withB { btDflt 0 with hold := List.replicate 16 heldA } up, _, by decide +kernel, by decide +kernel, by decide +kernel, by decide +kernel, rfl, by decide +kernel⟩

theorem witness_RowWrites_3 : ∃ (site : Nat) (port : Nat) (cyc : Nat) (pkt : MeshPkt) (s : State) (u : State),
    isKind .b site = true ∧
    port < 4 ∧
    s.bLive site = true ∧
    bOp (MeshPkt.head pkt) = 6 ∧
    s.partnerOk site port (hVc (MeshPkt.hdr pkt)) (hSrc (MeshPkt.hdr pkt)) = true ∧
    s.bRun site cyc = u ∧
    bMalformed (MeshPkt.head pkt) (hLen (MeshPkt.hdr pkt)) = false ∧
    bRows (MeshPkt.head pkt) ≠ 0 ∧
    bRows (MeshPkt.head pkt) ≤ (u.btile site).holdFree ∧
    (u.btile site).waiting.any (fun x => x.vc == hVc (MeshPkt.hdr pkt) && x.packet) = false ∧
    (∀ r, u.portBank site port r = true) :=
  ⟨1, 0, 10, bPktA 6 7, { up with regs := lostMap }, _, by decide +kernel, by decide +kernel, by decide +kernel, by decide +kernel, by decide +kernel, rfl, by decide +kernel, by decide +kernel, by decide +kernel, by decide +kernel, all_banks (by decide +kernel)⟩

theorem witness_RowWrites_4 : ∃ (site : Nat) (cyc : Nat) (e : BHeld) (s : State) (u : State),
    isKind .b site = true ∧
    s.bRun site cyc = u ∧
    u.bLive site = true ∧
    (u.btile site).busy 6 (cyc + 1) = false ∧
    u.bEligible site cyc (u.btile site).hold [] = some e :=
  ⟨1, 10, { heldA with row := 7 }, withB { btDflt 0 with hold := [{ heldA with row := 7 }], pkts := [bPacketA] } up, _, by decide +kernel, rfl, by decide +kernel⟩

theorem witness_RowWrites_7 : ∃ (site : Nat) (pkt : MeshPkt),
    isKind .b site = true ∧
    bIsRead (MeshPkt.head pkt) = true :=
  ⟨1, bPktA 1 7, by decide +kernel⟩

/-- The second row of a packet that is logged. -/
theorem witness_RowWrites_6 : ∃ (site : Nat) (cyc : Nat) (e : BHeld) (p : BPkt) (s : State) (u : State) (v : State),
    isKind .b site = true ∧
    s.bRun site cyc = u ∧
    (u.btile site).hold = [e] ∧
    e.arr + 4096 ≤ cyc ∧
    v = (u.updB site fun t => { t with hold := [] }).incReg site 0x05C ∧
    (v.btile site).pkts.find? (fun p => p.pkt == e.pkt) = some p ∧
    p.logged = true :=
  ⟨1, 4099, heldA, { bPacketA with logged := true }, withB { btDflt 0 with hold := [heldA], pkts := [{ bPacketA with logged := true }] } up, _, _, by decide +kernel, rfl, by decide +kernel, by decide +kernel, rfl, by decide +kernel⟩

theorem witness_RowWrites_5 : ∃ (site : Nat) (cyc : Nat) (e : BHeld) (s : State) (u : State) (v : State),
    isKind .b site = true ∧
    s.bRun site cyc = u ∧
    (u.btile site).hold = [e] ∧
    e.arr + 4096 ≤ cyc ∧
    v = (u.updB site fun t => { t with hold := [] }).incReg site 0x05C ∧
    (((v.btile site).pkts.find? fun p => p.pkt == e.pkt).all fun p => !p.logged) = true :=
  ⟨1, 4099, heldA, withB { btDflt 0 with hold := [heldA], pkts := [bPacketA] } up, _, _, by decide +kernel, rfl, by decide +kernel, by decide +kernel, rfl, by decide +kernel⟩

/-- The last row of the pass. -/
theorem witness_RowScrub_1 : ∃ (site : Nat) (cyc : Nat) (row : Nat) (flips : List Flip) (l : List WordRead) (s : State) (u : State) (v : State),
    isKind .b site = true ∧
    s.bRun site cyc = u ∧
    u.bLive site = true ∧
    u.regN site 0x064 % 65536 ≠ 0 ∧
    (u.btile site).scrubRow = row ∧
    (u.btile site).scrubAt + u.regN site 0x064 % 65536 ≤ cyc ∧
    (u.btile site).busy 7 (cyc + 1) = false ∧
    (u.btile site).claimed false row (cyc + 1) = false ∧
    u.bReadRow site row 2 flips = (l, v) :=
  ⟨1, 1024, 16383, [⟨0, 1⟩], _, withB { btDflt 0 with scrubRow := 16383 } up, _, _, by decide +kernel, rfl, by decide +kernel, by decide +kernel, by decide +kernel, by decide +kernel, by decide +kernel, by decide +kernel, Prod.mk.eta.symm⟩

theorem witness_RowScrub_2 : ∃ (site : Nat) (cyc : Nat) (row : Nat) (ws : List RowWord) (rest : List (Nat × List RowWord)) (s : State) (u : State),
    isKind .b site = true ∧
    s.bRun site cyc = u ∧
    (u.btile site).scrubBack = (row, ws) :: rest ∧
    u.bLive site = true ∧
    (u.btile site).busy 7 (cyc + 1) = false ∧
    (u.btile site).claimed true row (cyc + 1) = false :=
  ⟨1, 10, 5, List.replicate 16 ⟨0, 0⟩, [], withB { btDflt 0 with scrubBack := [(5, List.replicate 16 ⟨0, 0⟩)] } up, _, by decide +kernel, rfl, by decide +kernel⟩

theorem witness_RowsReadBack : ∃ (row : Nat) (ws : List RowWord) (m : Sparse Byte),
    row < bufRows ∧
    ws.length = 16 ∧
    swf bufDflt m = true :=
  ⟨16383, List.replicate 16 ⟨5, 0⟩, [], by decide +kernel⟩

/-- The last row of a KV segment. -/
theorem witness_RowReads_6 : ∃ (site : Nat) (cyc : Nat) (flips : List Flip) (q : BReadReq) (x : SegRead) (rest : List BReadReq) (l : List WordRead) (s : State) (r : State) (u : State),
    isKind .b site = true ∧
    s.bRun site cyc = r ∧
    (r.btile site).reads = q :: rest ∧
    r.bLive site = true ∧
    (r.btile site).busy 5 (cyc + 1) = false ∧
    (r.btile site).claimed false q.row (cyc + 1) = false ∧
    q.left = 1 ∧
    q.seg = some x ∧
    r.areadRow site q flips = (l, u) :=
  ⟨1, 10, [], { bReadA 1 with seg := some segA }, segA, [], _, withB { btDflt 0 with reads := [{ bReadA 1 with seg := some segA }] } up, _, _, by decide +kernel, rfl, by decide +kernel, by decide +kernel, by decide +kernel, by decide +kernel, by decide +kernel, by decide +kernel, Prod.mk.eta.symm⟩

/-- The twelfth half row. -/
theorem witness_RowReads_7 : ∃ (site : Nat) (cyc : Nat) (flips : List Flip) (q : BReadReq) (rest : List BReadReq) (l : List WordRead) (s : State) (r : State) (u : State),
    isKind .b site = true ∧
    s.bRun site cyc = r ∧
    (r.btile site).reads = q :: rest ∧
    r.bLive site = true ∧
    (r.btile site).busy 5 (cyc + 1) = false ∧
    (r.btile site).claimed false q.row (cyc + 1) = false ∧
    q.left ≠ 1 ∧
    r.areadRow site q flips = (l, u) ∧
    q.seg = none ∧
    12 ≤ (q.got ++ rowHalves l).length :=
  ⟨1, 10, [], { bReadA 2 with got := List.replicate 10 ([], false) }, [], _, withB { btDflt 0 with reads := [{ bReadA 2 with got := List.replicate 10 ([], false) }] } up, _, _, by decide +kernel, rfl, by decide +kernel, by decide +kernel, by decide +kernel, by decide +kernel, by decide +kernel, Prod.mk.eta.symm, by decide +kernel⟩

theorem witness_RowReads_8 : ∃ (site : Nat) (head : BitVec 512),
    isKind .b site = true ∧
    bIsWrite head.toNat = true :=
  ⟨1, bHeadA 2 7 1, by decide +kernel⟩

theorem witness_MicroTransfers_1 : ∃ (site : Nat) (s : State),
    isKind .b site = true ∧
    s.bRuns site = true :=
  ⟨1, work, by decide +kernel⟩

theorem witness_MicroTransfers_2 : ∃ (site : Nat) (w0 : DWord) (s : State),
    isKind .b site = true ∧
    s.bRuns site = true ∧
    fRows w0.toNat = 0 :=
  ⟨1, 3, work, by decide +kernel⟩

theorem witness_MicroTransfers_3 : ∃ (site : Nat) (n : Nat) (a : Nat) (base : Nat) (cyc : Nat) (w0 : DWord) (ofs : DWord) (s : State) (u : State),
    isKind .b site = true ∧
    s.bRuns site = true ∧
    n = fRows w0.toNat ∧
    n ≠ 0 ∧
    u = s.bRun site cyc ∧
    a = u.operand site (bits w0.toNat 55 48) ofs.toNat ∧
    base = a % 2 ^ 40 ∧
    u.isLocal a = true ∧
    base % 64 = 0 :=
  ⟨1, _, _, _, 10, BitVec.ofNat 64 (0xFF * 2 ^ 48 + 7 * 2 ^ 34 + 2 ^ 23 + 3), 0, { work with hbm := hbmUp }, _, by decide +kernel, by decide +kernel, rfl, by decide +kernel, rfl, rfl, rfl, by decide +kernel⟩

theorem witness_MicroTransfers_4 : ∃ (site : Nat) (n : Nat) (a : Nat) (cyc : Nat) (w0 : DWord) (ofs : DWord) (s : State) (u : State),
    isKind .b site = true ∧
    s.bRuns site = true ∧
    n = fRows w0.toNat ∧
    n ≠ 0 ∧
    u = s.bRun site cyc ∧
    a = u.operand site (bits w0.toNat 55 48) ofs.toNat ∧
    u.isLocal a = false :=
  ⟨1, _, _, 10, BitVec.ofNat 64 (0xFF * 2 ^ 48 + 7 * 2 ^ 34 + 2 ^ 23 + 3), BitVec.ofNat 64 (5 * 2 ^ 40), withReg pgRte 0x04C 0x80010000 work, _, by decide +kernel, by decide +kernel, rfl, by decide +kernel, rfl, rfl, by decide +kernel⟩

theorem witness_MicroTransfers_5 : ∃ (site : Nat) (n : Nat) (a : Nat) (cyc : Nat) (w0 : DWord) (ofs : DWord) (s : State) (u : State),
    isKind .b site = true ∧
    s.bRuns site = true ∧
    n = fRows w0.toNat ∧
    n ≠ 0 ∧
    u = s.bRun site cyc ∧
    a = u.operand site (bits w0.toNat 55 48) ofs.toNat :=
  ⟨1, _, _, 10, BitVec.ofNat 64 (0xFF * 2 ^ 48 + 7 * 2 ^ 34 + 2 ^ 23 + 3), 0, work, _, by decide +kernel, by decide +kernel, rfl, by decide +kernel, rfl, rfl⟩

theorem witness_MicroTransfers_6 : ∃ (site : Nat) (n : Nat) (dest : Nat) (cyc : Nat) (w0 : DWord) (w1 : DWord) (s : State) (u : State) (l : List (Nat × Nat × Nat)),
    isKind .b site = true ∧
    s.bRuns site = true ∧
    n = bits w0.toNat 33 27 ∧
    n ≠ 0 ∧
    dest = (s.bRun site cyc).physDest (bits w1.toNat 63 48) ∧
    (s.bRun site cyc).sendPkts site dest (bits w1.toNat 33 22) (bitN w0.toNat 26) (bitN w0.toNat 25) (bits w1.toNat 47 34) n
      (fCtr w0.toNat) = (l, u) :=
  ⟨1, _, _, 10, BitVec.ofNat 64 (2 ^ 27), BitVec.ofNat 64 (7 * 2 ^ 34), work, _, _, by decide +kernel, by decide +kernel, rfl, by decide +kernel, rfl, Prod.mk.eta.symm⟩

theorem witness_MicroControl_1 : ∃ (site : Nat) (w0 : DWord) (s : State),
    s.Inv ∧
    isSite site = true ∧
    siteKind site ≠ .w ∧
    s.mayRun site = true ∧
    nth 0 (s.run site).ctr (bits w0.toNat 50 48) < w0.toNat % 2 ^ 32 :=
  ⟨48, BitVec.ofNat 64 (7 * 2 ^ 48 + 1), work, inv_of_ok (by decide +kernel), by decide +kernel⟩

theorem witness_MicroControl_2 : ∃ (site : Nat) (c : Nat) (v : Nat) (s : State),
    s.Inv ∧
    isSite site = true ∧
    siteKind site ≠ .w ∧
    (s.run site).wait = some (c, v) ∧
    v ≤ nth 0 (s.run site).ctr c :=
  ⟨48, 7, 0, withProg { work.prog with runs := [(48, { runA with wait := some (7, 0) })] } work, inv_of_ok (by decide +kernel), by decide +kernel⟩

theorem witness_MicroControl_3 : ∃ (site : Nat),
    isSite site = true ∧
    siteKind site ≠ .w :=
  ⟨48, by decide +kernel⟩

theorem witness_MicroControl_4 : ∃ (site : Nat) (s : State),
    s.Inv ∧
    isSite site = true ∧
    siteKind site ≠ .w ∧
    s.mayRun site = true :=
  ⟨48, work, inv_of_ok (by decide +kernel), by decide +kernel⟩

theorem witness_MicroControl_5 : ∃ (site : Nat) (s : State),
    s.Inv ∧
    isKind .b site = true ∧
    (s.run site).inst ≠ none :=
  ⟨1, work, inv_of_ok (by decide +kernel), by decide +kernel⟩

theorem witness_MicroControl_6 : ∃ (site : Nat) (ctr : Nat) (cyc : Nat) (x : Xfer) (s : State) (u : State),
    isSite site = true ∧
    siteKind site ≠ .w ∧
    ctr < 8 ∧
    u = (if siteKind site = .b then s.bRun site cyc else s) ∧
    (u.run site).pend.find? (fun x => x.ctr == ctr && u.xferLanded site x) = some x :=
  ⟨1, 7, 10, ⟨3, 7, 1, 0, 0, 0, none, false⟩, withProg { work.prog with runs := [(1, { runA with pend := [⟨3, 7, 1, 0, 0, 0, none, false⟩] })] } work, _, by decide +kernel, by decide +kernel, by decide +kernel, rfl, by decide +kernel⟩

theorem witness_Instances_1 : ∃ (site : Nat) (cyc : Nat) (i : Inst) (s : State) (r : State) (u : State),
    isSite site = true ∧
    siteKind site ≠ .w ∧
    (s.run site).inst = some i ∧
    (s.run site).ended = true ∧
    (s.run site).wait = none ∧
    r = (if siteKind site = .m then (s.mAdvance site cyc).runM site cyc else if siteKind site = .b then s.bRun site cyc else s) ∧
    r.tileQuiet site = true ∧
    u = r.updRun site (fun r => { r with inst := none, ended := false }) :=
  ⟨0, 5, instA, withProg { work.prog with runs := [(0, { runA with ended := true })] } work, _, _, by decide +kernel, by decide +kernel, by decide +kernel, by decide +kernel, by decide +kernel, rfl, by decide +kernel, rfl⟩

theorem witness_Instances_2 : ∃ (site : Nat) (l : Nat) (d : Nat) (p : Nat) (i : Inst) (s : State),
    isSite site = true ∧
    siteKind site ≠ .w ∧
    s.served site = some l ∧
    s.idle site = true ∧
    s.gangWaits (siteComb site) l = false ∧
    s.forageFor site l = some (d, p, i) :=
  ⟨0, 0, 0, 0, instA, ready (tmplA 0 1) [] [(0, [instA])] [], by decide +kernel⟩

theorem witness_Instances_3 : ∃ (comb : Nat) (pool : Nat) (i : Inst) (rest : List Inst) (sites : List (Option Nat)) (s : State),
    comb < 24 ∧
    pool < 4 ∧
    s.pool comb pool = i :: rest ∧
    s.isGang i = true ∧
    sites = ((logicals .m).filter fun l => s.elig l i).map (fun l => s.serving comb l) ∧
    (∀ x ∈ sites, ∃ k, x = some k ∧ s.idle k = true) :=
  ⟨0, 0, instA, [], [some 0], ready (tmplA 2 1) [] [(0, [instA])] [], by decide +kernel, by decide +kernel, by decide +kernel, by decide +kernel, by decide +kernel, fun x hx => ⟨0, by simpa using hx, by decide +kernel⟩⟩

theorem witness_Launches_1 : ∃ (l : LRec) (rest : List DispRec) (n : Nat) (i : Nat) (im : Image) (b : Bucket) (s : State) (u : State),
    s.prog.dq = .launch l :: rest ∧
    s.switchHolds l = false ∧
    s.graphBusy l = false ∧
    u = { s with prog := { s.prog with dq := rest } } ∧
    u.checkLaunch l = .ok n i im b :=
  ⟨launchRec 1, [], 0, 0, imageA (tmplA 0 1), ⟨4, 4, 0, 1, 0⟩, withProg { (ready (tmplA 0 1) [] [] []).prog with launches := [], dq := [.launch (launchRec 1)] } up, _, by decide +kernel, by decide +kernel, by decide +kernel, rfl, by decide +kernel⟩

theorem witness_Launches_2 : ∃ (l : LRec) (rest : List DispRec) (c : Nat) (s : State) (u : State),
    s.prog.dq = .launch l :: rest ∧
    s.switchHolds l = false ∧
    s.graphBusy l = false ∧
    u = { s with prog := { s.prog with dq := rest } } ∧
    u.checkLaunch l = .bad c :=
  ⟨launchRec 2, [], 1, withProg { (ready (tmplA 0 1) [] [] []).prog with launches := [], dq := [.launch (launchRec 2)] } up, _, by decide +kernel, by decide +kernel, by decide +kernel, rfl, by decide +kernel⟩

theorem witness_Launches_3 : ∃ (launch : Nat) (tmpl : Nat) (l : Launch) (r : TmplRun) (im : Image) (tm : Template) (s : State),
    s.launch? launch = some l ∧
    l.tmpls.find? (fun t => t.idx == tmpl) = some r ∧
    (s.slot l.slot).img = some im ∧
    im.tasks[tmpl]? = some tm ∧
    r.released = false ∧
    l.depMet tm.dep0 = true ∧
    l.depMet tm.dep1 = true :=
  ⟨1, 0, { lau with tmpls := [⟨0, 0, 2, 0, false⟩] }, ⟨0, 0, 2, 0, false⟩, imageA (tmplA 0 1), tmplA 0 1, ready (tmplA 0 1) [⟨0, 0, 2, 0, false⟩] [] [], by decide +kernel⟩

theorem witness_Switches_1 : ∃ (r : SwitchRec) (rest : List DispRec) (s : State),
    s.prog.cur = none ∧
    s.prog.ahead = [] ∧
    s.prog.dq = .switch r :: rest ∧
    ({ s with prog := { s.prog with dq := rest } } : State).switchRule r = 0 ∧
    s.prog.pre = none :=
  ⟨⟨true, nullSlot, false, 0, 0⟩, [], withProg { resetProg with dq := [.switch ⟨true, nullSlot, false, 0, 0⟩] } up, by decide +kernel⟩

theorem witness_Switches_2 : ∃ (r : SwitchRec) (rest : List DispRec) (c : Nat) (s : State) (u : State),
    s.prog.cur = none ∧
    s.prog.ahead = [] ∧
    s.prog.dq = .switch r :: rest ∧
    u = { s with prog := { s.prog with dq := rest } } ∧
    u.switchRule r = c ∧
    c ≠ 0 :=
  ⟨⟨false, nullSlot, false, 0, 0⟩, [], 1, withProg { resetProg with dq := [.switch ⟨false, nullSlot, false, 0, 0⟩] } up, _, by decide +kernel, by decide +kernel, by decide +kernel, rfl, by decide +kernel⟩

theorem witness_Switches_3 : ∃ (w : Switching) (im : Image) (b : List Byte) (s : State) (u : State),
    s.prog.cur = some w ∧
    w.loaded = false ∧
    s.shadowFree = true ∧
    w.sw.slot ≠ nullSlot ∧
    (s.slot w.sw.slot).img = some im ∧
    u = s.noteRead (s.slot w.sw.slot).addr im.size none ∧
    u.dram (s.slot w.sw.slot).addr im.size = some b ∧
    headBad b = false ∧
    crcBad b = false :=
  ⟨toSlot 0 false false, imageA (tmplA 0 1), imgBytes, withImg imgBytes (withProg { resetProg with slots := [(0, slotA (tmplA 0 1))], cur := some (toSlot 0 false false) } up), _, by decide +kernel, by decide +kernel, by decide +kernel, by decide +kernel, by decide +kernel, rfl, by decide +kernel⟩

theorem witness_Switches_4 : ∃ (w : Switching) (im : Image) (b : List Byte) (s : State) (u : State),
    s.prog.cur = some w ∧
    w.loaded = false ∧
    s.shadowFree = true ∧
    w.sw.slot ≠ nullSlot ∧
    (s.slot w.sw.slot).img = some im ∧
    u = s.noteRead (s.slot w.sw.slot).addr im.size none ∧
    u.dram (s.slot w.sw.slot).addr im.size = some b ∧
    crcBad b = true :=
  ⟨toSlot 0 false false, imageA (tmplA 0 1), imgHead 0, withImg (imgHead 0) (withProg { resetProg with slots := [(0, slotA (tmplA 0 1))], cur := some (toSlot 0 false false) } up), _, by decide +kernel, by decide +kernel, by decide +kernel, by decide +kernel, by decide +kernel, rfl, by decide +kernel⟩

theorem witness_Switches_5 : ∃ (comb : Nat) (w : Switching) (s : State),
    comb < 24 ∧
    s.prog.cur = some w ∧
    s.switchReady w comb = true ∧
    w.sw.flush = true :=
  ⟨0, toSlot nullSlot true true, withProg { resetProg with cur := some (toSlot nullSlot true true) } up, by decide +kernel⟩

theorem witness_Switches_6 : ∃ (comb : Nat) (cyc : Nat) (w : Switching) (s : State) (u : State),
    comb < 24 ∧
    s.prog.cur = some w ∧
    s.switchReady w comb = true ∧
    w.sw.flush = false ∧
    u = ((List.range 120).map (mkSite comb)).foldl (fun s k =>
      (if siteKind k == .w then s.wRun k cyc else s).sendMarkers k) s :=
  ⟨0, 5, toSlot nullSlot false true, withProg { resetProg with cur := some (toSlot nullSlot false true) } up, _, by decide +kernel, by decide +kernel, by decide +kernel, by decide +kernel, rfl⟩

theorem witness_Switches_7 : ∃ (comb : Nat) (w : Switching) (s : State),
    comb < 24 ∧
    s.prog.cur = some w ∧
    s.switchReady w comb = true ∧
    w.sw.flush = false ∧
    w.sw.limit ≠ 0 ∧
    w.since + 1000 * w.sw.limit ≤ s.dev.chrono :=
  ⟨0, toSlot nullSlot false true, withProg { resetProg with cur := some (toSlot nullSlot false true) } up, by decide +kernel⟩

/-- Its shadow copies are loaded. -/
theorem witness_Switches_8 : ∃ (r : SwitchRec) (rest : List DispRec) (w : Switching) (s : State),
    s.prog.cur = none ∧
    s.prog.ahead = [] ∧
    s.prog.dq = .switch r :: rest ∧
    ({ s with prog := { s.prog with dq := rest } } : State).switchRule r = 0 ∧
    s.prog.pre = some w ∧
    w.sw = r :=
  ⟨(toSlot nullSlot false true).sw, [], toSlot nullSlot false true, withProg { resetProg with dq := [.switch (toSlot nullSlot false true).sw], pre := some (toSlot nullSlot false true) } up, by decide +kernel⟩

/-- It waits behind a launch. -/
theorem witness_Switches_9 : ∃ (r : SwitchRec) (s : State),
    s.prog.cur = none ∧
    s.nextSwitch = some r ∧
    s.switchRule r = 0 ∧
    s.prog.pre = none ∧
    s.shadowFree = true ∧
    r.slot = nullSlot :=
  ⟨(toSlot nullSlot false true).sw, withProg { resetProg with dq := [.launch (launchRec 1), .switch (toSlot nullSlot false true).sw] } up, by decide +kernel⟩

theorem witness_MicroTransfers_7 : ∃ (site : Nat) (w0 : DWord) (s : State),
    isKind .b site = true ∧
    s.bRuns site = true ∧
    bits w0.toNat 33 27 = 0 :=
  ⟨1, BitVec.ofNat 64 (2 ^ 25), work, by decide +kernel⟩

/-- An address off a unit. -/
theorem witness_MicroTransfers_8 : ∃ (site : Nat) (a : Nat) (base : Nat) (cyc : Nat) (w0 : DWord) (ofs : DWord) (s : State) (u : State) (v : State) (x : List (Nat × Bool)),
    isKind .b site = true ∧
    s.bRuns site = true ∧
    fRows w0.toNat ≠ 0 ∧
    u = s.bRun site cyc ∧
    a = u.operand site (bits w0.toNat 55 48) ofs.toNat ∧
    base = a % 2 ^ 40 ∧
    u.isLocal a = true ∧
    base % 64 ≠ 0 ∧
    (u.startXfer site (fCtr w0.toNat) 1 base (fRow w0.toNat) (2 * fRows w0.toNat)).tileRead (u.ownDest site) base
      (2 * fRows w0.toNat) (u.stepAt site) = (x, v) :=
  ⟨1, _, _, 10, BitVec.ofNat 64 (0xFF * 2 ^ 48 + 7 * 2 ^ 34 + 2 ^ 23 + 3), 32, { work with hbm := hbmUp }, _, _, _, by decide +kernel, by decide +kernel, by decide +kernel, rfl, rfl, rfl, by decide +kernel, by decide +kernel, Prod.mk.eta.symm⟩

theorem witness_MicroControl_7 : ∃ (site : Nat) (s : State),
    isSite site = true ∧
    siteKind site ≠ .w ∧
    s.mayRun site = false :=
  ⟨48, up, by decide +kernel⟩

/-- A WAIT stands. -/
theorem witness_MicroControl_8 : ∃ (site : Nat) (s : State),
    isKind .b site = true ∧
    s.mayRun site = false :=
  ⟨1, withProg { work.prog with runs := [(0, { runA with wait := some (7, 1) }), (1, { runA with wait := some (7, 1) }), (48, { runA with ended := true })] } work, by decide +kernel⟩

/-- A WAIT stands. -/
theorem witness_MicroControl_9 : ∃ (site : Nat) (s : State),
    isKind .m site = true ∧
    s.mayRun site = false :=
  ⟨0, withProg { work.prog with runs := [(0, { runA with wait := some (7, 1) }), (1, { runA with wait := some (7, 1) }), (48, { runA with ended := true })] } work, by decide +kernel⟩

/-- After END. -/
theorem witness_MicroControl_10 : ∃ (site : Nat) (s : State),
    isKind .s site = true ∧
    s.mayRun site = false :=
  ⟨48, withProg { work.prog with runs := [(0, { runA with wait := some (7, 1) }), (1, { runA with wait := some (7, 1) }), (48, { runA with ended := true })] } work, by decide +kernel⟩

theorem witness_MailboxRefuses_1 : ∃ (src : Source) (mb : Nat) (ports : List TrainInfo) (c : Instr) (s : State),
    mb < 4 ∧
    (s.lock && src != .keeper) = false ∧
    (s.page (pgKpr mb)).own ≠ some src ∧
    c ∈ ([.imageInstall src mb, .imageRemove src mb, .imageQuery src mb, .treathRetrain src mb ports, .policySet src mb, .fwUpdate src mb, .floorCommit src mb, .licenceInstall src mb, .ownerKeySet src mb, .lcsRequest src mb] : List Instr) :=
  ⟨.host, 3, [], .imageQuery .host 3, up, by decide +kernel, by decide +kernel, by decide +kernel, by simp⟩

theorem witness_MailboxRefuses_2 : ∃ (src : Source) (mb : Nat) (ports : List TrainInfo) (c : Instr) (s : State),
    mb < 4 ∧
    (s.lock && src != .keeper) = true ∧
    c ∈ ([.imageInstall src mb, .imageRemove src mb, .imageQuery src mb, .treathRetrain src mb ports, .policySet src mb, .fwUpdate src mb, .floorCommit src mb, .licenceInstall src mb, .ownerKeySet src mb, .lcsRequest src mb] : List Instr) :=
  ⟨.host, 0, [], .treathRetrain .host 0 [], State.reset, by decide +kernel, by decide +kernel, by simp⟩

theorem witness_MailboxRefuses_3 : ∃ (src : Source) (mb : Nat) (ports : List TrainInfo) (c : Instr) (s : State),
    mb < 4 ∧
    (s.lock && src != .keeper) = false ∧
    (s.page (pgKpr mb)).own = some src ∧
    bit (s.regN (pgKpr mb) 0x040) 31 = true ∧
    c ∈ ([.imageInstall src mb, .imageRemove src mb, .imageQuery src mb, .treathRetrain src mb ports, .policySet src mb, .fwUpdate src mb, .floorCommit src mb, .licenceInstall src mb, .ownerKeySet src mb, .lcsRequest src mb] : List Instr) :=
  ⟨.host, 3, [], .lcsRequest .host 3, withReg (pgKpr 3) 0x040 (2 ^ 31) (mbx 0 0 up), by decide +kernel, by decide +kernel, by decide +kernel, by decide +kernel, by simp⟩

/-- The last slot. -/
theorem witness_MailboxImages_1 : ∃ (src : Source) (mb : Nat) (n : Nat) (a : Nat) (h : List Byte) (b : List Byte) (s : State) (u : State) (v : State),
    MbOpen src mb s ∧
    u = s.mbGo src mb 0x01 ∧
    u.mbArg mb 0 = n ∧
    u.mbArg mb 1 = a ∧
    n ≤ 63 ∧
    a % 4096 = 0 ∧
    a < u.hbmSize ∧
    (u.slot n).st ≠ .active ∧
    u.dram a 128 = some h ∧
    u.dram a (imageLen h) = some b ∧
    v = u.noteRead a (imageLen h) none ∧
    v.imageRule n b = 0 :=
  ⟨.host, 3, 63, 2 ^ 20, imgBytes.take 128, imgBytes, mbx 63 (2 ^ 20) (withImg imgBytes up), _, _, by unfold MbOpen; decide +kernel, rfl, by decide +kernel, by decide +kernel, by decide +kernel, by decide +kernel, by decide +kernel, by decide +kernel, by decide +kernel, by decide +kernel, rfl, by decide +kernel⟩

theorem witness_MailboxImages_2 : ∃ (src : Source) (mb : Nat) (n : Nat) (s : State) (u : State),
    MbOpen src mb s ∧
    u = s.mbGo src mb 0x02 ∧
    u.mbArg mb 0 = n ∧
    n ≤ 63 ∧
    (u.slot n).st ≠ .active :=
  ⟨.host, 3, 63, mbx 63 0 up, _, by unfold MbOpen; decide +kernel, rfl, by decide +kernel⟩

theorem witness_MailboxImages_3 : ∃ (src : Source) (mb : Nat) (n : Nat) (im : Image) (s : State) (u : State),
    MbOpen src mb s ∧
    u = s.mbGo src mb 0x03 ∧
    u.mbArg mb 0 = n ∧
    n ≤ 63 ∧
    (u.slot n).img = some im :=
  ⟨.host, 3, 0, imageA (tmplA 0 1), mbx 0 0 (withProg { resetProg with slots := [(0, slotA (tmplA 0 1))] } up), _, by unfold MbOpen; decide +kernel, rfl, by decide +kernel⟩

theorem witness_MailboxImages_4 : ∃ (src : Source) (mb : Nat) (s : State) (u : State),
    MbOpen src mb s ∧
    u = s.mbGo src mb 0x10 ∧
    u.mrd.steps = [] :=
  ⟨.host, 3, mbx 0 0 up, _, by unfold MbOpen; decide +kernel, rfl, by decide +kernel⟩

/-- The largest REPLAY_LIMIT. -/
theorem witness_MailboxImages_5 : ∃ (src : Source) (mb : Nat) (r : Nat) (s : State) (u : State) (t : State),
    MbOpen src mb s ∧
    u = s.mbGo src mb 0x11 ∧
    (u.stage pgDfmDev 0x068 (u.mbArg mb 0)).commitAt .keeper pgDfmDev false 0 = (r, t) ∧
    r ≠ 2 ∧
    r ≠ 5 :=
  ⟨.host, 3, _, mbx 16 0 up, _, _, by unfold MbOpen; decide +kernel, rfl, Prod.mk.eta.symm, by decide +kernel⟩

theorem witness_MailboxFirmware_2 : ∃ (f : FwWrite) (mb : Nat) (s : State),
    s.nv.update = some f ∧
    f.mailbox = some mb :=
  ⟨⟨1, [], false, 5, some 3⟩, 3, withNv { makerNv with update := some ⟨1, [], false, 5, some 3⟩ } up, by decide +kernel⟩

/-- A floor equal to the SVN of the active object. -/
theorem witness_MailboxFirmware_3 : ∃ (src : Source) (mb : Nat) (c : Nat) (f : Nat) (s : State) (u : State),
    MbOpen src mb s ∧
    u = s.mbGo src mb 0x21 ∧
    u.mbArg mb 0 = c ∧
    u.mbArg mb 1 = f ∧
    c ≠ 0 ∧
    c ≤ 6 ∧
    f ≤ 127 ∧
    u.nv.floor c ≤ f ∧
    f ≤ objSvn (u.nv.obj u.nv.active c) :=
  ⟨.host, 3, 6, 9, mbx 6 9 (withNv { makerNv with bankA := { gen := 1, objs := [(6, [0, 0, 0, 0, 0, 9])], adv := [] } } up), _, by unfold MbOpen; decide +kernel, rfl, by decide +kernel⟩

theorem witness_MailboxFirmware_5 : ∃ (src : Source) (mb : Nat) (k : List Byte) (s : State) (u : State) (v : State),
    MbOpen src mb s ∧
    u = s.mbGo src mb 0x31 ∧
    u.nv.life = 2 ∧
    v = u.noteRead (u.mbArg mb 0) 432 none ∧
    v.nv.owner = none ∧
    v.dram (v.mbArg mb 0) 432 = some k :=
  ⟨.host, 3, List.replicate 432 0, mbx (2 ^ 20) 0 { up with hbm := hbmUp }, _, _, by unfold MbOpen; decide +kernel, rfl, by decide +kernel, rfl, by decide +kernel⟩

/-- The last bytes of the window. -/
theorem witness_IntakeWrites_1 : ∃ (off : Nat) (data : List Byte) (s : State),
    s.intakeOpen = true ∧
    off + data.length ≤ 0x8000000 :=
  ⟨0x7FFFFC0, List.replicate 64 1, withReg pgInt 0x048 (2 ^ 31) up, by decide +kernel⟩

/-- One byte past the window. -/
theorem witness_IntakeWrites_3 : ∃ (off : Nat) (data : List Byte) (s : State),
    s.Inv ∧
    (s.intakeOpen = false ∨ 0x8000000 < off + data.length) :=
  ⟨0x7FFFFC1, List.replicate 64 1, withReg pgInt 0x048 (2 ^ 31) up, inv_of_ok (by decide +kernel), by decide +kernel⟩

theorem witness_IntakeWrites_4 : ∃ (stream : Nat) (a : Asm) (s : State),
    s.asmOf stream = some a ∧
    s.regN pgInt 0x064 ≠ 0 ∧
    a.since + s.regN pgInt 0x064 * 1000 ≤ s.dev.chrono :=
  ⟨5, ⟨5, [], 0⟩, withReg pgInt 0x064 1 { up with intake := { resetIntake with asm := [⟨5, [], 0⟩] } }, by decide +kernel⟩

theorem witness_IntakeWrites_5 : ∃ (stream : Nat) (p : Pend) (rest : List Pend) (s : State),
    s.pendOf stream = p :: rest ∧
    p.fetched = false :=
  ⟨5, { pendA 2 with fetched := false }, [], withStream 1 { pendA 2 with fetched := false } up, by decide +kernel⟩

theorem witness_IntakeWrites_6 : ∃ (stream : Nat) (p : Pend) (rest : List Pend) (s : State),
    s.pendOf stream = p :: rest ∧
    p.fetched = false :=
  ⟨5, { pendA 2 with fetched := false }, [], withStream 1 { pendA 2 with fetched := false } up, by decide +kernel⟩

theorem witness_Records : ∃ (op : Nat) (n : Nat) (c : Instr) (p : Pend) (rest : List Pend) (s : State) (f : State) (u : State),
    (op, c) ∈ ([(1, .openRec n), (2, .appendRec n), (3, .generateRec n), (4, .pauseRec n), (5, .resumeRec n), (6, .forkRec n), (7, .closeRec n), (8, .queryRec n)] : List (Nat × Instr)) ∧
    s.recordTime = true ∧
    s.headIs op n = true ∧
    f = s.faultPoint ∧
    (f.showOseq n).pendOf n = p :: rest ∧
    p.fetched = true ∧
    u = ((f.showOseq n).setPend n rest).applyRecord n p :=
  ⟨8, 5, .queryRec 5, pendA 8, [], withStream 1 (pendA 8) up, _, _, by simp, by decide +kernel, by decide +kernel, rfl, by decide +kernel, by decide +kernel, rfl⟩

theorem witness_RecordStates_1 : ∃ (n : Nat) (p : Pend) (rest : List Pend) (s : State) (f : State),
    s.Inv ∧
    f = s.faultPoint ∧
    s.recordTime = true ∧
    s.headIs 4 n = true ∧
    f.pendOf n = p :: rest ∧
    1 ≤ (f.stream n).st ∧
    (f.stream n).st ≤ 3 :=
  ⟨5, pendA 4, [], withStream 3 (pendA 4) up, _, inv_of_ok (by decide +kernel), rfl, by decide +kernel⟩

theorem witness_RecordStates_2 : ∃ (n : Nat) (p : Pend) (rest : List Pend) (s : State) (f : State),
    s.Inv ∧
    f = s.faultPoint ∧
    s.recordTime = true ∧
    s.headIs 5 n = true ∧
    f.pendOf n = p :: rest ∧
    (f.stream n).st = 4 :=
  ⟨5, pendA 5, [], withStream 4 (pendA 5) up, _, inv_of_ok (by decide +kernel), rfl, by decide +kernel⟩

theorem witness_RecordStates_3 : ∃ (n : Nat) (p : Pend) (rest : List Pend) (s : State) (f : State),
    s.Inv ∧
    f = s.faultPoint ∧
    s.recordTime = true ∧
    s.headIs 7 n = true ∧
    f.pendOf n = p :: rest ∧
    1 ≤ (f.stream n).st ∧
    (f.stream n).st ≤ 4 :=
  ⟨5, pendA 7, [], withStream 4 (pendA 7) up, _, inv_of_ok (by decide +kernel), rfl, by decide +kernel⟩

theorem witness_RecordStates_4 : ∃ (op : Nat) (n : Nat) (c : Instr) (p : Pend) (rest : List Pend) (s : State) (f : State),
    s.Inv ∧
    f = s.faultPoint ∧
    (op, c) ∈ ([(1, .openRec n), (2, .appendRec n), (3, .generateRec n), (4, .pauseRec n), (5, .resumeRec n), (6, .forkRec n)] :
      List (Nat × Instr)) ∧
    s.recordTime = true ∧
    s.headIs op n = true ∧
    f.pendOf n = p :: rest ∧
    (f.stream n).st = 5 :=
  ⟨6, 5, .forkRec 5, pendA 6, [], withStream 5 (pendA 6) up, _, inv_of_ok (by decide +kernel), rfl, by simp, by decide +kernel⟩

theorem witness_Steps_1 : ∃ (st₀ : StepRec) (st : StepRec) (rest₀ : List StepRec) (rest : List StepRec) (s : State) (v : State),
    s.mrd.steps = st₀ :: rest₀ ∧
    v = (if s.stepReady st₀ then s.finishCopies st₀ else s) ∧
    v.mrd.steps = st :: rest ∧
    v.inSlice = false ∧
    v.live = true ∧
    v.stepReady st = true ∧
    st.rebuild = false :=
  ⟨stepA, stepA, [], [], withSteps [stepA] [] up, _, by decide +kernel, rfl, by decide +kernel⟩

theorem witness_Steps_2 : ∃ (s : State) (u : State) (v : State) (w : State) (x : State),
    s.live = true ∧
    s.dev.running = true ∧
    s.atTick = true ∧
    u = s.applyMrd ∧
    (u.page pgClk).pending = false ∧
    v = u.shedUpdate ∧
    w = (if v.mrd.steps.isEmpty then v.tickCommit else v).markLong ∧
    (x = (if w.mrd.mode = 1 ∧ w.stepTick = true then w.propose else w)) ∧
    x.mayStart = true ∧
    x.mrd.abandoned = [] ∧
    x.slc.st ≠ 3 :=
  ⟨withSteps [] [] { up with host := { up.host with linkUp := true } }, _, _, _, _, by decide +kernel, by decide +kernel, by decide +kernel, rfl, by decide +kernel, rfl, rfl, rfl, by decide +kernel⟩

theorem witness_Steps_4 : ∃ (s : State) (r : List Byte) (h : Nat) (a : Nat),
    s.live = true ∧
    s.mrd.configured = true ∧
    s.lqHead % s.regN pgMrd 0x080 = h ∧
    h ≠ s.lqTail % s.regN pgMrd 0x080 ∧
    a = s.reg64 pgMrd 0x078 + 128 * h ∧
    r = s.dramD a 128 ∧
    leAt r 0 1 = 1 ∧
    s.mrd.mode ≠ 2 :=
  ⟨queued 1 0, _, 0, _, by decide +kernel, by decide +kernel, by decide +kernel, by decide +kernel, rfl, rfl, by decide +kernel⟩

theorem witness_Steps_5 : ∃ (s : State) (r : List Byte) (h : Nat) (a : Nat),
    s.live = true ∧
    s.mrd.configured = true ∧
    s.lqHead % s.regN pgMrd 0x080 = h ∧
    h ≠ s.lqTail % s.regN pgMrd 0x080 ∧
    a = s.reg64 pgMrd 0x078 + 128 * h ∧
    r = s.dramD a 128 ∧
    leAt r 0 1 = 2 ∧
    s.inSlice = false :=
  ⟨queued 2 2, _, 0, _, by decide +kernel, by decide +kernel, by decide +kernel, by decide +kernel, rfl, rfl, by decide +kernel⟩

theorem witness_Steps_6 : ∃ (s : State) (r : List Byte) (h : Nat) (a : Nat),
    s.live = true ∧
    s.mrd.configured = true ∧
    s.lqHead % s.regN pgMrd 0x080 = h ∧
    h ≠ s.lqTail % s.regN pgMrd 0x080 ∧
    a = s.reg64 pgMrd 0x078 + 128 * h ∧
    r = s.dramD a 128 ∧
    (leAt r 0 1 = 0 ∨ 3 < leAt r 0 1) :=
  ⟨queued 4 0, _, 0, _, by decide +kernel, by decide +kernel, by decide +kernel, by decide +kernel, rfl, rfl, by decide +kernel⟩

theorem witness_Steps_7 : ∃ (src : Source) (s : State),
    s.writeRes src pgMrd = 0 :=
  ⟨.host, hostPage pgMrd up, by decide +kernel⟩

theorem witness_Steps_8 : ∃ (st : StepRec) (rest : List StepRec) (f : Forming) (s : State),
    s.mrd.abandoned = st :: rest ∧
    s.live = true ∧
    s.atTick = true ∧
    s.depthOk = true ∧
    s.recovered = true ∧
    s.hostWait = false ∧
    s.slc.st ≠ 2 ∧
    s.reserveAgain st = some f :=
  ⟨stepA, [], Forming.start (withSteps [] [stepA] up), withSteps [] [stepA] up, by decide +kernel, by decide +kernel, by decide +kernel, by decide +kernel, by decide +kernel, by decide +kernel, by decide +kernel, rfl⟩

theorem witness_Steps_9 : ∃ (s : State) (u : State),
    s.dev.chrono % 100000000 = 0 ∧
    s.live = true ∧
    s.alm.closed = 0 ∧
    s.almOn = true ∧
    u = { s with alm := s.alm.close s.dev.chrono } :=
  ⟨up, _, by decide +kernel, by decide +kernel, by decide +kernel, by decide +kernel, rfl⟩

/-- The last unit. -/
theorem witness_HbmAccess_1 : ∃ (stack : Nat) (a : Nat) (head : BitVec 512) (hdr : BitVec 128) (flips : List Flip) (ue : List Nat) (l : List (Nat × Bool)) (s : State) (u : State) (v : State),
    stack < 12 ∧
    hbmMalformed head.toNat (hLen hdr.toNat) = false ∧
    qOp head.toNat = 1 ∧
    qUnits head.toNat ≠ 0 ∧
    qAddr head.toNat < s.hbmSize ∧
    a = (s.tileStep (hSrc hdr.toNat)).elim (qAddr head.toNat) (fun x => s.cowRead x.1 x.2 (qAddr head.toNat)) ∧
    u = (s.disturbHbm flips).markDie (ue.map fun i => unitNum stack ((s.mapOf a).2 + 64 * i)) ∧
    u.readUnits (if a = qAddr head.toNat then stack else (u.mapOf a).1) 0 flips (u.reqStep (hSrc hdr.toNat)) a 0
      (qUnits head.toNat) = (l, v) :=
  ⟨0, _, hReq 1 (48 * 2 ^ 30 - 64) 1, mkHdr 0 0 0 0 1 0 0 0 0, [], [], _, { up with hbm := hbmUp }, _, _, by decide +kernel, by decide +kernel, by decide +kernel, by decide +kernel, by decide +kernel, rfl, rfl, Prod.mk.eta.symm⟩

/-- One unit past the last. -/
theorem witness_HbmAccess_2 : ∃ (stack : Nat) (head : BitVec 512) (hdr : BitVec 128) (s : State),
    stack < 12 ∧
    hbmMalformed head.toNat (hLen hdr.toNat) = false ∧
    qOp head.toNat = 1 ∧
    qUnits head.toNat ≠ 0 ∧
    s.hbmSize ≤ qAddr head.toNat :=
  ⟨0, hReq 1 (48 * 2 ^ 30) 1, mkHdr 0 0 0 0 1 0 0 0 0, { up with hbm := hbmUp }, by decide +kernel⟩

/-- The last unit below the reserved area. -/
theorem witness_HbmAccess_3 : ∃ (stack : Nat) (a : Nat) (t : Nat) (f : PFlit) (rest : List PFlit) (esc : Bool) (flips : List Flip) (pkt : MeshPkt) (s : State) (u : State) (v : State) (w : State) (x : State),
    stack < 12 ∧
    pkt = { flits := f :: rest, esc } ∧
    hbmMalformed (MeshPkt.head pkt) (hLen (MeshPkt.hdr pkt)) = false ∧
    qOp (MeshPkt.head pkt) = 2 ∧
    qUnits (MeshPkt.head pkt) ≠ 0 ∧
    a = qAddr (MeshPkt.head pkt) ∧
    a < s.hbmSize ∧
    (a < s.rsvBase ∨ keeperSrc (hSrc (MeshPkt.hdr pkt)) = true) ∧
    u = s.disturbHbm flips ∧
    (u.tileStep (hSrc (MeshPkt.hdr pkt))).elim (a, u) (fun x => u.cowTarget x.1 x.2 a) = (t, v) ∧
    w = ((List.range (qUnits (MeshPkt.head pkt))).foldl (fun s k =>
      s.writeAt (s.mapOf t).1 (t + 64 * k) (qMask (MeshPkt.head pkt))
        (leBytes 64 (nth { lane := 0, pay := 0, poison := true } (MeshPkt.body pkt) k).pay.toNat)
        ((nth { lane := 0, pay := 0, poison := true } (MeshPkt.body pkt) k).poison || f.poison)
        fun s e => s.hbmUe (s.mapOf (t + 64 * k)).1 (s.mapOf (t + 64 * k)).2 3 e (s.reqStep (hSrc (MeshPkt.hdr pkt)))) v) ∧
    x = (if bits (hSrc (MeshPkt.hdr pkt)) 15 14 = 0 then (w.segsIn t (64 * qUnits (MeshPkt.head pkt))).foldl (fun s y =>
        s.cachePut y.1 y.2 t (qUnits (MeshPkt.head pkt))) w
      else w.cacheSync t (64 * qUnits (MeshPkt.head pkt))) :=
  ⟨0, _, _, ⟨mkHdr 0 0 0 0 2 0 0 0 0, hReq 2 (47 * 2 ^ 30 - 64) 1, false⟩, [⟨0, 5, false⟩], false, [], _, { up with hbm := hbmUp }, _, _, _, _, by decide +kernel, rfl, by decide +kernel, by decide +kernel, by decide +kernel, rfl, by decide +kernel, by decide +kernel, rfl, Prod.mk.eta.symm, rfl, rfl⟩

theorem witness_HbmAccess_4 : ∃ (off : Nat) (len : Nat) (s : State),
    off + len ≤ s.bar4Size ∧
    (s.bar4Open = false ∨ s.hbmSize < s.reg64 pgHbmDev 0x060 + off + len) :=
  ⟨0, 64, { State.reset with hbm := hbmUp }, by decide +kernel⟩

theorem witness_HbmAccess_5 : ∃ (off : Nat) (len : Nat) (a : Nat) (d : List Byte) (p : Bool) (s : State) (u : State),
    off + len ≤ s.bar4Size ∧
    s.bar4Open = true ∧
    a = s.reg64 pgHbmDev 0x060 + off ∧
    a + len ≤ s.hbmSize ∧
    ((unitsOf a len).foldl (fun (acc : List Byte × Bool × State) u =>
      (acc.1 ++ (acc.2.2.readAt (acc.2.2.mapOf u).1 u 1 [] none).data, acc.2.1 || (acc.2.2.readAt (acc.2.2.mapOf u).1 u 1 [] none).poison, (acc.2.2.readAt (acc.2.2.mapOf u).1 u 1 [] none).s)) (([] : List Byte), false, s)) = (d, p, u) :=
  ⟨0, 64, _, _, _, { up with hbm := hbmUp }, _, by decide +kernel, by decide +kernel, rfl, by decide +kernel, rfl⟩

theorem witness_HbmAccess_6 : ∃ (off : Nat) (a : Nat) (data : List Byte) (s : State),
    off + data.length ≤ s.bar4Size ∧
    s.bar4Open = true ∧
    a = s.reg64 pgHbmDev 0x060 + off ∧
    a + data.length ≤ s.rsvBase :=
  ⟨0, _, [1], { up with hbm := hbmUp }, by decide +kernel, by decide +kernel, rfl, by decide +kernel⟩

/-- The first byte of the reserved area. -/
theorem witness_HbmAccess_7 : ∃ (off : Nat) (data : List Byte) (s : State),
    off + data.length ≤ s.bar4Size ∧
    (s.bar4Open = false ∨ s.rsvBase < s.reg64 pgHbmDev 0x060 + off + data.length) :=
  ⟨0, [1], withReg pgHbmDev 0x064 11 (withReg pgHbmDev 0x060 0xC0000000 { up with hbm := hbmUp }), by decide +kernel⟩

theorem witness_HbmAccess_8 : ∃ (log2 : Nat) (s : State),
    s.Inv ∧
    log2 ≤ 6 ∧
    s.regN pgPci 0x078 ≠ log2 :=
  ⟨6, up, inv_of_ok (by decide +kernel), by decide +kernel⟩

theorem witness_HbmCare_1 : ∃ (stack : Nat) (pos : Nat) (flips : List Flip) (ue : Bool) (d : List Byte) (c : List Byte) (x : List Byte) (s : State) (u : State),
    stack < 12 ∧
    s.regN (pgHbm stack) 0x04C % 65536 ≠ 0 ∧
    (s.stack stack).st = .run ∧
    pos = s.regN (pgHbm stack) 0x068 ∧
    u = ((if pos = 0 then (s.setReg (pgHbm stack) 0x068 ((pos + 1) % stackUnits)).updStack stack fun x => { x with rows := [] }
      else s.setReg (pgHbm stack) 0x068 ((pos + 1) % stackUnits)).disturbHbm flips).markDie
        (if ue then [unitNum stack (64 * pos)] else []) ∧
    u.metUnit stack (64 * pos) flips = (d, c) ∧
    stsPoison c = false ∧
    u.dieBad stack (64 * pos) = false ∧
    rsDecode stack pos d c = .good x :=
  ⟨0, _, [], false, _, _, List.replicate 64 0, { up with hbm := hbmUp }, _, by decide +kernel, by decide +kernel, by decide +kernel, rfl, rfl, Prod.mk.eta.symm, by decide +kernel⟩

theorem witness_HbmCare_2 : ∃ (stack : Nat) (pos : Nat) (flips : List Flip) (ue : Bool) (d : List Byte) (c : List Byte) (x : List Byte) (s : State) (u : State),
    stack < 12 ∧
    s.regN (pgHbm stack) 0x04C % 65536 ≠ 0 ∧
    (s.stack stack).st = .run ∧
    pos = s.regN (pgHbm stack) 0x068 ∧
    u = ((if pos = 0 then (s.setReg (pgHbm stack) 0x068 ((pos + 1) % stackUnits)).updStack stack fun x => { x with rows := [] }
      else s.setReg (pgHbm stack) 0x068 ((pos + 1) % stackUnits)).disturbHbm flips).markDie
        (if ue then [unitNum stack (64 * pos)] else []) ∧
    u.metUnit stack (64 * pos) flips = (d, c) ∧
    stsPoison c = false ∧
    u.dieBad stack (64 * pos) = false ∧
    rsDecode stack pos d c = .corrected x ∧
    u.keeperUnit (u.unitAddr stack (64 * pos)) = none :=
  ⟨0, _, [⟨unitKey 0 0 0, 1⟩], false, _, _, List.replicate 64 0, { up with hbm := hbmUp }, _, by decide +kernel, by decide +kernel, by decide +kernel, rfl, rfl, Prod.mk.eta.symm, by decide +kernel⟩

theorem witness_HbmCare_3 : ∃ (src : Source) (stack : Nat) (cmd : DWord) (flips : List Flip) (s : State) (u : State) (v : State),
    stack < 12 ∧
    s.writeRes src (pgHbm stack) = 0 ∧
    bit (s.reg64 (pgHbm stack) 0x058) 63 = false ∧
    bit cmd.toNat 63 = true ∧
    bit cmd.toNat 62 = false ∧
    u = s.keepCmd stack cmd.toNat ∧
    (u.stack stack).st = .run ∧
    v = u.disturbHbm flips :=
  ⟨.host, 0, BitVec.ofNat 64 (2 ^ 63), [], hostPage (pgHbm 0) { up with hbm := hbmUp }, _, _, by decide +kernel, by decide +kernel, by decide +kernel, by decide +kernel, by decide +kernel, rfl, by decide +kernel, rfl⟩

theorem witness_HbmCare_4 : ∃ (src : Source) (stack : Nat) (cmd : DWord) (s : State) (u : State),
    stack < 12 ∧
    s.writeRes src (pgHbm stack) = 0 ∧
    bit (s.reg64 (pgHbm stack) 0x058) 63 = false ∧
    bit cmd.toNat 63 = true ∧
    bit cmd.toNat 62 = true ∧
    u = (s.keepCmd stack cmd.toNat).storeDefect
      { type := 3, origin := 1, start := s.nv.starts % 65536, ref := stack, data := cmdAddr cmd.toNat / 64 } :=
  ⟨.host, 11, BitVec.ofNat 64 (2 ^ 63 + 2 ^ 62), hostPage (pgHbm 11) up, _, by decide +kernel, by decide +kernel, by decide +kernel, by decide +kernel, by decide +kernel, rfl⟩

theorem witness_HbmCare_5 : ∃ (stack : Nat) (s : State),
    stack < 12 ∧
    (s.stack stack).st = .run :=
  ⟨0, { up with hbm := hbmUp }, by decide +kernel⟩

theorem witness_HbmCare_6 : ∃ (stack : Nat) (temp : Nat) (s : State),
    s.Inv ∧
    stack < 12 ∧
    temp < 95 :=
  ⟨11, 94, { up with hbm := hbmUp }, inv_of_ok (by decide +kernel), by decide +kernel⟩

theorem witness_HbmCare_7 : ∃ (stack : Nat) (temp : Nat) (s : State),
    stack < 12 ∧
    95 ≤ temp ∧
    (s.stack stack).temp < 95 :=
  ⟨11, 95, { up with hbm := hbmUp }, by decide +kernel⟩

theorem witness_HbmCare_8 : ∃ (stack : Nat) (temp : Nat) (s : State),
    s.Inv ∧
    stack < 12 ∧
    temp < 90 :=
  ⟨11, 89, { up with hbm := hbmUp }, inv_of_ok (by decide +kernel), by decide +kernel⟩

theorem witness_TreathPackets_1 : ∃ (port : Nat) (k : TPkt) (h : THead) (s : State) (u : State) (w : State),
    port < 16 ∧
    s.tUp port = true ∧
    s.noCredit port k = false ∧
    k.good = true ∧
    tLseq k.hdr = ((s.tport port).lack + 1) % 65536 ∧
    h = headOf k.hdr ∧
    u = (s.updTP port fun t => { t with lack := tLseq k.hdr, refused := (0, 0) }).addReg64 (pgTrl port) 0x080
      (16 + (tBytes (h.cls == 3) k.body).length) ∧
    w = (u.takeAck port (tLack k.hdr) (tNak k.hdr)).trlTake port h (maskBody h.pmask k.body) :=
  ⟨15, ⟨0, .link 0, true⟩, _, withPort 15 portUp wide, _, _, by decide +kernel, by decide +kernel, by decide +kernel, by decide +kernel, by decide +kernel, rfl, rfl, rfl⟩

theorem witness_TreathPackets_2 : ∃ (port : Nat) (k : TPkt) (s : State),
    port < 16 ∧
    s.tUp port = true ∧
    s.noCredit port k = false ∧
    k.good = false :=
  ⟨15, ⟨0, .link 0, false⟩, withPort 15 portUp wide, by decide +kernel⟩

theorem witness_TreathPackets_3 : ∃ (port : Nat) (k : TPkt) (s : State),
    port < 16 ∧
    (s.tUp port = false ∨
      (s.noCredit port k = false ∧ k.good = true ∧ tLseq k.hdr ≠ ((s.tport port).lack + 1) % 65536)) :=
  ⟨15, ⟨BitVec.ofNat 128 (2 ^ 64), .link 0, true⟩, withPort 15 portUp wide, by decide +kernel⟩

theorem witness_TreathPackets_4 : ∃ (port : Nat) (op : Nat) (c : Instr) (q : BitVec 512) (k : TPkt) (h : THead) (s : State) (u : State) (w : State),
    (op, c) ∈ ([(1, .maintRead port k), (2, .maintWrite port k), (3, .maintResponse port k), (8, .identityQuery port k), (9, .neighbourQuery port k)] : List (Nat × Instr)) ∧
    port < 16 ∧
    k.body = .maint q ∧
    h = headOf k.hdr ∧
    h.cls = 6 ∧
    mOp q.toNat = op ∧
    s.tUp port = true ∧
    s.noCredit port k = false ∧
    k.good = true ∧
    tLseq k.hdr = ((s.tport port).lack + 1) % 65536 ∧
    u = (s.updTP port fun t => { t with lack := tLseq k.hdr, refused := (0, 0) }).addReg64 (pgTrl port) 0x080
      (16 + (tBytes false k.body).length) ∧
    w = (u.takeAck port (tLack k.hdr) (tNak k.hdr)).trlTake port h (maskBody h.pmask k.body) :=
  ⟨15, 9, .neighbourQuery 15 (maintA 9), BitVec.ofNat 512 (9 * 2 ^ 508), maintA 9, _, withPort 15 portUp wide, _, _, by simp, by decide +kernel, by decide +kernel, rfl, by decide +kernel, by decide +kernel, by decide +kernel, by decide +kernel, by decide +kernel, by decide +kernel, rfl, rfl⟩

theorem witness_TreathPackets_5 : ∃ (port : Nat) (s : State),
    port < 16 ∧
    s.tUp port = true :=
  ⟨15, withPort 15 portUp wide, by decide +kernel⟩

theorem witness_TreathPorts_1 : ∃ (port : Nat) (s : State),
    port < 16 ∧
    (s.tport port).st = 2 :=
  ⟨15, withPort 15 portUp wide, by decide +kernel⟩

theorem witness_TreathPorts_2 : ∃ (src : Source) (port : Nat) (s : State),
    port < 16 ∧
    src ≠ .keeper ∧
    s.writeRes src (pgTrl port) = 0 ∧
    bit (s.regN (pgTrl port) 0x048) 31 = false :=
  ⟨.host, 15, hostPage (pgTrl 15) up, by decide +kernel⟩

/-- Two tries in the last minute, two failures in a row. -/
theorem witness_TreathPorts_3 : ∃ (port : Nat) (s : State),
    port < 16 ∧
    (s.tport port).st = 3 ∧
    (s.recentTries port).length < 3 ∧
    (s.tport port).fails < 3 ∧
    bit (s.regN (pgTrl port) 0x048) 30 = false :=
  ⟨15, withPort 15 { portUp with st := 3, tries := [4000000000, 4500000000], fails := 2 } up, by decide +kernel⟩

theorem witness_TreathPorts_4 : ∃ (ref : Nat) (s : State) (u : State) (v : State),
    ref < 3 ∧
    bit s.dev.refs ref = false ∧
    u = { s with dev := { s.dev with refs := putBits s.dev.refs ref ref 1 } } ∧
    v = (if u.dev.running then u.report pgClk 0 0x1301 ref 0 0 else u) :=
  ⟨2, up, _, _, by decide +kernel, by decide +kernel, rfl, rfl⟩

/-- An offset of 10,000 ns, the largest that is slewed. -/
theorem witness_TimeKeeping_1 : ∃ (port : Nat) (t1 : DWord) (t2 : DWord) (t3 : DWord) (t4 : DWord) (r1 : DWord) (r2 : DWord) (off : Int) (s : State) (u : State),
    port < 16 ∧
    s.dev.running = true ∧
    s.timePeriod ≠ 0 ∧
    s.carriesTime port = true ∧
    s.tre.time.parent = some port ∧
    u = s.announce port ∧
    off = timeOffset t1 t2 t3 t4 r1 r2 ∧
    (u.tre.time.stepped = true ∨ off.natAbs ≤ 10000 ∨ u.inSlice = true) :=
  ⟨15, 0, 10000, 10000, 0, 0, 0, _, withReg pgRte 0x054 1 (withTime timeA (withPort 15 portUp wide)), _, by decide +kernel, by decide +kernel, by decide +kernel, by decide +kernel, by decide +kernel, rfl, rfl, by decide +kernel⟩

/-- An offset of 10,001 ns, the smallest that is stepped. -/
theorem witness_TimeKeeping_2 : ∃ (port : Nat) (t1 : DWord) (t2 : DWord) (t3 : DWord) (t4 : DWord) (r1 : DWord) (r2 : DWord) (off : Int) (s : State) (u : State),
    port < 16 ∧
    s.dev.running = true ∧
    s.timePeriod ≠ 0 ∧
    s.carriesTime port = true ∧
    s.tre.time.parent = some port ∧
    u = s.announce port ∧
    off = timeOffset t1 t2 t3 t4 r1 r2 ∧
    u.tre.time.stepped = false ∧
    10000 < off.natAbs ∧
    u.inSlice = false :=
  ⟨15, 0, 10001, 10001, 0, 0, 0, _, withReg pgRte 0x054 1 (withTime timeA (withPort 15 portUp wide)), _, by decide +kernel, by decide +kernel, by decide +kernel, by decide +kernel, by decide +kernel, rfl, rfl, by decide +kernel⟩

theorem witness_TimeKeeping_3 : ∃ (p : Nat) (s : State) (u : State),
    s.tre.time.parent = some p ∧
    s.timePeriod ≠ 0 ∧
    s.tre.time.holdover = none ∧
    s.tre.time.last + 10 * s.timePeriod ≤ s.dev.chrono ∧
    u = { s with tre := { s.tre with time := { s.tre.time with holdover := some s.dev.chrono } } } :=
  ⟨15, withReg pgRte 0x054 1 (withTime { timeA with last := 5000000000 - 10000 } (withPort 15 portUp wide)), _, by decide +kernel, by decide +kernel, by decide +kernel, by decide +kernel, rfl⟩

/-- A step that is to be replayed keeps the device from starting one. -/
theorem witness_Steps_3 : ∃ (s : State) (u : State) (v : State) (w : State),
    s.live = true ∧
    s.dev.running = true ∧
    s.atTick = true ∧
    u = s.applyMrd ∧
    (u.page pgClk).pending = false ∧
    v = u.shedUpdate ∧
    w = (if v.mrd.steps.isEmpty then v.tickCommit else v).markLong ∧
    w.mrd.mode = 1 ∧
    w.stepTick = true ∧
    (w.propose.mayStart = false ∨ w.propose.mrd.abandoned ≠ []) :=
  ⟨withReg pgMrd 0x048 0x46000000 { up with mrd := { resetMrd with configured := true, mode := 1, abandoned := [stepA] } }, _, _, _, by decide +kernel, by decide +kernel, by decide +kernel, rfl, by decide +kernel, rfl, rfl, by decide +kernel⟩

/-- Its check finds nothing wrong. -/
theorem witness_HbmCare_9 : ∃ (stack : Nat) (pos : Nat) (flips : List Flip) (ue : Bool) (d : List Byte) (c : List Byte) (s : State) (u : State),
    stack < 12 ∧
    s.regN (pgHbm stack) 0x04C % 65536 ≠ 0 ∧
    (s.stack stack).st = .run ∧
    pos = s.regN (pgHbm stack) 0x068 ∧
    u = ((if pos = 0 then (s.setReg (pgHbm stack) 0x068 ((pos + 1) % stackUnits)).updStack stack fun x => { x with rows := [] }
      else s.setReg (pgHbm stack) 0x068 ((pos + 1) % stackUnits)).disturbHbm flips).markDie
        (if ue then [unitNum stack (64 * pos)] else []) ∧
    u.metUnit stack (64 * pos) flips = (d, c) ∧
    stsPoison c = false ∧
    u.dieBad stack (64 * pos) = true ∧
    u.keeperUnit (u.unitAddr stack (64 * pos)) = none :=
  ⟨0, _, [], true, _, _, { up with hbm := hbmUp }, _, by decide +kernel, by decide +kernel, by decide +kernel, rfl, rfl, Prod.mk.eta.symm, by decide +kernel⟩

theorem witness_SliceMessages_1 : ∃ (step : Word) (l : Nat) (s : State) (u : State),
    s.takesPart = true ∧
    u = s.hear l ∧
    u.isLead = true ∧
    u.slc.applied < step.toNat :=
  ⟨1, 2, member 0 0 resetSlice up, _, by decide +kernel, rfl, by decide +kernel⟩

theorem witness_SliceMessages_2 : ∃ (step : Word) (l : Nat) (s : State) (u : State),
    s.takesPart = true ∧
    u = s.hear l ∧
    u.isLead = true ∧
    u.slc.applied < step.toNat :=
  ⟨1, 2, member 0 0 resetSlice up, _, by decide +kernel, rfl, by decide +kernel⟩

theorem witness_SliceMessages_3 : ∃ (step : Word) (l : Nat) (body : CommitBody) (s : State) (u : State) (v : State),
    s.takesPart = true ∧
    u = s.heed l ∧
    u.isLead = false ∧
    u.slc.applied < step.toNat ∧
    v = u.applyCommit step.toNat body :=
  ⟨1, 0, noBody, member 1 0 resetSlice up, _, _, by decide +kernel, rfl, by decide +kernel, by decide +kernel, rfl⟩

theorem witness_SliceMessages_4 : ∃ (step : Word) (l : Nat) (k : Nat) (rest : List Nat) (s : State) (v : State) (u : State),
    s.takesPart = true ∧
    v = s.hear l ∧
    v.isLead = false ∧
    u = { v with slc := { v.slc with own := [] } } ∧
    ((u.mrd.steps.map (·.num)).filter fun k => decide (step.toNat ≤ k)) = k :: rest :=
  ⟨7, 0, 7, [], member 1 0 resetSlice (withSteps [stepA] [] up), _, _, by decide +kernel, rfl, by decide +kernel, rfl, by decide +kernel⟩

theorem witness_SliceMessages_5 : ∃ (step : Word) (l : Nat) (r : SRound) (s : State) (u : State),
    s.takesPart = true ∧
    u = s.hear l ∧
    u.isLead = true ∧
    u.round? step.toNat = some r ∧
    r.phase = 2 :=
  ⟨7, 2, round 7 2, member 0 0 { resetSlice with rounds := [round 7 2] } up, _, by decide +kernel, rfl, by decide +kernel⟩

theorem witness_SliceMessages_6 : ∃ (l : Nat) (s : State) (u : State) (v : State),
    s.takesPart = true ∧
    u = s.hear l ∧
    v = s.heed l :=
  ⟨2, member 1 0 resetSlice up, _, _, by decide +kernel, rfl, rfl⟩

theorem witness_SliceMessages_7 : ∃ (l : Nat) (s : State) (u : State),
    s.takesPart = true ∧
    u = s.hear l ∧
    u.slc.takeover = false :=
  ⟨2, member 1 0 resetSlice up, _, by decide +kernel, rfl, by decide +kernel⟩

theorem witness_SliceTimers_1 : ∃ (step : Word) (x : StepRec) (s : State),
    s.takesPart = true ∧
    s.slc.applied < step.toNat ∧
    s.slc.rounds.any (fun r => r.step == step.toNat && r.phase != 0) = false ∧
    s.isLead = false ∧
    s.step? step.toNat = some x ∧
    s.stepReady x = true ∧
    s.ownEvent = none :=
  ⟨7, stepA, member 1 0 resetSlice (withSteps [stepA] [] up), by decide +kernel⟩

theorem witness_SliceTimers_2 : ∃ (step : Word) (x : StepRec) (s : State),
    s.takesPart = true ∧
    s.slc.applied < step.toNat ∧
    s.slc.rounds.any (fun r => r.step == step.toNat && r.phase != 0) = false ∧
    s.isLead = true ∧
    s.step? step.toNat = some x ∧
    s.stepReady x = true :=
  ⟨7, stepA, member 0 0 resetSlice (withSteps [stepA] [] up), by decide +kernel⟩

theorem witness_SliceTimers_3 : ∃ (step : Word) (e : ShareEvent) (past : List Forbid) (s : State) (u : State),
    s.takesPart = true ∧
    s.slc.applied < step.toNat ∧
    s.slc.rounds.any (fun r => r.step == step.toNat && r.phase != 0) = false ∧
    s.isLead = false ∧
    past = sget listDflt s.slc.past step.toNat ∧
    shareNarrows e past = false ∧
    u = { s with slc := { s.slc with own := [], past := sset listDflt s.slc.past step.toNat (past ++ [forbidOf e]) } } :=
  ⟨7, ⟨0, 5, 1, []⟩, _, member 1 0 resetSlice (withSteps [stepA] [] up), _, by decide +kernel, by decide +kernel, by decide +kernel, by decide +kernel, rfl, by decide +kernel, rfl⟩

theorem witness_SliceTimers_4 : ∃ (s : State),
    s.takesPart = true ∧
    s.isLead = true ∧
    s.slc.rounds = [] ∧
    s.sliceTime ≠ 0 ∧
    s.slc.beatAt + s.sliceTime / 2 ≤ s.dev.chrono :=
  ⟨member 0 0 resetSlice up, by decide +kernel⟩

theorem witness_SliceTimers_5 : ∃ (step : Word) (r : SRound) (l : Nat) (s : State),
    s.takesPart = true ∧
    s.isLead = true ∧
    s.sliceTime ≠ 0 ∧
    s.round? step.toNat = some r ∧
    (s.peersUp.find? fun l => !(r.ready.any fun x => x.1 == l)) = some l ∧
    r.phase = 0 ∧
    r.body.hasStep = true ∧
    r.own.isSome = true ∧
    r.since + s.sliceTime ≤ s.dev.chrono :=
  ⟨7, round 7 0, 1, member 0 0 { resetSlice with rounds := [round 7 0] } up, by decide +kernel⟩

/-- Silent for exactly three times the limit. -/
theorem witness_SliceTimers_6 : ∃ (l : Nat) (s : State),
    s.takesPart = true ∧
    s.isLead = true ∧
    s.members.contains l = true ∧
    s.slc.lost.contains l = false ∧
    s.silent l = true :=
  ⟨2, member 0 0 { resetSlice with seen := [(2, 5000000000 - 300000)] } up, by decide +kernel⟩

theorem witness_SliceTimers_7 : ∃ (s : State),
    s.takesPart = true ∧
    s.isLead = false ∧
    s.deputy = some s.myLogical ∧
    s.silent s.leadId = true ∧
    s.slc.lost.contains s.leadId = false ∧
    s.slc.takeover = true ∧
    ((s.peersUp.filter fun l => l != s.leadId).all fun l => (sfind s.slc.status l).isSome) = true :=
  ⟨member 1 0 { resetSlice with takeover := true, status := [(2, 5)] } up, by decide +kernel⟩

theorem witness_SliceTimers_8 : ∃ (s : State),
    s.takesPart = true ∧
    s.isLead = false ∧
    s.deputy = some s.myLogical ∧
    s.silent s.leadId = true ∧
    s.slc.lost.contains s.leadId = false ∧
    s.slc.takeover = false ∧
    (s.peersUp.filter fun l => l != s.leadId) ≠ [] :=
  ⟨member 1 0 resetSlice up, by decide +kernel⟩

theorem witness_SliceTimers_9 : ∃ (l : Nat) (d : Nat) (s : State),
    s.takesPart = true ∧
    s.isLead = false ∧
    s.members.contains l = true ∧
    s.slc.lost.contains l = false ∧
    s.silent l = true ∧
    s.deputy = some d ∧
    d ≠ s.myLogical ∧
    (l = d ∨ l = s.leadId) ∧
    s.silent d = true ∧
    s.silent s.leadId = true ∧
    s.slc.lost.contains s.leadId = false :=
  ⟨0, 1, member 2 0 resetSlice up, by decide +kernel⟩

theorem witness_HostFunction_1 : ∃ (s : State),
    s.Inv ∧
    s.dev.running = true :=
  ⟨up, inv_of_ok (by decide +kernel), by decide +kernel⟩

theorem witness_HostFunction_2 : ∃ (s : State),
    s.Inv ∧
    s.host.linkUp = true :=
  ⟨up, inv_of_ok (by decide +kernel), by decide +kernel⟩

theorem witness_HostFunction_3 : ∃ (s : State),
    s.host.linkUp = true :=
  ⟨up, by decide +kernel⟩

theorem witness_HostFunction_4 : ∃ (s : State),
    s.dev.running = true ∧
    s.host.linkUp = true ∧
    s.host.funcMask = false ∧
    (∀ o ∈ s.host.held, ∀ v, o ≠ Out.msix v) :=
  ⟨{ up with host := { up.host with held := [.hostWrite 5 [1]] } }, by decide +kernel, by decide +kernel, by decide +kernel, by simp⟩

theorem witness_HostFunction_5 : ∃ (s : State),
    s.dev.running = true :=
  ⟨up, by decide +kernel⟩

theorem witness_HostFunction_6 : ∃ (v : Nat),
    v < 2048 :=
  ⟨2047, by decide +kernel⟩

theorem witness_HostFunction_7 : ∃ (s : State),
    s.host.msixPend = [] :=
  ⟨up, by decide +kernel⟩

theorem witness_Management_1 : ∃ (s : State),
    s.dev.keeper = true ∧
    (s.evtOn = false ∨ (s.ev.batch = [] ∧ s.ev.overflow = 0)) :=
  ⟨up, by decide +kernel⟩

theorem witness_Management_2 : ∃ (s : State),
    s.dev.keeper = true ∧
    s.evtOn = true ∧
    (s.ev.batch ≠ [] ∨ s.ev.overflow ≠ 0) :=
  ⟨withReg pgPci 0x048 (2 ^ 31) { up with ev := { up.ev with overflow := 1 } }, by decide +kernel⟩

theorem witness_Management_3 : ∃ (page : Nat) (off : Nat) (v : Nat) (s : State) (u : State),
    s.dev.keeper = true ∧
    bmcMalformed page off = false ∧
    s.read4 .bmc page off = (v, u) :=
  ⟨32758, 0xFFC, _, up, _, by decide +kernel, by decide +kernel, Prod.mk.eta.symm⟩

theorem witness_Management_4 : ∃ (page : Nat) (off : Nat) (r : Nat) (val : Word) (s : State) (u : State),
    s.dev.keeper = true ∧
    bmcMalformed page off = false ∧
    s.write4 .bmc page off val.toNat = (r, u) :=
  ⟨32758, 0xFFC, _, 1, up, _, by decide +kernel, by decide +kernel, Prod.mk.eta.symm⟩

theorem witness_Management_5 : ∃ (s : State),
    s.dev.st ≠ .off :=
  ⟨State.reset, by decide +kernel⟩

theorem witness_Management_6 : ∃ (s : State),
    s.dev.st ≠ .off ∧
    s.dev.keeper = true :=
  ⟨up, by decide +kernel⟩

theorem witness_Management_7 : ∃ (s : State),
    s.dev.st ≠ .off :=
  ⟨State.reset, by decide +kernel⟩

theorem witness_Attestation_1 : ∃ (ofs : Nat) (len : Nat) (d : List Byte) (s : State),
    s.dev.keeper = true ∧
    s.nv.attests = true ∧
    d = ((Config.certChain 0).drop ofs).take len :=
  ⟨0, 4, _, up, by decide +kernel, by decide +kernel, rfl⟩

theorem witness_Attestation_2 : ∃ (nonce : BitVec 256) (r : List Byte) (x : List Byte) (s : State) (u : State),
    s.dev.keeper = true ∧
    s.nv.attests = true ∧
    s.respNonce = (r, u) ∧
    x = leBytes 32 nonce.toNat ++ hashBytes (Config.sha384 (Config.certChain 0)) ++ r :=
  ⟨0, _, _, up, _, by decide +kernel, by decide +kernel, Prod.mk.eta.symm, rfl⟩

theorem witness_Attestation_3 : ∃ (index : Nat) (s : State),
    s.dev.keeper = true ∧
    s.nv.attests = true ∧
    index ≤ 10 :=
  ⟨10, up, by decide +kernel⟩

theorem witness_Attestation_4 : ∃ (index : Nat) (nonce : BitVec 256) (b : List Byte) (r : List Byte) (x : List Byte) (s : State) (u : State),
    s.dev.keeper = true ∧
    s.nv.attests = true ∧
    index ≤ 10 ∧
    b = leBytes 1 10 ++ s.measBlocks index ∧
    s.respNonce = (r, u) ∧
    x = leBytes 32 nonce.toNat ++ r ++ b :=
  ⟨10, 0, _, _, _, up, _, by decide +kernel, by decide +kernel, by decide +kernel, rfl, Prod.mk.eta.symm, rfl⟩

theorem witness_Attestation_5 : ∃ (s : State),
    s.dev.keeper = true ∧
    s.nv.attests = true :=
  ⟨up, by decide +kernel⟩

theorem witness_Attestation_6 : ∃ (s : State),
    s.dev.keeper = true ∧
    s.nv.attests = true :=
  ⟨up, by decide +kernel⟩

theorem witness_FirmwareDevice_1 : ∃ (s : State),
    s.dev.keeper = true ∧
    s.nv.update = none ∧
    s.mgmt.upd = 0 :=
  ⟨up, by decide +kernel⟩

theorem witness_FirmwareDevice_2 : ∃ (s : State),
    s.dev.keeper = true ∧
    s.mgmt.upd = 1 :=
  ⟨withMgmt { resetMgmt with upd := 1, comps := [6], comp := 6, size := 1, pkg := [1] } up, by decide +kernel⟩

theorem witness_FirmwareDevice_3 : ∃ (comp : Nat) (s : State),
    s.dev.keeper = true ∧
    s.mgmt.upd = 2 ∧
    comp ∈ s.mgmt.comps :=
  ⟨6, withMgmt { resetMgmt with upd := 2, comps := [6], comp := 6, size := 1, pkg := [1] } up, by decide +kernel⟩

theorem witness_FirmwareDevice_4 : ∃ (data : List Byte) (s : State),
    s.dev.keeper = true ∧
    s.mgmt.upd = 3 ∧
    s.mgmt.pkg.length + data.length ≤ s.mgmt.size :=
  ⟨[1], withMgmt { resetMgmt with upd := 3, comps := [6], comp := 6, size := 1, pkg := [] } up, by decide +kernel⟩

theorem witness_FirmwareDevice_5 : ∃ (s : State),
    s.dev.keeper = true ∧
    s.mgmt.upd = 3 ∧
    s.mgmt.pkg.length = s.mgmt.size :=
  ⟨withMgmt { resetMgmt with upd := 3, comps := [6], comp := 6, size := 1, pkg := [9] } up, by decide +kernel⟩

theorem witness_FirmwareDevice_7 : ∃ (s : State),
    s.dev.keeper = true ∧
    s.mgmt.upd = 5 ∧
    s.nv.update = none :=
  ⟨withMgmt { resetMgmt with upd := 5, comps := [6], comp := 6, size := 1, pkg := [1] } up, by decide +kernel⟩

theorem witness_FirmwareDevice_8 : ∃ (s : State),
    s.dev.keeper = true ∧
    s.mgmt.upd = 2 :=
  ⟨withMgmt { resetMgmt with upd := 2, comps := [6], comp := 6, size := 1, pkg := [1] } up, by decide +kernel⟩

theorem witness_FirmwareDevice_9 : ∃ (s : State),
    s.dev.keeper = true :=
  ⟨up, by decide +kernel⟩

theorem witness_FirmwareDevice_10 : ∃ (s : State),
    s.dev.keeper = true ∧
    s.mgmt.upd ≠ 0 :=
  ⟨withMgmt { resetMgmt with upd := 6, comps := [6], comp := 6, size := 1, pkg := [1] } up, by decide +kernel⟩

/-- The same event of stream 3 as in the run before. -/
theorem witness_SliceTimers_10 : ∃ (step : Word) (e : ShareEvent) (x : StepRec) (past : List Forbid) (s : State) (u : State),
    s.takesPart = true ∧
    s.slc.applied < step.toNat ∧
    s.slc.rounds.any (fun r => r.step == step.toNat && r.phase != 0) = false ∧
    s.isLead = false ∧
    past = sget listDflt s.slc.past step.toNat ∧
    shareNarrows e past = true ∧
    s.step? step.toNat = some x ∧
    u = { s with slc := { s.slc with own := [], past := sset listDflt s.slc.past step.toNat (past ++ [forbidOf e]) } } :=
  ⟨7, ⟨0, 0x0102, 1, [3]⟩, stepA, _, member 1 0 { resetSlice with past := [(7, [forbidOf ⟨0, 0x0102, 1, [3]⟩])] } (withSteps [stepA] [] up), _, by decide +kernel, by decide +kernel, by decide +kernel, by decide +kernel, rfl, by decide +kernel, by decide +kernel, rfl⟩

theorem witness_SliceTimers_11 : ∃ (step : Word) (e : ShareEvent) (x : StepRec) (s : State),
    s.takesPart = true ∧
    s.slc.applied < step.toNat ∧
    s.slc.rounds.any (fun r => r.step == step.toNat && r.phase != 0) = false ∧
    s.isLead = true ∧
    s.step? step.toNat = some x ∧
    shareNarrows e x.past.flatten = false :=
  ⟨7, ⟨0, 0x0102, 1, [3]⟩, stepA, member 0 0 resetSlice (withSteps [stepA] [] up), by decide +kernel⟩

theorem witness_ClockChanges_1 : ∃ (s : State),
    s.dev.running = true ∧
    s.live = true :=
  ⟨up, by decide +kernel⟩

theorem witness_ClockChanges_2 : ∃ (comb : Nat) (code : Nat) (src : Nat) (s : State) (u : State),
    comb < 24 ∧
    (s.comb comb).localCh = some (code, src) ∧
    u = s.updComb comb (fun x => { x with localCh := none }) :=
  ⟨0, 60, 3, { up with combs := [(0, { combRun with localCh := some (60, 3) }), (1, combRun)] }, _, by decide +kernel, by decide +kernel, rfl⟩

/-- The instant of the change itself. -/
theorem witness_ClockChanges_3 : ∃ (ch : SyncChange) (s : State) (u : State) (v : State),
    s.clk.sync = some ch ∧
    ch.fell = false ∧
    ch.at_ ≤ s.dev.chrono ∧
    u = s.makeMoves (s.movesOf ch false) ∧
    v = u.parkAll (((s.movesOf ch false).filter fun m => (u.comb m.1).parking && (u.comb m.1).nom == m.2.1).map (·.1)) :=
  ⟨⟨5000000000, [(0, 60, 3)], false, [], false⟩, { up with clk := { resetClk with sync := some ⟨5000000000, [(0, 60, 3)], false, [], false⟩ } }, _, _, by decide +kernel, by decide +kernel, by decide +kernel, rfl, rfl⟩

/-- 2,048 ns after it. -/
theorem witness_ClockChanges_4 : ∃ (ch : SyncChange) (s : State),
    s.clk.sync = some ch ∧
    ch.fell = true ∧
    ch.at_ + 2048 ≤ s.dev.chrono :=
  ⟨⟨4999997952, [(0, 70, 3)], true, [], false⟩, { up with clk := { resetClk with sync := some ⟨4999997952, [(0, 70, 3)], true, [], false⟩ } }, by decide +kernel⟩

theorem witness_ClockChanges_5 : ∃ (comb : Nat) (code : Nat) (src : Nat) (s : State) (u : State),
    comb < 24 ∧
    (s.comb comb).localCh = some (code, src) ∧
    u = s.updComb comb (fun x => { x with localCh := none }) :=
  ⟨0, 60, 3, { up with combs := [(0, { combRun with localCh := some (60, 3) }), (1, combRun)] }, _, by decide +kernel, by decide +kernel, rfl⟩

theorem witness_ClockChanges_6 : ∃ (comb : Nat) (ch : SyncChange) (m : Nat × Nat × Nat) (s : State),
    comb < 24 ∧
    (s.comb comb).localCh = none ∧
    s.clk.sync = some ch ∧
    (ch.moves.find? fun m => m.1 == comb) = some m ∧
    ch.failed.contains comb = false :=
  ⟨0, ⟨5000000000, [(0, 60, 3)], false, [], false⟩, (0, 60, 3), { up with clk := { resetClk with sync := some ⟨5000000000, [(0, 60, 3)], false, [], false⟩ } }, by decide +kernel⟩

theorem witness_ClockChanges_7 : ∃ (s : State),
    s.dev.running = true :=
  ⟨up, by decide +kernel⟩

theorem witness_ClockChanges_8 : ∃ (s : State),
    s.clk.brake = true ∧
    s.dev.keeper = true :=
  ⟨{ up with clk := { resetClk with brake := true } }, by decide +kernel⟩

/-- A code equal to WARN. -/
theorem witness_Margins_1 : ∃ (comb : Nat) (codes : List Nat) (s : State),
    s.Inv ∧
    comb < 24 ∧
    s.combOff comb = false ∧
    (∃ x ∈ codes, x ≤ s.warn comb) :=
  ⟨1, [63, up.warn 1], up, inv_of_ok (by decide +kernel), by decide +kernel, by decide +kernel, ⟨up.warn 1, by decide +kernel⟩⟩

theorem witness_Margins_2 : ∃ (comb : Nat) (codes : List Nat) (s : State),
    s.Inv ∧
    comb < 24 ∧
    (s.comb comb).stretching = true ∧
    (∀ x ∈ codes, s.warn comb < x) :=
  ⟨1, [up.warn 1 + 1], { up with combs := [(0, combRun), (1, { combRun with stretching := true })] }, inv_of_ok (by decide +kernel), by decide +kernel⟩

theorem witness_Margins_3 : ∃ (comb : Nat) (s : State),
    comb < 24 ∧
    s.combOff comb = false ∧
    s.minded comb = true :=
  ⟨1, up, by decide +kernel⟩

theorem witness_Margins_4 : ∃ (comb : Nat) (codes : List Nat) (x : Nat) (s : State),
    comb < 24 ∧
    s.combOff comb = false ∧
    x ∈ codes ∧
    x ≤ s.warn comb :=
  ⟨1, [63, up.warn 1], up.warn 1, up, by decide +kernel⟩

theorem witness_Margins_5 : ∃ (comb : Nat) (codes : List Nat) (s : State) (u : State),
    comb < 24 ∧
    (s.comb comb).stretching = true ∧
    (∀ x ∈ codes, s.warn comb < x) ∧
    u = (s.setMargins comb codes).updComb comb (fun x => { x with stretching := false }) :=
  ⟨1, [up.warn 1 + 1], { up with combs := [(0, combRun), (1, { combRun with stretching := true })] }, _, by decide +kernel, by decide +kernel, by decide +kernel, rfl⟩

/-- The last step of VTRIM, just below the cap. -/
theorem witness_Margins_6 : ∃ (comb : Nat) (m : Nat) (w : Nat) (s : State) (u : State),
    comb < 24 ∧
    s.combOff comb = false ∧
    s.minded comb = true ∧
    u = (s.minderActs (comb / 4)).updComb comb (fun x => { x with marginMin := m % 64 }) ∧
    (u.comb comb).vtrim < 12 ∧
    w < 125 :=
  ⟨1, 0, 124, { up with combs := [(0, combRun), (1, { combRun with vtrim := 11 })] }, _, by decide +kernel, by decide +kernel, by decide +kernel, rfl, by decide +kernel⟩

theorem witness_Margins_7 : ∃ (comb : Nat) (m : Nat) (s : State) (u : State),
    comb < 24 ∧
    s.combOff comb = false ∧
    s.minded comb = true ∧
    u = (s.minderActs (comb / 4)).updComb comb (fun x => { x with marginMin := m % 64 }) ∧
    m < u.relax comb :=
  ⟨1, up.relax 1 - 1, up, _, by decide +kernel, by decide +kernel, by decide +kernel, rfl, by decide +kernel⟩

theorem witness_Margins_8 : ∃ (comb : Nat) (m : Nat) (s : State) (u : State),
    comb < 24 ∧
    s.combOff comb = false ∧
    s.minded comb = true ∧
    u = (s.minderActs (comb / 4)).updComb comb (fun x => { x with marginMin := m % 64 }) ∧
    u.relax comb ≤ m ∧
    (u.comb comb).calm + 1 ≠ 10000 :=
  ⟨1, up.relax 1, up, _, by decide +kernel, by decide +kernel, by decide +kernel, rfl, by decide +kernel⟩

theorem witness_Margins_9 : ∃ (comb : Nat) (m : Nat) (w : Nat) (s : State) (u : State) (v : State),
    comb < 24 ∧
    s.combOff comb = false ∧
    s.minded comb = true ∧
    u = (s.minderActs (comb / 4)).updComb comb (fun x => { x with marginMin := m % 64 }) ∧
    (12 ≤ (u.comb comb).vtrim ∨ 125 ≤ w) ∧
    v = u.updComb comb (fun x => { x with calm := 0 }) :=
  ⟨1, 0, 125, up, _, _, by decide +kernel, by decide +kernel, by decide +kernel, rfl, by decide +kernel, rfl⟩

theorem witness_Margins_10 : ∃ (comb : Nat) (m : Nat) (s : State) (u : State) (v : State),
    comb < 24 ∧
    s.combOff comb = false ∧
    s.minded comb = true ∧
    u = (s.minderActs (comb / 4)).updComb comb (fun x => { x with marginMin := m % 64 }) ∧
    u.relax comb ≤ m ∧
    (u.comb comb).calm + 1 = 10000 ∧
    v = u.updComb comb (fun x => { x with calm := 0, shortfall := 0 }) :=
  ⟨1, up.relax 1, { up with combs := [(0, combRun), (1, { combRun with calm := 9999 })] }, _, _, by decide +kernel, by decide +kernel, by decide +kernel, rfl, by decide +kernel, by decide +kernel, rfl⟩

theorem witness_Thermal_1 : ∃ (comb : Nat) (sensors : List Nat) (s : State) (u : State) (v : State),
    comb < 24 ∧
    s.combOff comb = false ∧
    s.minded comb = true ∧
    u = s.setSensors comb sensors ∧
    105 ≤ (u.comb comb).temp ∧
    1 ≤ (u.comb comb).hot ∧
    s.Inv ∧
    v = u.updComb comb (fun x => { x with hot := x.hot + 1, cool := 0 }) ∧
    (v.parkComb comb 1).mayUnpark comb = false :=
  ⟨1, [105], { up with combs := [(0, combRun), (1, { combRun with hot := 1, st := .parked })] }, _, _, by decide +kernel, by decide +kernel, by decide +kernel, rfl, by decide +kernel, by decide +kernel, inv_of_ok (by decide +kernel), rfl, by decide +kernel⟩

theorem witness_Thermal_2 : ∃ (frame : Nat) (s : State) (u : State),
    frame < 6 ∧
    bit s.dev.minderLost frame = false ∧
    u = s.minderActs frame :=
  ⟨5, up, _, by decide +kernel, by decide +kernel, rfl⟩

theorem witness_Thermal_3 : ∃ (comb : Nat) (sensor : Nat) (temp : Nat) (s : State) (u : State),
    comb < 24 ∧
    sensor < 16 ∧
    115 ≤ temp ∧
    s.dev.tripLatched = false ∧
    u = { s with dev := { s.dev with thermtrip := true, tripLatched := true, tripNew := true, tripLast := w32 (2 ^ 31 + comb * 2 ^ 24 + sensor * 2 ^ 20 + temp % 256) } } :=
  ⟨23, 15, 115, up, _, by decide +kernel, by decide +kernel, by decide +kernel, by decide +kernel, rfl⟩

theorem witness_Thermal_4 : ∃ (comb : Nat) (undervolt : Bool) (s : State) (a : State) (b : State) (c : State) (d : State),
    comb < 24 ∧
    s.combOff comb = false ∧
    a = ((s.flag (pgCmb comb) 0).flag pgPwr 2).setReg pgPwr 0x040
      (putBits (s.regN pgPwr 0x040) comb comb 1) ∧
    b = ((a.log (pgCmb comb) 0x0701 comb (b2n undervolt) 0 s.oldest).abandonAll
      { page := pgCmb comb, code := 0x0701, a0 := comb, a1 := b2n undervolt, a2 := 0, det := comb }).combLost comb ∧
    c = (((List.range 64).foldl (fun s n => s.replaceComb comb n) b).distWrite.queueSwitch true).switchWithout ∧
    d = (List.range ((logicals .m).filter fun l => s.mInService comb l).length).foldl (fun s _ => s.licenceReturn comb) c :=
  ⟨1, true, up, _, _, _, _, by decide +kernel, by decide +kernel, rfl, rfl, rfl, rfl⟩

theorem witness_Thermal_5 : ∃ (comb : Nat) (s : State),
    s.Inv ∧
    comb < 24 ∧
    s.combOff comb = false ∧
    (s.comb comb).sense = false :=
  ⟨1, up, inv_of_ok (by decide +kernel), by decide +kernel⟩

theorem witness_Power_1 : ∃ (r : PowerReading) (p : Nat) (s : State) (a : State) (b : State) (c : State) (d : State),
    s.dev.running = true ∧
    s.dev.chrono % 1000000 = 0 ∧
    (s.page pgPwr).pending = false ∧
    (s.page pgLdg).pending = false ∧
    a = (List.range 56).foldl (fun s n => s.setReg pgPwr (0x100 + 4 * n) (nth 0 r.cur n)) s ∧
    b = (List.range 24).foldl (fun s c => s.updComb c fun x => { x with
      vmeas := nth 0 r.combMv c, railW := nth 0 r.combMv c * nth 0 r.cur c / 100000 }) a ∧
    c = ((b.setReg pgPwr 0x05C (r.vCore % 2 ^ 16 * 2 ^ 16 + r.vAux % 2 ^ 16)).setReg pgPwr 0x060 (r.vStby % 2 ^ 16)).vinRange
      r.vCore r.vAux ∧
    p = inputNj r / 1000000 ∧
    d = (c.setReg pgPwr 0x050 (p % 2 ^ 16)).setReg pgPwr 0x054
      (2 ^ 32 + c.capW - p % 2 ^ 32) :=
  ⟨⟨[], 3300, 1800, 12000, [], [], []⟩, _, up, _, _, _, _, by decide +kernel, by decide +kernel, by decide +kernel, by decide +kernel, rfl, rfl, rfl, rfl, rfl⟩

theorem witness_Power_2 : ∃ (src : Source) (s : State),
    s.writeRes src pgLdg = 0 :=
  ⟨.host, hostPage pgLdg up, by decide +kernel⟩

theorem witness_Minders_1 : ∃ (frame : Nat) (s : State) (u : State) (v : State),
    frame < 6 ∧
    s.live = true ∧
    s.dev.keeper = true ∧
    bit s.dev.minderLost frame = false ∧
    u = ((frameCombs frame).foldl (fun s c => s.updComb c fun x => { x with thermN := s.brakeN }) s).retarget 2 true ∧
    v = { u with dev := { u.dev with minderRestarts := (frame, u.dev.chrono) :: u.dev.minderRestarts, minderDown := putBits u.dev.minderDown frame frame 1 } } :=
  ⟨5, up, _, _, by decide +kernel, by decide +kernel, by decide +kernel, by decide +kernel, rfl, rfl⟩

theorem witness_Minders_2 : ∃ (frame : Nat) (s : State),
    frame < 6 ∧
    s.live = true ∧
    s.dev.keeper = true ∧
    bit s.dev.minderLost frame = false ∧
    bit s.dev.minderDown frame = true :=
  ⟨5, { up with dev := { up.dev with minderDown := 32 } }, by decide +kernel⟩

theorem witness_Minders_3 : ∃ (s : State),
    s.dev.running = true ∧
    s.dev.keeper = true :=
  ⟨up, by decide +kernel⟩

theorem witness_TileCare_1 : ∃ (site : Nat) (s : State),
    site < 2880 ∧
    s.live = true ∧
    s.dev.keeper = true ∧
    s.inRun site = true :=
  ⟨1, up, by decide +kernel⟩

theorem witness_TileCare_2 : ∃ (site : Nat) (s : State),
    site < 2880 ∧
    s.live = true ∧
    s.dev.keeper = true ∧
    (s.tile site).st = .quarantine ∧
    (s.tile site).rotating = false ∧
    s.die.reinst = [] ∧
    s.die.standIns = [] :=
  ⟨2879, { up with die := { up.die with tiles := [(2879, { tileDflt 0 with st := .quarantine })] } }, by decide +kernel⟩

theorem witness_TileCare_3 : ∃ (site : Nat) (l : Nat) (s : State) (u : State),
    site < 2880 ∧
    s.die.reinst.find? (fun x => x.1 == site) = some (site, l) ∧
    s.dev.keeper = true ∧
    s.die.reinstStaged = [] ∧
    (s.page (pgDfm (siteComb site))).pending = false ∧
    s.shadowBusy = false ∧
    s.die.standIns = [] ∧
    u = s.stageRemap (siteComb site) l (remapFor site) ∧
    u.switchQueued = true :=
  ⟨108, 0, { up with die := { up.die with reinst := [(108, 0)] }, prog := { resetProg with cur := none, dq := [.switch ⟨true, 0, false, 0, 0⟩] } }, _, by decide +kernel, by decide +kernel, by decide +kernel, by decide +kernel, by decide +kernel, by decide +kernel, by decide +kernel, rfl, by decide +kernel⟩

theorem witness_TileCare_4 : ∃ (site : Nat) (s : State),
    site < 2880 ∧
    s.live = true ∧
    s.dev.keeper = true ∧
    s.physHole site = false ∧
    s.suspectRouter site = true :=
  ⟨1, { up with rt := [(0, { rtDflt 0 with down := [1, 2, 3, 4] })] }, by decide +kernel⟩

theorem witness_TileCare_5 : ∃ (sites : List Nat) (s : State),
    (sites.all fieldKind) = true ∧
    s.live = true ∧
    s.dev.keeper = true ∧
    s.fieldOn = true ∧
    s.rotating = [] ∧
    (sites.map siteComb).Nodup :=
  ⟨[0, 120], up, by decide +kernel⟩

theorem witness_TileCare_6 : ∃ (site : Nat) (s : State) (u : State),
    fieldKind site = true ∧
    s.live = true ∧
    s.dev.keeper = true ∧
    (s.tile site).st = .quarantine ∧
    (s.tile site).rotating = true ∧
    u = (s.updTile site fun t => { t with rotating := false }).incReg pgBst 0x054 :=
  ⟨48, { up with die := { up.die with tiles := [(48, { tileDflt 0 with st := .quarantine, rotating := true })] } }, _, by decide +kernel, by decide +kernel, by decide +kernel, by decide +kernel, by decide +kernel, rfl⟩

theorem witness_TileCare_7 : ∃ (ctl : Word) (site : Nat) (s : State),
    s.writeRes .keeper pgBst = 0 ∧
    scanSite ctl.toNat = some site ∧
    bit ctl.toNat 31 = true ∧
    ((s.tile site).st = .benched ∨ (s.tile site).st = .quarantine) :=
  ⟨BitVec.ofNat 32 (2 ^ 31 + (siteKind 2879).code * 2 ^ 16 + 23 * 2 ^ 8 + 119), 2879, { up with die := { up.die with tiles := [(2879, { tileDflt 0 with st := .quarantine })] } }, by decide +kernel⟩

theorem witness_Supplies_1 : ∃ (s : State),
    s.dev.st = .off :=
  ⟨{ State.reset with dev := { resetDev with st := .off } }, by decide +kernel⟩

theorem witness_Supplies_2 : ∃ (s : State),
    s.dev.st ≠ .off :=
  ⟨up, by decide +kernel⟩

theorem witness_Supplies_3 : ∃ (s : State),
    s.dev.st ≠ .off ∧
    s.dev.tripLatched = false :=
  ⟨up, by decide +kernel⟩

theorem witness_Supplies_4 : ∃ (s : State),
    s.dev.st ≠ .off :=
  ⟨State.reset, by decide +kernel⟩

/-- 1 mV below the range. -/
theorem witness_Supplies_5 : ∃ (vCore : Nat) (vAux : Nat) (s : State),
    s.dev.running = true ∧
    cutRange vCore vAux = true ∧
    s.dev.tripLatched = false :=
  ⟨1549, 13200, up, by decide +kernel⟩

theorem witness_Supplies_6 : ∃ (s : State),
    s.nv.update = none ∧
    s.dev.keeper = true :=
  ⟨up, by decide +kernel⟩

theorem witness_Supplies_7 : ∃ (bridge : Nat) (wire : Nat) (s : State),
    bridge < 156 ∧
    wire < 544 ∧
    (bridge, wire) ∉ s.nv.badWires :=
  ⟨155, 543, State.reset, by decide +kernel⟩

theorem witness_Supplies_8 : ∃ (env : StartEnv) (s : State) (a : Boot),
    s.dev.st = .standby ∧
    s.dev.tripLatched = false ∧
    s.boot env = a ∧
    a.s.dev.st = .failed :=
  ⟨{ goodEnv with bootFail := [(0, 0, 0), (0, 1, 0)] }, fresh, _, by decide +kernel, by decide +kernel, rfl, by decide +kernel⟩

theorem witness_Supplies_9 : ∃ (env : StartEnv) (s : State) (a : Boot),
    s.dev.st = .standby ∧
    s.dev.tripLatched = false ∧
    s.boot env = a ∧
    a.s.dev.st ≠ .failed :=
  ⟨goodEnv, fresh, _, by decide +kernel, by decide +kernel, rfl, by decide +kernel⟩

theorem witness_MailboxFirmware_1 (h : Unsealed)
    (hv : (rdObj 0x20 pkgA.length).dram ((rdObj 0x20 pkgA.length).mbArg 3 0) ((rdObj 0x20 pkgA.length).mbArg 3 1) = some pkgA ∧ (rdObj 0x20 pkgA.length).nv = openNv)
    : ∃ (src : Source) (mb : Nat) (p : List Byte) (x : PkgCheck) (s : State) (u : State) (v : State),
    MbOpen src mb s ∧
    u = s.mbGo src mb 0x20 ∧
    u.live = true ∧
    u.nv.update = none ∧
    v = u.noteRead (u.mbArg mb 0) (u.mbArg mb 1) none ∧
    v.dram (v.mbArg mb 0) (v.mbArg mb 1) = some p ∧
    v.nv.checkPkg p = x ∧
    x.code = 0 :=
  ⟨.host, 3, pkgA, _, owned .host pkgA.length, _, (rdObj 0x20 pkgA.length), by unfold MbOpen; decide +kernel, rfl, by decide +kernel, by decide +kernel, rfl, hv.1, rfl, by rw [hv.2]; exact pkg_ok h⟩

theorem witness_MailboxFirmware_4 (h : Unsealed)
    (hv : (rdObj 0x30 licA.length).dram ((rdObj 0x30 licA.length).mbArg 3 0) ((rdObj 0x30 licA.length).mbArg 3 1) = some licA ∧ (rdObj 0x30 licA.length).nv = openNv)
    : ∃ (src : Source) (mb : Nat) (o : List Byte) (s : State) (u : State) (v : State),
    MbOpen src mb s ∧
    u = s.mbGo src mb 0x30 ∧
    u.live = true ∧
    u.nv.update = none ∧
    v = u.noteRead (u.mbArg mb 0) (u.mbArg mb 1) none ∧
    v.dram (v.mbArg mb 0) (v.mbArg mb 1) = some o ∧
    v.nv.licFault o = 0 :=
  ⟨.host, 3, licA, owned .host licA.length, _, (rdObj 0x30 licA.length), by unfold MbOpen; decide +kernel, rfl, by decide +kernel, by decide +kernel, rfl, hv.1, by rw [hv.2]; exact lic_ok h⟩

theorem witness_MailboxFirmware_6 (h : Unsealed)
    (hv : rdTok.dram (rdTok.mbArg 3 0) (64 + sigLen) = some tokA ∧ rdTok.nv = openNv ∧ rdTok.nonce = 0)
    : ∃ (src : Source) (mb : Nat) (o : List Byte) (s : State) (u : State) (v : State) (w : State),
    MbOpen src mb s ∧
    u = s.mbGo src mb 0x40 ∧
    u.live = true ∧
    u.nv.update = none ∧
    v = u.noteRead (u.mbArg mb 0) (64 + sigLen) none ∧
    v.dram (v.mbArg mb 0) (64 + sigLen) = some o ∧
    v.tokenOk o = true ∧
    v.nv.vendorOk o = true ∧
    v.nv.mayMove (leAt o 4 1) = true ∧
    v.ownerAuth src (leAt o 4 1) (v.mbArg mb 1) = 0 ∧
    w = v.readAuth (v.mbArg mb 1) :=
  ⟨.bmc, 3, tokA, owned .bmc 0, _, rdTok, _, by unfold MbOpen; decide +kernel, rfl, by decide +kernel, by decide +kernel, rfl, hv.1, (tok_ok h hv.2.2).1, by rw [hv.2.1]; exact (tok_ok h hv.2.2).2, by rw [hv.2.1]; decide +kernel, by simp only [State.ownerAuth, hv.2.1]; decide +kernel, rfl⟩

theorem witness_FirmwareDevice_6 (h : Unsealed) : ∃ (s : State),
    s.dev.keeper = true ∧
    s.mgmt.upd = 4 ∧
    s.nv.update = none ∧
    (s.nv.checkPkg s.mgmt.pkg).code = 0 ∧
    leAt s.mgmt.pkg 6 1 = s.mgmt.comp :=
  ⟨withMgmt { resetMgmt with upd := 4, comps := [1], comp := 1, size := pkgA.length, pkg := pkgA } openDev, by decide +kernel, by decide +kernel, by decide +kernel, pkg_ok h, by decide +kernel⟩

theorem witness_MailboxFirmware_7 (h : Unsealed)
    (hv : rdOwn.dram (rdOwn.mbArg 3 1) (64 + sigLen) = some ownA ∧ rdOwn.nv = keyNv ∧ rdOwn.nonce = 0)
    : ∃ (src : Source) (mb : Nat) (k : List Byte) (o : List Byte) (s : State) (u : State) (v : State) (w : State),
    MbOpen src mb s ∧
    u = s.mbGo src mb 0x31 ∧
    u.nv.life = 2 ∧
    v = u.noteRead (u.mbArg mb 0) 432 none ∧
    v.nv.owner ≠ none ∧
    v.dram (v.mbArg mb 0) 432 = some k ∧
    v.mbArg mb 1 ≠ 0 ∧
    w = v.noteRead (v.mbArg mb 1) (64 + sigLen) none ∧
    w.dram (w.mbArg mb 1) (64 + sigLen) = some o ∧
    w.bodyOk o = true ∧
    w.nv.ownerOk o = true :=
  ⟨.host, 3, List.replicate 432 0, ownA, owning, _, rdKey, rdOwn, by unfold MbOpen; decide +kernel, rfl, by decide +kernel, rfl, by decide +kernel, by decide +kernel, by decide +kernel, rfl, hv.1, (own_ok h hv.2.2).1, by rw [hv.2.1]; exact (own_ok h hv.2.2).2⟩

end Sys2Proof.Tests
end

/-! ### The stores of tiles: a write of a row leaves every byte outside the row (R160) -/

namespace Sys2Proof.Machine

section Stores

variable {α : Type} {d : Nat → α} {m : Sparse α}

/-- Unlike `sfind_serase`, of any list: an erased entry is never one of another key. -/
theorem sfind_serase_other {k n : Nat} (hn : n ≠ k) : sfind (serase m k) n = sfind m n := by
  induction m with
  | nil => rfl
  | cons e t ih =>
    obtain ⟨k', v⟩ := e
    by_cases hk : k = k'
    · subst hk; simp [serase, sfind, hn]
    · by_cases hlt : k < k'
      · simp [serase, hk, hlt]
      · simp [serase, sfind, hk, hlt, ih]

variable [DecidableEq α]

theorem sget_sset_other {k n : Nat} {x : α} (hn : n ≠ k) : sget d (sset d m k x) n = sget d m n := by
  unfold sget sset
  split
  · rw [sfind_serase_other hn]
  · rw [sfind_sput, if_neg hn]

theorem sget_ssetMany_outside {k a : Nat} {l : List α} (ha : a < k ∨ k + l.length ≤ a) :
    sget d (ssetMany d m k l) a = sget d m a := by
  induction l generalizing m k with
  | nil => rfl
  | cons x xs ih =>
    rw [List.length_cons] at ha
    rw [ssetMany, ih (by omega), sget_sset_other (by omega)]

end Stores

theorem length_leBytes (n v : Nat) : (leBytes n v).length = n := by
  induction n generalizing v with
  | zero => rfl
  | succ n ih => rw [leBytes, List.length_cons, ih]

theorem sget_putWord_outside {d : Nat → Byte} {m : Sparse Byte} {k a : Nat} {w : RowWord} (ha : a < k ∨ k + 9 ≤ a) :
    sget d (putWord d m k w) a = sget d m a :=
  sget_ssetMany_outside (by simpa [length_leBytes] using ha)

/-- The sixteen words of a row lie between its first byte and the first byte of the next row. -/
theorem wordKey_in_row {rows site row w : Nat} (hw : w < 16) :
    wordKey rows site row 0 ≤ wordKey rows site row w
      ∧ wordKey rows site row w + 9 ≤ wordKey rows site (row + 1) 0 := by
  unfold wordKey
  omega

theorem sget_putRow_outside {d : Nat → Byte} {rows site row mask a : Nat} {m : Sparse Byte} {ws : List RowWord}
    (ha : a < wordKey rows site row 0 ∨ wordKey rows site (row + 1) 0 ≤ a) :
    sget d (putRow d rows m site row mask ws) a = sget d m a := by
  refine List.foldlRecOn (List.range 16) _ (motive := fun m' => sget d m' a = sget d m a) rfl fun m' hm' w hw => ?_
  obtain ⟨hlo, hhi⟩ := wordKey_in_row (rows := rows) (site := site) (row := row) (List.mem_range.1 hw)
  split
  · rw [sget_putWord_outside (by omega), hm']
  · exact hm'

/-! ### OPS_DMA_WRITE (R149, R160, R161) -/

section DmaWrite

variable {site row : Nat} {data : OpsRow} {src : BitVec 16} {s : State}

theorem exec_opsDmaWrite (hm : isKind .m site = true) (hrow : row < 1536) :
    exec (.opsDmaWrite site row data src) s = .next
      (if s.inRun site then ((s.mAdvance site data.cyc).runM site data.cyc).opsRow site row data.data src.toNat false else s) := by
  have hok : (isKind .m site && decide (row < opsRows)) = true := by
    rw [hm, Bool.true_and]
    exact decide_eq_true hrow
  change execOpsDmaWrite site row data src s = _
  rw [execOpsDmaWrite, onUnit, if_pos hok]
  cases s.inRun site <;> rfl

theorem opsRow_of_operands {bs : List Byte} {sender : Nat} {poison : Bool} (hrow : row < 1280) :
    s.opsRow site row bs sender poison = { s with mem := { s.mem with
      ops := putRow opsDflt opsRows s.mem.ops site row 0xFFFF (rowForm row (fit 0 128 bs) poison) } } := by
  rw [State.opsRow, if_neg (by omega)]

theorem opsRow_of_tallies {bs : List Byte} {sender : Nat} {poison : Bool} (hrow : 1280 ≤ row) :
    s.opsRow site row bs sender poison = s.report site 5 0x0109 sender row 0 := by
  rw [State.opsRow, if_pos hrow, State.opsRange]

end DmaWrite

/-! ### WFILL (R375, R376, R467) -/

/-- The devices of a slice do not change when a transfer starts, so an address stays local or remote. -/
@[simp] theorem State.isLocal_startXfer (s : State) (site ctr kind addr row left a : Nat) :
    (s.startXfer site ctr kind addr row left).isLocal a = s.isLocal a := rfl

section Wfill

variable {site cyc : Nat} {w0 ofs : DWord} {s : State}

theorem exec_wfill_no_rows (hm : isKind .m site = true) (hrun : s.mayRun site = true) (hn : bits w0.toNat 47 32 = 0) :
    exec (.wfill site w0 ofs cyc) s = .next (s.countUp site (bits w0.toNat 2 0)) := by
  change execWfill site w0 ofs cyc s = _
  simp [execWfill, onKind, hm, hrun, hn]

/-- A WFILL of rows runs the tile up to its cycle, starts its transfer and asks this device or another for the rows. -/
theorem exec_wfill_rows {n a : Nat} {u v : State} (hm : isKind .m site = true) (hrun : s.mayRun site = true)
    (hn : n = bits w0.toNat 47 32) (hn0 : n ≠ 0) (hu : u = (s.mAdvance site cyc).runM site cyc)
    (ha : a = u.operand site (bits w0.toNat 55 48) ofs.toNat)
    (hv : v = u.startXfer site (bits w0.toNat 2 0) 2 (a % 2 ^ 40) (bits w0.toNat 31 16) (2 * n)) :
    exec (.wfill site w0 ofs cyc) s = .next
      (if u.isLocal a then
        v.kvRead site
          { id := u.prog.nextXfer, ctr := bits w0.toNat 2 0, kind := 2, addr := a % 2 ^ 40, row := bits w0.toNat 31 16,
            left := 2 * n, step := u.stepAt site, gone := false }
          (a % 2 ^ 40) (2 * n)
      else v.remoteReads site a (128 * n) (xferFlow (bits w0.toNat 2 0))) := by
  change execWfill site w0 ofs cyc s = _
  rw [execWfill, onKind, if_pos hm, hrun, if_neg (by simp)]
  dsimp only
  rw [← hn, if_neg hn0, ← hu, ← ha, State.isLocal_startXfer, ← hv]

end Wfill

/-- Settles O18: each clause is the meaning of its command in the case at hand; the frame of the first is that of `putRow`. -/
theorem operandStore : Obligations.OperandStore := by
  unfold Obligations.OperandStore
  refine ⟨?operands, ?tallies, ?noRows, ?localRows, ?remoteRows, ?notInRun⟩
  case operands =>
    intro site row data src s u hm hrow hrun hu
    refine ⟨{ u with mem := { u.mem with ops := _ } }, ?_, rfl, fun a ha => by simpa only using sget_putRow_outside ha⟩
    rw [exec_opsDmaWrite hm (by omega), if_pos hrun, ← hu, opsRow_of_operands hrow]
  case tallies =>
    intro site row data src s u hm hlo hhi hrun hu
    rw [exec_opsDmaWrite hm hhi, if_pos hrun, ← hu, opsRow_of_tallies hlo]
  case noRows =>
    intro site cyc w0 ofs s hm hrun hn
    exact exec_wfill_no_rows hm hrun hn
  case localRows =>
    intro site cyc w0 ofs a n row x s u hm hrun hn hn0 hrow hu ha hloc hx
    subst hrow hx
    rw [exec_wfill_rows hm hrun hn hn0 hu ha rfl, if_pos hloc]
  case remoteRows =>
    intro site cyc w0 ofs a n row s u hm hrun hn hn0 hrow hu ha hrem
    subst hrow
    rw [exec_wfill_rows hm hrun hn hn0 hu ha rfl, if_neg (by simp [hrem])]
  case notInRun =>
    intro site row data src s hm hrow hstop
    rw [exec_opsDmaWrite hm hrow, if_neg (by simp [hstop])]

end Sys2Proof.Machine

/-! ### Orders at PG_OWNER (R685, R686): what a claim and a release at a page come to, and what they leave as it was -/

namespace Sys2Proof.Machine

variable {s t : State} {p q : Nat} {src : Source}

/-! ### Headers and staged copies -/

theorem Field.same_updPage {f : Field} (hf : f ≠ .pages) (s : State) (p : Nat) (g : PageSt → PageSt) :
    f.same s (s.updPage p g) := by
  cases f with
  | pages => exact absurd rfl hf
  | _ => rfl

theorem Field.same_setStaged {f : Field} (hf : f ≠ .staged) (s : State) (m : Sparse Word) :
    f.same s { s with staged := m } := by
  cases f with
  | staged => exact absurd rfl hf
  | _ => rfl

theorem State.updPage_pages_wf (h : swf pageDflt s.pages = true) (p : Nat) (g : PageSt → PageSt) :
    swf pageDflt (s.updPage p g).pages = true := swf_supd h

theorem State.stagedOf_dropStaged (s : State) (p : Nat) : (s.dropStaged p).stagedOf p = [] := by
  simp [State.stagedOf, State.dropStaged, List.filter_filter]

/-- PG_LAST_ORDER is no part of the ownership. -/
theorem State.own_noteOrder (h : swf pageDflt s.pages = true) (src : Source) (p q res : Nat) :
    ((s.noteOrder src p res).page q).own = (s.page q).own := by
  rw [State.noteOrder, State.page_updPage s h]
  split
  · next hq => rw [hq]
  · rfl

/-- The owner of a page is replaced. -/
def State.setOwn (s : State) (p : Nat) (o : Option Source) : State := s.updPage p fun g => { g with own := o }

theorem State.own_setOwn (h : swf pageDflt s.pages = true) (p : Nat) (o : Option Source) :
    ((s.setOwn p o).page p).own = o := by
  rw [State.setOwn, State.page_updPage s h, if_pos rfl]

/-- A change of owner takes the staged copy away, except one of an accepted commit (log 45). -/
def State.leaveStaged (s : State) (p : Nat) : State := if (s.page p).pending then s else s.dropStaged p

theorem State.stagedOf_leaveStaged (h : (s.page p).pending = false) : (s.leaveStaged p).stagedOf p = [] := by
  rw [State.leaveStaged, h]
  exact s.stagedOf_dropStaged p

/-! ### Moves of one page -/

/-- A move that reaches no part of the state but the listed ones, and of the page headers that of `q` alone. -/
structure PageMove (parts : List Field) (q : Nat) (s t : State) : Prop where
  queue : t.pending = s.pending
  same : ∀ f : Field, f ∉ parts → f.same s t
  wf : swf pageDflt t.pages = true
  only : PagesOnly q s t

section Moves

variable {parts : List Field}

theorem PageMove.refl (h : s.Inv) : PageMove parts q s s := ⟨rfl, fun f _ => f.same_refl s, h.pages, fun _ _ => rfl⟩

theorem PageMove.updPage (h : PageMove parts q s t) (hp : .pages ∈ parts) (g : PageSt → PageSt) :
    PageMove parts q s (t.updPage q g) where
  queue := h.queue
  same f hf := Field.same_trans (h.same f hf) (Field.same_updPage (ne_of_mem_of_not_mem hp hf).symm t q g)
  wf := t.updPage_pages_wf h.wf q g
  only x hx := by rw [State.page_updPage t h.wf, if_neg hx, h.only x hx]

theorem PageMove.noteOrder (h : PageMove parts q s t) (hp : .pages ∈ parts) (src : Source) (res : Nat) :
    PageMove parts q s (t.noteOrder src q res) := h.updPage hp _

theorem PageMove.setStaged (h : PageMove parts q s t) (hs : .staged ∈ parts) (m : Sparse Word) :
    PageMove parts q s { t with staged := m } :=
  ⟨h.queue, fun f hf => Field.same_trans (h.same f hf) (Field.same_setStaged (ne_of_mem_of_not_mem hs hf).symm t m), h.wf, h.only⟩

theorem PageMove.dropStaged (h : PageMove parts q s t) (hs : .staged ∈ parts) (hp : .pages ∈ parts) :
    PageMove parts q s (t.dropStaged q) := (h.setStaged hs _).updPage hp _

theorem PageMove.leaveStaged (h : PageMove parts q s t) (hs : .staged ∈ parts) (hp : .pages ∈ parts) :
    PageMove parts q s (t.leaveStaged q) := by
  rw [State.leaveStaged]
  split
  · exact h
  · exact h.dropStaged hs hp

end Moves

/-! ### Claims and releases at the order point -/

theorem exec_pageClaim (hp : p < 32759) (hq : s.orderPage p = some q) :
    exec (.pageClaim src p) s = .next (s.claimAt src q).2 := by
  change execPageClaim src p s = _
  rw [execPageClaim, onUnit, if_pos (decide_eq_true (by omega)), State.ownerOrder, hq]
  rfl

theorem exec_pageRelease (hp : p < 32759) (hq : s.orderPage p = some q) :
    exec (.pageRelease src p) s = .next (s.releaseAt src q).2 := by
  change execPageRelease src p s = _
  rw [execPageRelease, onUnit, if_pos (decide_eq_true (by omega)), State.ownerOrder, hq]
  rfl

/-- No lock holds the Keeper off (R675). -/
theorem State.keeper_unlocked (s : State) : (s.lock && Source.keeper != .keeper) = false := by simp

/-- The claimant may own the page (R686). -/
def State.mayClaim (s : State) (src : Source) (q : Nat) : Bool :=
  src == .keeper || (!fixedPage q && ((s.page q).own.isNone || (s.page q).own == some src))

theorem State.mayClaim_iff : s.mayClaim src q = true ↔
    src = .keeper ∨ fixedPage q = false ∧ ((s.page q).own = none ∨ (s.page q).own = some src) := by
  simp [State.mayClaim]

theorem State.claimAt_new (hl : (s.lock && src != .keeper) = false) (hm : s.mayClaim src q = true)
    (ho : (s.page q).own ≠ some src) :
    (s.claimAt src q).2 = ((s.leaveStaged q).setOwn q (some src)).noteOrder src q 0 := by
  rw [State.mayClaim] at hm
  simp only [State.claimAt, hl, hm, ho]
  rfl

/-- The owner's claim leaves only the order's record. -/
theorem State.claimAt_owned (hl : (s.lock && src != .keeper) = false) (hm : s.mayClaim src q = true)
    (ho : (s.page q).own = some src) : (s.claimAt src q).2 = s.noteOrder src q 0 := by
  rw [State.mayClaim, ho] at hm
  simp only [State.claimAt, hl, ho, hm, or_true]
  rfl

theorem State.claimAt_refused (hl : (s.lock && src != .keeper) = false) (hm : s.mayClaim src q = false) :
    (s.claimAt src q).2 = s.order src q 0x020 4 := by
  rw [State.mayClaim] at hm
  simp only [State.claimAt, hl, hm]
  rfl

theorem State.ownsOk_of_own (ho : (s.page q).own = some src) : s.ownsOk src q = true := by simp [State.ownsOk, ho]

theorem State.ownsOk_of_other (hn : (s.page q).own ≠ none) (ho : (s.page q).own ≠ some src) : s.ownsOk src q = false := by
  obtain ⟨o, hown⟩ := Option.ne_none_iff_exists'.1 hn
  simpa [State.ownsOk, hown] using ho

theorem State.releaseAt_frees (hl : (s.lock && src != .keeper) = false) (hf : fixedPage q = false)
    (hm : src = .keeper ∨ s.ownsOk src q = true) : (s.releaseAt src q).2 = (s.setOwn q none).noteOrder src q 0 := by
  have hmay : (src == .keeper || s.ownsOk src q) = true := by simpa using hm
  simp only [State.releaseAt, hl, hmay, hf]
  rfl

/-- The Keeper's release of a page that only the Keeper may own. -/
theorem State.releaseAt_fixed (hf : fixedPage q = true) : (s.releaseAt .keeper q).2 = s.noteOrder .keeper q 0 := by
  simp only [State.releaseAt, s.keeper_unlocked, hf]
  rfl

theorem State.releaseAt_refused (hl : (s.lock && src != .keeper) = false) (hk : src ≠ .keeper)
    (ho : s.ownsOk src q = false) : (s.releaseAt src q).2 = s.order src q 0x020 4 := by
  have hmay : (src == .keeper || s.ownsOk src q) = false := by simp [hk, ho]
  simp only [State.releaseAt, hl, hmay]
  rfl

/-! ### Runs of claims and releases -/

/-- A claim that succeeds changes the owner, and takes the staged copy away while no accepted commit holds it. -/
theorem runs_claim_new (h : s.Inv) (hp : p < 32759) (hq : s.orderPage p = some q) (hl : (s.lock && src != .keeper) = false)
    (hm : s.mayClaim src q = true) (ho : (s.page q).own ≠ some src) :
    Runs (.pageClaim src p) s [.staged, .pages] fun t =>
      (t.page q).own = some src ∧ ((s.page q).pending = false → t.stagedOf q = []) ∧ PagesOnly q s t := by
  have hleft : PageMove [.staged, .pages] q s (s.leaveStaged q) := (PageMove.refl h).leaveStaged (by simp) (by simp)
  have htaken : PageMove [.staged, .pages] q s ((s.leaveStaged q).setOwn q (some src)) := hleft.updPage (by simp) _
  have hend := htaken.noteOrder (by simp) src 0
  refine ⟨_, (exec_pageClaim hp hq).trans (congrArg _ (State.claimAt_new hl hm ho)), hend.queue, hend.same, ?_, ?_, hend.only⟩
  · rw [State.own_noteOrder htaken.wf, State.own_setOwn hleft.wf]
  · exact State.stagedOf_leaveStaged

/-- An order that leaves only its record keeps the owner. -/
theorem runs_noteOrder {c : Instr} (h : s.Inv) (hex : exec c s = .next (s.noteOrder src q 0)) :
    Runs c s [.pages] fun t => (t.page q).own = (s.page q).own ∧ PagesOnly q s t := by
  have hend : PageMove [.pages] q s (s.noteOrder src q 0) := (PageMove.refl h).noteOrder (by simp) src 0
  exact ⟨_, hex, hend.queue, hend.same, State.own_noteOrder h.pages src q q 0, hend.only⟩

theorem runs_claim_owned (h : s.Inv) (hp : p < 32759) (hq : s.orderPage p = some q) (hl : (s.lock && src != .keeper) = false)
    (hm : s.mayClaim src q = true) (ho : (s.page q).own = some src) :
    Runs (.pageClaim src p) s [.pages] fun t => (t.page q).own = some src ∧ PagesOnly q s t :=
  ho ▸ runs_noteOrder h ((exec_pageClaim hp hq).trans (congrArg _ (State.claimAt_owned hl hm ho)))

theorem runs_release_frees (h : s.Inv) (hp : p < 32759) (hq : s.orderPage p = some q) (hl : (s.lock && src != .keeper) = false)
    (hf : fixedPage q = false) (hm : src = .keeper ∨ s.ownsOk src q = true) :
    Runs (.pageRelease src p) s [.pages] fun t => (t.page q).own = none ∧ PagesOnly q s t := by
  have hfreed : PageMove [.pages] q s (s.setOwn q none) := (PageMove.refl h).updPage (by simp) _
  have hend := hfreed.noteOrder (by simp) src 0
  refine ⟨_, (exec_pageRelease hp hq).trans (congrArg _ (State.releaseAt_frees hl hf hm)), hend.queue, hend.same, ?_, hend.only⟩
  rw [State.own_noteOrder hfreed.wf, State.own_setOwn h.pages]

theorem runs_release_fixed (h : s.Inv) (hp : p < 32759) (hq : s.orderPage p = some q) (hf : fixedPage q = true) :
    Runs (.pageRelease .keeper p) s [.pages] fun t => (t.page q).own = some .keeper ∧ PagesOnly q s t :=
  h.fixed q hf ▸ runs_noteOrder h ((exec_pageRelease hp hq).trans (congrArg _ (State.releaseAt_fixed hf)))

/-- Settles O12: each clause is one case of the claim or the release at the page; that an OWNER_FIXED page stays the Keeper's rests on the
invariant. -/
theorem pageOwners : Obligations.PageOwners := by
  unfold Obligations.PageOwners
  refine ⟨?unowned, ?keeperTakes, ?owned, ?keeperFrees, ?fixed, ?refused⟩
  case unowned =>
    intro src p q s h hp hq hl hf hn
    exact runs_claim_new h hp hq hl (State.mayClaim_iff.2 (.inr ⟨hf, .inl hn⟩)) (by simp [hn])
  case keeperTakes =>
    intro p q s h hp hq ho
    exact runs_claim_new h hp hq s.keeper_unlocked (State.mayClaim_iff.2 (.inl rfl)) ho
  case owned =>
    intro src p q s h hp hq hl hf ho
    exact ⟨runs_claim_owned h hp hq hl (State.mayClaim_iff.2 (.inr ⟨hf, .inr ho⟩)) ho,
      runs_release_frees h hp hq hl hf (.inr (State.ownsOk_of_own ho))⟩
  case keeperFrees =>
    intro p q s h hp hq hf
    exact runs_release_frees h hp hq s.keeper_unlocked hf (.inl rfl)
  case fixed =>
    intro p q s h hp hq hf
    exact ⟨runs_claim_owned h hp hq s.keeper_unlocked (State.mayClaim_iff.2 (.inl rfl)) (h.fixed q hf),
      runs_release_fixed h hp hq hf⟩
  case refused =>
    intro src p q s hp hq hl hk ho hm
    have hopen : (s.lock && src != .keeper) = false := by rw [hl, Bool.false_and]
    have hno : s.mayClaim src q = false := Bool.eq_false_iff.2 fun hmay => by
      obtain hkeeper | ⟨hf, hn⟩ := State.mayClaim_iff.1 hmay
      · exact hk hkeeper
      · exact hm.elim (by simp [hf]) (by simp [hn.resolve_right ho])
    refine ⟨(exec_pageClaim hp hq).trans (congrArg _ (State.claimAt_refused hopen hno)), fun hn => ?_⟩
    exact (exec_pageRelease hp hq).trans (congrArg _ (State.releaseAt_refused hopen hk (State.ownsOk_of_other hn ho)))

end Sys2Proof.Machine

/-! ### What no command does: the frame of every function of the model

`Within` of the state's parts, carried through every function from the updates of one part up to the commands. Each lemma lists the
parts that its function may change; the proof follows the function's own branches. -/

namespace Sys2Proof.Machine

-- One theorem after the other: side by side, the threads that elaborate these proofs do not fit the memory of the check.
set_option Elab.async false

section

variable {M : Nat} {s0 s t : State}

/-! ### Masks -/

/-- The mask of some parts. -/
def mask (l : List Field) : Nat := l.foldr (fun f m => 2 ^ f.bit ||| m) 0

/-- What losing a step may change, and some more parts. -/
def loss (l : List Field) : List Field := lossParts ++ l

/-- What a Treath packet may change. -/
def packetParts : List Field :=
  loss [.staged, .limits, .limStaged, .pages, .latch, .lowHeld, .dev, .intake, .alm, .host, .combs, .clk, .rt, .freeCtr]

/-- What a boot may change. -/
def bootParts : List Field :=
  [.regs, .limits, .limStaged, .pages, .ev, .out, .dev, .die, .mem, .prog, .kv, .mrd, .hbm, .combs, .clk, .ldg, .st, .bt, .nv,
    .mgmt, .freeCtr]

/-- What a cold reset may change. -/
def coldParts : List Field :=
  [.regs, .staged, .limits, .limStaged, .pages, .latch, .lowHeld, .ev, .dev, .die, .mem, .prog, .intake, .kv, .mrd, .alm, .hbm,
    .host, .combs, .clk, .ldg, .mt, .st, .wt, .rt, .bt, .tre, .slc, .nv, .mgmt]

/-- A mask holds all of some parts. -/
abbrev Fits (l : List Field) (M : Nat) : Prop := mask l &&& M = mask l

theorem Fits.trans {l k : List Field} (h : Fits l (mask k)) (g : Fits k M) : Fits l M := by
  rw [Fits, ← h, Nat.land_assoc, g]

theorem Field.ofNat_bit (f : Field) : Field.ofNat f.bit = f := by cases f <;> rfl

theorem Field.bit_injective {f g : Field} (h : f.bit = g.bit) : f = g := by
  rw [← f.ofNat_bit, h, g.ofNat_bit]

theorem mask_testBit {l : List Field} {f : Field} (h : f ∉ l) : (mask l).testBit f.bit = false := by
  induction l with
  | nil => exact Nat.zero_testBit _
  | cons g l ih =>
    have hg : g.bit ≠ f.bit := fun e => h (by simp [Field.bit_injective e])
    rw [mask, List.foldr_cons, Nat.testBit_or, Nat.testBit_two_pow_of_ne hg, Bool.false_or]
    exact ih fun hl => h (List.mem_cons_of_mem g hl)

/-- A move of a function with the parts `l`, after a move within a mask that holds them. -/
theorem Within.step {l : List Field} (h : Within M s0 s) (hm : Fits l M) (g : Within (mask l) s t) : Within M s0 t := h.next g hm

theorem Within.whenB {c : Bool} {f : State → State} (h : Within M s0 s) (hf : c = true → Within M s0 (f s)) :
    Within M s0 (s.whenB c f) := .ite hf fun _ => h

theorem ResWithin.onUnit {ok : Bool} {f : State → State} (h : Within M s0 (f s)) : ResWithin M s0 (onUnit ok f s) :=
  .ite (fun _ => .next h) fun _ => .fault

theorem ResWithin.onKind {k : Kind} {site : Nat} {f : State → State} (h : Within M s0 (f s)) :
    ResWithin M s0 (onKind k site f s) :=
  .ite (fun _ => .next h) fun _ => .fault

/-! ### Stores and event queues -/

theorem length_lastN_le {α : Type} (n : Nat) (l : List α) : (lastN n l).length ≤ n := by
  rw [lastN, List.length_drop]
  omega

theorem swf_applyWords {l m : Sparse Word} (h : swf regDflt m = true) : swf regDflt (applyWords m l) = true := by
  induction l generalizing m with
  | nil => exact h
  | cons e l ih => exact ih (swf_sset h)

theorem sput_foldl_rising {α : Type} {l m : Sparse α} (h : srising m = true) :
    srising (l.foldl (fun m e => sput m e.1 e.2) m) = true :=
  List.foldlRecOn (motive := fun m => srising m = true) l _ h fun _ hm _ _ => sput_rising hm

theorem swf_disturb {d : Nat → Byte} {m : Sparse Byte} {fl : List Flip} (h : swf d m = true) : swf d (disturb d m fl) = true :=
  swf_foldl h fun _ _ => swf_supd

theorem swf_putWord {d : Nat → Byte} {m : Sparse Byte} {k : Nat} {w : RowWord} (h : swf d m = true) :
    swf d (putWord d m k w) = true := swf_ssetMany h

theorem swf_putRow {d : Nat → Byte} {rows site row k : Nat} {m : Sparse Byte} {ws : List RowWord} (h : swf d m = true) :
    swf d (putRow d rows m site row k ws) = true :=
  swf_foldl h fun _ _ hm => by split; exacts [swf_putWord hm, hm]

theorem Mem.wf_iff {m : Mem} : m.wf = true ↔
    ((swf opsDflt m.ops = true ∧ swf sstDflt m.sst = true) ∧ swf bufDflt m.buf = true) ∧ swf hbmDflt m.hbm = true := by
  simp only [Mem.wf, Bool.and_eq_true]

theorem Mem.wf_ops {m : Mem} {x : Sparse Byte} (hx : swf opsDflt m.ops = true → swf opsDflt x = true) (h : m.wf = true) :
    ({ m with ops := x } : Mem).wf = true := by
  obtain ⟨⟨⟨ho, hs⟩, hb⟩, hh⟩ := Mem.wf_iff.1 h
  exact Mem.wf_iff.2 ⟨⟨⟨hx ho, hs⟩, hb⟩, hh⟩

theorem Mem.wf_sst {m : Mem} {x : Sparse Byte} (hx : swf sstDflt m.sst = true → swf sstDflt x = true) (h : m.wf = true) :
    ({ m with sst := x } : Mem).wf = true := by
  obtain ⟨⟨⟨ho, hs⟩, hb⟩, hh⟩ := Mem.wf_iff.1 h
  exact Mem.wf_iff.2 ⟨⟨⟨ho, hx hs⟩, hb⟩, hh⟩

theorem Mem.wf_buf {m : Mem} {x : Sparse Byte} (hx : swf bufDflt m.buf = true → swf bufDflt x = true) (h : m.wf = true) :
    ({ m with buf := x } : Mem).wf = true := by
  obtain ⟨⟨⟨ho, hs⟩, hb⟩, hh⟩ := Mem.wf_iff.1 h
  exact Mem.wf_iff.2 ⟨⟨⟨ho, hs⟩, hx hb⟩, hh⟩

theorem Mem.wf_hbm {m : Mem} {x : Sparse Byte} (hx : swf hbmDflt m.hbm = true → swf hbmDflt x = true) (h : m.wf = true) :
    ({ m with hbm := x } : Mem).wf = true := by
  obtain ⟨⟨⟨ho, hs⟩, hb⟩, hh⟩ := Mem.wf_iff.1 h
  exact Mem.wf_iff.2 ⟨⟨⟨ho, hs⟩, hb⟩, hx hh⟩

/-! ### Resets -/

/-- The parts that a reset sets again. -/
def resetParts : List Field :=
  [.regs, .staged, .limits, .limStaged, .pages, .latch, .lowHeld, .ev, .dev, .die, .mem, .prog, .intake, .kv, .mrd, .alm, .hbm,
    .host, .combs, .clk, .ldg, .mt, .st, .wt, .rt, .bt, .tre, .slc, .nv, .mgmt]

theorem State.reset_own (p : Nat) : (State.reset.page p).own = if fixedPage p then some .keeper else none := rfl

theorem State.reset_inv : State.reset.Inv where
  mem := rfl
  regs := rfl
  limits := rfl
  limStaged := rfl
  staged := rfl
  pages := rfl
  fixed p hp := by rw [State.reset_own, if_pos hp]
  retained := Nat.zero_le _
  bmc := Nat.zero_le _
  tiles := rfl
  combs := rfl
  mt := rfl
  st := rfl
  wt := rfl
  rt := rfl
  bt := rfl
  stk := rfl
  table := rfl
  slots := rfl
  runs := rfl
  ports := rfl


/-! ### Two parts in one update -/

theorem Within.set_prog_kv {x y} (h : Within M s0 s) (hm : Fits [.prog, .kv] M)
    (h0 : swf slotDflt s.prog.slots = true → swf slotDflt x.slots = true)
    (h1 : swf runDflt s.prog.runs = true → swf runDflt x.runs = true) : Within M s0 { s with prog := x, kv := y } :=
  h.step hm (.set_kv (.set_prog (x := x) .refl (by decide) h0 h1) (by decide))

theorem Within.set_prog_die {x y} (h : Within M s0 s) (hm : Fits [.prog, .die] M)
    (h0 : swf slotDflt s.prog.slots = true → swf slotDflt x.slots = true)
    (h1 : swf runDflt s.prog.runs = true → swf runDflt x.runs = true)
    (h2 : swf tileDflt s.die.tiles = true → swf tileDflt y.tiles = true) : Within M s0 { s with prog := x, die := y } :=
  h.step hm (.set_die (.set_prog (x := x) .refl (by decide) h0 h1) (by decide) h2)

theorem Within.set_intake_kv {x y} (h : Within M s0 s) (hm : Fits [.intake, .kv] M)
    (h0 : swf streamDflt s.intake.table = true → swf streamDflt x.table = true) : Within M s0 { s with intake := x, kv := y } :=
  h.step hm (.set_kv (.set_intake (x := x) .refl (by decide) h0) (by decide))

theorem Within.set_intake_hbm {x y} (h : Within M s0 s) (hm : Fits [.intake, .hbm] M)
    (h0 : swf streamDflt s.intake.table = true → swf streamDflt x.table = true)
    (h1 : swf stackDflt s.hbm.stk = true → swf stackDflt y.stk = true) : Within M s0 { s with intake := x, hbm := y } :=
  h.step hm (.set_hbm (.set_intake (x := x) .refl (by decide) h0) (by decide) h1)

/-- A fold that carries a state in its accumulator. -/
theorem Within.foldlBy {α β : Type} (p : β → State) {l : List α} {f : β → α → β} {b : β} (h : Within M s0 (p b))
    (hf : ∀ b x, Within M s0 (p b) → Within M s0 (p (f b x))) : Within M s0 (p (l.foldl f b)) :=
  List.foldlRecOn (motive := fun b => Within M s0 (p b)) l _ h fun b g x _ => hf b x g

/-- The same, with the next accumulator under a name. -/
theorem Within.foldlEq {α β : Type} (p : β → State) {l : List α} {f : β → α → β} {b : β} (h : Within M s0 (p b))
    (hf : ∀ b x c, Within M s0 (p b) → f b x = c → Within M s0 (p c)) : Within M s0 (p (l.foldl f b)) :=
  h.foldlBy p fun b x g => hf b x _ g rfl

theorem Within.set_prog_mrd {x y} (h : Within M s0 s) (hm : Fits [.prog, .mrd] M)
    (h0 : swf slotDflt s.prog.slots = true → swf slotDflt x.slots = true)
    (h1 : swf runDflt s.prog.runs = true → swf runDflt x.runs = true) : Within M s0 { s with prog := x, mrd := y } :=
  h.step hm (.set_mrd (.set_prog (x := x) .refl (by decide) h0 h1) (by decide))

theorem Within.set_intake_mrd {x y} (h : Within M s0 s) (hm : Fits [.intake, .mrd] M)
    (h0 : swf streamDflt s.intake.table = true → swf streamDflt x.table = true) : Within M s0 { s with intake := x, mrd := y } :=
  h.step hm (.set_mrd (.set_intake (x := x) .refl (by decide) h0) (by decide))

theorem Within.set_kv_mrd {x y} (h : Within M s0 s) (hm : Fits [.kv, .mrd] M) : Within M s0 { s with kv := x, mrd := y } :=
  h.step hm (.set_mrd (.set_kv (x := x) .refl (by decide)) (by decide))

theorem Within.set_mrd_slc {x y} (h : Within M s0 s) (hm : Fits [.mrd, .slc] M) : Within M s0 { s with mrd := x, slc := y } :=
  h.step hm (.set_slc (.set_mrd (x := x) .refl (by decide)) (by decide))

theorem Within.set_dev_nv {x y} (h : Within M s0 s) (hm : Fits [.dev, .nv] M) (h0 : s.nv.Forward y) :
    Within M s0 { s with dev := x, nv := y } :=
  h.step hm (.set_nv (.set_dev (x := x) .refl (by decide)) (by decide) h0)

theorem Within.set_dev_tre {x y} (h : Within M s0 s) (hm : Fits [.dev, .tre] M)
    (h0 : swf tpDflt s.tre.ports = true → swf tpDflt y.ports = true) : Within M s0 { s with dev := x, tre := y } :=
  h.step hm (.set_tre (.set_dev (x := x) .refl (by decide)) (by decide) h0)

theorem Within.set_die_mgmt {x y} (h : Within M s0 s) (hm : Fits [.die, .mgmt] M)
    (h0 : swf tileDflt s.die.tiles = true → swf tileDflt x.tiles = true) : Within M s0 { s with die := x, mgmt := y } :=
  h.step hm (.set_mgmt (.set_die (x := x) .refl (by decide) h0) (by decide))

theorem Within.set_intake_slc {x y} (h : Within M s0 s) (hm : Fits [.intake, .slc] M)
    (h0 : swf streamDflt s.intake.table = true → swf streamDflt x.table = true) : Within M s0 { s with intake := x, slc := y } :=
  h.step hm (.set_slc (.set_intake (x := x) .refl (by decide) h0) (by decide))

theorem Within.set_die_intake_mrd {x y z} (h : Within M s0 s) (hm : Fits [.die, .intake, .mrd] M)
    (h0 : swf tileDflt s.die.tiles = true → swf tileDflt x.tiles = true)
    (h1 : swf streamDflt s.intake.table = true → swf streamDflt y.table = true) :
    Within M s0 { s with die := x, intake := y, mrd := z } :=
  h.step hm (.set_intake_mrd (.set_die (x := x) .refl (by decide) h0) (by decide) h1)

/-- What a lost comb leaves: its die, clock and tile records without its units. -/
theorem Within.set_units {x c p q r u} (h : Within M s0 s) (hm : Fits [.die, .clk, .bt, .mt, .wt, .rt] M)
    (hx : swf tileDflt s.die.tiles = true → swf tileDflt x.tiles = true) :
    Within M s0 { s with die := x, clk := c, bt := s.bt.filter p, mt := s.mt.filter q, wt := s.wt.filter r, rt := s.rt.filter u } :=
  h.step hm (.set_bt (.set_mt (.set_wt (.set_rt (x := s.rt.filter u) (.set_clk (x := c) (.set_die (x := x) .refl (by decide) hx)
    (by decide)) (by decide) swf_filter) (by decide) (x := s.wt.filter r) swf_filter) (by decide) (x := s.mt.filter q) swf_filter)
    (by decide) (x := s.bt.filter p) swf_filter)

/-! ### Owners -/

theorem sfind_of_mem {α : Type} {m : Sparse α} {k : Nat} {x : α} (h : srising m = true) (hm : (k, x) ∈ m) :
    sfind m k = some x := by
  induction m with
  | nil => cases hm
  | cons e t ih =>
    obtain ⟨k', y⟩ := e
    obtain ⟨ha, ht⟩ := srising_cons.1 h
    rcases List.mem_cons.1 hm with e | e
    · cases e
      exact if_pos rfl
    · have hlt := ha _ e
      rw [sfind, if_neg (by omega), ih ht e]

/-- A page changes owner: to the Keeper, or a page that is not fixed. -/
theorem Within.setOwner {p : Nat} {o : Option Source} (h : Within M s0 s) (ho : o = some .keeper ∨ fixedPage p = false)
    (hm : Fits [.pages] M := by decide) : Within M s0 (s.updPage p fun g => { g with own := o }) := by
  rcases ho with rfl | hf
  · exact h.updPage hm fun _ _ => rfl
  · refine h.step hm ⟨rfl, fun f hf => (by cases f <;> first | rfl | cases hf), fun i => ?_, .refl _⟩
    refine { i with pages := State.updPage_pages_wf i.pages _ _, fixed := fun q hq => ?_ }
    have hne : q ≠ p := fun e => by rw [e, hf] at hq; cases hq
    rw [State.page, State.updPage, sget_supd i.pages, if_neg hne]
    exact i.fixed q hq

/-- The same, where only the invariant says that the page is not fixed. -/
theorem Within.setOwnerOf {p : Nat} {o : Option Source} (h : Within M s0 s) (ho : s0.Inv → fixedPage p = false)
    (hm : Fits [.pages] M := by decide) : Within M s0 (s.updPage p fun g => { g with own := o }) := by
  by_cases hi : s0.Inv
  · exact h.setOwner (.inr (ho hi)) hm
  · refine ⟨h.queue, fun f hf => Field.same_trans (h.same f hf) (Field.same_updPage ?_ s p _), fun i => absurd i hi, h.fwd⟩
    rintro rfl
    exact absurd (mask_out hm hf) (by decide)

theorem Within.set_regs_host {x y} (h : Within M s0 s) (hm : Fits [.regs, .host] M)
    (h0 : swf regDflt s.regs = true → swf regDflt x = true) : Within M s0 { s with regs := x, host := y } :=
  h.step hm (.set_host (.set_regs (x := x) .refl (by decide) h0) (by decide))

theorem Within.emit {o : Out} (h : Within M s0 s) (hm : Fits [.out] M := by decide) : Within M s0 (s.emit o) :=
  h.step hm (.set_out Within.refl (by decide))

theorem Within.toBmc {r : EvRec} (h : Within M s0 s) (hm : Fits [.ev, .out] M := by decide) : Within M s0 (s.toBmc r) :=
  h.step hm (.ite (fun hc => .emit (.set_ev .refl (by decide) id fun _ => by rw [List.length_append]; exact hc))
    fun _ => .set_ev .refl (by decide) id id)

theorem Within.log {page code a0 a1 a2 a3 : Nat} (h : Within M s0 s) (hm : Fits [.ev, .out] M := by decide) :
    Within M s0 (s.log page code a0 a1 a2 a3) := by
  refine h.step hm (Within.refl.toBmc.set_ev (by decide) (fun i => ?_) fun i => by split <;> exact i)
  split
  · exact i
  · dsimp only
    exact length_lastN_le 1024 _

theorem Within.setReg {p off v : Nat} (h : Within M s0 s) (hm : Fits [.regs] M := by decide) : Within M s0 (s.setReg p off v) :=
  h.step hm (.set_regs Within.refl (by decide) swf_sset)

theorem Within.flag {p b : Nat} (h : Within M s0 s) (hm : Fits [.regs] M := by decide) : Within M s0 (s.flag p b) :=
  h.step hm (Within.refl.setReg)

theorem Within.report {p b code a0 a1 a2 : Nat} (h : Within M s0 s) (hm : Fits [.regs, .ev, .out] M := by decide) :
    Within M s0 (s.report p b code a0 a1 a2) :=
  h.step hm (Within.refl.flag.log)

theorem Within.aerReport {status : Nat} (h : Within M s0 s) (hm : Fits [.regs, .ev, .out, .host] M := by decide) :
    Within M s0 (s.aerReport status) :=
  h.step hm (.report (.emit (.set_host Within.refl (by decide))))

theorem Within.hostNow {o : Out} (h : Within M s0 s) (hm : Fits [.out, .host] M := by decide) : Within M s0 (s.hostNow o) := by
  refine h.step hm ?_
  dsimp only [State.hostNow]
  split
  exacts [.ite (fun _ => .set_host Within.refl (by decide)) fun _ => Within.refl.emit, Within.refl.emit]

theorem Within.toHost {o : Out} (h : Within M s0 s) (hm : Fits [.out, .host] M := by decide) : Within M s0 (s.toHost o) :=
  h.step hm (.ite (fun _ => Within.refl.hostNow) fun _ => .set_host Within.refl (by decide))

theorem Within.toHosts {l : List Out} (h : Within M s0 s) (hm : Fits [.out, .host] M := by decide) : Within M s0 (s.toHosts l) :=
  h.step hm (.foldl Within.refl fun _ _ g => g.toHost)

theorem Within.msixFlush (h : Within M s0 s) (hm : Fits [.out, .host] M := by decide) : Within M s0 s.msixFlush :=
  h.step hm (.toHosts (.set_host Within.refl (by decide)))

theorem Within.msixWrite {src : Source} {p off w : Nat} (h : Within M s0 s) (hm : Fits [.regs, .out, .host] M := by decide) :
    Within M s0 (s.msixWrite src p off w) :=
  h.step hm (.ite (fun _ => Within.refl.setReg.msixFlush) fun _ => Within.refl)

theorem Within.noteOrder {src : Source} {p res : Nat} (h : Within M s0 s) (hm : Fits [.pages] M := by decide) :
    Within M s0 (s.noteOrder src p res) :=
  h.step hm (.updPage Within.refl (by decide) fun _ => id)

theorem Within.order {src : Source} {p off res : Nat} (h : Within M s0 s) (hm : Fits [.pages, .ev, .out] M := by decide) :
    Within M s0 (s.order src p off res) :=
  h.step hm (.ite (fun _ => Within.refl.noteOrder.log) fun _ => Within.refl.noteOrder)

theorem Within.dropStaged {p : Nat} (h : Within M s0 s) (hm : Fits [.staged, .pages] M := by decide) :
    Within M s0 (s.dropStaged p) :=
  h.step hm (.updPage (.set_staged Within.refl (by decide) filter_rising) (by decide) fun _ => id)

theorem Within.dropShadow (h : Within M s0 s) (hm : Fits [.staged, .pages, .prog] M := by decide) : Within M s0 s.dropShadow := by
  refine h.step hm ?_
  dsimp only [State.dropShadow]
  split
  exacts [Within.refl,
    .ite (fun _ => Within.refl) fun _ => .set_prog (.foldl Within.refl fun _ _ g => .updPage g.dropStaged (by decide)
      fun _ => id) (by decide) id id]

theorem Within.queueSwitch {flush : Bool} (h : Within M s0 s) (hm : Fits [.prog] M := by decide) :
    Within M s0 (s.queueSwitch flush) :=
  h.step hm (.ite (fun _ => Within.refl) fun _ => .set_prog Within.refl (by decide) id id)

theorem Within.applyLimits {p code : Nat} (h : Within M s0 s) (hm : Fits [.limits, .pages] M := by decide) :
    Within M s0 (s.applyLimits p code) :=
  h.step hm (.updPage (.set_limits Within.refl (by decide) (fun i => swf_foldl i fun _ _ => swf_supd)) (by decide) fun _ => id)

theorem Within.applyPage {p : Nat} (h : Within M s0 s) (hm : Fits [.regs, .staged, .limits, .pages] M := by decide) :
    Within M s0 (s.applyPage p) := by
  refine h.step hm ?_
  unfold State.applyPage
  extract_lets g st a b
  have hb : Within (mask [.regs, .staged, .limits, .pages]) s b :=
    .ite (fun _ => Within.refl.applyLimits) fun _ => Within.refl.applyLimits.dropStaged
  exact .updPage (hb.set_regs (by decide) swf_applyWords) (by decide) fun _ => id

theorem Within.settleWaiting (h : Within M s0 s) (hm : Fits [.pages, .clk] M := by decide) : Within M s0 s.settleWaiting :=
  h.step hm (.foldl (.set_clk Within.refl (by decide)) fun _ _ g => .updPage g (by decide) fun _ => id)

theorem Within.updComb {c : Nat} {f : Comb → Comb} (h : Within M s0 s) (hm : Fits [.combs] M := by decide) :
    Within M s0 (s.updComb c f) :=
  h.step hm (.set_combs Within.refl (by decide) swf_sset)

theorem Within.departOne {c cause : Nat} (h : Within M s0 s) (hm : Fits [.regs, .ev, .out, .combs] M := by decide) :
    Within M s0 (s.departOne c cause) :=
  h.step hm (.ite (fun _ => .ite (fun _ => Within.refl) fun _ => Within.refl.updComb.report) fun _ => Within.refl.updComb)

theorem Within.departs (h : Within M s0 s) (hm : Fits [.regs, .ev, .out, .combs] M := by decide) : Within M s0 s.departs :=
  h.step hm (.foldl Within.refl fun _ _ g => .ite (fun _ => .foldl g fun _ _ g1 => g1.departOne) fun _ => g.updComb)

theorem Within.lastChange {c src res sync fr to_ : Nat} (h : Within M s0 s) (hm : Fits [.regs] M := by decide) :
    Within M s0 (s.lastChange c src res sync fr to_) :=
  h.step hm (Within.refl.setReg)

theorem Within.changeResult {c res : Nat} (h : Within M s0 s) (hm : Fits [.regs] M := by decide) :
    Within M s0 (s.changeResult c res) :=
  h.step hm (Within.refl.setReg)

theorem Within.cancelLocal {c : Nat} (h : Within M s0 s) (hm : Fits [.regs, .combs] M := by decide) :
    Within M s0 (s.cancelLocal c) :=
  h.step hm (.ite (fun _ => Within.refl.updComb.changeResult) fun _ => Within.refl)

theorem Within.scheduleSync {d src : Nat} {moves : List (Nat × Nat)} {grant : Bool} (h : Within M s0 s)
    (hm : Fits [.regs, .combs, .clk] M := by decide) : Within M s0 (s.scheduleSync d src moves grant) :=
  h.step hm (.set_clk (.foldl (.foldl Within.refl fun _ _ g => g.cancelLocal) fun _ _ g => g.lastChange) (by decide))

theorem Within.schedule {d src : Nat} {force grant : Bool} (h : Within M s0 s)
    (hm : Fits [.regs, .ev, .out, .combs, .clk] M := by decide) : Within M s0 (s.schedule d src force grant) := by
  refine h.step hm ?_
  dsimp only [State.schedule]
  split
  exacts [.ite (fun _ => .set_clk (.departs (.foldl Within.refl fun _ _ g => g.updComb)) (by decide))
    fun _ => .departs (.foldl Within.refl fun _ _ g => g.updComb),
    by
      split
      exacts [.departs (.foldl Within.refl fun _ _ g => g.updComb),
        .ite (fun _ => .lastChange (.updComb (.departs (.foldl Within.refl fun _ _ g => g.updComb))))
          fun _ => .scheduleSync (.departs (.foldl Within.refl fun _ _ g => g.updComb)),
        .scheduleSync (.departs (.foldl Within.refl fun _ _ g => g.updComb))]]

theorem Within.retarget {src : Nat} {force : Bool} (h : Within M s0 s)
    (hm : Fits [.regs, .pages, .ev, .out, .combs, .clk] M := by decide) : Within M s0 (s.retarget src force) :=
  h.step hm (Within.refl.schedule.settleWaiting)

theorem Within.holdCommit {old : State} {p : Nat} (h : Within M s0 s) (hm : Fits [.pages, .clk] M := by decide) :
    Within M s0 (s.holdCommit old p) :=
  h.step hm (.set_clk (.updPage Within.refl (by decide) fun _ => id) (by decide))

theorem Within.freqCommit {p : Nat} (h : Within M s0 s)
    (hm : Fits [.regs, .staged, .limits, .pages, .ev, .out, .combs, .clk] M := by decide) : Within M s0 (s.freqCommit p) := by
  refine h.step hm ?_
  unfold State.freqCommit
  extract_lets t
  have ht : Within (mask [.regs, .staged, .limits, .pages, .ev, .out, .combs, .clk]) s t := Within.refl.applyPage
  exact .ite (fun _ => ht) fun _ => ht.holdCommit.retarget

theorem Within.hbmDevCommit (h : Within M s0 s) (hm : Fits [.regs, .staged, .limits, .pages] M := by decide) :
    Within M s0 s.hbmDevCommit :=
  h.step hm (.ite (fun _ => Within.refl.applyPage) fun _ => Within.refl.set_regs (by decide) swf_applyWords)

theorem Within.wrapReg {p off : Nat} (h : Within M s0 s) (hm : Fits [.regs] M := by decide) : Within M s0 (s.wrapReg p off) :=
  h.step hm (Within.refl.setReg)

theorem Within.follow {root : Option DWord} {parent : Option Nat} {hops : Nat} (h : Within M s0 s)
    (hm : Fits [.tre] M := by decide) : Within M s0 (s.follow root parent hops) :=
  h.step hm (.set_tre Within.refl (by decide) id)

theorem Within.chooseParent (h : Within M s0 s) (hm : Fits [.regs, .ev, .out, .tre] M := by decide) :
    Within M s0 s.chooseParent := by
  refine h.step hm ?_
  dsimp only [State.chooseParent]
  split
  exacts [Within.refl.follow,
    .ite (fun _ => Within.refl.follow)
      fun _ => by split; exacts [Within.refl.follow, .follow (.ite (fun _ => Within.refl.report) fun _ => Within.refl)]]

theorem Within.rteCommit (h : Within M s0 s) (hm : Fits [.regs, .staged, .limits, .pages, .ev, .out, .tre, .slc] M := by decide) :
    Within M s0 s.rteCommit := by
  refine h.step hm ?_
  unfold State.rteCommit
  extract_lets old new slice time wait l src a u v
  have hu : Within (mask [.regs, .staged, .limits, .pages, .ev, .out, .tre, .slc]) s u := .ite
    (fun _ => ((Within.refl.set_regs (by decide) swf_applyWords).set_staged (by decide) filter_rising).set_slc (by decide))
    fun _ => .ite (fun _ => Within.refl.applyPage) fun _ => Within.refl.applyPage.wrapReg
  have hv : Within (mask [.regs, .staged, .limits, .pages, .ev, .out, .tre, .slc]) s v :=
    .ite (fun _ => hu) fun _ => hu.set_slc (by decide)
  exact .ite (fun _ => hv) fun _ => hv.chooseParent

theorem Within.evtStop (h : Within M s0 s) (hm : Fits [.ev] M := by decide) : Within M s0 s.evtStop :=
  h.step hm (Within.refl.set_ev (by decide) (fun _ => by dsimp only; exact length_lastN_le 1024 _) id)

theorem Within.pciCommit (h : Within M s0 s) (hm : Fits [.regs, .staged, .limits, .pages, .ev] M := by decide) :
    Within M s0 s.pciCommit :=
  h.step hm (.ite (fun _ => .setReg (.setReg (.setReg (.set_ev Within.refl.applyPage (by decide) (fun _ => by simp) id))))
    fun _ => .ite (fun _ => Within.refl.applyPage.evtStop) fun _ => Within.refl.applyPage)

theorem Within.takeEffect {p : Nat} (h : Within M s0 s)
    (hm : Fits [.regs, .staged, .limits, .pages, .ev, .out, .prog, .combs, .clk, .tre, .slc] M := by decide) :
    Within M s0 (s.takeEffect p) := by
  refine h.step hm ?_
  dsimp only [State.takeEffect]
  split
  exacts [.ite (fun _ => Within.refl.dropShadow) fun _ => Within.refl.dropShadow.queueSwitch,
    .ite (fun _ => Within.refl) fun _ => Within.refl.queueSwitch, Within.refl, Within.refl, Within.refl, Within.refl, Within.refl,
    Within.refl, Within.refl, Within.refl, Within.refl, Within.refl, Within.refl.freqCommit,
    .ite (fun _ => Within.refl) fun _ => Within.refl.freqCommit, Within.refl.hbmDevCommit, Within.refl.rteCommit,
    Within.refl.pciCommit, Within.refl.applyPage]

theorem Within.setResult {src : Source} {p code : Nat} {acc : Bool} (h : Within M s0 s) (hm : Fits [.pages] M := by decide) :
    Within M s0 (s.setResult src p code acc) :=
  h.step hm (.updPage Within.refl (by decide) fun _ => id)

theorem Within.acceptCommit {src : Source} {p : Nat} {slotsOnly : Bool} (h : Within M s0 s)
    (hm : Fits [.regs, .staged, .limits, .pages, .ev, .out, .prog, .mrd, .combs, .clk, .tre, .slc] M := by decide) :
    Within M s0 (s.acceptCommit src p slotsOnly) :=
  h.step hm (.takeEffect (.ite (fun _ => .set_mrd (.setResult (.updPage Within.refl (by decide) fun _ => id)) (by decide))
    fun _ => .setResult (.updPage Within.refl (by decide) fun _ => id)))

theorem Within.commitAt {src : Source} {p : Nat} {check : Bool} {seq : Nat} (h : Within M s0 s)
    (hm : Fits [.regs, .staged, .limits, .pages, .ev, .out, .prog, .mrd, .combs, .clk, .tre, .slc] M := by decide) :
    Within M s0 (s.commitAt src p check seq).2 := by
  refine h.step hm ?_
  unfold State.commitAt
  extract_lets g c slot own shared res a r
  split
  exacts [Within.refl.acceptCommit.order, Within.refl.setResult.order]

theorem Within.commitOrder {src : Source} {p : Nat} {check : Bool} {seq : Nat} (h : Within M s0 s)
    (hm : Fits [.regs, .staged, .limits, .pages, .ev, .out, .prog, .mrd, .combs, .clk, .tre, .slc] M := by decide) :
    Within M s0 (s.commitOrder src p check seq).2 := by
  refine h.step hm ?_
  dsimp only [State.commitOrder]
  split
  exacts [Within.refl.commitAt, by split; exacts [Within.refl, Within.refl.setResult]]

theorem Within.dropSlots {p code : Nat} (h : Within M s0 s) (hm : Fits [.limStaged, .pages] M := by decide) :
    Within M s0 (s.dropSlots p code) :=
  h.step hm (.updPage (.set_limStaged Within.refl (by decide) (fun i => swf_foldl i fun _ _ => swf_supd)) (by decide) fun _ => id)

theorem Within.discardAt {src : Source} {p : Nat} (h : Within M s0 s)
    (hm : Fits [.staged, .limStaged, .pages, .ev, .out] M := by decide) : Within M s0 (s.discardAt src p).2 :=
  h.step hm (.order (.setResult (.ite (fun _ => Within.refl) fun _ => .ite (fun _ => Within.refl.dropStaged.dropSlots)
    fun _ => Within.refl.dropSlots)))

theorem Within.discardOrder {src : Source} {p : Nat} (h : Within M s0 s)
    (hm : Fits [.staged, .limStaged, .pages, .ev, .out] M := by decide) : Within M s0 (s.discardOrder src p).2 :=
  h.step hm (by dsimp only [State.discardOrder]; split; exacts [Within.refl.discardAt, Within.refl])

theorem Within.gated {src : Source} {p off : Nat} {f : State → State} (h : Within M s0 s)
    (hf : ∀ {t}, Within M s0 t → Within M s0 (f t)) (hm : Fits [.pages, .ev, .out] M := by decide) :
    Within M s0 (s.gated src p off f) :=
  .ite (fun _ => (hf h).order hm) fun _ => h.order hm

theorem Within.gatedR {src : Source} {p off : Nat} {f : State → State} (h : Within M s0 s)
    (hf : ∀ {t}, Within M s0 t → Within M s0 (f t)) (hm : Fits [.pages, .ev, .out] M := by decide) :
    Within M s0 (s.gatedR src p off f).2 :=
  h.gated hf hm

theorem Within.claimAt {src : Source} {p : Nat} (h : Within M s0 s) (hm : Fits [.staged, .pages, .ev, .out] M := by decide) :
    Within M s0 (s.claimAt src p).2 := by
  refine h.step hm ?_
  unfold State.claimAt
  extract_lets own may res a b
  have hb : Within (mask [.staged, .pages, .ev, .out]) s b := by
    refine .ite (fun _ => Within.refl) fun hn => ?_
    refine .setOwner (.ite (fun _ => Within.refl) fun _ => Within.refl.dropStaged) ?_
    have hmay : may = true := by by_contra hc; simp [res, hc] at hn; split at hn <;> simp at hn
    simp only [may, Bool.or_eq_true, Bool.and_eq_true, beq_iff_eq, Bool.not_eq_true'] at hmay
    exact hmay.imp (congrArg _) And.left
  exact hb.order

theorem Within.releaseAt {src : Source} {p : Nat} (h : Within M s0 s) (hm : Fits [.pages, .ev, .out] M := by decide) :
    Within M s0 (s.releaseAt src p).2 := by
  refine h.step hm ?_
  unfold State.releaseAt
  extract_lets may res a
  have ha : Within (mask [.pages, .ev, .out]) s a :=
    .ite (fun _ => Within.refl) fun hn => Within.refl.setOwner (.inr (Bool.eq_false_iff.2 fun hf => hn (.inr hf)))
  exact ha.order

theorem Within.ownerOrder {src : Source} {p : Nat} {claim : Bool} (h : Within M s0 s)
    (hm : Fits [.staged, .pages, .ev, .out] M := by decide) : Within M s0 (s.ownerOrder src p claim).2 := by
  refine h.step hm ?_
  dsimp only [State.ownerOrder]
  split
  exacts [by split; exacts [Within.refl.claimAt, Within.refl.releaseAt], Within.refl]

theorem Within.stage {p off v : Nat} (h : Within M s0 s) (hm : Fits [.staged, .pages] M := by decide) :
    Within M s0 (s.stage p off v) :=
  h.step hm (.updPage (.set_staged Within.refl (by decide) sput_rising) (by decide) fun _ => id)

theorem Within.stageOrder {src : Source} {p off : Nat} {ws : List (Nat × Nat)} (h : Within M s0 s)
    (hm : Fits [.staged, .limStaged, .pages, .ev, .out] M := by decide) : Within M s0 (s.stageOrder src p off ws).2 :=
  h.step hm (.order (.ite (fun _ => Within.refl)
    fun _ => .ite (fun _ => .foldl Within.refl fun _ _ g => .updPage (.set_limStaged g (by decide) swf_sset) (by decide)
    fun _ => id) fun _ => .ite (fun _ => Within.refl) fun _ => .foldl Within.refl fun _ _ g => g.stage))

theorem Within.updR {site : Nat} {f : Router → Router} (h : Within M s0 s) (hm : Fits [.rt] M := by decide) :
    Within M s0 (s.updR site f) :=
  h.step hm (.set_rt Within.refl (by decide) swf_sset)

theorem Within.endSnap {c : Nat} (h : Within M s0 s) (hm : Fits [.rt] M := by decide) : Within M s0 (s.endSnap c) :=
  h.step hm (.ite (fun _ => Within.refl) fun _ => .foldl Within.refl fun _ _ g => g.updR)

theorem Within.setReg64 {p off v : Nat} (h : Within M s0 s) (hm : Fits [.regs] M := by decide) :
    Within M s0 (s.setReg64 p off v) :=
  h.step hm (Within.refl.setReg.setReg)

theorem Within.clearLast {p w : Nat} (h : Within M s0 s) (hm : Fits [.regs, .rt] M := by decide) :
    Within M s0 (s.clearLast p w) := by
  refine h.step hm ?_
  dsimp only [State.clearLast]
  split
  exacts [.ite (fun _ => Within.refl.setReg) fun _ => Within.refl, .ite (fun _ => Within.refl.setReg.setReg) fun _ => Within.refl,
    .ite (fun _ => Within.refl.setReg) fun _ => Within.refl,
    .ite (fun _ => .setReg (.ite (fun _ => Within.refl.setReg) fun _ => Within.refl)) fun _ => .ite (fun _ => Within.refl.setReg)
      fun _ => Within.refl,
    .ite (fun _ => .setReg (.ite (fun _ => .endSnap (.ite (fun _ => Within.refl.setReg64) fun _ => Within.refl))
      fun _ => .ite (fun _ => Within.refl.setReg64) fun _ => Within.refl))
      fun _ => .ite (fun _ => .endSnap (.ite (fun _ => Within.refl.setReg64) fun _ => Within.refl))
      fun _ => .ite (fun _ => Within.refl.setReg64) fun _ => Within.refl,
    .ite (fun _ => Within.refl.setReg64) fun _ => Within.refl, .ite (fun _ => Within.refl.setReg64) fun _ => Within.refl,
    .ite (fun _ => Within.refl.setReg) fun _ => Within.refl, Within.refl]

theorem Within.w1c {p off w : Nat} (h : Within M s0 s) (hm : Fits [.regs, .rt] M := by decide) : Within M s0 (s.w1c p off w) :=
  h.step hm (.clearLast (.set_regs Within.refl (by decide) swf_sset))

theorem Within.clearLedger (h : Within M s0 s) (hm : Fits [.ldg] M := by decide) : Within M s0 s.clearLedger :=
  h.step hm (.set_ldg Within.refl (by decide))

theorem Within.nbrEvent {p what : Nat} (h : Within M s0 s) (hm : Fits [.regs, .ev, .out] M := by decide) :
    Within M s0 (s.nbrEvent p what) :=
  h.step hm (Within.refl.report)

theorem Within.updTP {p : Nat} {f : TPort → TPort} (h : Within M s0 s) (hm : Fits [.tre] M := by decide) :
    Within M s0 (s.updTP p f) :=
  h.step hm (.set_tre Within.refl (by decide) swf_sset)

theorem Within.leaveBundle {p : Nat} (h : Within M s0 s) (hm : Fits [.tre] M := by decide) : Within M s0 (s.leaveBundle p) :=
  h.step hm (.set_tre Within.refl (by decide) id)

theorem Within.blameGone {num : Nat} {f : Forbid} (h : Within M s0 s) (hm : Fits [.mrd] M := by decide) :
    Within M s0 (s.blameGone num f) :=
  h.step hm (.set_mrd Within.refl (by decide))

theorem Within.updStep {n : Nat} {f : StepRec → StepRec} (h : Within M s0 s) (hm : Fits [.mrd] M := by decide) :
    Within M s0 (s.updStep n f) :=
  h.step hm (.set_mrd Within.refl (by decide))

theorem Within.devUnmapped {a : Nat} (h : Within M s0 s) (hm : Fits [.regs, .ev, .out] M := by decide) :
    Within M s0 (s.devUnmapped a) :=
  h.step hm (Within.refl.report)

theorem Within.addReg64 {p off k : Nat} (h : Within M s0 s) (hm : Fits [.regs] M := by decide) :
    Within M s0 (s.addReg64 p off k) :=
  h.step hm (Within.refl.setReg64)

theorem Within.setUnit {hs sa : Nat} {data : List Byte} {poison : Bool} (h : Within M s0 s)
    (hm : Fits [.mem, .hbm] M := by decide) : Within M s0 (s.setUnit hs sa data poison) :=
  h.step hm (.set_mem (.ite (fun _ => (Within.refl.set_hbm (by decide) id).set_hbm (by decide) id)
    fun _ => Within.refl.set_hbm (by decide) id) (by decide) (Mem.wf_hbm swf_ssetMany))

theorem Within.updStack {hs : Nat} {f : Stack → Stack} (h : Within M s0 s) (hm : Fits [.hbm] M := by decide) :
    Within M s0 (s.updStack hs f) :=
  h.step hm (.set_hbm Within.refl (by decide) swf_sset)

theorem Within.incHalf {p off sh : Nat} (h : Within M s0 s) (hm : Fits [.regs] M := by decide) :
    Within M s0 (s.incHalf p off sh) :=
  h.step hm (Within.refl.setReg)

theorem Within.hbmCorrected {hs sa : Nat} (h : Within M s0 s) (hm : Fits [.regs, .ev, .out, .hbm] M := by decide) :
    Within M s0 (s.hbmCorrected hs sa) :=
  h.step hm (.ite (fun _ => Within.refl.incHalf.updStack.report) fun _ => Within.refl.incHalf.updStack)

theorem Within.writeAt {hs a k : Nat} {data : List Byte} {poison : Bool} {ue : State → Nat → State} (h : Within M s0 s)
    (hf : ∀ {t n}, Within M s0 t → Within M s0 (ue t n)) (hm : Fits [.regs, .ev, .out, .mem, .hbm] M := by decide) :
    Within M s0 (s.writeAt hs a k data poison ue) := by
  have hw : ∀ {t : State} {hs sa : Nat} {d : List Byte} {p : Bool}, Within M s0 t → Within M s0 (t.setUnit hs sa d p) :=
    fun g => g.step hm Within.refl.setUnit
  have hc : Within M s0 ((s.addReg64 (pgHbm hs) 0x078 1).addReg64 (pgHbm hs) 0x070 1) := h.step hm Within.refl.addReg64.addReg64
  dsimp only [State.writeAt]
  refine .ite (fun _ => h) fun _ => .ite (fun _ => hw (h.step hm Within.refl.addReg64)) fun _ => .ite (fun _ => hw hc)
    fun _ => .ite (fun _ => hw (hf hc)) fun _ => ?_
  split
  · exact hw hc
  · exact hw (hc.step hm Within.refl.hbmCorrected)
  · exact hw (hf hc)

theorem Within.ueNote {hs sa source kind : Nat} (h : Within M s0 s) (hm : Fits [.regs] M := by decide) :
    Within M s0 (s.ueNote hs sa source kind) :=
  h.step hm (.flag (.ite (fun _ => Within.refl.incHalf) fun _ => Within.refl.incHalf.setReg64))

theorem Within.ueLog {hs sa source kind : Nat} (h : Within M s0 s) (hm : Fits [.regs, .ev, .out] M := by decide) :
    Within M s0 (s.ueLog hs sa source kind) :=
  h.step hm (Within.refl.ueNote.log)

theorem Within.devWrite {u a : Nat} {data : List Byte} {poison : Bool} (h : Within M s0 s)
    (hm : Fits [.regs, .ev, .out, .mem, .hbm] M := by decide) : Within M s0 (s.devWrite u a data poison) := by
  refine h.step hm ?_
  unfold State.devWrite
  exact .writeAt Within.refl fun g => g.ueLog

theorem Within.dramWrite {a : Nat} {data : List Byte} (h : Within M s0 s)
    (hm : Fits [.regs, .ev, .out, .mem, .hbm] M := by decide) : Within M s0 (s.dramWrite a data) := by
  refine h.step hm ?_
  dsimp only [State.dramWrite]
  split
  exacts [.devUnmapped (.foldl Within.refl fun _ _ g => g.devWrite), .foldl Within.refl fun _ _ g => g.devWrite]

theorem Within.record {a : Nat} {bs : List Byte} (h : Within M s0 s) (hm : Fits [.regs, .ev, .out, .mem, .hbm] M := by decide) :
    Within M s0 (s.record a bs) :=
  h.step hm (.ite (fun _ => Within.refl) fun _ => Within.refl.dramWrite)

theorem Within.kvLow (h : Within M s0 s) (hm : Fits [.regs, .ev, .out, .kv] M := by decide) : Within M s0 s.kvLow :=
  h.step hm (.ite (fun _ => .set_kv (.report (.ite (fun _ => .set_kv Within.refl.report (by decide))
    fun _ => .ite (fun _ => .set_kv Within.refl (by decide)) fun _ => Within.refl)) (by decide))
    fun _ => .ite (fun _ => .set_kv (.ite (fun _ => .set_kv Within.refl.report (by decide))
    fun _ => .ite (fun _ => .set_kv Within.refl (by decide)) fun _ => Within.refl) (by decide))
    fun _ => .ite (fun _ => .set_kv Within.refl.report (by decide)) fun _ => .ite (fun _ => .set_kv Within.refl (by decide))
    fun _ => Within.refl)

theorem Within.incReg {p off : Nat} (h : Within M s0 s) (hm : Fits [.regs] M := by decide) : Within M s0 (s.incReg p off) :=
  h.step hm (Within.refl.setReg)

theorem Within.logReplay {num code attempt : Nat} (h : Within M s0 s) (hm : Fits [.regs, .ev, .out] M := by decide) :
    Within M s0 (s.logReplay num code attempt) :=
  h.step hm (Within.refl.log.incReg.setReg64)

theorem Within.markBoundary (h : Within M s0 s) (hm : Fits [.prog] M := by decide) : Within M s0 s.markBoundary :=
  h.step hm (.set_prog Within.refl (by decide) id id)

theorem Within.clearTiles {num : Nat} (h : Within M s0 s) (hm : Fits [.st, .bt] M := by decide) :
    Within M s0 (s.clearTiles num) :=
  h.step hm (.set_bt (.set_st Within.refl (by decide) swf_map) (by decide) swf_map)

theorem Within.endLaunch {l : Launch} {nj : Nat} (h : Within M s0 s) (hm : Fits [.ldg] M := by decide) :
    Within M s0 (s.endLaunch l nj) :=
  h.step hm (.ite (fun _ => Within.refl) fun _ => .set_ldg Within.refl (by decide))

theorem Within.endLaunches {num : Nat} (h : Within M s0 s) (hm : Fits [.ldg] M := by decide) : Within M s0 (s.endLaunches num) :=
  h.step hm (.foldl Within.refl fun _ _ g => g.endLaunch)

theorem Within.doneAbandoned {recs : List LRec} (h : Within M s0 s) (hm : Fits [.regs, .ev, .out, .mem, .hbm] M := by decide) :
    Within M s0 (s.doneAbandoned recs) :=
  h.step hm (.foldl Within.refl fun _ _ g => g.record)

theorem Within.abandonOne {code : Nat} {own last : Bool} {st : StepRec} (h : Within M s0 s)
    (hm : Fits [.regs, .ev, .out, .mem, .prog, .kv, .mrd, .hbm, .ldg, .st, .bt] M := by decide) :
    Within M s0 (s.abandonOne code own last st) := by
  refine h.step hm ?_
  unfold State.abandonOne
  extract_lets n a recs b c d e fin st' src f g
  have hb : Within (mask [.regs, .ev, .out, .mem, .prog, .kv, .mrd, .hbm, .ldg, .st, .bt]) s b :=
    Within.refl.doneAbandoned.endLaunches.clearTiles
  have hc : Within (mask [.regs, .ev, .out, .mem, .prog, .kv, .mrd, .hbm, .ldg, .st, .bt]) s c :=
    .set_prog_kv hb (by decide) (by exact id) swf_filter
  have hg : Within (mask [.regs, .ev, .out, .mem, .prog, .kv, .mrd, .hbm, .ldg, .st, .bt]) s g :=
    .kvLow (.set_mrd hc.markBoundary.logReplay (by decide))
  exact .ite (fun _ => hg.record) fun _ => hg

theorem Within.abandonFrom {num code : Nat} {last : Bool} (h : Within M s0 s)
    (hm : Fits [.regs, .ev, .out, .mem, .prog, .kv, .mrd, .hbm, .ldg, .st, .bt] M := by decide) :
    Within M s0 (s.abandonFrom num code last) :=
  h.step hm (.foldl Within.refl fun _ _ g => g.abandonOne)

theorem Within.trlDrop {p : Nat} (h : Within M s0 s) (hm : Fits [.regs] M := by decide) : Within M s0 (s.trlDrop p) :=
  h.step hm (Within.refl.incReg)

theorem Within.trlNoRoute {p what : Nat} (h : Within M s0 s) (hm : Fits [.regs, .ev, .out] M := by decide) :
    Within M s0 (s.trlNoRoute p what) :=
  h.step hm (Within.refl.trlDrop.report)

theorem Within.sliceViol {p : Nat} {hs : THead} (h : Within M s0 s) (hm : Fits [.regs, .ev, .out] M := by decide) :
    Within M s0 (s.sliceViol p hs) :=
  h.step hm (Within.refl.trlDrop.report)

theorem Within.trlEmit {p : Nat} {hs : THead} {nak : Bool} {body : TBody} (h : Within M s0 s)
    (hm : Fits [.regs, .out, .tre] M := by decide) : Within M s0 (s.trlEmit p hs nak body) :=
  h.step hm (Within.refl.updTP.addReg64.emit)

theorem Within.trlPump {p fuel : Nat} (h : Within M s0 s) (hm : Fits [.regs, .out, .tre] M := by decide) :
    Within M s0 (s.trlPump p fuel) := by
  induction fuel generalizing s with
  | zero => exact h
  | succ fuel ih =>
    rw [State.trlPump]
    split
    · exact h
    · exact ih (h.step hm Within.refl.updTP.trlEmit)

theorem Within.trlFlow {p : Nat} (h : Within M s0 s) (hm : Fits [.regs, .out, .tre] M := by decide) : Within M s0 (s.trlFlow p) :=
  h.step hm (Within.refl.trlPump)

theorem Within.trlPut {p : Nat} {hs : THead} {body : TBody} (h : Within M s0 s) (hm : Fits [.regs, .out, .tre] M := by decide) :
    Within M s0 (s.trlPut p hs body) :=
  h.step hm (Within.refl.updTP.trlFlow)

theorem Within.trlOut {p : Nat} {chk : Bool} {hs : THead} {body : TBody} (h : Within M s0 s)
    (hm : Fits [.regs, .ev, .out, .tre] M := by decide) : Within M s0 (s.trlOut p chk hs body) :=
  h.step hm (.ite (fun _ => Within.refl.sliceViol) fun _ => Within.refl.trlPut)

theorem Within.slicePart {d part nparts : Nat} {m : SliceMsg} (h : Within M s0 s)
    (hm : Fits [.regs, .ev, .out, .tre] M := by decide) : Within M s0 (s.slicePart d part nparts m) := by
  refine h.step hm ?_
  dsimp only [State.slicePart]
  refine .ite (fun _ => Within.refl.sliceViol) fun _ => ?_
  split
  exacts [Within.refl.trlNoRoute, Within.refl.trlOut]

theorem Within.sendSlice {l : Nat} {m : SliceMsg} (h : Within M s0 s) (hm : Fits [.regs, .ev, .out, .tre] M := by decide) :
    Within M s0 (s.sendSlice l m) :=
  h.step hm (by dsimp only [State.sendSlice]; split; exacts [Within.refl.trlNoRoute, .foldl Within.refl fun _ _ g => g.slicePart])

theorem Within.sendAll {l : List Nat} {m : SliceMsg} (h : Within M s0 s) (hm : Fits [.regs, .ev, .out, .tre] M := by decide) :
    Within M s0 (s.sendAll l m) :=
  h.step hm (.foldl Within.refl fun _ _ g => g.sendSlice)

theorem Within.sendAbort {num logical code : Nat} (h : Within M s0 s) (hm : Fits [.regs, .ev, .out, .tre, .slc] M := by decide) :
    Within M s0 (s.sendAbort num logical code) :=
  h.step hm (.log (.flag (.set_slc Within.refl.sendAll (by decide))))

theorem Within.blame {num : Nat} {f : Forbid} (h : Within M s0 s) (hm : Fits (loss []) M := by decide) :
    Within M s0 (s.blame num f) := by
  refine h.step hm ?_
  dsimp only [State.blame]
  split
  exacts [.ite (fun _ => .set_slc Within.refl (by decide)) fun _ => Within.refl.blameGone,
    .ite (fun _ => Within.refl) fun _ => .ite (fun _ => Within.refl.updStep)
      fun _ => by
        split
        exacts [Within.refl.updStep, .abandonFrom (.ite (fun _ => Within.refl.updStep.sendAbort) fun _ => Within.refl.updStep)]]

theorem Within.linkLost {p cause : Nat} (h : Within M s0 s) (hm : Fits (loss []) M := by decide) :
    Within M s0 (s.linkLost p cause) :=
  h.step hm (.foldl Within.refl.updTP.leaveBundle.report fun _ _ g => g.blame)

theorem Within.portOff {n : Nat} (h : Within M s0 s) (hm : Fits (loss []) M := by decide) : Within M s0 (s.portOff n) :=
  h.step hm (.ite (fun _ => .nbrEvent (.updTP (.ite (fun _ => Within.refl.linkLost) fun _ => Within.refl)))
    fun _ => .updTP (.ite (fun _ => Within.refl.linkLost) fun _ => Within.refl))

theorem Within.rwEffect {p off w : Nat} (h : Within M s0 s) (hm : Fits (loss []) M := by decide) :
    Within M s0 (s.rwEffect p off w) := by
  refine h.step hm ?_
  dsimp only [State.rwEffect]
  split
  exacts [.ite (fun _ => Within.refl.setReg.portOff) fun _ => Within.refl.setReg,
    .ite (fun _ => Within.refl.setReg) fun _ => Within.refl.setReg, Within.refl.setReg, Within.refl.setReg]

theorem Within.rwWide {p off v : Nat} (h : Within M s0 s) (hm : Fits [.regs] M := by decide) : Within M s0 (s.rwWide p off v) :=
  h.step hm (.ite (fun _ => Within.refl.setReg64) fun _ => .ite (fun _ => Within.refl.setReg) fun _ => Within.refl.setReg64)

theorem Within.blockWrite {src : Source} {p off w : Nat} (h : Within M s0 s)
    (hm : Fits (loss [.staged, .limStaged, .pages, .lowHeld, .rt]) M := by decide) :
    Within M s0 (s.blockWrite src p off w).2 := by
  refine h.step hm ?_
  dsimp only [State.blockWrite]
  split
  exacts [.gatedR Within.refl fun g => g,
    by
      split
      exacts [.gatedR Within.refl fun g => g, .gatedR Within.refl fun g => g, Within.refl.stageOrder,
        .gatedR Within.refl fun g => g.w1c, .gatedR Within.refl fun g => .ite (fun _ => g.clearLedger) fun _ => g,
        by
          split
          exacts [.gatedR Within.refl fun g => g.rwEffect,
            by
              split
              exacts [.gatedR Within.refl fun g => .set_lowHeld g (by decide),
                .gatedR Within.refl fun g => .rwWide (.set_lowHeld g (by decide))]]]]

theorem Within.physWrite {src : Source} {p off w : Nat} (h : Within M s0 s)
    (hm : Fits (loss [.staged, .limStaged, .pages, .lowHeld, .rt]) M := by decide) : Within M s0 (s.physWrite src p off w).2 := by
  refine h.step hm ?_
  dsimp only [State.physWrite]
  split
  exacts [.gatedR Within.refl fun g => .updPage g (by decide) fun _ => id,
    by
      split
      exacts [.gatedR Within.refl fun g => g,
        by split; exacts [Within.refl.blockWrite, by split; exacts [Within.refl.stageOrder, .gatedR Within.refl fun g => g]]]]

theorem Within.write4 {src : Source} {p off w : Nat} (h : Within M s0 s)
    (hm : Fits (loss [.staged, .limits, .limStaged, .pages, .lowHeld, .host, .combs, .clk, .rt]) M := by decide) :
    Within M s0 (s.write4 src p off w).2 := by
  refine h.step hm ?_
  dsimp only [State.write4]
  split
  exacts [Within.refl.msixWrite,
    by
      split
      exacts [by
          split
          exacts [Within.refl.commitOrder, Within.refl.discardOrder,
            by split; exacts [.gatedR Within.refl fun g => g, Within.refl]],
        by split; exacts [Within.refl.ownerOrder, by split; exacts [Within.refl.physWrite, Within.refl]]]]

theorem Within.write8 {src : Source} {p off v : Nat} (h : Within M s0 s)
    (hm : Fits (loss [.staged, .limits, .limStaged, .pages, .lowHeld, .host, .combs, .clk, .rt]) M := by decide) :
    Within M s0 (s.write8 src p off v) := by
  refine h.step hm ?_
  dsimp only [State.write8]
  split
  exacts [Within.refl.write4.write4,
    by
      split
      exacts [Within.refl.write4.write4,
        .ite (fun _ => Within.refl.write4.write4) fun _ => .ite (fun _ => Within.refl.stageOrder)
          fun _ => .ite (fun _ => .gatedR Within.refl fun g => g.rwWide) fun _ => .gatedR Within.refl fun g => g]]

theorem Within.bar0Refuse {off : Nat} (h : Within M s0 s) (hm : Fits [.regs, .host] M := by decide) :
    Within M s0 (s.bar0Refuse off) :=
  h.step hm (.flag (.incReg (.set_host Within.refl (by decide))))

theorem execRegisterWrite_within {src : Source} {page off width : Nat} {val : DWord} {poisoned : Bool} :
    ResWithin (mask (loss [.staged, .limits, .limStaged, .pages, .lowHeld, .host, .combs, .clk, .rt]))
      s (execRegisterWrite src page off width val poisoned s) :=
  .onUnit (.ite (fun _ => Within.refl.aerReport) fun _ => .ite (fun _ => Within.refl.write8)
    fun _ => .ite (fun _ => Within.refl.write4) fun _ => .ite (fun _ => Within.refl.bar0Refuse) fun _ => Within.refl)

theorem Within.read4 {src : Source} {p off : Nat} (h : Within M s0 s) (hm : Fits [.regs, .latch] M := by decide) :
    Within M s0 (s.read4 src p off).2 := by
  refine h.step hm ?_
  dsimp only [State.read4]
  split
  exacts [Within.refl,
    by
      split
      exacts [Within.refl,
        by
          split
          exacts [Within.refl.setReg,
            by
              split
              exacts [.set_latch Within.refl (by decide),
                by split; exacts [by split; exacts [.set_latch Within.refl (by decide), Within.refl], Within.refl]]]]]

theorem Within.readOut {src : Source} {p off : Nat} (h : Within M s0 s) (hm : Fits [.regs, .latch, .out, .host] M := by decide) :
    Within M s0 (s.readOut src p off) :=
  h.step hm (.ite (fun _ => Within.refl.bar0Refuse.emit) fun _ => Within.refl.read4.emit)

theorem execRcRead_within {src : Source} {page off : Nat} :
    ResWithin (mask [.regs, .latch, .out, .host]) s (execRcRead src page off s) :=
  .onUnit Within.refl.readOut

theorem execLatchedRead_within {src : Source} {page off : Nat} :
    ResWithin (mask [.regs, .latch, .out, .host]) s (execLatchedRead src page off s) :=
  .onUnit Within.refl.readOut

theorem execPageCommit_within {src : Source} {page : Nat} {check : Bool} {seq : BitVec 16} :
    ResWithin (mask [.regs, .staged, .limits, .pages, .ev, .out, .prog, .mrd, .combs, .clk, .tre, .slc])
      s (execPageCommit src page check seq s) :=
  .onUnit Within.refl.commitOrder

theorem execPageDiscard_within {src : Source} {page : Nat} :
    ResWithin (mask [.staged, .limStaged, .pages, .ev, .out]) s (execPageDiscard src page s) :=
  .onUnit Within.refl.discardOrder

theorem execPageClaim_within {src : Source} {page : Nat} :
    ResWithin (mask [.staged, .pages, .ev, .out]) s (execPageClaim src page s) :=
  .onUnit Within.refl.ownerOrder

theorem execPageRelease_within {src : Source} {page : Nat} :
    ResWithin (mask [.staged, .pages, .ev, .out]) s (execPageRelease src page s) :=
  .onUnit Within.refl.ownerOrder

theorem Within.forbid {page code a0 a1 a2 det : Nat} {step : Option Nat} (h : Within M s0 s) (hm : Fits (loss []) M := by decide) :
    Within M s0 (s.forbid page code a0 a1 a2 det step) :=
  h.step hm (Within.refl.log.blame)

theorem Within.raise {page b code a0 a1 a2 det : Nat} {step : Option Nat} (h : Within M s0 s) (hm : Fits (loss []) M := by decide) :
    Within M s0 (s.raise page b code a0 a1 a2 det step) :=
  h.step hm (Within.refl.flag.forbid)

theorem Within.mEvent {site b code a0 a1 a2 det : Nat} {step : Option Nat} (h : Within M s0 s)
    (hm : Fits (loss []) M := by decide) : Within M s0 (s.mEvent site b code a0 a1 a2 det step) :=
  h.step hm (Within.refl.raise)

theorem Within.updM {site : Nat} {f : MTile → MTile} (h : Within M s0 s) (hm : Fits [.mt] M := by decide) :
    Within M s0 (s.updM site f) :=
  h.step hm (.set_mt Within.refl (by decide) swf_sset)

theorem Within.noteOnce {launch : Option Nat} {task code : Nat} (h : Within M s0 s) (hm : Fits [.prog] M := by decide) :
    Within M s0 (s.noteOnce launch task code) :=
  h.step hm (.set_prog Within.refl (by decide) id id)

theorem Within.tallyEvent {site b code f : Nat} {e : CFail} (h : Within M s0 s) (hm : Fits (loss []) M := by decide) :
    Within M s0 (s.tallyEvent site b code f e) :=
  h.step hm (.ite (fun _ => Within.refl.noteOnce.mEvent) fun _ => Within.refl.flag)

theorem Within.csSkip {site n : Nat} {e : CFail} (h : Within M s0 s) (hm : Fits [.regs, .ev, .out, .prog] M := by decide) :
    Within M s0 (s.csSkip site n e) :=
  h.step hm (.ite (fun _ => Within.refl) fun _ => .ite (fun _ => Within.refl.setReg.noteOnce.report)
    fun _ => Within.refl.setReg.flag)

theorem Within.csFail {site : Nat} {f : CFail} (h : Within M s0 s) (hm : Fits (loss [.mt]) M := by decide) :
    Within M s0 (s.csFail site f) :=
  h.step hm (.ite (fun _ => .forbid (.flag (.updM (.ite (fun _ => Within.refl.setReg) fun _ => .ite (fun _ => Within.refl.setReg)
    fun _ => Within.refl)))) fun _ => .updM (.ite (fun _ => Within.refl.setReg) fun _ => .ite (fun _ => Within.refl.setReg)
    fun _ => Within.refl))

theorem Within.checkResult {site : Nat} {f : CFail} (h : Within M s0 s) (hm : Fits (loss [.mt]) M := by decide) :
    Within M s0 (s.checkResult site f) := by
  refine h.step hm ?_
  dsimp only [State.checkResult]
  split
  exacts [Within.refl.tallyEvent, Within.refl.tallyEvent, Within.refl.csSkip, Within.refl.csFail]

theorem Within.checksTo {site now : Nat} (h : Within M s0 s) (hm : Fits (loss [.mt]) M := by decide) :
    Within M s0 (s.checksTo site now) :=
  h.step hm (.foldl Within.refl.updM fun _ _ g => g.checkResult)

theorem Within.mSkip {site c : Nat} (h : Within M s0 s) (hm : Fits [.mt] M := by decide) : Within M s0 (s.mSkip site c) :=
  h.step hm (Within.refl.updM)

theorem Within.nextPass {site : Nat} (h : Within M s0 s) (hm : Fits [.regs, .mem, .mt] M := by decide) :
    Within M s0 (s.nextPass site) := by
  refine h.step hm ?_
  dsimp only [State.nextPass]
  split
  · exact .updM (.set_mem (.ite (fun _ => Within.refl.setReg64.setReg64) fun _ => Within.refl.setReg64.setReg64.setReg)
      (by decide) (Mem.wf_ops swf_disturb))
  · exact Within.refl

theorem Within.gap {site : Nat} {q : MPass} {fmt : Bool} {hs : Nat} (h : Within M s0 s) (hm : Fits (loss [.mt]) M := by decide) :
    Within M s0 (s.gap site q fmt hs) :=
  h.step hm (.ite (fun _ => Within.refl.checksTo.updM.flag) fun _ => .ite (fun _ => Within.refl.checksTo.updM.mEvent)
    fun _ => Within.refl.checksTo.updM.mEvent)

theorem Within.dropPkt1 {site : Nat} {q : MPass} (h : Within M s0 s) (hm : Fits [.mt] M := by decide) :
    Within M s0 (s.dropPkt1 site q) :=
  h.step hm (Within.refl.updM)

theorem Within.takePkt {site : Nat} {q : MPass} {p : WPkt} (h : Within M s0 s) (hm : Fits [.regs, .mt] M := by decide) :
    Within M s0 (s.takePkt site q p) :=
  h.step hm (Within.refl.setReg.updM)

theorem Within.headPkt {site : Nat} {q : MPass} {p : WPkt} (h : Within M s0 s) (hm : Fits (loss [.mt]) M := by decide) :
    Within M s0 (s.headPkt site q p) :=
  h.step hm (.ite (fun _ => Within.refl.gap) fun _ => .ite (fun _ => .ite (fun _ => Within.refl.dropPkt1)
    fun _ => Within.refl.takePkt) fun _ => .ite (fun _ => Within.refl.gap) fun _ => Within.refl.takePkt)

theorem Within.geomCheck {site : Nat} {q : MPass} (h : Within M s0 s) (hm : Fits (loss [.mt]) M := by decide) :
    Within M s0 (s.geomCheck site q) :=
  h.step hm (.ite (fun _ => Within.refl) fun _ => Within.refl.checksTo.updM.mEvent)

theorem Within.updTile {site : Nat} {f : TileSt → TileSt} (h : Within M s0 s) (hm : Fits [.die] M := by decide) :
    Within M s0 (s.updTile site f) :=
  h.step hm (.set_die Within.refl (by decide) swf_sset)

theorem Within.tileTo {site : Nat} {new : TileState} (h : Within M s0 s) (hm : Fits [.regs, .ev, .out, .die] M := by decide) :
    Within M s0 (s.tileTo site new) :=
  h.step hm (.ite (fun _ => Within.refl) fun _ => .log (.updTile (.ite (fun _ => Within.refl.setReg) fun _ => Within.refl)))

theorem Within.bench {site : Nat} {b : BenchBy} (h : Within M s0 s) (hm : Fits [.regs, .ev, .out, .die] M := by decide) :
    Within M s0 (s.bench site b) :=
  h.step hm (Within.refl.tileTo.updTile)

theorem Within.storeDefect {e : DEntry} (h : Within M s0 s) (hm : Fits [.regs, .nv] M := by decide) :
    Within M s0 (s.storeDefect e) :=
  h.step hm (.ite (fun _ => Within.refl.flag)
    fun _ => .ite (fun _ => .set_nv Within.refl (by decide) (⟨id, id, id, le_rfl, fun _ => le_rfl⟩))
    fun _ => .set_nv Within.refl (by decide) (⟨id, id, id, le_rfl, fun _ => le_rfl⟩))

theorem Within.listDefect {d : Defect} {origin ref : Nat} (h : Within M s0 s) (hm : Fits [.regs, .die, .nv] M := by decide) :
    Within M s0 (s.listDefect d origin ref) :=
  h.step hm (.ite (fun _ => Within.refl) fun _ => .storeDefect (.set_die Within.refl (by decide) id))

theorem Within.appendDefect {d : Defect} {ref page : Nat} (h : Within M s0 s)
    (hm : Fits [.regs, .ev, .out, .die, .nv] M := by decide) : Within M s0 (s.appendDefect d ref page) :=
  h.step hm (.ite (fun _ => Within.refl) fun _ => Within.refl.listDefect.log)

theorem Within.noteStrike {ref page code step : Nat} (h : Within M s0 s) (hm : Fits [.regs, .ev, .out, .die] M := by decide) :
    Within M s0 (s.noteStrike ref page code step) :=
  h.step hm (.log (.incReg (.set_die Within.refl (by decide) id)))

theorem Within.toQuarantine {site : Nat} (h : Within M s0 s) (hm : Fits [.regs, .ev, .out, .die] M := by decide) :
    Within M s0 (s.toQuarantine site) :=
  h.step hm (Within.refl.tileTo.updTile)

theorem Within.raiseOffset {c : Nat} (h : Within M s0 s) (hm : Fits [.regs] M := by decide) : Within M s0 (s.raiseOffset c) :=
  h.step hm (Within.refl.setReg)

theorem Within.strikeTile {site code : Nat} (h : Within M s0 s) (hm : Fits [.regs, .ev, .out, .die, .nv] M := by decide) :
    Within M s0 (s.strikeTile site code) := by
  refine h.step hm ?_
  dsimp only [State.strikeTile]
  split
  exacts [Within.refl.noteStrike.appendDefect.bench, Within.refl.noteStrike.raiseOffset.toQuarantine, Within.refl.noteStrike.bench]

theorem Within.forbidUe {site code a0 a1 a2 row : Nat} {step : Option Nat} (h : Within M s0 s)
    (hm : Fits (loss [.die, .nv]) M := by decide) : Within M s0 (s.forbidUe site code a0 a1 a2 row step) :=
  h.step hm (.ite (fun _ => Within.refl.forbid.strikeTile) fun _ => Within.refl.forbid)

theorem Within.opsUe {site row w syn : Nat} {step : Option Nat} (h : Within M s0 s) (hm : Fits (loss [.die, .nv]) M := by decide) :
    Within M s0 (s.opsUe site row w syn step) :=
  h.step hm (Within.refl.incHalf.forbidUe)

theorem Within.opsWord {site w : Nat} {step : Option Nat} (h : Within M s0 s) (hm : Fits (loss [.die, .nv]) M := by decide) :
    Within M s0 (s.opsWord site w step).2 := by
  refine h.step hm ?_
  dsimp only [State.opsWord]
  split
  exacts [Within.refl, by split; exacts [Within.refl, Within.refl.incHalf, Within.refl, Within.refl.opsUe]]

theorem Within.opsWords {site w n : Nat} {step : Option Nat} (h : Within M s0 s) (hm : Fits (loss [.die, .nv]) M := by decide) :
    Within M s0 (s.opsWords site step w n).2 := by
  induction n generalizing s w with
  | zero => exact h
  | succ n ih => exact ih (h.step hm Within.refl.opsWord)

theorem Within.opsBytes {site ofs len : Nat} {step : Option Nat} (h : Within M s0 s) (hm : Fits (loss [.die, .nv]) M := by decide) :
    Within M s0 (s.opsBytes site ofs len step).2.2 :=
  h.step hm (Within.refl.opsWords)

theorem Within.storeVec {site r v : Nat} {step : Option Nat} (h : Within M s0 s) (hm : Fits (loss [.die, .nv]) M := by decide) :
    Within M s0 (s.storeVec site r v step).2 :=
  h.step hm (Within.refl.opsBytes.opsBytes)

theorem Within.endGroup {site g : Nat} {q : MPass} (h : Within M s0 s) (hm : Fits [.mt] M := by decide) :
    Within M s0 (s.endGroup site g q) :=
  h.step hm (Within.refl.updM)

theorem Within.noteTaint {step : Option Nat} {l : List (Nat × Nat × Nat × Nat)} (h : Within M s0 s)
    (hm : Fits [.mrd] M := by decide) : Within M s0 (s.noteTaint step l) := by
  refine h.step hm ?_
  dsimp only [State.noteTaint]
  split
  exacts [Within.refl, .ite (fun _ => Within.refl) fun _ => Within.refl.updStep]

theorem Within.issue {site : Nat} {q : MPass} {v : MVec} (h : Within M s0 s) (hm : Fits [.mrd, .mt] M := by decide) :
    Within M s0 (s.issue site q v) :=
  h.step hm (.ite (fun _ => Within.refl.updM.noteTaint.endGroup) fun _ => Within.refl.updM.noteTaint)

theorem Within.mBubble {site c : Nat} (h : Within M s0 s) (hm : Fits [.regs, .mt] M := by decide) :
    Within M s0 (s.mBubble site c) :=
  h.step hm (Within.refl.setReg.updM)

theorem Within.mStep {site now lim : Nat} (h : Within M s0 s) (hm : Fits (loss [.die, .mt, .nv]) M := by decide)
    (e : s.mStep site now lim = some t := by assumption) : Within M s0 t := by
  refine h.step hm ?_
  unfold State.mStep at e
  extract_lets tile c stop at e
  clear_value stop tile c
  split at e
  · cases e
  · split at e
    · cases e
      exact Within.refl.updM
    · split at e
      · split at e <;> cases e
        · exact Within.refl.mSkip
        · exact Within.refl.nextPass
      · split at e
        · cases e
          exact Within.refl.mSkip
        · split at e
          · cases e
            exact Within.refl.wrapReg.updM
          · split at e
            · cases e
              exact Within.refl.headPkt
            · split at e
              · extract_lets checked at e
                have hc : Within (mask (loss [.die, .mt, .nv])) s checked :=
                  .updM (.ite (fun _ => Within.refl.geomCheck) fun _ => Within.refl)
                clear_value checked
                split at e
                · cases e
                · split at e
                  rename_i v u read
                  have hu : Within (mask (loss [.die, .mt, .nv])) s u := by
                    split at read <;> cases read
                    exacts [hc.storeVec, hc]
                  cases e
                  exact hu.issue
              · extract_lets until_ at e
                rw [Option.ite_none_left_eq_some] at e
                obtain ⟨-, e⟩ := e
                cases e
                exact Within.refl.mBubble

theorem Within.mGo {site now lim n : Nat} (h : Within M s0 s) (hm : Fits (loss [.die, .mt, .nv]) M := by decide) :
    Within M s0 (s.mGo site now lim n) := by
  induction n generalizing s with
  | zero => exact h
  | succ n ih =>
    rw [State.mGo]
    split
    · exact ih (h.step hm Within.refl.mStep)
    · exact h

theorem Within.runM {site now : Nat} (h : Within M s0 s) (hm : Fits (loss [.die, .mt, .nv]) M := by decide) :
    Within M s0 (s.runM site now) :=
  h.step hm (Within.refl.mGo.checksTo)

theorem Within.mAdvance {site now : Nat} (h : Within M s0 s) (hm : Fits (loss [.die, .mt, .nv]) M := by decide) :
    Within M s0 (s.mAdvance site now) :=
  h.step hm (Within.refl.mGo.checksTo)

theorem execPass_within {site : Nat} {w0 : DWord} {rec_ : BitVec 128} {cyc : Nat} {upsets : List Upset} :
    ResWithin (mask (loss [.die, .mt, .nv])) s (execPass site w0 rec_ cyc upsets s) :=
  .onKind (.ite (fun _ => Within.refl) fun _ => .ite (fun _ => Within.refl.mEvent) fun _ => Within.refl.mAdvance.updM.runM)

theorem Within.devTo {new : DevState} (h : Within M s0 s) (hm : Fits [.ev, .out, .dev] M := by decide) :
    Within M s0 (s.devTo new) :=
  h.step hm (.ite (fun _ => Within.refl) fun _ => .ite (fun _ => .log (.set_dev Within.refl (by decide)))
    fun _ => .set_dev (.set_dev Within.refl (by decide)) (by decide))

theorem Within.failWith {b : Nat} (h : Within M s0 s)
    (hm : Fits [.regs, .ev, .out, .dev, .mem, .prog, .kv, .mrd, .hbm, .ldg, .st, .bt] M := by decide) :
    Within M s0 (s.failWith b) :=
  h.step hm (.set_mrd (.foldl (.devTo (.set_dev Within.refl (by decide))) fun _ _ g => g.abandonOne) (by decide))

theorem Within.review (h : Within M s0 s)
    (hm : Fits [.regs, .ev, .out, .dev, .mem, .prog, .kv, .mrd, .hbm, .ldg, .st, .bt] M := by decide) : Within M s0 s.review :=
  h.step hm (.ite (fun _ => Within.refl) fun _ => .ite (fun _ => Within.refl.failWith)
    fun _ => .ite (fun _ => Within.refl.failWith) fun _ => .ite (fun _ => Within.refl.devTo) fun _ => Within.refl)

theorem Within.keeperCommit {p : Nat} (h : Within M s0 s) (hm : Fits [.pages] M := by decide) : Within M s0 (s.keeperCommit p) :=
  h.step hm (.updPage Within.refl (by decide) fun _ => id)

theorem Within.keeperRefused {p : Nat} (h : Within M s0 s) (hm : Fits [.staged, .pages] M := by decide) :
    Within M s0 (s.keeperRefused p) :=
  h.step hm (.updPage Within.refl.dropStaged (by decide) fun _ => id)

theorem Within.stageRemap {comb l e : Nat} (h : Within M s0 s) (hm : Fits [.staged, .pages, .die] M := by decide) :
    Within M s0 (s.stageRemap comb l e) :=
  h.step hm (.ite (fun _ => .set_die Within.refl (by decide) id) fun _ => .ite (fun _ => Within.refl.stage.keeperCommit)
    fun _ => Within.refl.stage.keeperRefused)

theorem Within.makeHole {comb l : Nat} (h : Within M s0 s) (hm : Fits [.staged, .pages, .die] M := by decide) :
    Within M s0 (s.makeHole comb l) :=
  h.step hm (Within.refl.stageRemap)

theorem Within.substitute {comb l : Nat} (h : Within M s0 s)
    (hm : Fits [.regs, .staged, .pages, .ev, .out, .die, .prog] M := by decide) : Within M s0 (s.substitute comb l) := by
  refine h.step hm ?_
  dsimp only [State.substitute]
  refine .ite (fun _ => Within.refl) fun _ => ?_
  split
  exacts [.set_die Within.refl.toQuarantine (by decide) id, Within.refl.makeHole.queueSwitch]

theorem Within.leaveRun {site : Nat} {new : TileState} (h : Within M s0 s)
    (hm : Fits [.regs, .staged, .pages, .ev, .out, .die, .prog] M := by decide) : Within M s0 (s.leaveRun site new) :=
  h.step hm (by dsimp only [State.leaveRun]; split; exacts [Within.refl.tileTo.updTile.substitute, Within.refl.tileTo.updTile])

theorem Within.fence {site code : Nat} (h : Within M s0 s)
    (hm : Fits [.regs, .staged, .pages, .ev, .out, .dev, .die, .mem, .prog, .kv, .mrd, .hbm, .ldg, .st, .bt, .nv] M := by decide) :
    Within M s0 (s.fence site code) :=
  h.step hm (.ite (fun _ => Within.refl.leaveRun.strikeTile.review) fun _ => Within.refl)

theorem Within.fenceM {site : Nat} (h : Within M s0 s)
    (hm : Fits [.regs, .staged, .pages, .ev, .out, .dev, .die, .mem, .prog, .kv, .mrd, .hbm, .ldg, .mt, .st, .bt, .nv] M := by decide) :
    Within M s0 (s.fenceM site) :=
  h.step hm (Within.refl.updM.fence)

theorem Within.emits {o : List Out} (h : Within M s0 s) (hm : Fits [.out] M := by decide) : Within M s0 (s.emits o) :=
  h.step hm (.set_out Within.refl (by decide))

theorem Within.sendGroup {site : Nat} {g : TGroup} {feats : List (List Tal)} (h : Within M s0 s) (hm : Fits [.out] M := by decide) :
    Within M s0 (s.sendGroup site g feats) :=
  h.step hm (Within.refl.emits)

theorem Within.emitRest {site : Nat} (h : Within M s0 s)
    (hm : Fits [.regs, .staged, .pages, .ev, .out, .dev, .die, .mem, .prog, .kv, .mrd, .hbm, .ldg, .mt, .st, .bt, .nv] M := by decide) :
    Within M s0 (s.emitRest site) := by
  refine h.step hm ?_
  dsimp only [State.emitRest]
  split
  exacts [Within.refl, .ite (fun _ => Within.refl) fun _ => Within.refl.sendGroup.fenceM]

theorem Within.tallyEcc {site fixed : Nat} {lost : List (Nat × Nat × Nat)} {step : Option Nat} (h : Within M s0 s)
    (hm : Fits (loss [.die, .nv]) M := by decide) : Within M s0 (s.tallyEcc site fixed lost step) :=
  h.step hm (.foldl (.foldl Within.refl fun _ _ g => g.incHalf) fun _ _ g => g.opsUe)

theorem execGroupEmit_within {site cyc : Nat} {hit : Option (Nat × Tally)} :
    ResWithin (mask (loss [.staged, .pages, .dev, .die, .mt, .nv])) s (execGroupEmit site cyc hit s) := by
  dsimp only [execGroupEmit]
  exact .onKind (by
    split
    exacts [Within.refl.mAdvance.runM.emitRest,
      .ite (fun _ => Within.refl.mAdvance.runM)
        fun _ => .ite (fun _ => .fenceM (.sendGroup (.tallyEcc (.updM (.ite (fun _ => Within.refl.mAdvance.runM)
        fun _ => Within.refl.mAdvance.runM.mAdvance))))) fun _ => by
        split
        exacts [.sendGroup (.tallyEcc (.updM (.ite (fun _ => Within.refl.mAdvance.runM) fun _ => Within.refl.mAdvance.runM.mAdvance))),
          .fenceM (.sendGroup (.csFail (.tallyEcc (.updM (.ite (fun _ => Within.refl.mAdvance.runM)
            fun _ => Within.refl.mAdvance.runM.mAdvance)))))]])

theorem execWeightPacketIntake_within {site : Nat} {pkt : MeshPkt} {cyc : Nat} :
    ResWithin (mask (loss [.die, .mt, .nv])) s (execWeightPacketIntake site pkt cyc s) :=
  .onKind (.ite (fun _ => Within.refl) fun _ => Within.refl.mAdvance.updM.runM)

theorem execLoad_within {site : Nat} {w0 rec_ : DWord} : ResWithin (mask (loss [.mt])) s (execLoad site w0 rec_ s) :=
  .onKind (.ite (fun _ => Within.refl) fun _ => .ite (fun _ => Within.refl.updM.mEvent)
    fun _ => .ite (fun _ => Within.refl.updM.mEvent) fun _ => Within.refl.updM)

theorem Within.updB {site : Nat} {f : BTile → BTile} (h : Within M s0 s) (hm : Fits [.bt] M := by decide) :
    Within M s0 (s.updB site f) :=
  h.step hm (.set_bt Within.refl (by decide) swf_sset)

theorem Within.bClock {site c : Nat} (h : Within M s0 s) (hm : Fits [.regs, .bt] M := by decide) :
    Within M s0 (s.bClock site c) := by
  refine h.step hm ?_
  dsimp only [State.bClock]
  exact .updB (by split; exacts [.ite (fun _ => Within.refl.setReg) fun _ => Within.refl, Within.refl])

theorem Within.inject {site : Nat} {p : MeshPkt} (h : Within M s0 s) (hm : Fits [.out] M := by decide) :
    Within M s0 (s.inject site p) :=
  h.step hm (Within.refl.emit)

theorem Within.seqSend {site : Nat} {l : List (Nat × Nat × Nat)} {us : List (Nat × Bool)} (h : Within M s0 s)
    (hm : Fits [.out] M := by decide) : Within M s0 (s.seqSend site l us) := by
  induction l generalizing s us with
  | nil => exact h
  | cons x l ih => exact ih (h.step hm Within.refl.inject)

theorem Within.updRun {site : Nat} {f : TileRun → TileRun} (h : Within M s0 s) (hm : Fits [.prog] M := by decide) :
    Within M s0 (s.updRun site f) :=
  h.step hm (.set_prog Within.refl (by decide) (fun i => i) swf_sset)

theorem Within.updXfer {site n' : Nat} {f : Xfer → Xfer} (h : Within M s0 s) (hm : Fits [.prog] M := by decide) :
    Within M s0 (s.updXfer site n' f) :=
  h.step hm (Within.refl.updRun)

theorem Within.hbmUnmapped {a src : Nat} {step : Option Nat} (h : Within M s0 s) (hm : Fits (loss []) M := by decide) :
    Within M s0 (s.hbmUnmapped a src step) :=
  h.step hm (Within.refl.raise)

theorem Within.hbmRsv {a src : Nat} {step : Option Nat} (h : Within M s0 s) (hm : Fits (loss []) M := by decide) :
    Within M s0 (s.hbmRsv a src step) :=
  h.step hm (Within.refl.raise)

theorem Within.tileWrite {src a : Nat} {units : List (Nat × Bool)} {step : Option Nat} (h : Within M s0 s)
    (hm : Fits (loss []) M := by decide) : Within M s0 (s.tileWrite src a units step) :=
  h.step hm (.ite (fun _ => Within.refl.raise)
    fun _ => .foldl Within.refl fun _ _ g => .ite (fun _ => .ite (fun _ => g.hbmUnmapped) fun _ => g)
    fun _ => .ite (fun _ => .ite (fun _ => g.hbmRsv) fun _ => g) fun _ => .writeAt g fun g1 => g1)

theorem Within.dropSeg {g : KvSeg} (h : Within M s0 s) (hm : Fits [.kv, .bt] M := by decide) : Within M s0 (s.dropSeg g) := by
  refine h.step hm ?_
  dsimp only [State.dropSeg]
  split
  exacts [.set_kv Within.refl (by decide), .updB (.set_kv Within.refl (by decide))]

theorem Within.poisonRead {hs sa : Nat} {served : Option Nat} (h : Within M s0 s) (hm : Fits (loss []) M := by decide) :
    Within M s0 (s.poisonRead hs sa served) :=
  h.step hm (by dsimp only [State.poisonRead]; split; exacts [Within.refl, Within.refl.blame])

theorem Within.hbmUe {hs sa source kind : Nat} {served : Option Nat} (h : Within M s0 s) (hm : Fits (loss []) M := by decide) :
    Within M s0 (s.hbmUe hs sa source kind served) :=
  h.step hm (by dsimp only [State.hbmUe]; split; exacts [Within.refl.ueLog, Within.refl.ueNote.forbid])

theorem Within.ctlDecode {hs sa source : Nat} {u : List Byte × List Byte} {served : Option Nat} (h : Within M s0 s)
    (hm : Fits (loss []) M := by decide) : Within M s0 (s.ctlDecode hs sa source u served).s := by
  refine h.step hm ?_
  unfold State.ctlDecode
  extract_lets a d c
  have ha : Within (mask (loss [])) s a := .ite (fun _ => Within.refl.addReg64) fun _ => Within.refl
  split
  · exact ha.poisonRead
  · split
    · exact ha.hbmUe
    · split
      exacts [ha, ha.hbmCorrected, ha.hbmUe]

theorem Within.ctlRead {hs sa source : Nat} {served : Option Nat} (h : Within M s0 s) (hm : Fits (loss []) M := by decide) :
    Within M s0 (s.ctlRead hs sa source served).s :=
  h.step hm (Within.refl.ctlDecode)

theorem Within.devUnit {a : Nat} {served : Option Nat} (h : Within M s0 s) (hm : Fits (loss []) M := by decide) :
    Within M s0 (s.devUnit a served).s := by
  refine h.step hm ?_
  unfold State.devUnit
  split
  · exact Within.refl
  · split
    exact Within.refl.ctlRead

theorem Within.segUnits {p k a n : Nat} (h : Within M s0 s) (hm : Fits (loss []) M := by decide) :
    Within M s0 (s.segUnits p k a n).2 :=
  h.step hm (.foldl Within.refl fun _ _ g => .ite (fun _ => g) fun _ => g.devUnit)

theorem Within.segPlace {c : Nat} (h : Within M s0 s) (hm : Fits [.kv, .bt] M := by decide) : Within M s0 (s.segPlace c).2 :=
  h.step hm (by dsimp only [State.segPlace]; split; exacts [Within.refl, by split; exacts [Within.refl.dropSeg, Within.refl]])

theorem Within.bAnswer {site reply rflow op row tag stat : Nat} {halves : List (Nat × Bool)} (h : Within M s0 s)
    (hm : Fits [.out] M := by decide) : Within M s0 (s.bAnswer site reply rflow op row tag stat halves) :=
  h.step hm (Within.refl.inject)

theorem Within.bFmt {site hs src : Nat} (h : Within M s0 s) (hm : Fits (loss []) M := by decide) :
    Within M s0 (s.bFmt site hs src) :=
  h.step hm (.ite (fun _ => Within.refl.raise.bAnswer) fun _ => .ite (fun _ => Within.refl.raise.bAnswer)
    fun _ => Within.refl.raise)

theorem Within.bEnqueue {site hs src len : Nat} {poison : Bool} {port : Option Nat} {cyc : Nat} (h : Within M s0 s)
    (hm : Fits (loss []) M := by decide) : Within M s0 (s.bEnqueue site hs src len poison port cyc) :=
  h.step hm (.ite (fun _ => Within.refl.bFmt) fun _ => .ite (fun _ => Within.refl.bAnswer) fun _ => Within.refl.updB)

theorem Within.bAckPkt {site : Nat} {p : BPkt} (h : Within M s0 s) (hm : Fits [.out] M := by decide) :
    Within M s0 (s.bAckPkt site p) :=
  h.step hm (.ite (fun _ => Within.refl.bAnswer) fun _ => Within.refl)

theorem Within.bHoldRows {site src epoch cyc : Nat} {rows : List (Nat × List RowWord)} {mask : Nat} {partner : Bool} {p : BPkt}
    (h : Within M s0 s) (hm : Fits [.bt] M := by decide) : Within M s0 (s.bHoldRows site src epoch cyc rows mask partner p) :=
  h.step hm (Within.refl.updB)

theorem Within.bRowDone {site pkt : Nat} {lost : Bool} (h : Within M s0 s) (hm : Fits [.out, .bt] M := by decide) :
    Within M s0 (s.bRowDone site pkt lost) := by
  refine h.step hm ?_
  dsimp only [State.bRowDone]
  split
  exacts [Within.refl, .ite (fun _ => Within.refl.updB.bAckPkt) fun _ => Within.refl.updB]

theorem Within.collide {site : Nat} {write own : Bool} {winner loser row : Nat} (h : Within M s0 s)
    (hm : Fits (loss []) M := by decide) : Within M s0 (s.collide site write own winner loser row) :=
  h.step hm (.forbid (.flag (.ite (fun _ => Within.refl) fun _ => Within.refl.setReg)))

theorem Within.bHoldPkt {site : Nat} {pkt : MeshPkt} {port : Option Nat} {cyc : Nat} (h : Within M s0 s)
    (hm : Fits (loss []) M := by decide) : Within M s0 (s.bHoldPkt site pkt port cyc) :=
  h.step hm (.ite (fun _ => Within.refl.bFmt) fun _ => .ite (fun _ => Within.refl.bAckPkt)
    fun _ => .foldl Within.refl.bHoldRows fun _ _ g => g.updB.collide.bRowDone)

theorem Within.segEnqueue {site row n : Nat} {r : SegRead} {cyc : Nat} (h : Within M s0 s) (hm : Fits [.bt] M := by decide) :
    Within M s0 (s.segEnqueue site row n r cyc) :=
  h.step hm (Within.refl.updB)

theorem Within.bTake {site cyc : Nat} {w : BWait} (h : Within M s0 s) (hm : Fits (loss []) M := by decide) :
    Within M s0 (s.bTake site cyc w) := by
  refine h.step hm ?_
  cases w
  exacts [Within.refl.bEnqueue, Within.refl.bHoldPkt, Within.refl.bHoldRows, Within.refl.segEnqueue]

theorem Within.bCome {site cyc : Nat} {w : BWait} (h : Within M s0 s) (hm : Fits (loss []) M := by decide) :
    Within M s0 (s.bCome site cyc w) :=
  h.step hm (.ite (fun _ => Within.refl.bTake) fun _ => Within.refl.updB)

theorem Within.holdPkts {site src mask : Nat} {partner : Bool} {p : BPkt} {rows : List (Nat × List RowWord)} (h : Within M s0 s)
    (hm : Fits (loss []) M := by decide) : Within M s0 (s.holdPkts site src mask partner p rows) :=
  h.step hm (.foldl Within.refl fun _ _ g => g.bCome)

theorem Within.cachePut {p k a n : Nat} (h : Within M s0 s) (hm : Fits (loss []) M := by decide) :
    Within M s0 (s.cachePut p k a n) := by
  refine h.step hm ?_
  unfold State.cachePut
  split
  · exact Within.refl
  refine .ite (fun _ => Within.refl) fun _ => ?_
  split
  next us u hu =>
  have gu : Within (mask (loss [])) s u := .snd hu Within.refl.segUnits
  split
  · split
    exacts [gu.dropSeg, gu]
  · split
    next place v hv =>
    have gv : Within (mask (loss [])) s v := .snd hv (by split; exacts [gu.dropSeg, gu.segPlace])
    split
    · exact gv
    · extract_lets n g src kv x
      split
      · exact gv
      · have hx : Within (mask (loss [])) s x := .set_prog_kv gv (by decide) (by exact id) (by exact id)
        exact hx.holdPkts

theorem Within.copyPage {step src dst : Nat} (h : Within M s0 s) (hm : Fits (loss []) M := by decide) :
    Within M s0 (s.copyPage step src dst) := by
  refine h.step hm ?_
  unfold State.copyPage
  extract_lets base pb a kv b
  have ha : Within (mask (loss [])) s a := .foldl Within.refl fun _ _ g => g.devUnit.devWrite
  have hb : Within (mask (loss [])) s b := ha.set_kv (by decide)
  exact hb.incReg

theorem Within.cowTarget {step task a : Nat} (h : Within M s0 s) (hm : Fits (loss []) M := by decide) :
    Within M s0 (s.cowTarget step task a).2 := by
  refine h.step hm ?_
  dsimp only [State.cowTarget]
  split
  exacts [by split; exacts [Within.refl, by split; exacts [Within.refl, Within.refl.copyPage.updStep]], Within.refl]

theorem Within.cacheSync {a len : Nat} (h : Within M s0 s) (hm : Fits (loss []) M := by decide) :
    Within M s0 (s.cacheSync a len) :=
  h.step hm (by dsimp only [State.cacheSync]; exact .foldl Within.refl fun _ _ g => by split; exacts [g.cachePut, g])

theorem Within.kvWrite {src task a : Nat} {units : List (Nat × Bool)} {step : Option Nat} (h : Within M s0 s)
    (hm : Fits (loss []) M := by decide) : Within M s0 (s.kvWrite src task a units step) := by
  refine h.step hm ?_
  dsimp only [State.kvWrite]
  refine .ite (fun _ => Within.refl.tileWrite) fun _ => .foldl Within.refl fun _ _ g => ?_
  split
  exacts [.cachePut (.tileWrite (by split; exacts [g.cowTarget, g])), .cacheSync (.tileWrite (by split; exacts [g.cowTarget, g]))]

theorem Within.remoteWrites {site a rflow : Nat} {rows : List (List Byte × Bool)} (h : Within M s0 s)
    (hm : Fits [.out] M := by decide) : Within M s0 (s.remoteWrites site a rflow rows) :=
  h.step hm (.foldl Within.refl fun _ _ g => g.inject)

theorem Within.seqDone {site : Nat} {j : SeqJob} (h : Within M s0 s) (hm : Fits (loss []) M := by decide) :
    Within M s0 (s.seqDone site j) := by
  refine h.step hm ?_
  dsimp only [State.seqDone]
  split
  exacts [Within.refl.updB.seqSend, Within.refl.updB.kvWrite.updXfer, Within.refl.updB.remoteWrites]

theorem Within.seqRow {site n' : Nat} {l : List WordRead} (h : Within M s0 s) (hm : Fits (loss []) M := by decide) :
    Within M s0 (s.seqRow site n' l) := by
  refine h.step hm ?_
  dsimp only [State.seqRow]
  split
  exacts [Within.refl, .ite (fun _ => Within.refl.seqDone) fun _ => Within.refl.updB]

theorem Within.bufUe {site row word syn source : Nat} (h : Within M s0 s) (hm : Fits (loss [.die, .nv]) M := by decide) :
    Within M s0 (s.bufUe site row word syn source) :=
  h.step hm (.ite (fun _ => .log (.flag (.ite (fun _ => Within.refl.incHalf) fun _ => Within.refl.incHalf.setReg)))
    fun _ => .forbidUe (.flag (.ite (fun _ => Within.refl.incHalf) fun _ => Within.refl.incHalf.setReg)))

theorem Within.bWords {site row source i : Nat} {ws : List RowWord} (h : Within M s0 s)
    (hm : Fits (loss [.die, .nv]) M := by decide) : Within M s0 (s.bWords site row source ws i).2 := by
  induction ws generalizing s i with
  | nil => exact h
  | cons w ws ih => exact ih (h.step hm (by split; exacts [Within.refl.incHalf, Within.refl.bufUe, Within.refl]))

theorem Within.bReadRow {site row source : Nat} {fl : List Flip} (h : Within M s0 s)
    (hm : Fits (loss [.die, .nv]) M := by decide) : Within M s0 (s.bReadRow site row source fl).2 := by
  refine h.step hm ?_
  unfold State.bReadRow
  exact (Within.refl.set_mem (by decide) (Mem.wf_buf swf_disturb)).bWords

theorem Within.loadRow {site key : Nat} {ws : List RowWord} (h : Within M s0 s) (hm : Fits [.mt] M := by decide) :
    Within M s0 (s.loadRow site key ws) :=
  h.step hm (Within.refl.updM)

theorem Within.bankRead {site : Nat} {l : List BAccess} {a : BAccess} (h : Within M s0 s)
    (hm : Fits (loss [.die, .mt, .nv]) M := by decide) : Within M s0 (s.bankRead site l a) := by
  refine h.step hm ?_
  dsimp only [State.bankRead]
  split
  exacts [.seqRow (by split; exacts [Within.refl, Within.refl.bReadRow]),
    by
      split
      exacts [.loadRow (.emit (by split; exacts [Within.refl, Within.refl.bReadRow])),
        .emit (by split; exacts [Within.refl, Within.refl.bReadRow])]]

theorem Within.bWriteRow {site row mask : Nat} {ws : List RowWord} (h : Within M s0 s) (hm : Fits [.mem, .bt] M := by decide) :
    Within M s0 (s.bWriteRow site row mask ws) :=
  h.step hm (Within.refl.set_mem (by decide) (Mem.wf_buf swf_putRow)).updB

theorem Within.bankWrite {site : Nat} {l : List BAccess} {a : BAccess} (h : Within M s0 s)
    (hm : Fits [.out, .mem, .bt] M := by decide) : Within M s0 (s.bankWrite site l a) := by
  refine h.step hm ?_
  dsimp only [State.bankWrite]
  exact .ite (fun _ => by split; exacts [Within.refl.bWriteRow.bRowDone, Within.refl.bWriteRow]) fun _ => Within.refl

theorem Within.bankCycle {site c : Nat} (h : Within M s0 s) (hm : Fits (loss [.die, .mt, .nv]) M := by decide) :
    Within M s0 (s.bankCycle site c) :=
  h.step hm (.foldl (.foldl Within.refl.updB fun _ _ g => g.bankRead) fun _ _ g => g.bankWrite)

theorem Within.bankSelect {site c : Nat} (h : Within M s0 s) (hm : Fits (loss []) M := by decide) :
    Within M s0 (s.bankSelect site c) :=
  h.step hm (.foldl Within.refl.updB fun _ _ g => g.collide)

theorem Within.bRun {site c : Nat} (h : Within M s0 s) (hm : Fits (loss [.die, .mt, .nv]) M := by decide) :
    Within M s0 (s.bRun site c) :=
  h.step hm (.bClock (.foldl (.foldl Within.refl fun _ _ g => g.bankSelect.bankCycle) fun _ _ g => g.bankSelect))

theorem Within.present {site port : Nat} {rows : List Nat} {cyc : Nat} {flips : List Flip} {load : Option (Nat × (Nat → Nat))}
    (h : Within M s0 s) (hm : Fits [.bt] M := by decide) : Within M s0 (s.present site port rows cyc flips load) :=
  h.step hm (.ite (fun _ => Within.refl) fun _ => Within.refl.updB)

theorem Within.loadSide {site : Nat} {l : MLoad} {g : LdGeom} {n k port cyc : Nat} (h : Within M s0 s)
    (hm : Fits (loss [.die, .mt, .nv]) M := by decide) : Within M s0 (s.loadSide site l g n k port cyc) :=
  h.step hm (.foldl Within.refl.bRun fun _ _ g => g.present)

theorem Within.loadMesh {site : Nat} {l : MLoad} {g : LdGeom} {n b : Nat} (h : Within M s0 s) (hm : Fits [.out] M := by decide) :
    Within M s0 (s.loadMesh site l g n b) :=
  h.step hm (.foldl Within.refl fun _ _ g => .foldl g fun _ _ g1 => g1.inject)

theorem Within.loadReads {site : Nat} {l : MLoad} {cyc : Nat} (h : Within M s0 s)
    (hm : Fits (loss [.die, .mt, .nv]) M := by decide) : Within M s0 (s.loadReads site l cyc) := by
  refine h.step hm ?_
  dsimp only [State.loadReads]
  refine .foldl Within.refl fun _ _ g => ?_
  split
  exacts [g, by split; exacts [g.loadSide, g.loadMesh]]

theorem execPlaneLoadStart_within {site cyc : Nat} : ResWithin (mask (loss [.die, .mt, .nv])) s (execPlaneLoadStart site cyc s) := by
  dsimp only [execPlaneLoadStart]
  exact .onKind (by
    split
    exacts [Within.refl.mAdvance.runM,
      .ite (fun _ => Within.refl.mAdvance.runM)
        fun _ => .loadReads (.ite (fun _ => Within.refl.mAdvance.runM.setReg64.updM.mEvent)
        fun _ => Within.refl.mAdvance.runM.setReg64.updM)])

theorem Within.loadRun {site cyc : Nat} (h : Within M s0 s) (hm : Fits (loss [.die, .mt, .nv]) M := by decide) :
    Within M s0 (s.loadRun site cyc) :=
  h.step hm (.foldl Within.refl fun _ _ g => g.bRun)

theorem execPlaneLoadDone_within {site cyc : Nat} : ResWithin (mask (loss [.die, .mt, .nv])) s (execPlaneLoadDone site cyc s) := by
  dsimp only [execPlaneLoadDone]
  exact .onKind (by
    split
    exacts [.ite (fun _ => Within.refl) fun _ => .ite (fun _ => Within.refl.loadRun) fun _ => Within.refl.loadRun.mAdvance.updM.runM,
      Within.refl])

theorem Within.countUp {site ctr : Nat} (h : Within M s0 s) (hm : Fits [.prog] M := by decide) :
    Within M s0 (s.countUp site ctr) :=
  h.step hm (Within.refl.updRun)

theorem Within.readAt {hs a source : Nat} {fl : List Flip} {served : Option Nat} (h : Within M s0 s)
    (hm : Fits (loss []) M := by decide) : Within M s0 (s.readAt hs a source fl served).s := by
  refine h.step hm ?_
  unfold State.readAt
  exact Within.refl.ctlDecode

theorem Within.tileRead {src a n : Nat} {step : Option Nat} (h : Within M s0 s) (hm : Fits (loss []) M := by decide) :
    Within M s0 (s.tileRead src a n step).2 := by
  refine h.step hm ?_
  unfold State.tileRead
  split
  · exact Within.refl.raise
  · refine .foldlEq Prod.snd Within.refl fun a i c g e => ?_
    dsimp only at e
    split at e <;> subst e
    · exact .ite (fun _ => g.hbmUnmapped) fun _ => g
    · exact g.readAt

theorem Within.holdUnits {site : Nat} {x : Xfer} {addr src : Nat} {units : List (Nat × Bool)} (h : Within M s0 s)
    (hm : Fits (loss []) M := by decide) : Within M s0 (s.holdUnits site x addr src units) :=
  h.step hm (.foldl Within.refl.holdPkts fun _ _ g => g.holdPkts)

theorem Within.opsRange {site row src : Nat} (h : Within M s0 s) (hm : Fits [.regs, .ev, .out] M := by decide) :
    Within M s0 (s.opsRange site row src) :=
  h.step hm (Within.refl.report)

theorem Within.opsHalf {site row half src : Nat} {first : Bool} {u : Nat × Bool} (h : Within M s0 s)
    (hm : Fits [.regs, .ev, .out, .mem] M := by decide) : Within M s0 (s.opsHalf site row half src first u) :=
  h.step hm (.ite (fun _ => .ite (fun _ => Within.refl.opsRange) fun _ => Within.refl)
    fun _ => Within.refl.set_mem (by decide) (Mem.wf_ops swf_putRow))

theorem Within.xferPut {site : Nat} {x : Xfer} {addr src : Nat} {us : List (Nat × Bool)} (h : Within M s0 s)
    (hm : Fits (loss []) M := by decide) : Within M s0 (s.xferPut site x addr src us) :=
  h.step hm (.ite (fun _ => Within.refl.updXfer.holdUnits)
    fun _ => .ite (fun _ => .foldl Within.refl.updXfer fun _ _ g => g.opsHalf) fun _ => Within.refl.updXfer)

theorem Within.xferLocal {site : Nat} {x : Xfer} {addr : Nat} {us : List (Nat × Bool)} (h : Within M s0 s)
    (hm : Fits (loss []) M := by decide) : Within M s0 (s.xferLocal site x addr us) :=
  h.step hm (.foldl Within.refl fun _ _ g => g.xferPut)

theorem Within.segMiss {site : Nat} {x : Xfer} {src a n p k : Nat} {step : Option Nat} (h : Within M s0 s)
    (hm : Fits (loss []) M := by decide) : Within M s0 (s.segMiss site x src a n p k step) :=
  h.step hm (.ite (fun _ => Within.refl.tileRead.incReg.xferLocal.cachePut) fun _ => Within.refl.tileRead.incReg.xferLocal)

theorem Within.kvPiece {site : Nat} {x : Xfer} {src a n : Nat} {step : Option Nat} (h : Within M s0 s)
    (hm : Fits (loss []) M := by decide) : Within M s0 (s.kvPiece site x src a n step) := by
  refine h.step hm ?_
  dsimp only [State.kvPiece]
  split
  exacts [Within.refl.tileRead.xferLocal,
    by split; exacts [by split; exacts [Within.refl.bCome, Within.refl.segMiss], Within.refl.segMiss]]

theorem Within.kvRead {site : Nat} {x : Xfer} {a n : Nat} (h : Within M s0 s) (hm : Fits (loss []) M := by decide) :
    Within M s0 (s.kvRead site x a n) :=
  h.step hm (.ite (fun _ => Within.refl.tileRead.updXfer) fun _ => .foldl Within.refl fun _ _ g => g.kvPiece)

theorem Within.startXfer {site ctr kind addr row left : Nat} (h : Within M s0 s) (hm : Fits [.prog] M := by decide) :
    Within M s0 (s.startXfer site ctr kind addr row left) :=
  h.step hm (.updRun (.set_prog Within.refl (by decide) (fun i => i) (fun i => i)))

theorem Within.remoteReads {site a len rflow : Nat} (h : Within M s0 s) (hm : Fits [.out] M := by decide) :
    Within M s0 (s.remoteReads site a len rflow) :=
  h.step hm (.foldl Within.refl fun _ _ g => g.inject)

theorem execWfill_within {site : Nat} {w0 ofs : DWord} {cyc : Nat} :
    ResWithin (mask (loss [.die, .mt, .nv])) s (execWfill site w0 ofs cyc s) :=
  .onKind (.ite (fun _ => Within.refl) fun _ => .ite (fun _ => Within.refl.countUp)
    fun _ => .ite (fun _ => Within.refl.mAdvance.runM.startXfer.kvRead) fun _ => Within.refl.mAdvance.runM.startXfer.remoteReads)

theorem Within.opsRow {site row : Nat} {data : List Byte} {src : Nat} {poison : Bool} (h : Within M s0 s)
    (hm : Fits [.regs, .ev, .out, .mem] M := by decide) : Within M s0 (s.opsRow site row data src poison) :=
  h.step hm (.ite (fun _ => Within.refl.opsRange) fun _ => Within.refl.set_mem (by decide) (Mem.wf_ops swf_putRow))

theorem execOpsDmaWrite_within {site row : Nat} {data : OpsRow} {src : BitVec 16} :
    ResWithin (mask (loss [.die, .mt, .nv])) s (execOpsDmaWrite site row data src s) :=
  .onUnit (.ite (fun _ => Within.refl) fun _ => Within.refl.mAdvance.runM.opsRow)

theorem Within.sstWord {site w : Nat} (h : Within M s0 s) (hm : Fits (loss [.die, .nv]) M := by decide) :
    Within M s0 (s.sstWord site w).2 := by
  refine h.step hm ?_
  dsimp only [State.sstWord]
  split
  exacts [Within.refl, Within.refl.incHalf, Within.refl, Within.refl.incHalf.flag.forbidUe]

theorem Within.sstWords {site w n : Nat} (h : Within M s0 s) (hm : Fits (loss [.die, .nv]) M := by decide) :
    Within M s0 (s.sstWords site w n).2 := by
  induction n generalizing s w with
  | zero => exact h
  | succ n ih => exact ih (h.step hm Within.refl.sstWord)

theorem Within.sstBytes {site ofs len : Nat} (h : Within M s0 s) (hm : Fits (loss [.die, .nv]) M := by decide) :
    Within M s0 (s.sstBytes site ofs len).2.2 :=
  h.step hm (Within.refl.sstWords)

theorem Within.sVector {site row f n : Nat} {anchor : ℤ} (h : Within M s0 s) (hm : Fits (loss [.die, .nv]) M := by decide) :
    Within M s0 (s.sVector site row f n anchor).2 :=
  h.step hm (by dsimp only [State.sVector]; split; exacts [Within.refl.sstBytes.sstBytes, Within.refl.sstBytes])

theorem Within.sampleBad {site task stream pos : Nat} (h : Within M s0 s) (hm : Fits (loss []) M := by decide) :
    Within M s0 (s.sampleBad site task stream pos) :=
  h.step hm (.ite (fun _ => Within.refl.noteOnce.raise) fun _ => Within.refl.blame)

theorem Within.sendSteers {site : Nat} {op : SOp} {l : List DWord} (h : Within M s0 s) (hm : Fits [.out] M := by decide) :
    Within M s0 (s.sendSteers site op l) :=
  h.step hm (by dsimp only [State.sendSteers]; split; exacts [.foldl Within.refl fun _ _ g => g.inject, Within.refl])

theorem Within.sstPut {site ofs : Nat} {bs : List Byte} (h : Within M s0 s) (hm : Fits [.mem] M := by decide) :
    Within M s0 (s.sstPut site ofs bs) :=
  h.step hm (Within.refl.set_mem (by decide) (Mem.wf_sst fun i => swf_foldl i fun _ _ => swf_putWord))

theorem Within.sOnce {site task code : Nat} {f : State → State} (h : Within M s0 s)
    (hf : ∀ {t}, Within M s0 t → Within M s0 (f t)) (hm : Fits [.prog] M := by decide) : Within M s0 (s.sOnce site task code f) :=
  .ite (fun _ => hf (h.noteOnce hm)) fun _ => h

theorem Within.writeScaled {site task row f : Nat} {l : List SElem} {poison : Bool} (h : Within M s0 s)
    (hm : Fits [.regs, .ev, .out, .mem, .prog] M := by decide) : Within M s0 (s.writeScaled site task row f l poison) := by
  refine h.step hm ?_
  dsimp only [State.writeScaled]
  split
  exacts [Within.refl.sstPut.sstPut.setReg, .sOnce Within.refl.sstPut.sstPut.setReg fun g => g.flag.log]

theorem Within.sOvf {site task : Nat} {l : List Bool} (h : Within M s0 s) (hm : Fits [.ev, .out, .prog] M := by decide) :
    Within M s0 (s.sOvf site task l) :=
  h.step hm (by dsimp only [State.sOvf]; split; exacts [Within.refl, .sOnce Within.refl fun g => g.log])

theorem Within.writeFloat {site task row f : Nat} {l : List SElem} {poison : Bool} (h : Within M s0 s)
    (hm : Fits [.ev, .out, .mem, .prog] M := by decide) : Within M s0 (s.writeFloat site task row f l poison) :=
  h.step hm (Within.refl.sstPut.sOvf)

theorem Within.writeTally {site row : Nat} {anchor : ℤ} {l : List SElem} {poison : Bool} (h : Within M s0 s)
    (hm : Fits [.mem] M := by decide) : Within M s0 (s.writeTally site row anchor l poison) :=
  h.step hm (Within.refl.sstPut)

theorem Within.writeVec {site task row f : Nat} {anchor : ℤ} {l : List SElem} {poison : Bool} (h : Within M s0 s)
    (hm : Fits [.regs, .ev, .out, .mem, .prog] M := by decide) : Within M s0 (s.writeVec site task row f anchor l poison) :=
  h.step hm (.ite (fun _ => Within.refl.writeScaled) fun _ => .ite (fun _ => Within.refl.writeFloat)
    fun _ => Within.refl.writeTally)

theorem Within.putWords {site ofs : Nat} {l : List Nat} {poison : Bool} (h : Within M s0 s) (hm : Fits [.mem] M := by decide) :
    Within M s0 (s.putWords site ofs l poison) :=
  h.step hm (Within.refl.sstPut)

theorem Within.sWrite {site task w1 : Nat} {anchor : ℤ} {op : SOp} {xs : List SElem} {ev : SEval} {poison : Bool}
    (h : Within M s0 s) (hm : Fits [.regs, .ev, .out, .mem, .prog] M := by decide) :
    Within M s0 (s.sWrite site task w1 anchor op xs ev poison) := by
  refine h.step hm ?_
  dsimp only [State.sWrite]
  exact .ite (fun _ => .ite (fun _ => by split; exacts [Within.refl.writeScaled, Within.refl.writeVec])
    fun _ => .putWords (by split; exacts [Within.refl.writeScaled, Within.refl.writeVec]))
    fun _ => .putWords (.ite (fun _ => by split; exacts [Within.refl.writeScaled, Within.refl.writeVec])
    fun _ => .putWords (by split; exacts [Within.refl.writeScaled, Within.refl.writeVec]))

theorem Within.updS {site : Nat} {f : STile → STile} (h : Within M s0 s) (hm : Fits [.st] M := by decide) :
    Within M s0 (s.updS site f) :=
  h.step hm (.set_st Within.refl (by decide) swf_sset)

theorem Within.addShadow {site func task : Nat} {out : SOut} {step : Option Nat} (h : Within M s0 s)
    (hm : Fits [.mrd, .st] M := by decide) : Within M s0 (s.addShadow site func task out step) := by
  refine h.step hm ?_
  dsimp only [State.addShadow]
  split
  exacts [Within.refl, by split; exacts [Within.refl.updS.updStep, Within.refl.updS]]

theorem Within.addToks {step : Option Nat} {stream : Nat} {l : List (Nat × Nat × Nat)} (h : Within M s0 s)
    (hm : Fits [.mrd] M := by decide) : Within M s0 (s.addToks step stream l) :=
  h.step hm (by dsimp only [State.addToks]; split; exacts [Within.refl.updStep, Within.refl])

theorem Within.sApply {site w1 : Nat} {op : SOp} {anchor : ℤ} {live : Nat → Bool} {xs : List SElem} (h : Within M s0 s)
    (hm : Fits (loss []) M := by decide) : Within M s0 (s.sApply site w1 op anchor live xs) :=
  h.step hm (.ite (fun _ => .sampleBad (.sendSteers (.ite (fun _ => .sWrite (.wrapReg
    (.ite (fun _ => Within.refl.sOvf.updS.addShadow) fun _ => Within.refl.sOvf.updS)))
    fun _ => .emit (.sWrite (.wrapReg (.ite (fun _ => Within.refl.sOvf.updS.addShadow) fun _ => Within.refl.sOvf.updS))))))
    fun _ => .ite (fun _ => .sendSteers (.ite (fun _ => .sWrite (.wrapReg (.ite (fun _ => Within.refl.sOvf.updS.addShadow)
    fun _ => Within.refl.sOvf.updS))) fun _ => .emit (.sWrite (.wrapReg (.ite (fun _ => Within.refl.sOvf.updS.addShadow)
    fun _ => Within.refl.sOvf.updS))))) fun _ => .addToks (.sendSteers (.ite (fun _ => .sWrite (.wrapReg
    (.ite (fun _ => Within.refl.sOvf.updS.addShadow) fun _ => Within.refl.sOvf.updS)))
    fun _ => .emit (.sWrite (.wrapReg (.ite (fun _ => Within.refl.sOvf.updS.addShadow) fun _ => Within.refl.sOvf.updS))))))

theorem execSfn_within {site : Nat} {w0 w1 : DWord} {op : SOp} {flips : List Flip} :
    ResWithin (mask (loss [.die, .nv])) s (execSfn site w0 w1 op flips s) := by
  unfold execSfn
  refine .onKind ?_
  extract_lets n a anchor
  refine .ite (fun _ => Within.refl) fun _ => .ite (fun _ => Within.refl.raise) fun _ => ?_
  split
  next x u hu =>
  exact .sApply (.snd hu (.sVector (.set_mem Within.refl (by decide) (Mem.wf_sst swf_disturb))))

theorem Within.shadowDone {step : Nat} (h : Within M s0 s) (hm : Fits [.mrd] M := by decide) : Within M s0 (s.shadowDone step) :=
  h.step hm (Within.refl.updStep)

theorem execShadowCompare_within {site : Nat} {out : SOut} : ResWithin (mask (loss [])) s (execShadowCompare site out s) := by
  dsimp only [execShadowCompare]
  exact .onKind (by
    split
    exacts [Within.refl, .ite (fun _ => Within.refl.updS.shadowDone) fun _ => Within.refl.updS.setReg.setReg.raise])

theorem execArbiterVerdict_within {site : Nat} {out : SOut} :
    ResWithin (mask [.regs, .staged, .pages, .ev, .out, .dev, .die, .mem, .prog, .kv, .mrd, .hbm, .ldg, .st, .bt, .nv])
      s (execArbiterVerdict site out s) := by
  dsimp only [execArbiterVerdict]
  exact .onKind (by split; exacts [Within.refl, .foldl Within.refl.updS.setReg fun _ _ g => g.fence])

theorem execShadowStall_within {site : Nat} : ResWithin (mask [.regs, .st]) s (execShadowStall site s) :=
  by dsimp only [execShadowStall]; exact .onKind (by split; exacts [Within.refl, Within.refl.updS.incReg])

theorem Within.flushed {site : Nat} (h : Within M s0 s) (hm : Fits [.regs] M := by decide) : Within M s0 (s.flushed site) :=
  h.step hm (Within.refl.incReg)

theorem Within.wMarker {site hs : Nat} (h : Within M s0 s) (hm : Fits [.rt] M := by decide) : Within M s0 (s.wMarker site hs) :=
  h.step hm (Within.refl.updR)

theorem Within.wUnroutable {site hs : Nat} (h : Within M s0 s) (hm : Fits (loss []) M := by decide) :
    Within M s0 (s.wUnroutable site hs) :=
  h.step hm (Within.refl.incReg.raise)

theorem Within.updW {site : Nat} {f : WTile → WTile} (h : Within M s0 s) (hm : Fits [.wt] M := by decide) :
    Within M s0 (s.updW site f) :=
  h.step hm (.set_wt Within.refl (by decide) swf_sset)

theorem Within.haltComb {c : Nat} (h : Within M s0 s) (hm : Fits [.prog] M := by decide) : Within M s0 (s.haltComb c) :=
  h.step hm (.queueSwitch (.ite (fun _ => Within.refl) fun _ => .set_prog Within.refl (by decide) id id))

theorem Within.steerFail {site input event expected received : Nat} {w : DWord} (h : Within M s0 s)
    (hm : Fits (loss [.wt]) M := by decide) : Within M s0 (s.steerFail site input event expected received w) :=
  h.step hm (Within.refl.setReg.updW.flag.forbid.haltComb)

theorem Within.wControl {site i cyc : Nat} {w : DWord} (h : Within M s0 s) (hm : Fits [.regs, .wt] M := by decide) :
    Within M s0 (s.wControl site i cyc w) :=
  h.step hm (by dsimp only [State.wControl]; split; exacts [Within.refl.incReg, Within.refl.incReg.updW])

theorem Within.wHeads {site i cyc fuel : Nat} (h : Within M s0 s) (hm : Fits [.regs, .wt] M := by decide) :
    Within M s0 (s.wHeads site i cyc fuel) := by
  induction fuel generalizing s with
  | zero => exact h
  | succ fuel ih =>
    rw [State.wHeads]
    dsimp only
    split
    · exact .ite (fun _ => ih (h.step hm Within.refl.updW.wControl)) fun _ => h
    · exact h

theorem Within.wFree {site i cyc : Nat} (h : Within M s0 s) (hm : Fits [.regs, .wt] M := by decide) :
    Within M s0 (s.wFree site i cyc) :=
  h.step hm (Within.refl.updW.wHeads)

theorem Within.wDone {site : Nat} {w : DWord} (h : Within M s0 s) (hm : Fits [.regs] M := by decide) :
    Within M s0 (s.wDone site w) :=
  h.step hm (.ite (fun _ => Within.refl.incReg) fun _ => Within.refl.wrapReg)

theorem Within.wPair {site i cyc : Nat} {w : DWord} {p : MeshPkt} {own : Bool} (h : Within M s0 s)
    (hm : Fits [.regs, .wt] M := by decide) : Within M s0 (s.wPair site i cyc w p own) :=
  h.step hm (.ite (fun _ => Within.refl.updW.wDone.wFree) fun _ => Within.refl.updW)

theorem Within.steerIn {site i : Nat} {w : DWord} {arr cyc : Nat} (h : Within M s0 s) (hm : Fits (loss [.wt]) M := by decide) :
    Within M s0 (s.steerIn site i w arr cyc) := by
  refine h.step hm ?_
  dsimp only [State.steerIn]
  refine .ite (fun _ => Within.refl.steerFail) fun _ => .ite (fun _ => Within.refl.steerFail) fun _ => ?_
  split
  exacts [.ite (fun _ => Within.refl.updW.wControl) fun _ => Within.refl.updW.updW,
    .ite (fun _ => Within.refl.updW.wControl)
      fun _ => by
        split
        exacts [.ite (fun _ => Within.refl.updW.updW.wPair) fun _ => Within.refl.updW.steerFail, Within.refl.updW.updW],
    Within.refl.updW.updW]

theorem Within.dataIn {site i : Nat} {p : MeshPkt} {arr cyc : Nat} (h : Within M s0 s) (hm : Fits (loss [.wt]) M := by decide) :
    Within M s0 (s.dataIn site i p arr cyc) := by
  refine h.step hm ?_
  dsimp only [State.dataIn]
  refine .ite (fun _ => Within.refl.steerFail) fun _ => ?_
  split
  exacts [Within.refl.updW, .ite (fun _ => Within.refl.updW.wPair) fun _ => Within.refl.steerFail,
    by
      split
      exacts [Within.refl,
        .ite (fun _ => .ite (fun _ => Within.refl.updW.wDone.wFree) fun _ => Within.refl.updW) fun _ => Within.refl.steerFail],
    Within.refl]

theorem Within.wTake {site i cyc : Nat} {item : WItem} (h : Within M s0 s) (hm : Fits (loss [.wt]) M := by decide) :
    Within M s0 (s.wTake site i cyc item) := by
  refine h.step hm ?_
  dsimp only [State.wTake]
  refine .ite (fun _ => Within.refl.flushed) fun _ => .ite (fun _ => Within.refl.updW) fun _ => ?_
  split
  exacts [Within.refl.steerIn, Within.refl.dataIn]

theorem Within.wRetry {site cyc fuel : Nat} (h : Within M s0 s) (hm : Fits (loss [.wt]) M := by decide) :
    Within M s0 (s.wRetry site cyc fuel) := by
  induction fuel generalizing s with
  | zero => exact h
  | succ fuel ih =>
    rw [State.wRetry]
    split
    · exact h
    · exact ih (h.step hm Within.refl.updW.wTake)

theorem Within.wSettle {site cyc : Nat} (h : Within M s0 s) (hm : Fits (loss [.wt]) M := by decide) :
    Within M s0 (s.wSettle site cyc) :=
  h.step hm (Within.refl.wRetry)

theorem Within.wPass {site n i : Nat} (h : Within M s0 s) (hm : Fits [.wt] M := by decide) : Within M s0 (s.wPass site n i) :=
  h.step hm (Within.refl.updW)

theorem Within.wTurns {site n fuel : Nat} (h : Within M s0 s) (hm : Fits [.wt] M := by decide) :
    Within M s0 (s.wTurns site n fuel) := by
  induction fuel generalizing s with
  | zero => exact h
  | succ fuel ih =>
    rw [State.wTurns]
    split
    · exact h
    · dsimp only
      split
      · exact .ite (fun _ => h) fun _ => ih (h.step hm Within.refl.wPass)
      · exact h

theorem Within.wFwd {site at_ : Nat} {g : WGroup} {n : Nat} (h : Within M s0 s) (hm : Fits [.out, .wt] M := by decide) :
    Within M s0 (s.wFwd site at_ g n) :=
  h.step hm (Within.refl.emit.updW)

theorem Within.wNext {site : Nat} {g : WGroup} (h : Within M s0 s) (hm : Fits [.wt] M := by decide) :
    Within M s0 (s.wNext site g) :=
  h.step hm (Within.refl.updW)

theorem Within.wCopy {site at_ : Nat} {g : WGroup} {p : MeshPkt} {n : Nat} (h : Within M s0 s)
    (hm : Fits [.out, .wt] M := by decide) : Within M s0 (s.wCopy site at_ g p n) :=
  h.step hm (.ite (fun _ => .wNext (.ite (fun _ => Within.refl.emit.updW.wPass) fun _ => Within.refl.emit.updW))
    fun _ => .ite (fun _ => Within.refl.emit.updW.wPass) fun _ => Within.refl.emit.updW)

theorem Within.wStep {site at_ : Nat} {g : WGroup} (h : Within M s0 s) (hm : Fits [.out, .wt] M := by decide) :
    Within M s0 (s.wStep site at_ g) :=
  h.step hm (by dsimp only [State.wStep]; split; exacts [Within.refl.wFwd, Within.refl.wCopy, Within.refl.wNext, Within.refl])

theorem Within.wPump {site last fuel : Nat} (h : Within M s0 s) (hm : Fits (loss [.wt]) M := by decide) :
    Within M s0 (s.wPump site last fuel) := by
  induction fuel generalizing s with
  | zero => exact h
  | succ fuel ih =>
    rw [State.wPump]
    split
    · exact h.step hm (.foldl (.ite (fun _ => Within.refl.wSettle) fun _ => Within.refl) fun _ _ g => g.wTurns)
    · exact .ite
        (fun _ => h.step hm (.foldl (.ite (fun _ => Within.refl.wSettle) fun _ => Within.refl) fun _ _ g => g.wTurns))
        fun _ => ih (h.step hm (.wStep (.foldl (.ite (fun _ => Within.refl.wSettle) fun _ => Within.refl) fun _ _ g => g.wTurns)))

theorem Within.wRun {site cyc : Nat} (h : Within M s0 s) (hm : Fits (loss [.wt]) M := by decide) :
    Within M s0 (s.wRun site cyc) :=
  h.step hm (Within.refl.wPump.updW)

theorem Within.wArrive {site hs : Nat} {item : WItem} {cyc : Nat} (h : Within M s0 s) (hm : Fits (loss [.wt]) M := by decide) :
    Within M s0 (s.wArrive site hs item cyc) :=
  h.step hm (by dsimp only [State.wArrive]; split; exacts [Within.refl.wUnroutable, Within.refl.wRun.updW.wSettle])

theorem execSteerWordArrive_within {site : Nat} {hdr : BitVec 128} {w : DWord} {poison : Bool} {cyc : Nat} :
    ResWithin (mask (loss [.wt, .rt])) s (execSteerWordArrive site hdr w poison cyc s) :=
  .onKind (.ite (fun _ => Within.refl.flushed) fun _ => .ite (fun _ => Within.refl.wMarker) fun _ => .ite (fun _ => Within.refl)
    fun _ => Within.refl.wArrive)

theorem execWagDataArrive_within {site : Nat} {pkt : MeshPkt} {cyc : Nat} :
    ResWithin (mask (loss [.wt, .rt])) s (execWagDataArrive site pkt cyc s) :=
  .onKind (.ite (fun _ => Within.refl.flushed) fun _ => .ite (fun _ => Within.refl.wMarker) fun _ => Within.refl.wArrive)

theorem Within.orphan {site i seq : Nat} (h : Within M s0 s) (hm : Fits (loss []) M := by decide) :
    Within M s0 (s.orphan site i seq) :=
  h.step hm (Within.refl.setReg.raise)

theorem Within.wCut {site : Nat} {g : WGroup} (h : Within M s0 s) (hm : Fits [.wt] M := by decide) :
    Within M s0 (s.wCut site g) :=
  h.step hm (Within.refl.updW)

theorem execSteerOrphan_within {site input cyc : Nat} : ResWithin (mask (loss [.wt])) s (execSteerOrphan site input cyc s) := by
  dsimp only [execSteerOrphan]
  exact .onUnit (.ite (fun _ => Within.refl.wRun)
    fun _ => by
      split
      exacts [Within.refl.wRun.wCut.orphan.wFree.wSettle,
        .ite (fun _ => Within.refl.wRun.updW.orphan.wHeads.wSettle) fun _ => Within.refl.wRun, Within.refl.wRun])

theorem Within.redFail {a kind red off : Nat} (h : Within M s0 s) (hm : Fits (loss []) M := by decide) :
    Within M s0 (s.redFail a kind red off) :=
  h.step hm (Within.refl.setReg.raise)

theorem Within.sinkWrite {a e off : Nat} {rows : List (List Byte)} (h : Within M s0 s) (hm : Fits [.mem, .bt] M := by decide) :
    Within M s0 (s.sinkWrite a e off rows) :=
  h.step hm (.ite (fun _ => Within.refl.bHoldRows)
    fun _ => Within.refl.set_mem (by decide) (Mem.wf_sst fun i => swf_foldl i fun _ _ => swf_putRow))

theorem Within.redDone {red : Nat} (h : Within M s0 s) (hm : Fits [.prog] M := by decide) : Within M s0 (s.redDone red) :=
  h.step hm (.set_prog Within.refl (by decide) id id)

theorem Within.chunkDone {a e red off : Nat} (h : Within M s0 s) (hm : Fits [.prog, .rt] M := by decide) :
    Within M s0 (s.chunkDone a e red off) :=
  h.step hm (.ite (fun _ => Within.refl.updR.redDone) fun _ => Within.refl.updR)

theorem Within.sinkChunk {site : Nat} {c : ChunkAcc} (h : Within M s0 s) (hm : Fits (loss [.rt]) M := by decide) :
    Within M s0 (s.sinkChunk site c) := by
  refine h.step hm ?_
  dsimp only [State.sinkChunk]
  split
  exacts [Within.refl.redFail,
    .ite (fun _ => Within.refl.redFail) fun _ => .ite (fun _ => Within.refl.sinkWrite.redFail)
      fun _ => .ite (fun _ => Within.refl.updR) fun _ => .ite (fun _ => .ite (fun _ => Within.refl.sinkWrite.chunkDone)
      fun _ => Within.refl.sinkWrite.chunkDone.redFail) fun _ => Within.refl.sinkWrite.chunkDone.redFail]

theorem Within.sinkRetryGo {a fuel : Nat} (h : Within M s0 s) (hm : Fits (loss [.rt]) M := by decide) :
    Within M s0 (s.sinkRetryGo a fuel) := by
  induction fuel generalizing s with
  | zero => exact h
  | succ fuel ih =>
    rw [State.sinkRetryGo]
    split
    · exact h
    · exact ih (h.step hm Within.refl.updR.sinkChunk)

theorem Within.sinkRetry {a : Nat} (h : Within M s0 s) (hm : Fits (loss [.rt]) M := by decide) : Within M s0 (s.sinkRetry a) :=
  h.step hm (Within.refl.sinkRetryGo)

theorem Within.giveBack {a port lane : Nat} (h : Within M s0 s) (hm : Fits [.rt] M := by decide) :
    Within M s0 (s.giveBack a port lane) :=
  h.step hm (.ite (fun _ => Within.refl) fun _ => Within.refl.updR)

theorem Within.updLane {a k : Nat} {f : RLane → RLane} (h : Within M s0 s) (hm : Fits [.rt] M := by decide) :
    Within M s0 (s.updLane a k f) :=
  h.step hm (Within.refl.updR)

theorem Within.dropLane {a k : Nat} (h : Within M s0 s) (hm : Fits [.rt] M := by decide) : Within M s0 (s.dropLane a k) :=
  h.step hm (Within.refl.updLane.giveBack)

theorem Within.dropPkt {a : Nat} (h : Within M s0 s) (hm : Fits [.regs] M := by decide) : Within M s0 (s.dropPkt a) :=
  h.step hm (Within.refl.incReg)

theorem Within.cutLane {a k : Nat} (h : Within M s0 s) (hm : Fits [.rt] M := by decide) : Within M s0 (s.cutLane a k) := by
  refine h.step hm ?_
  dsimp only [State.cutLane]
  refine .ite (fun _ => Within.refl) fun _ => ?_
  split
  exacts [Within.refl.updLane, Within.refl.updLane.updR]

theorem Within.enqueue {a k cyc : Nat} {f : PFlit} {hs outs : Nat} {esc hold : Bool} (h : Within M s0 s)
    (hm : Fits [.rt] M := by decide) : Within M s0 (s.enqueue a k cyc f hs outs esc hold) :=
  h.step hm (Within.refl.updLane)

theorem Within.unroutable {a hs : Nat} (h : Within M s0 s) (hm : Fits (loss []) M := by decide) :
    Within M s0 (s.unroutable a hs) :=
  h.step hm (Within.refl.dropPkt.raise)

theorem Within.headIn {a port cyc : Nat} {f : Flit} (h : Within M s0 s) (hm : Fits (loss [.rt]) M := by decide) :
    Within M s0 (s.headIn a port cyc f) :=
  h.step hm (.ite (fun _ => Within.refl.cutLane.dropPkt.dropLane.raise)
    fun _ => .ite (fun _ => Within.refl.cutLane.dropLane.raise) fun _ => .ite (fun _ => Within.refl.cutLane.dropLane.incReg)
    fun _ => .ite (fun _ => Within.refl.cutLane.enqueue) fun _ => .ite (fun _ => Within.refl.cutLane.unroutable.dropLane)
    fun _ => Within.refl.cutLane.enqueue)

theorem Within.crossed {a port lane : Nat} (h : Within M s0 s) (hm : Fits [.rt] M := by decide) :
    Within M s0 (s.crossed a port lane) := by
  refine h.step hm ?_
  dsimp only [State.crossed]
  refine .ite (fun _ => Within.refl) fun _ => ?_
  split
  exacts [Within.refl, Within.refl.updR.updR]

theorem Within.bodyIn {a port cyc : Nat} {f : Flit} {good : Bool} (h : Within M s0 s) (hm : Fits [.rt] M := by decide) :
    Within M s0 (s.bodyIn a port cyc f good) :=
  h.step hm (.ite (fun _ => Within.refl.giveBack) fun _ => Within.refl.updLane)

theorem Within.linkDown {a port kind : Nat} (h : Within M s0 s) (hm : Fits (loss [.rt]) M := by decide) :
    Within M s0 (s.linkDown a port kind) :=
  h.step hm (.ite (fun _ => Within.refl) fun _ => .ite (fun _ => Within.refl.updR) fun _ => Within.refl.updR.raise)

theorem Within.cutLink {a port : Nat} (h : Within M s0 s) (hm : Fits [.die, .prog] M := by decide) :
    Within M s0 (s.cutLink a port) := by
  refine h.step hm ?_
  dsimp only [State.cutLink]
  exact .queueSwitch (by
    split
    exacts [.ite (fun _ => Within.refl) fun _ => .set_die Within.refl (by decide) id, .set_die Within.refl (by decide) id])

theorem Within.crcFail {a port vc : Nat} (h : Within M s0 s) (hm : Fits (loss [.die, .rt]) M := by decide) :
    Within M s0 (s.crcFail a port vc) := by
  refine h.step hm ?_
  dsimp only [State.crcFail]
  exact .ite (fun _ => .linkDown (.ite (fun _ => .flag
    (.updR (by split; exacts [Within.refl.incReg.incHalf.flag, Within.refl.incReg])))
    fun _ => .ite (fun _ => .cutLink (.raise (.updR
    (.updR (by split; exacts [Within.refl.incReg.incHalf.flag, Within.refl.incReg])))))
    fun _ => .raise (.updR (.updR (by split; exacts [Within.refl.incReg.incHalf.flag, Within.refl.incReg])))))
    fun _ => .ite (fun _ => .flag (.updR (by split; exacts [Within.refl.incReg.incHalf.flag, Within.refl.incReg])))
    fun _ => .ite (fun _ => .cutLink (.raise (.updR
    (.updR (by split; exacts [Within.refl.incReg.incHalf.flag, Within.refl.incReg])))))
    fun _ => .raise (.updR (.updR (by split; exacts [Within.refl.incReg.incHalf.flag, Within.refl.incReg])))

theorem Within.flitIn {a port cyc : Nat} {f : Flit} (h : Within M s0 s) (hm : Fits (loss [.die, .rt]) M := by decide) :
    Within M s0 (s.flitIn a port cyc f) := by
  refine h.step hm ?_
  unfold State.flitIn
  extract_lets lane room a b
  have ha : Within (mask (loss [.die, .rt])) s a := Within.refl.updR
  have hb : Within (mask (loss [.die, .rt])) s b := Within.refl.crcFail
  exact .ite
    (fun _ => .ite (fun _ => ha) fun _ => .ite (fun _ => ha.crossed.headIn) fun _ => .ite (fun _ => ha.crossed.bodyIn) fun _ => ha)
    fun _ => .ite (fun _ => hb.crossed.cutLane.dropLane) fun _ => .ite (fun _ => hb.crossed.bodyIn) fun _ => hb

theorem Within.takeCredit {a port : Nat} {c : BitVec 4} (h : Within M s0 s) (hm : Fits [.rt] M := by decide) :
    Within M s0 (s.takeCredit a port c) :=
  h.step hm (.ite (fun _ => Within.refl.updR) fun _ => Within.refl)

theorem Within.takeWord {a port cyc : Nat} {w : LinkIn} (h : Within M s0 s) (hm : Fits (loss [.die, .rt]) M := by decide) :
    Within M s0 (s.takeWord a port cyc w) := by
  cases w with
  | flit f c => exact h.step hm (.ite (fun _ => Within.refl) fun _ => Within.refl.takeCredit.flitIn)
  | beat d c =>
    exact h.step hm (.ite (fun _ => Within.refl) fun _ =>
      .ite (fun _ => Within.refl.takeCredit.updR) fun _ => Within.refl.takeCredit.updR.flitIn)

theorem Within.sealDone {hs : Nat} (h : Within M s0 s) (hm : Fits [.mrd] M := by decide) : Within M s0 (s.sealDone hs) :=
  h.step hm (.set_mrd Within.refl (by decide))

theorem Within.seqGap {a hs want : Nat} (h : Within M s0 s) (hm : Fits (loss []) M := by decide) :
    Within M s0 (s.seqGap a hs want) :=
  h.step hm (Within.refl.setReg64.raise)

theorem Within.guardPkt {a : Nat} {edge : Bool} {p : MeshPkt} (h : Within M s0 s) (hm : Fits (loss [.rt]) M := by decide) :
    Within M s0 (s.guardPkt a edge p).2 := by
  refine h.step hm ?_
  dsimp only [State.guardPkt]
  split
  exacts [Within.refl, by split; exacts [Within.refl.updR.incReg, by split; exacts [Within.refl.updR, Within.refl.updR.seqGap]]]

theorem Within.ownNoRoute {p what : Nat} {step : Option Nat} (h : Within M s0 s) (hm : Fits (loss []) M := by decide) :
    Within M s0 (s.ownNoRoute p what step) :=
  h.step hm (Within.refl.trlDrop.raise)

theorem Within.attInject {att : Nat} {p : MeshPkt} (h : Within M s0 s) (hm : Fits [.out] M := by decide) :
    Within M s0 (s.attInject att p) :=
  h.step hm (by dsimp only [State.attInject]; split; exacts [Within.refl.emit, Within.refl])

theorem Within.hbmAnswer {hs op q addr tagStat : Nat} {units : List (Nat × Bool)} (h : Within M s0 s)
    (hm : Fits [.out] M := by decide) : Within M s0 (s.hbmAnswer hs op q addr tagStat units) :=
  h.step hm (Within.refl.attInject)

theorem Within.trlOwn {via dst cls slice flow : Nat} {p : MeshPkt} {step : Option Nat} (h : Within M s0 s)
    (hm : Fits (loss []) M := by decide) : Within M s0 (s.trlOwn via dst cls slice flow p step) := by
  refine h.step hm ?_
  dsimp only [State.trlOwn]
  refine .ite (fun _ => Within.refl.sliceViol) fun _ => ?_
  split
  exacts [Within.refl.ownNoRoute, Within.refl.trlOut]

theorem Within.remoteRequest {port : Nat} {p : MeshPkt} (h : Within M s0 s) (hm : Fits (loss []) M := by decide) :
    Within M s0 (s.remoteRequest port p) := by
  refine h.step hm ?_
  dsimp only [State.remoteRequest]
  split
  exacts [.ownNoRoute (.ite (fun _ => Within.refl.hbmAnswer) fun _ => Within.refl), Within.refl.trlOwn]

theorem Within.serveRemote {p : Nat} {hs : THead} {m : MeshPkt} (h : Within M s0 s) (hm : Fits [.out, .tre] M := by decide) :
    Within M s0 (s.serveRemote p hs m) :=
  h.step hm (.ite (fun _ => Within.refl.attInject) fun _ => .attInject (.set_tre Within.refl (by decide) id))

theorem Within.freeRx {p chan units : Nat} (h : Within M s0 s) (hm : Fits [.tre] M := by decide) :
    Within M s0 (s.freeRx p chan units) :=
  h.step hm (Within.refl.updTP)

theorem Within.servePending {p fuel : Nat} (h : Within M s0 s) (hm : Fits [.out, .tre] M := by decide) :
    Within M s0 (s.servePending p fuel) := by
  induction fuel generalizing s with
  | zero => exact h
  | succ fuel ih =>
    rw [State.servePending]
    split
    · exact h
    · exact .ite (fun _ => h) fun _ => ih (h.step hm Within.refl.updTP.freeRx.serveRemote)

theorem Within.remoteAnswer {port : Nat} {p : MeshPkt} (h : Within M s0 s) (hm : Fits (loss []) M := by decide) :
    Within M s0 (s.remoteAnswer port p) := by
  refine h.step hm ?_
  dsimp only [State.remoteAnswer]
  split
  exacts [Within.refl.trlDrop, .servePending (.trlOwn (.set_tre Within.refl (by decide) id))]

theorem Within.hiveFail {p kind red off : Nat} {step : Option Nat} (h : Within M s0 s) (hm : Fits (loss []) M := by decide) :
    Within M s0 (s.hiveFail p kind red off step) :=
  h.step hm (.ite (fun _ => Within.refl.raise) fun _ => Within.refl.forbid)

theorem Within.hiveSend {p e contrib : Nat} {c : ChunkAcc} {poison : Bool} {step : Option Nat} (h : Within M s0 s)
    (hm : Fits (loss []) M := by decide) : Within M s0 (s.hiveSend p e contrib c poison step) := by
  refine h.step hm ?_
  dsimp only [State.hiveSend]
  refine .ite (fun _ => Within.refl.attInject) fun _ => ?_
  split
  exacts [Within.refl.ownNoRoute, Within.refl.trlOwn]

theorem Within.hiveDone {p : Nat} {c : ChunkAcc} (h : Within M s0 s) (hm : Fits [.tre] M := by decide) :
    Within M s0 (s.hiveDone p c) :=
  h.step hm (Within.refl.updTP)

theorem Within.hiveTake {p : Nat} {pkt : MeshPkt} (h : Within M s0 s) (hm : Fits (loss []) M := by decide) :
    Within M s0 (s.hiveTake p pkt) := by
  refine h.step hm ?_
  dsimp only [State.hiveTake]
  split
  exacts [Within.refl.hiveFail,
    .ite (fun _ => Within.refl.hiveFail) fun _ => .ite (fun _ => Within.refl.hiveSend.hiveFail)
      fun _ => .ite (fun _ => Within.refl.updTP) fun _ => .ite (fun _ => .ite (fun _ => Within.refl.hiveDone.hiveSend)
      fun _ => Within.refl.hiveDone.hiveSend.hiveFail) fun _ => Within.refl.hiveDone.hiveSend.hiveFail]

theorem Within.hiveRetry {p fuel : Nat} (h : Within M s0 s) (hm : Fits (loss []) M := by decide) :
    Within M s0 (s.hiveRetry p fuel) := by
  induction fuel generalizing s with
  | zero => exact h
  | succ fuel ih =>
    rw [State.hiveRetry]
    split
    · exact h
    · exact ih (h.step hm Within.refl.updTP.hiveTake)

theorem Within.hiveChunk {p : Nat} {pkt : MeshPkt} (h : Within M s0 s) (hm : Fits (loss []) M := by decide) :
    Within M s0 (s.hiveChunk p pkt) :=
  h.step hm (.ite (fun _ => Within.refl.updTP) fun _ => Within.refl.hiveTake.hiveRetry)

theorem Within.toTreath {p : Nat} {pkt : MeshPkt} (h : Within M s0 s) (hm : Fits (loss []) M := by decide) :
    Within M s0 (s.toTreath p pkt) := by
  refine h.step hm ?_
  dsimp only [State.toTreath]
  split
  exacts [Within.refl.remoteRequest, Within.refl.remoteAnswer, Within.refl.hiveChunk, Within.refl.emit]

theorem Within.toAttach {a : Nat} {p : MeshPkt} (h : Within M s0 s) (hm : Fits (loss [.rt]) M := by decide) :
    Within M s0 (s.toAttach a p) :=
  h.step hm (.ite (fun _ => Within.refl.guardPkt.sealDone) fun _ => .ite (fun _ => Within.refl.guardPkt.toTreath)
    fun _ => Within.refl.guardPkt.emit)

theorem Within.losePkt {a hs : Nat} (h : Within M s0 s) (hm : Fits (loss []) M := by decide) : Within M s0 (s.losePkt a hs) :=
  h.step hm (Within.refl.dropPkt.blame)

theorem Within.loadAnswer {site : Nat} {p : MeshPkt} (h : Within M s0 s) (hm : Fits [.mt] M := by decide) :
    Within M s0 (s.loadAnswer site p) :=
  h.step hm (.ite (fun _ => Within.refl) fun _ => .foldl Within.refl fun _ _ g => g.loadRow)

theorem Within.xferAnswer {site : Nat} {p : MeshPkt} (h : Within M s0 s) (hm : Fits (loss [.mt]) M := by decide) :
    Within M s0 (s.xferAnswer site p) := by
  refine h.step hm ?_
  dsimp only [State.xferAnswer]
  split
  exacts [Within.refl.loadAnswer,
    .ite (fun _ => Within.refl.updXfer.updRun) fun _ => .ite (fun _ => Within.refl.updXfer) fun _ => Within.refl.xferPut]

theorem Within.portIn {a : Nat} {p : MeshPkt} (h : Within M s0 s) (hm : Fits (loss [.mt, .rt]) M := by decide) :
    Within M s0 (s.portIn a p) :=
  h.step hm (.ite (fun _ => Within.refl.guardPkt.updR) fun _ => .ite (fun _ => Within.refl.guardPkt.sealDone)
    fun _ => Within.refl.guardPkt.emit.xferAnswer)

theorem Within.deliver {a : Nat} {p : MeshPkt} (h : Within M s0 s) (hm : Fits (loss [.mt, .rt]) M := by decide) :
    Within M s0 (s.deliver a p) :=
  h.step hm (.ite (fun _ => Within.refl.losePkt) fun _ => .ite (fun _ => Within.refl.updR) fun _ => Within.refl.portIn)

theorem Within.finish {a mask : Nat} {p : MeshPkt} (h : Within M s0 s) (hm : Fits (loss [.mt, .rt]) M := by decide) :
    Within M s0 (s.finish a mask p) :=
  h.step hm (.ite (fun _ => .toAttach (.ite (fun _ => Within.refl.deliver) fun _ => Within.refl))
    fun _ => .ite (fun _ => Within.refl.deliver) fun _ => Within.refl)

theorem Within.spend {a t port lane : Nat} {f : Flit} (h : Within M s0 s) (hm : Fits [.rt] M := by decide) :
    Within M s0 (s.spend a t port lane f) :=
  h.step hm (Within.refl.updR)

theorem Within.leave {a t : Nat} {c : LaneCand} (h : Within M s0 s) (hm : Fits (loss [.mt, .rt]) M := by decide) :
    Within M s0 (s.leave a t c) :=
  h.step hm (.ite (fun _ => .finish (.giveBack (.foldl (.updR (.updLane (.foldl Within.refl fun _ _ g => g.losePkt)))
    fun _ _ g => g.spend))) fun _ => .giveBack (.foldl (.updR (.updLane (.foldl Within.refl fun _ _ g => g.losePkt)))
    fun _ _ g => g.spend))

theorem Within.sendWhole {a : Nat} {fl : List PFlit} {esc : Bool} {cyc : Nat} (h : Within M s0 s)
    (hm : Fits (loss [.rt]) M := by decide) : Within M s0 (s.sendWhole a fl esc cyc) := by
  refine h.step hm ?_
  dsimp only [State.sendWhole]
  split
  exacts [Within.refl, .ite (fun _ => Within.refl.unroutable) fun _ => Within.refl.updLane]

theorem Within.combine {a : Nat} {fl : List PFlit} {esc : Bool} {came cyc : Nat} (h : Within M s0 s)
    (hm : Fits (loss [.rt]) M := by decide) : Within M s0 (s.combine a fl esc came cyc) := by
  refine h.step hm ?_
  dsimp only [State.combine]
  refine .ite (fun _ => Within.refl.sendWhole) fun _ => ?_
  split
  exacts [Within.refl.updR.incReg, by split; exacts [Within.refl.updR, Within.refl.sendWhole]]

theorem Within.gather {a t k : Nat} (h : Within M s0 s) (hm : Fits (loss [.rt]) M := by decide) : Within M s0 (s.gather a t k) := by
  refine h.step hm ?_
  dsimp only [State.gather]
  split
  exacts [Within.refl, .ite (fun _ => Within.refl.updLane.giveBack.combine) fun _ => Within.refl.updLane.giveBack]

theorem Within.nextCredit {a port : Nat} (h : Within M s0 s) (hm : Fits [.rt] M := by decide) :
    Within M s0 (s.nextCredit a port).2 :=
  h.step hm (by dsimp only [State.nextCredit]; split; exacts [Within.refl.updR, Within.refl])

theorem Within.portOut {a port : Nat} {f : Option Flit} (h : Within M s0 s) (hm : Fits [.out, .rt] M := by decide) :
    Within M s0 (s.portOut a port f) :=
  h.step hm (.ite (fun _ => .foldl Within.refl fun _ _ g => g.nextCredit.emit) fun _ => Within.refl.nextCredit.emit)

theorem Within.meshCycle {a t : Nat} (h : Within M s0 s) (hm : Fits (loss [.mt, .rt]) M := by decide) :
    Within M s0 (s.meshCycle a t).2 :=
  h.step hm (.foldl (.foldl (.foldl Within.refl fun _ _ g => g.leave) fun _ _ g => g.gather) fun _ _ g => g.portOut)

theorem Within.meshRun {a cyc fuel : Nat} (h : Within M s0 s) (hm : Fits (loss [.mt, .rt]) M := by decide) :
    Within M s0 (s.meshRun a cyc fuel) := by
  induction fuel generalizing s with
  | zero => exact h
  | succ fuel ih =>
    rw [State.meshRun]
    have hc : Within M s0 (((s.meshCycle a ((s.router a).now + 1)).2).updR a fun r => { r with now := (s.router a).now + 1 }) :=
      h.step hm Within.refl.meshCycle.updR
    exact .ite (fun _ => h) fun _ => .ite (fun _ => ih hc) fun _ => hc

theorem Within.meshTo {a cyc : Nat} (h : Within M s0 s) (hm : Fits (loss [.mt, .rt]) M := by decide) :
    Within M s0 (s.meshTo a cyc) :=
  h.step hm (.updR (.ite (fun _ => Within.refl.meshRun) fun _ => Within.refl.meshRun.emit))

theorem execFlitReceive_within {site port : Nat} {word : LinkIn} {cyc : Nat} :
    ResWithin (mask (loss [.die, .mt, .rt])) s (execFlitReceive site port word cyc s) :=
  .onUnit (.ite (fun _ => Within.refl) fun _ => Within.refl.meshTo.takeWord.sinkRetry)

theorem execLinkSilence_within {site port : Nat} : ResWithin (mask (loss [.rt])) s (execLinkSilence site port s) :=
  .onUnit (.ite (fun _ => Within.refl) fun _ => Within.refl.linkDown)

theorem execCombineWindowExpire_within {site slot cyc : Nat} :
    ResWithin (mask (loss [.mt, .rt])) s (execCombineWindowExpire site slot cyc s) := by
  dsimp only [execCombineWindowExpire]
  exact .onUnit (by
    split
    exacts [Within.refl.meshTo, .ite (fun _ => Within.refl.meshTo) fun _ => Within.refl.meshTo.updR.sendWhole])

theorem execSinkChunkReceive_within {site : Nat} {pkt : MeshPkt} :
    ResWithin (mask (loss [.rt])) s (execSinkChunkReceive site pkt s) :=
  .onUnit (.ite (fun _ => Within.refl.losePkt) fun _ => .ite (fun _ => Within.refl.updR) fun _ => Within.refl.sinkChunk.sinkRetry)

theorem Within.useFlow {site dest flow step : Nat} {guard : Bool} (h : Within M s0 s) (hm : Fits [.rt] M := by decide) :
    Within M s0 (s.useFlow site dest flow step guard).2 :=
  h.step hm (Within.refl.updR)

theorem execSealFlow_within {site : Nat} {dest : BitVec 16} {flow : BitVec 12} :
    ResWithin (mask [.out, .rt]) s (execSealFlow site dest flow s) :=
  by dsimp only [execSealFlow]; exact .onUnit (by split; exacts [Within.refl, Within.refl.useFlow.inject])

theorem execDeadlockSuspect_within {comb : Nat} : ResWithin (mask (loss [.rt])) s (execDeadlockSuspect comb s) :=
  .onUnit (.ite (fun _ => Within.refl) fun _ => .haltComb (.forbid (.foldl Within.refl fun _ _ g => g.flag.updR)))

theorem execScheduledRead_within {site port row : Nat} {pair : Bool} {cyc : Nat} {flips : List Flip} :
    ResWithin (mask (loss [.die, .mt, .nv])) s (execScheduledRead site port row pair cyc flips s) :=
  .onUnit Within.refl.bRun.present

theorem Within.sideWord {site row i : Nat} {w : RowWord} (h : Within M s0 s) (hm : Fits (loss [.die, .nv]) M := by decide) :
    Within M s0 (s.sideWord site row i w).2 := by
  refine h.step hm ?_
  unfold State.sideWord
  split
  · exact Within.refl
  · exact Within.refl
  · exact Within.refl
  · dsimp only
    exact Within.refl.bufUe

theorem Within.sideWords {site row i : Nat} {ws : List RowWord} (h : Within M s0 s)
    (hm : Fits (loss [.die, .nv]) M := by decide) : Within M s0 (s.sideWords site row ws i).2 := by
  induction ws generalizing s i with
  | nil => exact h
  | cons w ws ih => exact ih (h.step hm Within.refl.sideWord)

theorem execScheduledWrite_within {site port row : Nat} {words : List RowWord} {cyc : Nat} :
    ResWithin (mask (loss [.die, .mt, .nv])) s (execScheduledWrite site port row words cyc s) := by
  dsimp only [execScheduledWrite]
  exact .onUnit (.ite (fun _ => Within.refl.bRun)
    fun _ => .foldl Within.refl.bRun fun _ _ g => .updB (by split; exacts [g, g.sideWords]))

theorem Within.bArrive {site cyc : Nat} {w : BWait} (h : Within M s0 s) (hm : Fits (loss [.die, .mt, .nv]) M := by decide) :
    Within M s0 (s.bArrive site cyc w) :=
  h.step hm (Within.refl.bRun.bCome)

theorem execBRead_within {site : Nat} {head : BitVec 512} {hdr : BitVec 128} {poison : Bool} {cyc : Nat} :
    ResWithin (mask (loss [.die, .mt, .nv])) s (execBRead site head hdr poison cyc s) := by
  dsimp only [execBRead]
  exact .onKind (.ite (fun _ => Within.refl)
    fun _ => .ite (fun _ => by split; exacts [.ite (fun _ => Within.refl.bArrive) fun _ => Within.refl, Within.refl])
    fun _ => Within.refl.bArrive)

theorem execBWrite_within {site : Nat} {pkt : MeshPkt} {cyc : Nat} :
    ResWithin (mask (loss [.die, .mt, .nv])) s (execBWrite site pkt cyc s) := by
  dsimp only [execBWrite]
  exact .onKind (.ite (fun _ => Within.refl)
    fun _ => .ite (fun _ => by split; exacts [.ite (fun _ => Within.refl.bArrive) fun _ => Within.refl, Within.refl])
    fun _ => Within.refl.bArrive)

theorem execPartnerRead_within {site port : Nat} {head : BitVec 512} {hdr : BitVec 128} {poison : Bool} {cyc : Nat} :
    ResWithin (mask (loss [.die, .mt, .nv])) s (execPartnerRead site port head hdr poison cyc s) :=
  .onUnit (.ite (fun _ => Within.refl) fun _ => Within.refl.bArrive)

theorem execPartnerWrite_within {site port : Nat} {pkt : MeshPkt} {cyc : Nat} :
    ResWithin (mask (loss [.die, .mt, .nv])) s (execPartnerWrite site port pkt cyc s) :=
  .onUnit (.ite (fun _ => Within.refl) fun _ => Within.refl.bArrive)

theorem Within.bRetry {site cyc : Nat} (h : Within M s0 s) (hm : Fits (loss []) M := by decide) :
    Within M s0 (s.bRetry site cyc) :=
  h.step hm (.foldl Within.refl.updB fun _ _ g => g.bCome)

theorem Within.segLost {r : SegRead} (h : Within M s0 s) (hm : Fits (loss []) M := by decide) : Within M s0 (s.segLost r) :=
  h.step hm (by dsimp only [State.segLost]; split; exacts [Within.refl.segMiss, Within.refl])

theorem Within.cachePoison {g : KvSeg} (h : Within M s0 s) (hm : Fits [.regs, .ev, .out, .kv, .bt] M := by decide) :
    Within M s0 (s.cachePoison g) :=
  h.step hm (Within.refl.dropSeg.incReg.report)

theorem Within.segUsed {g : KvSeg} (h : Within M s0 s) (hm : Fits [.regs, .kv] M := by decide) : Within M s0 (s.segUsed g) :=
  h.step hm (.incReg (.set_kv Within.refl (by decide)))

theorem Within.segDone {r : SegRead} {halves : List (List Byte × Bool)} (h : Within M s0 s) (hm : Fits (loss []) M := by decide) :
    Within M s0 (s.segDone r halves) := by
  refine h.step hm ?_
  dsimp only [State.segDone]
  split
  exacts [Within.refl.segLost,
    .ite (fun _ => Within.refl.cachePoison.segLost) fun _ => by split; exacts [Within.refl, Within.refl.segUsed.xferLocal]]

theorem Within.areadRow {site : Nat} {q : BReadReq} {flips : List Flip} (h : Within M s0 s)
    (hm : Fits (loss [.die, .nv]) M := by decide) : Within M s0 (s.areadRow site q flips).2 := by
  refine h.step hm ?_
  dsimp only [State.areadRow]
  split
  exacts [by split; exacts [Within.refl.bReadRow, Within.refl.collide], Within.refl.bReadRow]

theorem execAreadRowPresent_within {site cyc : Nat} {flips : List Flip} :
    ResWithin (mask (loss [.die, .mt, .nv])) s (execAreadRowPresent site cyc flips s) := by
  dsimp only [execAreadRowPresent]
  exact .onKind (by
    split
    exacts [Within.refl.bRun,
      .ite (fun _ => Within.refl.bRun) fun _ => .ite (fun _ => .bRetry (by
        split
        exacts [.segDone (.updB (.ite (fun _ => Within.refl.bRun.areadRow.bAnswer) fun _ => Within.refl.bRun.areadRow)),
          .updB (.ite (fun _ => Within.refl.bRun.areadRow.bAnswer) fun _ => Within.refl.bRun.areadRow)]))
        fun _ => .updB (.ite (fun _ => Within.refl.bRun.areadRow.bAnswer) fun _ => Within.refl.bRun.areadRow)])

theorem execHoldAdmit_within {site cyc : Nat} : ResWithin (mask (loss [.die, .mt, .nv])) s (execHoldAdmit site cyc s) := by
  dsimp only [execHoldAdmit]
  exact .onKind (.ite (fun _ => Within.refl.bRun) fun _ => by split; exacts [Within.refl.bRun, Within.refl.bRun.updB.bRetry])

theorem execDmaWindowTimeout_within {site cyc : Nat} :
    ResWithin (mask (loss [.die, .mt, .nv])) s (execDmaWindowTimeout site cyc s) :=
  .onKind (.ite (fun _ => .foldl Within.refl.bRun.updB fun _ _ g => .bRowDone (.updB (.ite (fun _ => g.incReg.raise)
    fun _ => g.incReg.flag))) fun _ => .bRetry (.foldl Within.refl.bRun.updB fun _ _ g => .bRowDone (.updB
    (.ite (fun _ => g.incReg.raise) fun _ => g.incReg.flag))))

theorem execBScrubRead_within {site cyc : Nat} {flips : List Flip} :
    ResWithin (mask (loss [.die, .mt, .nv])) s (execBScrubRead site cyc flips s) :=
  .onKind (.ite (fun _ => Within.refl.bRun) fun _ => Within.refl.bRun.bReadRow.updB)

theorem execBScrubWriteback_within {site cyc : Nat} :
    ResWithin (mask (loss [.die, .mt, .nv])) s (execBScrubWriteback site cyc s) := by
  dsimp only [execBScrubWriteback]
  exact .onKind (by split; exacts [Within.refl.bRun, .ite (fun _ => Within.refl.bRun) fun _ => Within.refl.bRun.updB])

theorem execWin_within {site : Nat} {w0 : DWord} {cyc : Nat} :
    ResWithin (mask (loss [.die, .mt, .nv])) s (execWin site w0 cyc s) :=
  .onKind (.ite (fun _ => Within.refl) fun _ => Within.refl.bRun.updB.setReg)

theorem execFill_within {site : Nat} {w0 ofs : DWord} {cyc : Nat} :
    ResWithin (mask (loss [.die, .mt, .nv])) s (execFill site w0 ofs cyc s) :=
  .onKind (.ite (fun _ => Within.refl) fun _ => .ite (fun _ => Within.refl.countUp)
    fun _ => .ite (fun _ => Within.refl.bRun.startXfer.kvRead) fun _ => Within.refl.bRun.startXfer.remoteReads)

theorem Within.seqRead {site row n : Nat} {step : Option Nat} {out : SeqOut} (h : Within M s0 s) (hm : Fits [.bt] M := by decide) :
    Within M s0 (s.seqRead site row n step out) :=
  h.step hm (Within.refl.updB)

theorem execSpill_within {site : Nat} {w0 ofs : DWord} {cyc : Nat} :
    ResWithin (mask (loss [.die, .mt, .nv])) s (execSpill site w0 ofs cyc s) :=
  .onKind (.ite (fun _ => Within.refl) fun _ => .ite (fun _ => Within.refl.countUp) fun _ => Within.refl.bRun.startXfer.seqRead)

theorem Within.openSeal {step src dest flow n : Nat} (h : Within M s0 s) (hm : Fits [.mrd] M := by decide) :
    Within M s0 (s.openSeal step src dest flow n) :=
  h.step hm (Within.refl.updStep)

theorem Within.sendPkt {site dest flow guard ack row rows ctr : Nat} (h : Within M s0 s) (hm : Fits [.mrd, .rt] M := by decide) :
    Within M s0 (s.sendPkt site dest flow guard ack row rows ctr).2 :=
  h.step hm (.ite (fun _ => Within.refl.useFlow.openSeal) fun _ => Within.refl.useFlow)

theorem Within.sendPkts {site dest flow guard ack row n ctr : Nat} (h : Within M s0 s) (hm : Fits [.mrd, .rt] M := by decide) :
    Within M s0 (s.sendPkts site dest flow guard ack row n ctr).2 := by
  refine h.step hm ?_
  unfold State.sendPkts
  extract_lets k
  refine .foldlBy Prod.snd Within.refl fun a i g => ?_
  exact g.sendPkt (site := site) (dest := dest) (flow := flow) (guard := guard) (ack := if i + 1 = k then ack else 0)
    (row := row + 6 * i) (rows := min 6 (n - 6 * i)) (ctr := ctr)

theorem execSend_within {site : Nat} {w0 w1 : DWord} {cyc : Nat} :
    ResWithin (mask (loss [.die, .mt, .rt, .nv])) s (execSend site w0 w1 cyc s) :=
  .onKind (.ite (fun _ => Within.refl) fun _ => .ite (fun _ => .ite (fun _ => Within.refl.countUp) fun _ => Within.refl)
    fun _ => Within.refl.bRun.sendPkts.seqRead)

theorem execWait_within {site : Nat} {w0 : DWord} : ResWithin (mask [.prog]) s (execWait site w0 s) :=
  .onUnit (.ite (fun _ => Within.refl) fun _ => .ite (fun _ => Within.refl) fun _ => Within.refl.updRun)

theorem execWaitRelease_within {site : Nat} : ResWithin (mask [.prog]) s (execWaitRelease site s) := by
  dsimp only [execWaitRelease]
  exact .onUnit (by split; exacts [Within.refl, .ite (fun _ => Within.refl.updRun) fun _ => Within.refl])

theorem execNop_within {site : Nat} : ResWithin (mask []) s (execNop site s) :=
  .onUnit Within.refl

theorem execEndCode_within {site : Nat} : ResWithin (mask [.prog]) s (execEndCode site s) :=
  .onUnit (.ite (fun _ => Within.refl.updRun) fun _ => Within.refl)

theorem execFillDone_within {site ctr cyc : Nat} : ResWithin (mask (loss [.die, .mt, .nv])) s (execFillDone site ctr cyc s) := by
  dsimp only [execFillDone]
  exact .onUnit (by
    split
    exacts [.ite (fun _ => Within.refl.bRun) fun _ => Within.refl,
      .countUp (.updB (.updRun (.ite (fun _ => Within.refl.bRun) fun _ => Within.refl)))])

theorem execWriteAckReceive_within {site : Nat} {rflow : BitVec 12} {_stat : BitVec 2} :
    ResWithin (mask [.prog]) s (execWriteAckReceive site rflow _stat s) :=
  .onKind (.ite (fun _ => Within.refl) fun _ => Within.refl.countUp)

theorem Within.updLaunch {n' : Nat} {f : Launch → Launch} (h : Within M s0 s) (hm : Fits [.prog] M := by decide) :
    Within M s0 (s.updLaunch n' f) :=
  h.step hm (.set_prog Within.refl (by decide) (fun i => i) (fun i => i))

theorem Within.finishLaunch {n' : Nat} (h : Within M s0 s) (hm : Fits [.regs, .ev, .out, .mem, .prog, .hbm, .ldg] M := by decide) :
    Within M s0 (s.finishLaunch n') := by
  refine h.step hm ?_
  dsimp only [State.finishLaunch]
  split
  exacts [Within.refl,
    .ite (fun _ => .markBoundary (.set_prog Within.refl.record.endLaunch.updLaunch (by decide) (fun i => i) (fun i => i)))
      fun _ => Within.refl.record.endLaunch.updLaunch]

theorem Within.countDone {i : Inst} (h : Within M s0 s) (hm : Fits [.regs, .ev, .out, .mem, .prog, .hbm, .ldg] M := by decide) :
    Within M s0 (s.countDone i) := by
  refine h.step hm ?_
  dsimp only [State.countDone]
  split
  exacts [Within.refl.updLaunch, .ite (fun _ => Within.refl.updLaunch.finishLaunch) fun _ => Within.refl.updLaunch]

theorem execInstanceComplete_within {site cyc : Nat} :
    ResWithin (mask (loss [.die, .mt, .nv])) s (execInstanceComplete site cyc s) := by
  dsimp only [execInstanceComplete]
  exact .onUnit (by
    split
    exacts [Within.refl,
      .ite (fun _ => .ite (fun _ => Within.refl.mAdvance.runM) fun _ => .ite (fun _ => Within.refl.bRun) fun _ => Within.refl)
        fun _ => .ite (fun _ => .updRun (.ite (fun _ => Within.refl.mAdvance.runM) fun _ => .ite (fun _ => Within.refl.bRun)
        fun _ => Within.refl)) fun _ => .countDone (.updRun (.ite (fun _ => Within.refl.mAdvance.runM)
        fun _ => .ite (fun _ => Within.refl.bRun) fun _ => Within.refl))])

theorem Within.setPool {comb p : Nat} {l : List Inst} (h : Within M s0 s) (hm : Fits [.prog] M := by decide) :
    Within M s0 (s.setPool comb p l) :=
  h.step hm (.set_prog Within.refl (by decide) id id)

theorem execTemplateRelease_within {launch tmpl : Nat} : ResWithin (mask [.prog]) s (execTemplateRelease launch tmpl s) := by
  dsimp only [execTemplateRelease]
  split
  exacts [.next Within.refl,
    by
      split
      exacts [.ite (fun _ => .next Within.refl) fun _ => .next (.foldl Within.refl.updLaunch fun _ _ g => g.setPool),
        .next Within.refl]]

theorem Within.startInst {site : Nat} {i : Inst} (h : Within M s0 s) (hm : Fits [.prog, .mt] M := by decide) :
    Within M s0 (s.startInst site i) :=
  h.step hm (Within.refl.updRun.updM.updLaunch)

theorem execForage_within {site : Nat} : ResWithin (mask [.prog, .mt]) s (execForage site s) := by
  dsimp only [execForage]
  exact .onUnit (by
    split
    exacts [Within.refl, .ite (fun _ => Within.refl) fun _ => by split; exacts [Within.refl, Within.refl.setPool.startInst]])

theorem execGangStart_within {comb pool : Nat} : ResWithin (mask [.prog, .mt]) s (execGangStart comb pool s) := by
  dsimp only [execGangStart]
  exact .onUnit (by
    split
    exacts [Within.refl, .ite (fun _ => .foldl Within.refl.setPool fun _ _ g => g.startInst) fun _ => Within.refl])

theorem Within.rejectStep {l : LRec} {code : Nat} (h : Within M s0 s)
    (hm : Fits [.regs, .ev, .out, .mem, .prog, .kv, .mrd, .hbm, .ldg, .st, .bt] M := by decide) :
    Within M s0 (s.rejectStep l code) :=
  h.step hm (.ite (fun _ => Within.refl) fun _ => Within.refl.flag.log.abandonFrom)

theorem Within.rejectLaunch {l : LRec} {code : Nat} (h : Within M s0 s)
    (hm : Fits [.regs, .ev, .out, .mem, .prog, .kv, .mrd, .hbm, .ldg, .st, .bt] M := by decide) :
    Within M s0 (s.rejectLaunch l code) :=
  h.step hm (Within.refl.record.log.rejectStep)

theorem Within.rearm {reds : List Nat} (h : Within M s0 s) (hm : Fits [.rt, .tre] M := by decide) : Within M s0 (s.rearm reds) :=
  h.step hm (.set_tre (.set_rt Within.refl (by decide) swf_map) (by decide) swf_map)

theorem Within.devAddr {a : Nat} {served : Option Nat} (h : Within M s0 s) (hm : Fits (loss []) M := by decide) :
    Within M s0 (s.devAddr a served) :=
  h.step hm (by dsimp only [State.devAddr]; split; exacts [Within.refl.devUnmapped, Within.refl.raise])

theorem Within.devUnits {us : List Nat} {served : Option Nat} (h : Within M s0 s) (hm : Fits (loss []) M := by decide) :
    Within M s0 (State.devUnits us served s).s := by
  induction us generalizing s with
  | nil => exact h
  | cons u us ih =>
    rw [State.devUnits]
    exact ih (h.step hm Within.refl.devUnit)

theorem Within.fetch {a len : Nat} {served : Option Nat} (h : Within M s0 s) (hm : Fits (loss []) M := by decide) :
    Within M s0 (s.fetch a len served).s :=
  h.step hm (by dsimp only [State.fetch]; split; exacts [Within.refl.devUnits.devAddr, Within.refl.devUnits])

theorem Within.noteRead {a len : Nat} {served : Option Nat} (h : Within M s0 s) (hm : Fits (loss []) M := by decide) :
    Within M s0 (s.noteRead a len served) :=
  h.step hm (Within.refl.fetch)

theorem Within.startLaunch {l : LRec} {slot bidx : Nat} {im : Image} {b : Bucket} (h : Within M s0 s)
    (hm : Fits (loss [.rt]) M := by decide) : Within M s0 (s.startLaunch l slot bidx im b) :=
  h.step hm (.ite (fun _ => .finishLaunch (.rearm (.set_prog (.ite (fun _ => .ite (fun _ => Within.refl.fetch.fetch)
    fun _ => Within.refl.fetch.fetch.noteRead) fun _ => .noteRead (.ite (fun _ => Within.refl.fetch.fetch)
    fun _ => Within.refl.fetch.fetch.noteRead)) (by decide) (fun i => i) (fun i => i))))
    fun _ => .rearm (.set_prog (.ite (fun _ => .ite (fun _ => Within.refl.fetch.fetch) fun _ => Within.refl.fetch.fetch.noteRead)
    fun _ => .noteRead (.ite (fun _ => Within.refl.fetch.fetch)
    fun _ => Within.refl.fetch.fetch.noteRead)) (by decide) (fun i => i) (fun i => i)))

theorem execLaunch_within : ResWithin (mask (loss [.rt])) s (execLaunch s) := by
  dsimp only [execLaunch]
  split
  exacts [.ite (fun _ => .next Within.refl)
    fun _ => by
      split
      exacts [.next (.rejectLaunch (.set_prog Within.refl (by decide) id id)),
        .next (.startLaunch (.set_prog Within.refl (by decide) id id))],
    .next Within.refl]

theorem Within.takeSwitch {r : SwitchRec} (h : Within M s0 s)
    (hm : Fits [.regs, .staged, .pages, .ev, .out, .mem, .prog, .hbm] M := by decide) : Within M s0 (s.takeSwitch r) := by
  refine h.step hm ?_
  dsimp only [State.takeSwitch]
  refine .ite (fun _ => Within.refl.record.log) fun _ => ?_
  split
  exacts [.set_prog Within.refl (by decide) id id, .set_prog Within.refl.dropShadow (by decide) id id]

theorem execSwitchRecord_within :
    ResWithin (mask [.regs, .staged, .pages, .ev, .out, .mem, .prog, .hbm]) s (execSwitchRecord s) := by
  dsimp only [execSwitchRecord]
  refine .ite (fun _ => .next Within.refl) fun _ => ?_
  split
  exacts [.next (.takeSwitch (.set_prog Within.refl (by decide) id id)),
    .next (.takeSwitch (.set_prog Within.refl (by decide) id id)), .next Within.refl]

theorem Within.commitPage {p : Nat} (h : Within M s0 s) (hm : Fits [.staged, .pages] M := by decide) :
    Within M s0 (s.commitPage p) :=
  h.step hm (.ite (fun _ => Within.refl.keeperCommit) fun _ => Within.refl.keeperRefused)

theorem Within.commitCombs (h : Within M s0 s) (hm : Fits [.staged, .pages] M := by decide) : Within M s0 s.commitCombs :=
  h.step hm (.foldl Within.refl fun _ _ g => .foldl g fun _ _ g1 => .ite (fun _ => g1.commitPage)
    fun _ => g1.commitPage.commitPage)

theorem Within.stagePage {comb : Nat} {w : DWord} (h : Within M s0 s) (hm : Fits [.staged, .pages] M := by decide) :
    Within M s0 (s.stagePage comb w) :=
  h.step hm (by dsimp only [State.stagePage]; split; exacts [Within.refl.stage, Within.refl])

theorem Within.stageGroup {site g e : Nat} (h : Within M s0 s) (hm : Fits [.staged, .pages] M := by decide) :
    Within M s0 (s.stageGroup site g e) :=
  h.step hm (Within.refl.stage)

theorem Within.stageMcast {comb group : Nat} {members : List Nat} (h : Within M s0 s) (hm : Fits [.staged, .pages] M := by decide) :
    Within M s0 (s.stageMcast comb group members) := by
  refine h.step hm ?_
  dsimp only [State.stageMcast]
  split
  exacts [Within.refl, .foldl Within.refl fun _ _ g => .ite (fun _ => g) fun _ => g.stageGroup]

theorem Within.stageSink {comb l entry : Nat} {w : DWord} (h : Within M s0 s) (hm : Fits [.staged, .pages] M := by decide) :
    Within M s0 (s.stageSink comb l entry w) :=
  h.step hm (by dsimp only [State.stageSink]; split; exacts [Within.refl.stage.stage, Within.refl])

theorem Within.stageImage {im : Image} {map : List Nat} (h : Within M s0 s) (hm : Fits [.staged, .pages] M := by decide) :
    Within M s0 (s.stageImage im map) :=
  h.step hm (.foldl (.foldl (.foldl Within.refl fun _ _ g => g.stagePage) fun _ _ g => g.stageMcast) fun _ _ g => g.stageSink)

theorem Within.clearTables (h : Within M s0 s) (hm : Fits [.staged, .pages] M := by decide) : Within M s0 s.clearTables :=
  h.step hm (.foldl Within.refl fun _ _ g => g.stage)

theorem Within.loadShadow {w : Switching} {im : Option Image} (h : Within M s0 s)
    (hm : Fits [.staged, .pages, .die, .prog] M := by decide) : Within M s0 (s.loadShadow w im) := by
  refine h.step hm ?_
  dsimp only [State.loadShadow]
  exact .set_prog
    (.commitCombs (by
      split
      exacts [.stageImage (.clearTables (.set_die Within.refl (by decide) id)),
        .clearTables (.set_die Within.refl (by decide) id)])) (by decide) id id

theorem Within.updSlot {n : Nat} {f : Slot → Slot} (h : Within M s0 s) (hm : Fits [.prog] M := by decide) :
    Within M s0 (s.updSlot n f) :=
  h.step hm (.set_prog Within.refl (by decide) swf_sset id)

theorem Within.switchCrc {w : Switching} (h : Within M s0 s) (hm : Fits [.regs, .ev, .out, .mem, .prog, .hbm] M := by decide) :
    Within M s0 (s.switchCrc w) := by
  refine h.step hm ?_
  dsimp only [State.switchCrc]
  exact .ite (fun _ => .set_prog Within.refl.log.updSlot.record (by decide) id id)
    fun _ => by split <;> exact .set_prog Within.refl.log.updSlot.record (by decide) id id

theorem Within.stepOne {w : Switching} (h : Within M s0 s) (hm : Fits (loss [.staged, .pages, .die]) M := by decide) :
    Within M s0 (s.stepOne w) := by
  refine h.step hm ?_
  dsimp only [State.stepOne]
  refine .ite (fun _ => Within.refl) fun _ => .ite (fun _ => Within.refl.loadShadow) fun _ => ?_
  split
  exacts [Within.refl.switchCrc,
    by
      split
      exacts [Within.refl.noteRead.switchCrc,
        .ite (fun _ => Within.refl.noteRead.switchCrc) fun _ => Within.refl.noteRead.updSlot.loadShadow]]

theorem execSwitchShadowLoad_within : ResWithin (mask (loss [.staged, .pages, .die])) s (execSwitchShadowLoad s) := by
  dsimp only [execSwitchShadowLoad]
  split
  exacts [.next (.ite (fun _ => Within.refl) fun _ => Within.refl.stepOne),
    .ite (fun _ => .next Within.refl) fun _ => .next Within.refl.dropShadow.stepOne, .next Within.refl]

theorem Within.nullConfig {c n : Nat} (h : Within M s0 s) (hm : Fits [.regs] M := by decide) : Within M s0 (s.nullConfig c n) := by
  refine h.step hm ?_
  dsimp only [State.nullConfig]
  split
  exacts [Within.refl, .ite (fun _ => Within.refl) fun _ => .set_regs Within.refl (by decide) swf_filter]

theorem Within.bSwitch {site old cyc : Nat} {flush : Bool} (h : Within M s0 s) (hm : Fits (loss []) M := by decide) :
    Within M s0 (s.bSwitch site old cyc flush) :=
  h.step hm (.ite (fun _ => Within.refl) fun _ => .bRetry (.foldl (.foldl Within.refl.updB fun _ _ g => g.bRowDone.incReg)
    fun _ _ g => g.incReg))

theorem Within.licRest (h : Within M s0 s) (hm : Fits [.regs, .ev, .out, .die] M := by decide) : Within M s0 s.licRest :=
  h.step hm (.foldl Within.refl fun _ _ g => g.tileTo.updTile)

theorem Within.restAs {k : Nat} {t : TileState} (h : Within M s0 s) (hm : Fits [.regs, .ev, .out, .die] M := by decide) :
    Within M s0 (s.restAs k t) :=
  h.step hm (.ite (fun _ => Within.refl.updTile) fun _ => Within.refl.tileTo)

theorem Within.carryPage {old new : Nat} (h : Within M s0 s) (hm : Fits [.regs] M := by decide) :
    Within M s0 (s.carryPage old new) :=
  h.step hm (.foldl Within.refl fun _ _ g => g.setReg)

theorem Within.handOver {old new : Option Nat} (h : Within M s0 s) (hm : Fits [.regs, .ev, .out, .die] M := by decide) :
    Within M s0 (s.handOver old new) := by
  refine h.step hm ?_
  unfold State.handOver
  extract_lets a b
  have ha : Within (mask [.regs, .ev, .out, .die]) s a := by
    dsimp only [a]
    split
    exacts [Within.refl.carryPage, Within.refl]
  have hb : Within (mask [.regs, .ev, .out, .die]) s b := by
    dsimp only [b]
    split
    · exact .ite (fun _ => ha) fun _ => .ite (fun _ => ha.restAs) fun _ => ha.restAs.updTile
    · exact ha
  split
  · exact .ite (fun _ => hb.restAs.updTile) fun _ => hb
  · exact hb

theorem Within.licenceReturn {comb : Nat} (h : Within M s0 s) (hm : Fits [.regs, .ev, .out, .die] M := by decide) :
    Within M s0 (s.licenceReturn comb) := by
  refine h.step hm ?_
  dsimp only [State.licenceReturn]
  split
  exacts [Within.refl, by split; exacts [Within.refl, Within.refl.toQuarantine.tileTo]]

theorem Within.applyRemap {c : Nat} (h : Within M s0 s)
    (hm : Fits [.regs, .staged, .limits, .pages, .ev, .out, .die] M := by decide) : Within M s0 (s.applyRemap c) :=
  h.step hm (.ite (fun _ => Within.refl) fun _ => .licRest (.foldl (.set_die (.foldl (.foldl
    (.ite (fun _ => Within.refl.applyPage.wrapReg) fun _ => Within.refl.applyPage) fun _ _ g => .ite (fun _ => g)
    fun _ => g.handOver) fun _ _ g => .ite (fun _ => g.tileTo.updTile) fun _ => g) (by decide) id) fun _ _ g => g.licenceReturn))

theorem Within.bWindows {site : Nat} (h : Within M s0 s) (hm : Fits [.regs] M := by decide) : Within M s0 (s.bWindows site) :=
  h.step hm (.foldl Within.refl fun _ _ g => g.setReg)

theorem Within.distWrite (h : Within M s0 s) (hm : Fits [.regs, .die] M := by decide) : Within M s0 s.distWrite :=
  h.step hm (.ite (fun _ => Within.refl) fun _ => .set_die Within.refl.setReg (by decide) id)

theorem Within.unpark {c : Nat} (h : Within M s0 s) (hm : Fits [.regs, .ev, .out, .die, .combs] M := by decide) :
    Within M s0 (s.unpark c) :=
  h.step hm (.log (.flag (.foldl Within.refl.updComb fun _ _ g => .ite (fun _ => g.tileTo) fun _ => g)))

theorem Within.portEarly {a : Nat} (h : Within M s0 s) (hm : Fits (loss [.mt, .rt]) M := by decide) :
    Within M s0 (s.portEarly a) :=
  h.step hm (.foldl Within.refl.updR fun _ _ g => g.portIn)

theorem Within.swapTables {a : Nat} (h : Within M s0 s) (hm : Fits [.regs, .staged, .limits, .pages] M := by decide) :
    Within M s0 (s.swapTables a) :=
  h.step hm (.ite (fun _ => Within.refl.applyPage.set_staged (by decide) sput_foldl_rising)
    fun _ => .ite (fun _ => Within.refl.set_staged (by decide) filter_rising) fun _ => Within.refl)

theorem Within.flushRouter {a old : Nat} (h : Within M s0 s) (hm : Fits [.regs, .rt] M := by decide) :
    Within M s0 (s.flushRouter a old) :=
  h.step hm (.foldl (.updR (.foldl Within.refl fun _ _ g => g.giveBack)) fun _ _ g => g.incReg)

theorem Within.rSwitch {a old : Nat} {flush : Bool} (h : Within M s0 s)
    (hm : Fits (loss [.staged, .limits, .pages, .mt, .rt]) M := by decide) : Within M s0 (s.rSwitch a old flush) :=
  h.step hm (.portEarly (.updR (.swapTables (.ite (fun _ => Within.refl.flushRouter) fun _ => Within.refl))))

theorem Within.wSwitch {site cyc : Nat} (h : Within M s0 s) (hm : Fits (loss [.wt]) M := by decide) :
    Within M s0 (s.wSwitch site cyc) :=
  h.step hm (.wSettle (.foldl (.updW (.foldl Within.refl.wPump fun _ _ g => g.flushed)) fun _ _ g => g.wTake))

theorem Within.writeData {c : Nat} {im : Image} {map : List Nat} (h : Within M s0 s) (hm : Fits [.mem, .bt] M := by decide) :
    Within M s0 (s.writeData c im map) := by
  refine h.step hm ?_
  dsimp only [State.writeData]
  refine .foldl Within.refl fun _ _ g => .ite (fun _ => g) fun _ => ?_
  split
  exacts [g, .ite (fun _ => .foldl g fun _ _ g1 => g1.bWriteRow) fun _ => g.sstPut]

theorem Within.stageChosen {comb l e : Nat} (h : Within M s0 s)
    (hm : Fits [.regs, .staged, .pages, .ev, .out, .die, .prog] M := by decide) : Within M s0 (s.stageChosen comb l e) :=
  h.step hm (.ite (fun _ => Within.refl.stageRemap.substitute) fun _ => Within.refl.stageRemap)

theorem Within.finishSwitch {w : Switching} (h : Within M s0 s)
    (hm : Fits [.regs, .staged, .pages, .ev, .out, .die, .mem, .prog, .hbm] M := by decide) : Within M s0 (s.finishSwitch w) := by
  refine h.step hm ?_
  unfold State.finishSwitch
  extract_lets n a b src1 src2 c d l src3 e f
  have ha : Within (mask [.regs, .staged, .pages, .ev, .out, .die, .mem, .prog, .hbm]) s a := by
    dsimp only [a]
    split
    · exact .ite (fun _ => Within.refl) fun _ => Within.refl.updSlot
    · exact Within.refl
  have hb : Within (mask [.regs, .staged, .pages, .ev, .out, .die, .mem, .prog, .hbm]) s b :=
    .ite (fun _ => Within.refl) fun _ => ha.updSlot
  have hc : Within (mask [.regs, .staged, .pages, .ev, .out, .die, .mem, .prog, .hbm]) s c :=
    .set_prog_die hb (by decide) (by exact id) (by exact id) (by exact id)
  have he : Within (mask [.regs, .staged, .pages, .ev, .out, .die, .mem, .prog, .hbm]) s e := hc.record.set_die (by decide) id
  have hf : Within (mask [.regs, .staged, .pages, .ev, .out, .die, .mem, .prog, .hbm]) s f := .foldl he fun _ _ g => g.stageChosen
  exact .ite (fun _ => hf.queueSwitch) fun _ => hf

theorem Within.switchComb {w : Switching} {c cyc : Nat} {flush : Bool} (h : Within M s0 s)
    (hm : Fits (loss [.staged, .limits, .pages, .dev, .die, .combs, .mt, .wt, .rt, .nv]) M := by decide) :
    Within M s0 (s.switchComb w c cyc flush) := by
  refine h.step hm ?_
  unfold State.switchComb
  extract_lets old sites a w' src b leaves stays shut c1 d e f g i j k l
  have ha : Within (mask (loss [.staged, .limits, .pages, .dev, .die, .combs, .mt, .wt, .rt, .nv])) s a :=
    .foldl Within.refl fun _ _ g => .ite (fun _ => g.bRun) fun _ => g
  have hb : Within (mask (loss [.staged, .limits, .pages, .dev, .die, .combs, .mt, .wt, .rt, .nv])) s b :=
    ha.set_prog (by decide) id id
  have hc : Within (mask (loss [.staged, .limits, .pages, .dev, .die, .combs, .mt, .wt, .rt, .nv])) s c1 := .ite (fun _ => hb)
    fun _ => .foldl hb.nullConfig fun _ _ g => .ite (fun _ => g.applyPage) fun _ => g
  have hd : Within (mask (loss [.staged, .limits, .pages, .dev, .die, .combs, .mt, .wt, .rt, .nv])) s d :=
    .foldl hc fun _ _ g => .ite (fun _ => g.bSwitch) fun _ => g
  have hf : Within (mask (loss [.staged, .limits, .pages, .dev, .die, .combs, .mt, .wt, .rt, .nv])) s f :=
    .ite (fun _ => hd.applyRemap)
    fun _ => .foldl hd.applyRemap fun _ _ g => .ite (fun _ => g.bWindows) fun _ => g
  have hg : Within (mask (loss [.staged, .limits, .pages, .dev, .die, .combs, .mt, .wt, .rt, .nv])) s g :=
    .distWrite (.ite (fun _ => hf.unpark) fun _ => hf)
  have hi : Within (mask (loss [.staged, .limits, .pages, .dev, .die, .combs, .mt, .wt, .rt, .nv])) s i :=
    .foldl hg fun _ _ g => g.rSwitch
  have hj : Within (mask (loss [.staged, .limits, .pages, .dev, .die, .combs, .mt, .wt, .rt, .nv])) s j :=
    .foldl hi fun _ _ g => .ite (fun _ => g.wSwitch) fun _ => g
  have hk : Within (mask (loss [.staged, .limits, .pages, .dev, .die, .combs, .mt, .wt, .rt, .nv])) s k := by
    dsimp only [k]
    split
    exacts [hj.writeData, hj]
  exact .ite (fun _ => hk.review.finishSwitch) fun _ => hk.review

theorem Within.sendMarkers {a : Nat} (h : Within M s0 s) (hm : Fits [.out, .rt] M := by decide) : Within M s0 (s.sendMarkers a) :=
  h.step hm (.ite (fun _ => Within.refl) fun _ => .foldl Within.refl.updR fun _ _ g => .inject (.ite (fun _ => g.useFlow)
    fun _ => g))

theorem execCombEpochSwitch_within {comb cyc : Nat} :
    ResWithin (mask (loss [.staged, .limits, .pages, .dev, .die, .combs, .mt, .wt, .rt, .nv]))
      s (execCombEpochSwitch comb cyc s) := by
  dsimp only [execCombEpochSwitch]
  exact .onUnit (by
    split
    exacts [Within.refl,
      .ite (fun _ => Within.refl) fun _ => .ite (fun _ => Within.refl.switchComb)
        fun _ => .ite (fun _ => .switchComb (.foldl Within.refl fun _ _ g => .sendMarkers (.ite (fun _ => g.wRun) fun _ => g)))
        fun _ => .foldl Within.refl fun _ _ g => .sendMarkers (.ite (fun _ => g.wRun) fun _ => g)])

theorem execEpochDrainTimeout_within {comb cyc : Nat} :
    ResWithin (mask (loss [.staged, .limits, .pages, .dev, .die, .combs, .mt, .wt, .rt, .nv]))
      s (execEpochDrainTimeout comb cyc s) := by
  dsimp only [execEpochDrainTimeout]
  exact .onUnit (by split; exacts [Within.refl, .ite (fun _ => Within.refl.log.switchComb) fun _ => Within.refl])

theorem Within.goReply {src : Source} {p off res : Nat} (h : Within M s0 s) (hm : Fits [.out] M := by decide) :
    Within M s0 (s.goReply src p off res) :=
  h.step hm (.ite (fun _ => Within.refl.emit) fun _ => Within.refl)

theorem Within.mbDone {mb op code out0 out1 : Nat} (h : Within M s0 s) (hm : Fits [.regs, .out, .host] M := by decide) :
    Within M s0 (s.mbDone mb op code out0 out1) := by
  refine h.step hm ?_
  dsimp only [State.mbDone]
  split
  exacts [.ite (fun _ => Within.refl.setReg.setReg.setReg64.setReg64.toHost) fun _ => Within.refl.setReg.setReg.setReg64.setReg64,
    Within.refl.setReg.setReg.setReg64.setReg64.emit, Within.refl.setReg.setReg.setReg64.setReg64]

theorem ResWithin.mailbox {src : Source} {mb op : Nat} {f : State → MbRes} (hf : ∀ {t}, Within M s t → Within M s (f t).s)
    (hm : Fits [.regs, .pages, .ev, .out, .host] M := by decide) : ResWithin M s (s.mailbox src mb op f) := by
  unfold State.mailbox
  refine .onUnit ?_
  extract_lets p pend r a b c x
  have hc : Within M s c := (Within.refl (s := s)).step hm
    (.setReg (.ite (fun _ => Within.refl.setReg) fun _ => Within.refl.setReg.order.goReply))
  refine .ite (fun _ => (Within.refl (s := s)).step hm Within.refl.order.goReply) fun _ => .ite (fun _ => hc)
    fun _ => .ite (fun _ => hf hc) fun _ => (hf hc).step hm Within.refl.mbDone

theorem Within.mbRet {code : Nat} (h : Within M s0 s) (hm : Fits [] M := by decide) : Within M s0 (mbRet s code).s :=
  h.step hm (Within.refl)

theorem Within.installImage {slot a : Nat} (h : Within M s0 s) (hm : Fits (loss []) M := by decide) :
    Within M s0 (s.installImage slot a).s := by
  refine h.step hm ?_
  dsimp only [State.installImage]
  split
  exacts [Within.refl.mbRet,
    by
      split
      exacts [Within.refl.mbRet,
        by
          split
          exacts [Within.refl.noteRead.updSlot.log,
            by split; exacts [Within.refl.noteRead.updSlot.log, Within.refl.noteRead.updSlot.mbRet]]]]

theorem execImageInstall_within {src : Source} {mb : Nat} :
    ResWithin (mask (loss [.pages, .host])) s (execImageInstall src mb s) :=
  .mailbox fun g => g.installImage

theorem execImageRemove_within {src : Source} {mb : Nat} :
    ResWithin (mask [.regs, .pages, .ev, .out, .prog, .host]) s (execImageRemove src mb s) :=
  by dsimp only [execImageRemove]; exact .mailbox fun g => by split; exacts [g.mbRet, by split; exacts [g.mbRet, g.updSlot.mbRet]]

theorem execImageQuery_within {src : Source} {mb : Nat} :
    ResWithin (mask [.regs, .pages, .ev, .out, .host]) s (execImageQuery src mb s) :=
  by dsimp only [execImageQuery]; exact .mailbox fun g => by split; exacts [g.mbRet, g]

theorem Within.autoRoute {n : Nat} (h : Within M s0 s) (hm : Fits [.regs] M := by decide) : Within M s0 (s.autoRoute n) :=
  h.step hm (.ite (fun _ => Within.refl) fun _ => Within.refl.setReg)

theorem Within.formBundles (h : Within M s0 s) (hm : Fits [.regs, .tre] M := by decide) : Within M s0 s.formBundles :=
  h.step hm (.ite (fun _ => .foldl (.foldl (.set_tre Within.refl (by decide) id) fun _ _ g => g.updTP) fun _ _ g => g.autoRoute)
    fun _ => .foldl (.set_tre Within.refl (by decide) id) fun _ _ g => g.updTP)

theorem Within.trainDown {p : Nat} (h : Within M s0 s) (hm : Fits [.regs, .ev, .out, .tre] M := by decide) :
    Within M s0 (s.trainDown p) :=
  h.step hm (Within.refl.updTP.nbrEvent)

theorem Within.laneFault {p b code mask : Nat} (h : Within M s0 s) (hm : Fits [.regs, .ev, .out] M := by decide) :
    Within M s0 (s.laneFault p b code mask) :=
  h.step hm (.ite (fun _ => Within.refl) fun _ => Within.refl.report)

theorem Within.identify {p : Nat} {old : Option Ident} {i : Ident} (h : Within M s0 s)
    (hm : Fits [.regs, .ev, .out, .tre] M := by decide) : Within M s0 (s.identify p old i) :=
  h.step hm (.ite (fun _ => Within.refl.updTP.report.updTP.nbrEvent)
    fun _ => .nbrEvent (.ite (fun _ => Within.refl.updTP.updTP.report) fun _ => Within.refl.updTP.updTP))

theorem Within.train {p : Nat} {x : TrainInfo} (h : Within M s0 s) (hm : Fits [.regs, .ev, .out, .tre] M := by decide) :
    Within M s0 (s.train p x) := by
  refine h.step hm ?_
  dsimp only [State.train]
  refine .ite (fun _ => Within.refl.updTP) fun _ => .ite (fun _ => Within.refl.updTP.trainDown) fun _ => ?_
  split
  exacts [Within.refl.updTP.laneFault.laneFault.laneFault.report.trainDown,
    .ite (fun _ => .trainDown (.ite (fun _ => Within.refl.updTP.laneFault.laneFault.laneFault.report)
      fun _ => Within.refl.updTP.laneFault.laneFault.laneFault))
      fun _ => .ite (fun _ => .trainDown (.report (.ite (fun _ => Within.refl.updTP.laneFault.laneFault.laneFault.report)
      fun _ => Within.refl.updTP.laneFault.laneFault.laneFault)))
      fun _ => by
        split
        exacts [.trainDown (.ite (fun _ => Within.refl.updTP.laneFault.laneFault.laneFault.report)
            fun _ => Within.refl.updTP.laneFault.laneFault.laneFault),
          .identify (.updTP (.ite (fun _ => Within.refl.updTP.laneFault.laneFault.laneFault.report)
            fun _ => Within.refl.updTP.laneFault.laneFault.laneFault))]]

theorem Within.retrainAll {ports : List TrainInfo} (h : Within M s0 s) (hm : Fits (loss []) M := by decide) :
    Within M s0 (s.retrainAll ports) := by
  refine h.step hm ?_
  dsimp only [State.retrainAll]
  exact .chooseParent (.formBundles
    (.foldl Within.refl fun _ _ g => by
      split
      exacts [.train (.updTP (.ite (fun _ => g.linkLost) fun _ => g)),
        .trainDown (.updTP (.ite (fun _ => g.linkLost) fun _ => g))]))

theorem execTreathRetrain_within {src : Source} {mb : Nat} {ports : List TrainInfo} :
    ResWithin (mask (loss [.pages, .host])) s (execTreathRetrain src mb ports s) :=
  by dsimp only [execTreathRetrain]; exact .mailbox fun g => by split; exacts [g.mbRet, g.retrainAll.mbRet]

theorem execPolicySet_within {src : Source} {mb : Nat} :
    ResWithin (mask [.regs, .staged, .limits, .pages, .ev, .out, .prog, .mrd, .host, .combs, .clk, .tre, .slc])
      s (execPolicySet src mb s) := by
  dsimp only [execPolicySet]
  refine .mailbox fun g => ?_
  split
  exacts [g.stage.commitAt.dropStaged.mbRet, by split; exacts [g.order.mbRet, g.stage.commitAt.mbRet]]

theorem Within.fwStart {p obj : List Byte} {mailbox : Option Nat} (h : Within M s0 s) (hm : Fits [.nv] M := by decide) :
    Within M s0 (s.fwStart p obj mailbox) :=
  h.step hm (.set_nv Within.refl (by decide) (⟨id, id, id, le_rfl, fun _ => le_rfl⟩))

theorem Within.fwReject {comp code src : Nat} (h : Within M s0 s) (hm : Fits [.regs, .ev, .out] M := by decide) :
    Within M s0 (s.fwReject comp code src) :=
  h.step hm (Within.refl.flag.log)

theorem execFwUpdate_within {src : Source} {mb : Nat} : ResWithin (mask (loss [.pages, .host, .nv])) s (execFwUpdate src mb s) := by
  dsimp only [execFwUpdate]
  refine .mailbox fun g => ?_
  split
  exacts [g.mbRet,
    by split; exacts [g.mbRet, by split; exacts [g.noteRead.mbRet, by split; exacts [g.noteRead.fwStart, g.noteRead.fwReject]]]]

theorem Nv.forward_setBank {n : Nv} {b : Nat} {x : Bank} {u : Option FwWrite} :
    n.Forward { n.setBank b x with update := u } := by
  unfold Nv.setBank
  split <;> exact ⟨id, id, id, le_rfl, fun _ => le_rfl⟩

theorem execFwUpdateDone_within : ResWithin (mask [.regs, .ev, .out, .host, .nv]) s (execFwUpdateDone s) := by
  refine .next ?_
  split
  · exact Within.refl
  · have hl := fun u b => (Within.refl (M := mask [.regs, .ev, .out, .host, .nv]) (s := s)).set_nv
      (x := { s.nv.setBank b (s.nv.written u) with update := none })
      (by decide) Nv.forward_setBank
    dsimp only
    split
    · exact (hl _ _).log.mbDone
    · exact (hl _ _).log

theorem nth_setNth_le {l : List Nat} {i f : Nat} (h : nth 0 l i ≤ f) (j : Nat) : nth 0 l j ≤ nth 0 (setNth l i f) j := by
  induction l generalizing i j with
  | nil => exact le_rfl
  | cons a l ih =>
    cases i <;> cases j
    · exact h
    · exact le_rfl
    · exact le_rfl
    · exact ih h _

theorem Within.setFloor {c f : Nat} (h : Within M s0 s) (hf : s.nv.floor c ≤ f) (hm : Fits [.regs, .nv] M := by decide) :
    Within M s0 (s.setFloor c f) := by
  refine h.step hm ?_
  have hn : s.nv.Forward { s.nv with floors := setNth s.nv.floors (c - 1) f } := ⟨id, id, id, le_rfl, fun _ => nth_setNth_le hf _⟩
  exact (Within.refl.set_nv (by decide) hn).setReg

theorem execFloorCommit_within {src : Source} {mb : Nat} :
    ResWithin (mask [.regs, .pages, .ev, .out, .host, .nv]) s (execFloorCommit src mb s) := .mailbox fun g => by
    dsimp only
    split
    · exact g
    · split
      · exact g
      next hf => exact g.setFloor (not_lt.1 (not_or.1 hf).1)

theorem Within.licInvalid {why issue : Nat} (h : Within M s0 s) (hm : Fits [.regs, .ev, .out] M := by decide) :
    Within M s0 (s.licInvalid why issue) :=
  h.step hm (Within.refl.flag.log)

theorem execLicenceInstall_within {src : Source} {mb : Nat} :
    ResWithin (mask (loss [.pages, .host, .nv])) s (execLicenceInstall src mb s) := by
  dsimp only [execLicenceInstall]
  refine .mailbox fun g => ?_
  split
  exacts [g.mbRet,
    by
      split
      exacts [g.mbRet,
        by
          split
          exacts [g.noteRead.mbRet,
            by
              split
              exacts [.mbRet (.set_nv g.noteRead (by decide) (⟨id, id, id, le_rfl, fun _ => le_rfl⟩)),
                g.noteRead.licInvalid.mbRet]]]]

theorem Within.mbOwner {k : Option (List Byte)} (h : Within M s0 s) (hm : Fits [.nv] M := by decide) :
    Within M s0 { s with nv := { s.nv with owner := k } } :=
  .set_nv h hm ⟨id, id, id, le_rfl, fun _ => le_rfl⟩

/-- The length of a token is left open: the kernel must not count to it. -/
theorem execOwnerKeySet_within {src : Source} {mb : Nat} :
    ResWithin (mask (loss [.pages, .host, .nv])) s (execOwnerKeySet src mb s) := by
  obtain ⟨len, hlen⟩ : ∃ n, 64 + sigLen = n := ⟨_, rfl⟩
  rw [execOwnerKeySet, hlen]
  dsimp only
  refine .mailbox fun {t} g => ?_
  split
  · exact g.mbRet
  · split
    · exact g.noteRead.mbRet
    · split
      · exact g.noteRead.mbOwner.mbRet
      · split
        · exact g.noteRead.mbRet
        · split
          · exact g.noteRead.noteRead.mbRet
          · split
            · exact g.noteRead.noteRead.mbOwner.mbRet
            · exact g.noteRead.noteRead.mbRet

theorem Within.readAuth {a : Nat} (h : Within M s0 s) (hm : Fits (loss []) M := by decide) : Within M s0 (s.readAuth a) :=
  h.step hm (.ite (fun _ => Within.refl.noteRead) fun _ => Within.refl)

theorem execLcsRequest_within {src : Source} {mb : Nat} :
    ResWithin (mask (loss [.pages, .host, .nv])) s (execLcsRequest src mb s) := by
  obtain ⟨len, hlen⟩ : ∃ n, 64 + sigLen = n := ⟨_, rfl⟩
  rw [execLcsRequest, hlen]
  dsimp only
  refine .mailbox fun {t} g => ?_
  split
  · exact g.mbRet
  · split
    · exact g.mbRet
    · split
      · exact g.noteRead.mbRet
      · split
        · exact g.noteRead.mbRet
        · split
          · exact g.noteRead.mbRet
          · split
            · exact .mbRet (.set_nv g.noteRead.readAuth (by decide) ⟨id, id, id, le_rfl, fun _ => le_rfl⟩)
            · exact g.noteRead.readAuth.mbRet

theorem Within.dropWrite (h : Within M s0 s) (hm : Fits [.regs] M := by decide) : Within M s0 s.dropWrite :=
  h.step hm (Within.refl.incReg.flag)

theorem Within.accept {stream : Nat} {r : List Byte} (h : Within M s0 s)
    (hm : Fits [.regs, .ev, .out, .intake, .kv] M := by decide) : Within M s0 (s.accept stream r) := by
  refine h.step hm ?_
  unfold State.accept
  extract_lets blocks lb fetch p src1 src2 a b
  have ha : Within (mask [.regs, .ev, .out, .intake, .kv]) s a := .set_intake_kv Within.refl (by decide) (by exact id)
  have hb : Within (mask [.regs, .ev, .out, .intake, .kv]) s b := ha.wrapReg.kvLow
  exact .ite (fun _ => hb.emit) fun _ => hb

theorem Within.reject {stream : Nat} {r : List Byte} {result : Nat} (h : Within M s0 s)
    (hm : Fits [.regs, .ev, .out, .intake] M := by decide) : Within M s0 (s.reject stream r result) :=
  h.step hm (.ite (fun _ => .set_intake Within.refl (by decide) id)
    fun _ => .report (.setReg64 (.incReg (.set_intake Within.refl (by decide) id))))

theorem Within.formRecord {stream : Nat} {r : List Byte} (h : Within M s0 s)
    (hm : Fits [.regs, .ev, .out, .intake, .kv] M := by decide) : Within M s0 (s.formRecord stream r) :=
  h.step hm (by dsimp only [State.formRecord]; split; exacts [Within.refl.accept, Within.refl.incReg, Within.refl.reject])

theorem Within.dropPartial {stream held cause : Nat} (h : Within M s0 s) (hm : Fits [.regs, .ev, .out] M := by decide) :
    Within M s0 (s.dropPartial stream held cause) :=
  h.step hm (Within.refl.incReg.report)

theorem Within.slotWrite {p : SlotPart} (h : Within M s0 s) (hm : Fits [.regs, .ev, .out, .intake, .kv] M := by decide) :
    Within M s0 (s.slotWrite p) := by
  refine h.step hm ?_
  dsimp only [State.slotWrite]
  split
  exacts [.ite (fun _ => Within.refl.formRecord) fun _ => .ite (fun _ => Within.refl.dropPartial)
    fun _ => .set_intake Within.refl (by decide) id,
    .ite (fun _ => .formRecord (.set_intake Within.refl (by decide) id)) fun _ => .set_intake Within.refl (by decide) id]

theorem execIntakeWrite_within {off : Nat} {data : List Byte} {poisoned : Bool} :
    ResWithin (mask [.regs, .ev, .out, .intake, .kv, .host]) s (execIntakeWrite off data poisoned s) :=
  .ite (fun _ => .next Within.refl.aerReport) fun _ => .ite (fun _ => .next Within.refl.dropWrite)
    fun _ => .next (.foldl Within.refl fun _ _ g => g.slotWrite)

theorem execIntakePartial_within {stream : Nat} : ResWithin (mask [.regs, .ev, .out, .intake]) s (execIntakePartial stream s) := by
  dsimp only [execIntakePartial]
  split
  exacts [.next Within.refl,
    .ite (fun _ => .next Within.refl) fun _ => .next (.dropPartial (.set_intake Within.refl (by decide) id))]

theorem Within.setPend {n : Nat} {l : List Pend} (h : Within M s0 s) (hm : Fits [.intake] M := by decide) :
    Within M s0 (s.setPend n l) :=
  h.step hm (.set_intake Within.refl (by decide) id)

theorem Within.fillStage {blocks : List Nat} {toks : List Word} (h : Within M s0 s)
    (hm : Fits [.regs, .ev, .out, .mem, .hbm] M := by decide) : Within M s0 (s.fillStage blocks toks) :=
  h.step hm (.foldl Within.refl fun _ _ g => g.dramWrite)

theorem execAppendFetchDone_within {stream : Nat} {toks : List Word} :
    ResWithin (mask [.regs, .ev, .out, .mem, .intake, .hbm]) s (execAppendFetchDone stream toks s) :=
  by dsimp only [execAppendFetchDone]; split; exacts [.next Within.refl, .next Within.refl.fillStage.setPend]

theorem Within.toHostC {o : Out} (h : Within M s0 s) (hm : Fits [.out, .intake, .host] M := by decide) :
    Within M s0 (s.toHostC o) :=
  h.step hm (.ite (fun _ => .set_intake Within.refl (by decide) id) fun _ => Within.refl.toHost)

theorem Within.streamWrites {n : Nat} {old : Stream} {ring : List (Nat × List Byte)} (h : Within M s0 s)
    (hm : Fits [.out, .intake, .host] M := by decide) : Within M s0 (s.streamWrites n old ring) :=
  h.step hm (.ite (fun _ => .set_intake Within.refl (by decide) id)
    fun _ => .ite (fun _ => .toHostC (.foldl (.ite (fun _ => .toHostC (.ite (fun _ => .foldl
    (.set_intake Within.refl (by decide) id) fun _ _ g => g.toHostC)
    fun _ => .toHostC (.foldl (.set_intake Within.refl (by decide) id) fun _ _ g => g.toHostC)))
    fun _ => .ite (fun _ => .foldl (.set_intake Within.refl (by decide) id) fun _ _ g => g.toHostC)
    fun _ => .toHostC (.foldl (.set_intake Within.refl (by decide) id) fun _ _ g => g.toHostC)) fun _ _ g => g.toHostC))
    fun _ => .foldl (.ite (fun _ => .toHostC (.ite (fun _ => .foldl (.set_intake Within.refl (by decide) id)
    fun _ _ g => g.toHostC) fun _ => .toHostC (.foldl (.set_intake Within.refl (by decide) id) fun _ _ g => g.toHostC)))
    fun _ => .ite (fun _ => .foldl (.set_intake Within.refl (by decide) id) fun _ _ g => g.toHostC)
    fun _ => .toHostC (.foldl (.set_intake Within.refl (by decide) id) fun _ _ g => g.toHostC)) fun _ _ g => g.toHostC)

theorem Within.setStream {n : Nat} {e : Stream} (h : Within M s0 s) (hm : Fits [.intake, .hbm] M := by decide) :
    Within M s0 (s.setStream n e) := by
  refine h.step hm (.ite (fun _ => Within.refl) fun _ => ?_)
  exact .set_intake_hbm Within.refl (by decide) swf_sset (by exact id)

theorem Within.freeStageBlocks {bl : List Nat} (h : Within M s0 s) (hm : Fits [.intake] M := by decide) :
    Within M s0 (s.freeStageBlocks bl) :=
  h.step hm (.set_intake Within.refl (by decide) id)

theorem Within.applyOpen {n : Nat} {r : List Byte} (h : Within M s0 s) (hm : Fits [.intake, .hbm] M := by decide) :
    Within M s0 (s.applyOpen n r).s :=
  h.step hm (by dsimp only [State.applyOpen]; split; exacts [Within.refl, by split; exacts [Within.refl, Within.refl.setStream]])

theorem Within.setSegs {n : Nat} {l : List Seg} (h : Within M s0 s) (hm : Fits [.intake] M := by decide) :
    Within M s0 (s.setSegs n l) :=
  h.step hm (.set_intake Within.refl (by decide) id)

theorem Within.tokGap {n : Nat} (h : Within M s0 s) (hm : Fits [.slc] M := by decide) : Within M s0 (s.tokGap n) :=
  h.step hm (.ite (fun _ => .set_slc Within.refl (by decide)) fun _ => Within.refl)

theorem Within.setTokLog {n : Nat} {l : List Word} (h : Within M s0 s) (hm : Fits [.regs, .ev, .out, .slc] M := by decide) :
    Within M s0 (s.setTokLog n l) :=
  h.step hm (.ite (fun _ => Within.refl) fun _ => .ite (fun _ => .set_slc Within.refl (by decide))
    fun _ => .ite (fun _ => .report (.set_slc Within.refl (by decide))) fun _ => .set_slc Within.refl (by decide))

theorem Within.tokAppend {n : Nat} {toks : List Word} (h : Within M s0 s) (hm : Fits [.regs, .ev, .out, .slc] M := by decide) :
    Within M s0 (s.tokAppend n toks) :=
  h.step hm (.ite (fun _ => Within.refl) fun _ => Within.refl.setTokLog)

theorem Within.applyAppend {n : Nat} {p : Pend} (h : Within M s0 s)
    (hm : Fits [.regs, .ev, .out, .intake, .hbm, .slc] M := by decide) : Within M s0 (s.applyAppend n p).s := by
  refine h.step hm ?_
  dsimp only [State.applyAppend]
  split
  exacts [Within.refl,
    by
      split
      exacts [Within.refl.freeStageBlocks,
        by
          split
          exacts [Within.refl.freeStageBlocks,
            by
              split
              exacts [Within.refl.freeStageBlocks,
                .setStream (.setSegs (.ite (fun _ => Within.refl.tokGap) fun _ => Within.refl.tokAppend))]]]]

theorem Within.applyGenerate {n : Nat} {r : List Byte} (h : Within M s0 s) (hm : Fits [.intake, .hbm] M := by decide) :
    Within M s0 (s.applyGenerate n r).s := by
  refine h.step hm ?_
  dsimp only [State.applyGenerate]
  split
  exacts [Within.refl, by split; exacts [Within.refl, Within.refl.setStream]]

theorem Within.writeRef {p : Nat} (h : Within M s0 s) (hm : Fits [.regs, .ev, .out, .mem, .hbm] M := by decide) :
    Within M s0 (s.writeRef p) :=
  h.step hm (Within.refl.dramWrite)

theorem Within.writeList {st : Nat} (h : Within M s0 s) (hm : Fits [.regs, .ev, .out, .mem, .hbm] M := by decide) :
    Within M s0 (s.writeList st) :=
  h.step hm (by dsimp only [State.writeList]; split; exacts [Within.refl, .foldl Within.refl.dramWrite fun _ _ g => g.dramWrite])

theorem Within.kvStore {k : Kv} (h : Within M s0 s) (hm : Fits [.regs, .ev, .out, .mem, .kv, .hbm] M := by decide) :
    Within M s0 (s.kvStore k) :=
  h.step hm (.foldl (.foldl (.set_kv Within.refl (by decide)) fun _ _ g => g.writeRef) fun _ _ g => g.writeList)

theorem Within.applyFork {n : Nat} {p : Pend} (h : Within M s0 s)
    (hm : Fits [.regs, .ev, .out, .mem, .intake, .kv, .hbm, .slc] M := by decide) : Within M s0 (s.applyFork n p).s := by
  refine h.step hm ?_
  unfold State.applyFork
  extract_lets parent pre e pe kv back stored logged
  have hb : Within (mask [.regs, .ev, .out, .mem, .intake, .kv, .hbm, .slc]) s back := .set_kv Within.refl (by decide)
  have hl : Within (mask [.regs, .ev, .out, .mem, .intake, .kv, .hbm, .slc]) s logged :=
    .ite (fun _ => hb.kvStore.tokGap) fun _ => hb.kvStore.setTokLog
  clear_value back stored logged
  repeat' split
  iterate 5 exact hb
  exact hl.setStream

theorem Within.tokDrop {n : Nat} (h : Within M s0 s) (hm : Fits [.slc] M := by decide) : Within M s0 (s.tokDrop n) :=
  h.step hm (.set_slc Within.refl (by decide))

theorem Within.applyClose {n : Nat} (h : Within M s0 s)
    (hm : Fits [.regs, .ev, .out, .mem, .intake, .kv, .hbm, .slc] M := by decide) : Within M s0 (s.applyClose n).s :=
  h.step hm (Within.refl.freeStageBlocks.kvStore.setSegs.tokDrop.setStream)

theorem Within.applyQuery {n : Nat} {r : List Byte} (h : Within M s0 s) (hm : Fits [.out, .intake, .host] M := by decide) :
    Within M s0 (s.applyQuery n r).s := by
  refine h.step hm ?_
  dsimp only [State.applyQuery]
  split
  exacts [Within.refl, .ite (fun _ => Within.refl.toHostC) fun _ => Within.refl]

theorem Within.applyOp {n : Nat} {p : Pend} (h : Within M s0 s)
    (hm : Fits [.regs, .ev, .out, .mem, .intake, .kv, .hbm, .host, .slc] M := by decide) : Within M s0 (s.applyOp n p).s := by
  refine h.step hm ?_
  dsimp only [State.applyOp]
  split
  exacts [.set_kv Within.refl.freeStageBlocks (by decide),
    by
      split
      exacts [Within.refl.applyOpen, Within.refl.applyAppend, Within.refl.applyGenerate, Within.refl.setStream,
        Within.refl.setStream, Within.refl.applyFork, Within.refl.applyClose, Within.refl.applyQuery]]

theorem Within.applyRecord {n : Nat} {p : Pend} (h : Within M s0 s)
    (hm : Fits [.regs, .ev, .out, .mem, .intake, .kv, .hbm, .host, .slc] M := by decide) : Within M s0 (s.applyRecord n p) :=
  h.step hm (.ite (fun _ => .set_intake (.applyOp (.ite (fun _ => Within.refl) fun _ => Within.refl.setStream)) (by decide) id)
    fun _ => .reject (.applyOp (.ite (fun _ => Within.refl) fun _ => Within.refl.setStream)))

theorem Within.applyPending {n fuel : Nat} (h : Within M s0 s)
    (hm : Fits [.regs, .ev, .out, .mem, .intake, .kv, .hbm, .host, .slc] M := by decide) :
    Within M s0 (s.applyPending n fuel) := by
  induction fuel generalizing s with
  | zero => exact h
  | succ fuel ih =>
    rw [State.applyPending]
    split
    · exact h
    · exact .ite (fun _ => ih (h.step hm Within.refl.setPend.applyRecord)) fun _ => h

theorem Within.showOseq {n : Nat} (h : Within M s0 s) (hm : Fits [.intake, .hbm] M := by decide) : Within M s0 (s.showOseq n) :=
  h.step hm (.ite (fun _ => Within.refl.setStream) fun _ => Within.refl)

theorem Within.logStreamFaults {faults : List (Nat × Nat)} (h : Within M s0 s) (hm : Fits [.ev, .out] M := by decide) :
    Within M s0 (s.logStreamFaults faults) :=
  h.step hm (by dsimp only [State.logStreamFaults]; split; exacts [Within.refl, Within.refl.log])

theorem Within.faultPoint (h : Within M s0 s) (hm : Fits [.ev, .out, .intake, .mrd, .hbm, .host] M := by decide) :
    Within M s0 s.faultPoint :=
  h.step hm (.ite (fun _ => Within.refl) fun _ => .logStreamFaults (.foldl (.set_mrd Within.refl (by decide))
    fun _ _ g => g.setStream.streamWrites))

theorem Within.recordPoint {op n : Nat} (h : Within M s0 s)
    (hm : Fits [.regs, .ev, .out, .mem, .intake, .kv, .mrd, .hbm, .host, .slc] M := by decide) :
    Within M s0 (s.recordPoint op n) :=
  h.step hm (.ite (fun _ => Within.refl) fun _ => .kvLow (.streamWrites
    (.ite (fun _ => Within.refl.faultPoint.showOseq.applyPending.setStream)
    fun _ => Within.refl.faultPoint.showOseq.applyPending)))

theorem execOpenRec_within {stream : Nat} :
    ResWithin (mask [.regs, .ev, .out, .mem, .intake, .kv, .mrd, .hbm, .host, .slc]) s (execOpenRec stream s) :=
  .next Within.refl.recordPoint

theorem execAppendRec_within {stream : Nat} :
    ResWithin (mask [.regs, .ev, .out, .mem, .intake, .kv, .mrd, .hbm, .host, .slc]) s (execAppendRec stream s) :=
  .next Within.refl.recordPoint

theorem execGenerateRec_within {stream : Nat} :
    ResWithin (mask [.regs, .ev, .out, .mem, .intake, .kv, .mrd, .hbm, .host, .slc]) s (execGenerateRec stream s) :=
  .next Within.refl.recordPoint

theorem execPauseRec_within {stream : Nat} :
    ResWithin (mask [.regs, .ev, .out, .mem, .intake, .kv, .mrd, .hbm, .host, .slc]) s (execPauseRec stream s) :=
  .next Within.refl.recordPoint

theorem execResumeRec_within {stream : Nat} :
    ResWithin (mask [.regs, .ev, .out, .mem, .intake, .kv, .mrd, .hbm, .host, .slc]) s (execResumeRec stream s) :=
  .next Within.refl.recordPoint

theorem execForkRec_within {stream : Nat} :
    ResWithin (mask [.regs, .ev, .out, .mem, .intake, .kv, .mrd, .hbm, .host, .slc]) s (execForkRec stream s) :=
  .next Within.refl.recordPoint

theorem execCloseRec_within {stream : Nat} :
    ResWithin (mask [.regs, .ev, .out, .mem, .intake, .kv, .mrd, .hbm, .host, .slc]) s (execCloseRec stream s) :=
  .next Within.refl.recordPoint

theorem execQueryRec_within {stream : Nat} :
    ResWithin (mask [.regs, .ev, .out, .mem, .intake, .kv, .mrd, .hbm, .host, .slc]) s (execQueryRec stream s) :=
  .next Within.refl.recordPoint

theorem Within.finishCopies {st : StepRec} (h : Within M s0 s) (hm : Fits (loss []) M := by decide) :
    Within M s0 (s.finishCopies st) :=
  h.step hm (.foldl Within.refl fun _ _ g => g.copyPage.updStep)

theorem Within.stepSts {num : Nat} (h : Within M s0 s) (hm : Fits [.st] M := by decide) : Within M s0 (s.stepSts num) :=
  h.step hm (.foldl Within.refl fun _ _ g => g.updS)

theorem Within.ldgTokens {c n : Nat} (h : Within M s0 s) (hm : Fits [.ldg] M := by decide) : Within M s0 (s.ldgTokens c n) :=
  h.step hm (.ite (fun _ => Within.refl) fun _ => .set_ldg Within.refl (by decide))

theorem Within.almAdd {k n : Nat} (h : Within M s0 s) (hm : Fits [.regs, .alm] M := by decide) : Within M s0 (s.almAdd k n) :=
  h.step hm (.ite (fun _ => .flag (.set_alm Within.refl (by decide))) fun _ => .set_alm Within.refl (by decide))

theorem Within.sample {c m x n : Nat} (h : Within M s0 s) (hm : Fits [.regs, .alm] M := by decide) :
    Within M s0 (s.sample c m x n) :=
  h.step hm (Within.refl.almAdd.setReg)

theorem Within.almStream {e : Stream} {n now : Nat} (h : Within M s0 s) (hm : Fits [.regs, .alm] M := by decide) :
    Within M s0 (s.almStream e n now) :=
  h.step hm (.ite (fun _ => Within.refl) fun _ => .ite (fun _ => .ite (fun _ => Within.refl.almAdd.sample.almAdd)
    fun _ => Within.refl.almAdd.sample) fun _ => .ite (fun _ => Within.refl.almAdd.sample.almAdd)
    fun _ => Within.refl.almAdd.sample)

theorem Within.almPoint {e : Stream} {n : Nat} (h : Within M s0 s) (hm : Fits [.regs, .intake, .alm] M := by decide) :
    Within M s0 (s.almPoint e n) :=
  h.step hm (.ite (fun _ => Within.refl) fun _ => .ite (fun _ => .set_intake Within.refl (by decide) id)
    fun _ => Within.refl.almStream)

theorem Within.commitStream {st : Option StepRec} {rs : List ResRec} {faults : List (Nat × Nat)} {drained : List Nat}
    {n : Nat} (h : Within M s0 s) (hm : Fits [.regs, .ev, .out, .mem, .intake, .kv, .alm, .hbm, .host, .ldg, .slc] M := by decide) :
    Within M s0 (s.commitStream st rs faults drained n) := by
  refine h.step hm ?_
  unfold State.commitStream
  extract_lets old code m used a b c src d src' e f g x i src'' j
  have hc : Within (mask [.regs, .ev, .out, .mem, .intake, .kv, .alm, .hbm, .host, .ldg, .slc]) s c :=
    .ite (fun _ => Within.refl.almPoint.ldgTokens.tokAppend)
    fun _ => Within.refl.almPoint.ldgTokens.tokAppend.freeStageBlocks.setSegs
  have he : Within (mask [.regs, .ev, .out, .mem, .intake, .kv, .alm, .hbm, .host, .ldg, .slc]) s e := by
    dsimp only [e]
    clear_value code
    split
    exacts [hc.setStream.setStream, hc.setStream]
  have hg : Within (mask [.regs, .ev, .out, .mem, .intake, .kv, .alm, .hbm, .host, .ldg, .slc]) s g :=
    .ite (fun _ => he.showOseq) fun _ => he.showOseq.applyPending
  have hi : Within (mask [.regs, .ev, .out, .mem, .intake, .kv, .alm, .hbm, .host, .ldg, .slc]) s i :=
    .ite (fun _ => hg.setStream) fun _ => hg
  have hj : Within (mask [.regs, .ev, .out, .mem, .intake, .kv, .alm, .hbm, .host, .ldg, .slc]) s j :=
    .ite (fun _ => hi.setStream) fun _ => hi
  exact hj.streamWrites

theorem Within.rebuildFaults {bad : List (Nat × Nat)} (h : Within M s0 s)
    (hm : Fits [.regs, .ev, .out, .mem, .intake, .kv, .alm, .hbm, .host, .ldg, .slc] M := by decide) :
    Within M s0 (s.rebuildFaults bad) :=
  h.step hm (.logStreamFaults (.foldl Within.refl fun _ _ g => g.commitStream))

theorem Within.rebuildDone (h : Within M s0 s) (hm : Fits [.regs, .mrd, .slc] M := by decide) : Within M s0 s.rebuildDone :=
  h.step hm (.ite (fun _ => .set_slc (.foldl (.set_mrd Within.refl (by decide)) fun _ _ g => .ite (fun _ => g.setReg)
    fun _ => g) (by decide)) fun _ => Within.refl)

theorem Within.rebuildCommit {st : StepRec} {bad : List (Nat × Nat)} (h : Within M s0 s)
    (hm : Fits [.regs, .ev, .out, .mem, .prog, .intake, .kv, .mrd, .alm, .hbm, .host, .ldg, .st, .slc] M := by decide) :
    Within M s0 (s.rebuildCommit st bad) := by
  refine h.step hm ?_
  unfold State.rebuildCommit
  extract_lets a src b c d
  have hb : Within (mask [.regs, .ev, .out, .mem, .prog, .intake, .kv, .mrd, .alm, .hbm, .host, .ldg, .st, .slc]) s b :=
    .set_prog_mrd Within.refl.rebuildFaults (by decide) (by exact id) swf_filter
  have hc : Within (mask [.regs, .ev, .out, .mem, .prog, .intake, .kv, .mrd, .alm, .hbm, .host, .ldg, .st, .slc]) s c :=
    .foldl hb fun _ _ g => .set_slc g (by decide)
  have hd : Within (mask [.regs, .ev, .out, .mem, .prog, .intake, .kv, .mrd, .alm, .hbm, .host, .ldg, .st, .slc]) s d :=
    hc.stepSts.markBoundary.wrapReg
  exact .ite (fun _ => hd.set_slc (by decide)) fun _ => hd.rebuildDone

theorem Within.reviewUp (h : Within M s0 s) (hm : Fits [.ev, .out, .dev] M := by decide) : Within M s0 s.reviewUp :=
  h.step hm (.ite (fun _ => Within.refl.devTo) fun _ => Within.refl)

theorem Within.commitKv {st : StepRec} (h : Within M s0 s) (hm : Fits (loss []) M := by decide) : Within M s0 (s.commitKv st) :=
  h.step hm (Within.refl.finishCopies.kvStore)

theorem Within.dropCache {c : Nat} (h : Within M s0 s) (hm : Fits [.kv] M := by decide) : Within M s0 (s.dropCache c) :=
  h.step hm (.set_kv Within.refl (by decide))

theorem Within.draw (h : Within M s0 s) (hm : Fits [.freeCtr] M := by decide) : Within M s0 s.draw.2 :=
  h.step hm (.set_freeCtr Within.refl (by decide))

theorem Within.undefSet {k : Nat} (h : Within M s0 s) (hm : Fits [.hbm, .freeCtr] M := by decide) : Within M s0 (s.undefSet k) :=
  h.step hm (.set_hbm Within.refl.draw (by decide) id)

theorem Within.commitPages (h : Within M s0 s)
    (hm : Fits [.regs, .staged, .limits, .pages, .ev, .out, .mem, .kv, .hbm, .freeCtr] M := by decide) :
    Within M s0 s.commitPages :=
  h.step hm (.ite (fun _ => .applyPage (.foldl (.ite (fun _ => .ite (fun _ => .ite (fun _ => .applyPage
    (.ite (fun _ => Within.refl.applyPage) fun _ => Within.refl))
    fun _ => .foldl (.applyPage (.ite (fun _ => Within.refl.applyPage) fun _ => Within.refl)) fun _ _ g => g.dropCache)
    fun _ => .dramWrite (.ite (fun _ => .applyPage (.ite (fun _ => Within.refl.applyPage) fun _ => Within.refl))
    fun _ => .foldl (.applyPage (.ite (fun _ => Within.refl.applyPage) fun _ => Within.refl)) fun _ _ g => g.dropCache))
    fun _ => .ite (fun _ => Within.refl.applyPage) fun _ => Within.refl) fun _ _ g => g.undefSet))
    fun _ => .ite (fun _ => .ite (fun _ => .ite (fun _ => .applyPage (.ite (fun _ => Within.refl.applyPage) fun _ => Within.refl))
    fun _ => .foldl (.applyPage (.ite (fun _ => Within.refl.applyPage) fun _ => Within.refl)) fun _ _ g => g.dropCache)
    fun _ => .dramWrite (.ite (fun _ => .applyPage (.ite (fun _ => Within.refl.applyPage) fun _ => Within.refl))
    fun _ => .foldl (.applyPage (.ite (fun _ => Within.refl.applyPage) fun _ => Within.refl)) fun _ _ g => g.dropCache))
    fun _ => .ite (fun _ => Within.refl.applyPage) fun _ => Within.refl)

theorem Within.commitPoint {st : Option StepRec} {rs : List ResRec} (h : Within M s0 s)
    (hm : Fits (loss [.staged, .limits, .pages, .dev, .intake, .alm, .host, .freeCtr]) M := by decide) :
    Within M s0 (s.commitPoint st rs) := by
  refine h.step hm ?_
  unfold State.commitPoint
  extract_lets num src1 a b mine faults drained src2 src3 c src4 d streams e f src5 g
  have hb : Within (mask (loss [.staged, .limits, .pages, .dev, .intake, .alm, .host, .freeCtr])) s b :=
    .commitPages (.set_intake Within.refl (by decide) (by exact id))
  have hc : Within (mask (loss [.staged, .limits, .pages, .dev, .intake, .alm, .host, .freeCtr])) s c := hb.set_kv_mrd (by decide)
  have hd : Within (mask (loss [.staged, .limits, .pages, .dev, .intake, .alm, .host, .freeCtr])) s d := by
    dsimp only [d]
    split
    exacts [.commitKv (hc.set_mrd (by decide)), hc]
  have hf : Within (mask (loss [.staged, .limits, .pages, .dev, .intake, .alm, .host, .freeCtr])) s f :=
    .logStreamFaults (.foldl hd fun _ _ g => g.commitStream)
  have hg : Within (mask (loss [.staged, .limits, .pages, .dev, .intake, .alm, .host, .freeCtr])) s g := hf.set_mrd (by decide)
  exact hg.kvLow.reviewUp

theorem Within.stepRecord {num a : Nat} {bs : List Byte} (h : Within M s0 s)
    (hm : Fits [.regs, .ev, .out, .mem, .intake, .hbm] M := by decide) : Within M s0 (s.stepRecord num a bs) :=
  h.step hm (.ite (fun _ => Within.refl.record) fun _ => .ite (fun _ => .set_intake Within.refl (by decide) id)
    fun _ => Within.refl)

theorem State.foldl_updS_prog (l : List Nat) (f : STile → STile) : (l.foldl (fun s k => s.updS k f) s).prog = s.prog :=
  List.foldlRecOn (motive := fun t : State => t.prog = s.prog) l _ rfl fun _ h _ _ => h

theorem State.stepSts_prog (s : State) (num : Nat) : (s.stepSts num).prog = s.prog := s.foldl_updS_prog _ _

theorem Within.without {steps : List Nat} (h : Within M s0 t) (hp : t.prog = s.prog) (hm : Fits [.prog] M := by decide) :
    Within M s0 { t with prog := s.prog.without steps } :=
  hp ▸ h.set_prog hm id swf_filter

theorem Within.commitStep {st : StepRec} {rs : List ResRec} (h : Within M s0 s)
    (hm : Fits (loss [.staged, .limits, .pages, .dev, .intake, .alm, .host, .freeCtr]) M := by decide) :
    Within M s0 (s.commitStep st rs) := by
  refine h.step hm ?_
  unfold State.commitStep
  extract_lets toks a a' b c d
  have ha : Within (mask (loss [.staged, .limits, .pages, .dev, .intake, .alm, .host, .freeCtr])) s a := Within.refl.commitPoint
  have hb : Within (mask (loss [.staged, .limits, .pages, .dev, .intake, .alm, .host, .freeCtr])) s b :=
    .without ha.stepSts (a.stepSts_prog st.num)
  exact hb.markBoundary.wrapReg.stepRecord

theorem execStepCommit_within :
    ResWithin (mask (loss [.staged, .limits, .pages, .dev, .intake, .alm, .host, .freeCtr])) s (execStepCommit s) := by
  unfold execStepCommit
  extract_lets a
  have ha : Within (mask (loss [.staged, .limits, .pages, .dev, .intake, .alm, .host, .freeCtr])) s a := by
    dsimp only [a]
    split
    exacts [Within.refl, .ite (fun _ => Within.refl.finishCopies) fun _ => Within.refl]
  split
  · exact .next ha
  · exact .ite (fun _ => .next ha) fun _ => .ite (fun _ => .next ha.rebuildCommit) fun _ => .next ha.commitStep

theorem Within.applyMrd (h : Within M s0 s) (hm : Fits [.regs, .staged, .limits, .pages, .mrd] M := by decide) :
    Within M s0 s.applyMrd :=
  h.step hm (.foldl (.ite (fun _ => .ite (fun _ => .updPage (.set_mrd (.ite (fun _ => .ite (fun _ => .updPage
    (.set_mrd Within.refl.applyPage (by decide)) (by decide) fun _ => id) fun _ => .set_mrd Within.refl.applyPage (by decide))
    fun _ => Within.refl) (by decide)) (by decide) fun _ => id)
    fun _ => .set_mrd (.ite (fun _ => .ite (fun _ => .updPage (.set_mrd Within.refl.applyPage (by decide)) (by decide)
    fun _ => id) fun _ => .set_mrd Within.refl.applyPage (by decide)) fun _ => Within.refl) (by decide))
    fun _ => .ite (fun _ => .ite (fun _ => .updPage (.set_mrd Within.refl.applyPage (by decide)) (by decide) fun _ => id)
    fun _ => .set_mrd Within.refl.applyPage (by decide)) fun _ => Within.refl)
    fun _ _ g => .ite (fun _ => .set_mrd g.applyPage (by decide)) fun _ => g)

theorem Within.benchFmax (h : Within M s0 s) (hm : Fits [.regs, .staged, .pages, .ev, .out, .die, .prog] M := by decide) :
    Within M s0 s.benchFmax :=
  h.step hm (.foldl Within.refl fun _ _ g => g.leaveRun.updTile)

theorem Within.releaseFmax (h : Within M s0 s) (hm : Fits [.regs, .ev, .out, .die] M := by decide) : Within M s0 s.releaseFmax :=
  h.step hm (.foldl Within.refl fun _ _ g => g.toQuarantine)

theorem Within.applyClkCfg (h : Within M s0 s)
    (hm : Fits [.regs, .staged, .limits, .pages, .ev, .out, .die, .prog, .combs, .clk] M := by decide) :
    Within M s0 s.applyClkCfg :=
  h.step hm (.retarget (.holdCommit (.ite (fun _ => .benchFmax (.ite (fun _ => .ite (fun _ => Within.refl.applyPage)
    fun _ => .set_clk Within.refl.applyPage (by decide)) fun _ => .setReg (.ite (fun _ => Within.refl.applyPage)
    fun _ => .set_clk Within.refl.applyPage (by decide))))
    fun _ => .ite (fun _ => .releaseFmax (.ite (fun _ => .ite (fun _ => Within.refl.applyPage)
    fun _ => .set_clk Within.refl.applyPage (by decide)) fun _ => .setReg (.ite (fun _ => Within.refl.applyPage)
    fun _ => .set_clk Within.refl.applyPage (by decide)))) fun _ => .ite (fun _ => .ite (fun _ => Within.refl.applyPage)
    fun _ => .set_clk Within.refl.applyPage (by decide)) fun _ => .setReg (.ite (fun _ => Within.refl.applyPage)
    fun _ => .set_clk Within.refl.applyPage (by decide)))))

theorem Within.sprintRelease (h : Within M s0 s) (hm : Fits [.regs, .pages, .ev, .out, .combs, .clk] M := by decide) :
    Within M s0 s.sprintRelease :=
  h.step hm (.ite (fun _ => .retarget (.set_clk Within.refl (by decide))) fun _ => Within.refl)

theorem Within.shedUpdate (h : Within M s0 s) (hm : Fits [.regs, .pages, .ev, .out, .mrd, .combs, .clk] M := by decide) :
    Within M s0 s.shedUpdate :=
  h.step hm (.ite (fun _ => Within.refl) fun _ => .ite (fun _ => .ite (fun _ => .sprintRelease (.set_mrd Within.refl (by decide)))
    fun _ => .set_mrd (.set_mrd Within.refl (by decide)) (by decide))
    fun _ => .ite (fun _ => .set_mrd (.set_mrd Within.refl (by decide)) (by decide)) fun _ => .set_mrd Within.refl (by decide))

theorem Within.updRound {n : Nat} {f : SRound → SRound} (h : Within M s0 s) (hm : Fits [.slc] M := by decide) :
    Within M s0 (s.updRound n f) :=
  h.step hm (.set_slc Within.refl (by decide))

theorem Within.almRound {round : Nat} (h : Within M s0 s) (hm : Fits [.regs, .intake, .alm] M := by decide) :
    Within M s0 (s.almRound round) :=
  h.step hm (.foldl (.set_intake Within.refl (by decide) id) fun _ _ g => g.almStream)

theorem Within.releaseRound {n : Nat} (h : Within M s0 s)
    (hm : Fits [.regs, .ev, .out, .mem, .intake, .alm, .hbm, .host] M := by decide) : Within M s0 (s.releaseRound n) :=
  h.step hm (.almRound (.foldl (.toHosts (.set_intake Within.refl (by decide) id)) fun _ _ g => g.record))

theorem Within.endRound {n : Nat} (h : Within M s0 s)
    (hm : Fits [.regs, .ev, .out, .mem, .intake, .alm, .hbm, .host, .slc] M := by decide) : Within M s0 (s.endRound n) := by
  refine h.step hm ?_
  dsimp only [State.endRound]
  split
  exacts [Within.refl, .ite (fun _ => .set_slc Within.refl.releaseRound (by decide)) fun _ => Within.refl]

theorem Within.setRemap {l e : Nat} (h : Within M s0 s) (hm : Fits [.regs] M := by decide) : Within M s0 (s.setRemap l e) :=
  h.step hm (Within.refl.setReg)

theorem Within.afterRemap {l : List (Nat × BitVec 16)} (h : Within M s0 s)
    (hm : Fits [.regs, .staged, .limits, .pages, .slc] M := by decide) : Within M s0 (s.afterRemap l) :=
  h.step hm (.ite (fun _ => Within.refl) fun _ => .set_slc (.ite (fun _ => .applyPage (.wrapReg
    (.foldl Within.refl fun _ _ g => g.setRemap))) fun _ => .wrapReg (.foldl Within.refl fun _ _ g => g.setRemap)) (by decide))

theorem Within.withCarried {b : CommitBody} {f : State → State} (h : Within M s0 s)
    (hf : ∀ {t}, Within M s0 t → Within M s0 (f t)) (hm : Fits [.intake, .mrd] M := by decide) :
    Within M s0 (s.withCarried b f) := by
  unfold State.withCarried
  extract_lets bad reps later src1 src2 a
  have ha : Within M s0 a := hf (h.set_intake_mrd hm id)
  exact ha.set_intake_mrd hm id

theorem Within.carry {r : CarriedRec} (h : Within M s0 s) (hm : Fits [.regs, .ev, .out, .mem, .intake, .kv, .hbm] M := by decide) :
    Within M s0 (s.carry r) := by
  refine h.step hm ?_
  unfold State.carry
  extract_lets n blocks lb a p b
  have hb : Within (mask [.regs, .ev, .out, .mem, .intake, .kv, .hbm]) s b := Within.refl.fillStage.setPend
  exact hb.set_intake_kv (by decide) (by exact id)

theorem Within.withRecords {recs : List CarriedRec} {f : State → State} (h : Within M s0 s)
    (hf : ∀ {t}, Within M s0 t → Within M s0 (f t)) (hm : Fits [.regs, .ev, .out, .mem, .intake, .kv, .hbm] M := by decide) :
    Within M s0 (s.withRecords recs f) := by
  unfold State.withRecords
  split
  · extract_lets count all cut src a
    have ha : Within M s0 a := hf (h.step hm (.set_intake Within.refl (by decide) id))
    exact .foldl ha fun _ _ g => g.step hm Within.refl.setPend
  · exact hf (.foldl h fun _ _ g => g.carry hm)

theorem Within.shareKv {st : StepRec} (h : Within M s0 s) (hm : Fits [.kv] M := by decide) : Within M s0 (s.shareKv st).1 := by
  refine h.step hm ?_
  unfold State.shareKv
  extract_lets count want
  refine .foldlEq Prod.fst Within.refl fun a w c g e => ?_
  split at e <;> subst e
  exacts [g, g.set_kv (by decide)]

theorem Within.applyStep {num : Nat} {b : CommitBody} (h : Within M s0 s)
    (hm : Fits (loss [.staged, .limits, .pages, .dev, .intake, .alm, .host, .freeCtr]) M := by decide) :
    Within M s0 (s.applyStep num b) := by
  refine h.step hm ?_
  unfold State.applyStep
  extract_lets bad rs
  refine .withCarried Within.refl fun g => .withRecords g fun g1 => .ite (fun _ => g1.commitPoint) fun _ => ?_
  split
  · exact .ite (fun _ => g1.rebuildCommit) fun _ => g1.commitStep
  · refine .ite (fun _ => g1.rebuildCommit) fun _ => ?_
    extract_lets x src b
    have hb : Within (mask (loss [.staged, .limits, .pages, .dev, .intake, .alm, .host, .freeCtr])) s b := g1.shareKv.commitStep
    exact .ite (fun _ => hb.set_slc (by decide)) fun _ => hb

theorem Within.dispatch {r : DispRec} (h : Within M s0 s) (hm : Fits [.prog] M := by decide) : Within M s0 (s.dispatch r) :=
  h.step hm (.set_prog Within.refl (by decide) id id)

theorem Within.applyCommit {num : Nat} {b : CommitBody} (h : Within M s0 s)
    (hm : Fits (loss [.staged, .limits, .pages, .dev, .intake, .alm, .host, .freeCtr]) M := by decide) :
    Within M s0 (s.applyCommit num b) :=
  h.step hm (.set_slc (.setReg (.afterRemap (.foldl Within.refl.applyStep fun _ _ g => g.dispatch))) (by decide))

theorem Within.leadApply {r : SRound} (h : Within M s0 s)
    (hm : Fits (loss [.staged, .limits, .pages, .dev, .intake, .alm, .host, .freeCtr]) M := by decide) :
    Within M s0 (s.leadApply r) :=
  h.step hm (Within.refl.sendAll.updRound.applyCommit.endRound)

theorem Within.tryCommit (h : Within M s0 s)
    (hm : Fits (loss [.staged, .limits, .pages, .dev, .intake, .alm, .host, .freeCtr]) M := by decide) :
    Within M s0 s.tryCommit := by
  refine h.step hm ?_
  dsimp only [State.tryCommit]
  split
  exacts [Within.refl,
    .ite (fun _ => Within.refl)
      fun _ => by
        split
        exacts [.sendSlice (.updRound (.set_slc Within.refl (by decide))),
          .leadApply (.updRound (.set_slc Within.refl (by decide)))]]

theorem Within.openNoStep (h : Within M s0 s)
    (hm : Fits (loss [.staged, .limits, .pages, .dev, .intake, .alm, .host, .freeCtr]) M := by decide) :
    Within M s0 s.openNoStep :=
  h.step hm (.tryCommit (.updRound (.set_mrd Within.refl (by decide))))

theorem Within.tickCommit (h : Within M s0 s)
    (hm : Fits (loss [.staged, .limits, .pages, .dev, .intake, .alm, .host, .freeCtr]) M := by decide) :
    Within M s0 s.tickCommit :=
  h.step hm (.ite (fun _ => Within.refl) fun _ => .ite (fun _ => .ite (fun _ => .ite (fun _ => Within.refl.openNoStep)
    fun _ => Within.refl) fun _ => .releaseRound (.withRecords Within.refl fun g => g.commitPoint))
    fun _ => Within.refl.commitPoint)

theorem Within.tooLong {n : Nat} (h : Within M s0 s) (hm : Fits [.mrd] M := by decide) : Within M s0 (s.tooLong n) :=
  h.step hm (.ite (fun _ => Within.refl) fun _ => .set_mrd Within.refl (by decide))

theorem Within.markLong (h : Within M s0 s) (hm : Fits [.mrd] M := by decide) : Within M s0 s.markLong :=
  h.step hm (.ite (fun _ => Within.refl) fun _ => .foldl Within.refl fun _ _ g => g.tooLong)

theorem Within.propose (h : Within M s0 s) (hm : Fits [.regs, .ev, .out, .mem, .hbm] M := by decide) : Within M s0 s.propose :=
  h.step hm (Within.refl.dramWrite.dramWrite.dramWrite.wrapReg)

theorem Within.formIssue {f : Forming} {x : Issue} (h : Within M s0 f.s) (hm : Fits (loss []) M := by decide) :
    Within M s0 (Forming.issue f x) :=
  h.step hm (.kvLow (.ite (fun _ => .foldl (.setReg64 (.set_mrd Within.refl.dramWrite (by decide)))
    fun _ _ g => g.dispatch.noteRead) fun _ => .flag (.foldl (.setReg64 (.set_mrd Within.refl.dramWrite (by decide)))
    fun _ _ g => g.dispatch.noteRead)))

theorem Within.start (h : Within M s0 s) (hm : Fits [.regs, .ev, .out, .kv] M := by decide) : Within M s0 (Forming.start s).s :=
  h.step hm (Within.refl.kvLow)

theorem Within.formRebuild (h : Within M s0 s) (hm : Fits (loss []) M := by decide) : Within M s0 s.formRebuild := by
  refine h.step hm ?_
  unfold State.formRebuild
  extract_lets l
  exact .ite (fun _ => Within.refl.rebuildDone) fun _ => .formIssue Within.refl.start

theorem Within.sprintRequest (h : Within M s0 s) (hm : Fits [.regs, .ev, .out, .combs, .clk] M := by decide) :
    Within M s0 s.sprintRequest :=
  h.step hm (.ite (fun _ => .set_clk Within.refl (by decide)) fun _ => .ite (fun _ => .set_clk Within.refl (by decide))
    fun _ => .ite (fun _ => .set_clk Within.refl (by decide))
    fun _ => .ite (fun _ => .schedule (.incReg (.set_clk Within.refl (by decide)))) fun _ => .set_clk Within.refl (by decide))

theorem Within.sprintRule {want : Bool} (h : Within M s0 s) (hm : Fits [.regs, .pages, .ev, .out, .combs, .clk] M := by decide) :
    Within M s0 (s.sprintRule want) :=
  h.step hm (.ite (fun _ => .ite (fun _ => Within.refl) fun _ => Within.refl.sprintRequest) fun _ => Within.refl.sprintRelease)

theorem Within.reserve {f g : Forming} {st n : Nat} (h : Within M s0 f.s) (hm : Fits [.kv] M := by decide)
    (e : f.reserve st n = some g := by assumption) : Within M s0 g.s := by
  unfold Forming.reserve at e
  split at e
  · cases e
  · cases e
    exact h.set_kv hm

theorem Within.keepPrefill {l : List (Nat × Nat)} {f : Forming} (h : Within M s0 f.s) (hm : Fits [.kv] M := by decide) :
    Within M s0 (Machine.keepPrefill l f).s := by
  induction l generalizing f with
  | nil => exact h
  | cons x l ih =>
    rw [Machine.keepPrefill]
    split
    next g e =>
      have hg : Within M s0 g.s := h.reserve hm e
      exact ih hg
    · exact ih h

theorem Within.takeDecode {spec : Bool} {l : List Nat} {want : Nat} {f : Forming} (h : Within M s0 f.s)
    (hm : Fits [.kv] M := by decide) : Within M s0 (Machine.takeDecode spec l want f).s := by
  induction l generalizing f with
  | nil => exact h
  | cons x l ih =>
    rw [Machine.takeDecode]
    split
    · exact h
    · split
      next g e =>
        have hg : Within M s0 g.s := h.reserve hm e
        exact ih hg
      · exact ih h

theorem Within.speculate {f : Forming} (h : Within M s0 s) (hm : Fits [.regs, .ev, .out, .kv] M := by decide) :
    Within M s0 (Forming.speculate f s).s :=
  h.step hm (Within.refl.start.takeDecode.keepPrefill)

theorem Within.takePrefill {l : List Nat} {room : Nat} {f : Forming} (h : Within M s0 f.s) (hm : Fits [.kv] M := by decide) :
    Within M s0 (Machine.takePrefill l room f).s := by
  induction l generalizing f room with
  | nil => exact h
  | cons x l ih =>
    rw [Machine.takePrefill]
    split
    · exact h
    extract_lets e ch
    split
    · exact ih h
    split
    next g e =>
      have hg : Within M s0 g.s := h.reserve hm e
      exact ih hg
    · exact ih h

theorem Within.choose (h : Within M s0 s) (hm : Fits [.regs, .ev, .out, .kv] M := by decide) : Within M s0 s.choose.1.s :=
  h.step hm (by dsimp only [State.choose]; split; exacts [Within.refl.speculate, Within.refl.start.takeDecode.takePrefill])

theorem Within.formStep (h : Within M s0 s) (hm : Fits (loss [.pages, .combs, .clk]) M := by decide) :
    Within M s0 s.formStep := by
  refine h.step hm ?_
  unfold State.formStep
  split
  next f n r spec e =>
  have hf : Within (mask (loss [.pages, .combs, .clk])) s f.s := by
    have hc : Within (mask (loss [.pages, .combs, .clk])) s s.choose.1.s := Within.refl.choose
    rwa [e] at hc
  refine .ite (fun _ => Within.refl) fun _ => ?_
  exact .formIssue hf.sprintRule

theorem execDecisionTick_within :
    ResWithin (mask (loss [.staged, .limits, .pages, .dev, .die, .intake, .alm, .host, .combs, .clk, .freeCtr]))
      s (execDecisionTick s) := by
  unfold execDecisionTick
  extract_lets a b c d e f
  have hd : Within (mask (loss [.staged, .limits, .pages, .dev, .die, .intake, .alm, .host, .combs, .clk, .freeCtr])) s d :=
    .ite (fun _ => .tickCommit (.shedUpdate (.ite (fun _ => Within.refl.applyMrd.applyClkCfg) fun _ => Within.refl.applyMrd)))
      fun _ => .shedUpdate (.ite (fun _ => Within.refl.applyMrd.applyClkCfg) fun _ => Within.refl.applyMrd)
  have hf : Within (mask (loss [.staged, .limits, .pages, .dev, .die, .intake, .alm, .host, .combs, .clk, .freeCtr])) s f :=
    .ite (fun _ => hd.markLong.propose) fun _ => hd.markLong
  exact .ite (fun _ => .next Within.refl) fun _ => .ite (fun _ => .next hf) fun _ => .ite
    (fun _ => .next (.ite (fun _ => hf.formRebuild) fun _ => hf)) fun _ => .ite (fun _ => .next hf.formStep) fun _ => .next hf

theorem Within.lqReject {idx : Nat} {r : List Byte} (h : Within M s0 s) (hm : Fits [.regs, .ev, .out, .mem, .hbm] M := by decide) :
    Within M s0 (s.lqReject idx r) :=
  h.step hm (by dsimp only [State.lqReject]; exact .report (by split <;> exact Within.refl.record))

theorem Within.drop {f : Forming} (h : Within M s0 f.s) (hm : Fits [] M := by decide) : Within M s0 (Forming.drop f).s :=
  h.step hm (Within.refl)

theorem Within.recPrefill {l : List (Nat × Nat)} {seen : List Nat} {f : Forming} (h : Within M s0 f.s)
    (hm : Fits [.kv, .mrd] M := by decide) : Within M s0 (Machine.recPrefill l seen f).s := by
  induction l generalizing f seen with
  | nil => exact h
  | cons x l ih =>
    rw [Machine.recPrefill]
    split
    · exact ih h
    split
    · exact ih (h.step hm (Within.tooLong .refl))
    split
    next g e =>
      have hg : Within M s0 g.s := h.step hm (Within.reserve .refl (by decide) e)
      exact ih hg
    · exact ih h

theorem Within.recDecode {spec : Bool} {l : List (Nat × Nat)} {seen : List Nat} {f : Forming} (h : Within M s0 f.s)
    (hm : Fits [.kv, .mrd] M := by decide) : Within M s0 (Machine.recDecode spec l seen f).s := by
  induction l generalizing f seen with
  | nil => exact h
  | cons x l ih =>
    rw [Machine.recDecode]
    split
    · exact ih h
    split
    · exact ih (h.step hm (Within.tooLong .refl))
    split
    next g e =>
      have hg : Within M s0 g.s := h.step hm (Within.reserve .refl (by decide) e)
      exact ih hg
    · exact ih h

theorem Within.takeStepRec {idx : Nat} {r : List Byte} (h : Within M s0 s)
    (hm : Fits (loss [.pages, .combs, .clk]) M := by decide) : Within M s0 (s.takeStepRec idx r) := by
  refine h.step hm ?_
  unfold State.takeStepRec
  extract_lets nd npf co done tag spec noop dr pr a db pb dl f g want f'
  have hn : ∀ {t n}, Within (mask (loss [.pages, .combs, .clk])) s t → Within (mask (loss [.pages, .combs, .clk])) s (noop t n) :=
    fun g => g.record
  have hp : Within (mask (loss [.pages, .combs, .clk])) s pr.s := Within.refl.fetch.fetch
  have hg : Within (mask (loss [.pages, .combs, .clk])) s g.s := hp.start.recDecode.recPrefill
  exact .ite (fun _ => hn Within.refl) fun _ => .ite (fun _ => hp.lqReject) fun _ =>
    .ite (fun _ => hn hg.flag) fun _ => .formIssue hg.sprintRule

theorem execStepRecord_within : ResWithin (mask (loss [.pages, .combs, .clk])) s (execStepRecord s) := by
  unfold execStepRecord
  extract_lets size hd a r auto took
  have ht : Within (mask (loss [.pages, .combs, .clk])) s took := Within.refl.setReg.noteRead
  refine .ite (fun _ => .next Within.refl) fun _ => ?_
  split
  · exact .ite (fun _ => .next ht.lqReject) fun _ => .next ht.dispatch
  · exact .ite (fun _ => .next (ht.set_slc (by decide))) fun _ => .next ht.dispatch
  · exact .ite (fun _ => .next ht.lqReject) fun _ => .ite (fun _ => .next ht.takeStepRec) fun _ => .next Within.refl
  · exact .next ht.lqReject

theorem Within.goWrite {src : Source} {p off : Nat} {pend : Bool} {f : State → State} (h : Within M s0 s)
    (hf : ∀ {t}, Within M s0 t → Within M s0 (f t)) (hm : Fits [.pages, .ev, .out] M := by decide) :
    Within M s0 (s.goWrite src p off pend f) :=
  .ite (fun _ => hf h) fun _ => (h.gated hf hm).step hm Within.refl.goReply

theorem execLqTailWrite_within {src : Source} {val : Word} :
    ResWithin (mask [.regs, .pages, .ev, .out]) s (execLqTailWrite src val s) :=
  .next (.goWrite Within.refl fun g => g.setReg)

/-- Reservations made one after the other, as long as each is met. -/
theorem Within.reserveAll {l : List (Nat × Nat)} {o : Option Forming} {g : Forming} (hm : Fits [.kv] M)
    (h : ∀ f, o = some f → Within M s0 f.s) (e : (l.foldl (fun f x => f.bind fun f => f.reserve x.1 x.2) o) = some g) :
    Within M s0 g.s := by
  induction l generalizing o with
  | nil => exact h g e
  | cons x l ih =>
    refine ih (fun f hf => ?_) e
    obtain ⟨f', hf', hr⟩ := Option.bind_eq_some_iff.1 hf
    exact (h f' hf').step hm Within.refl.reserve

theorem Within.reserveAgain {st : StepRec} {g : Forming} (h : Within M s0 s) (hm : Fits [.regs, .ev, .out, .kv] M := by decide)
    (e : s.reserveAgain st = some g := by assumption) : Within M s0 g.s := by
  have hk : Within M s0 (Forming.start s).s := h.step hm Within.refl.kvLow
  unfold State.reserveAgain at e
  split at e
  · cases e
    exact hk
  · exact h.step hm (Within.reserveAll (by decide) (fun f hf => by cases hf; exact Within.refl.kvLow) e)

theorem execStepReissue_within : ResWithin (mask [.regs, .ev, .out, .mem, .prog, .kv, .mrd, .hbm]) s (execStepReissue s) := by
  unfold execStepReissue
  split
  · exact .next Within.refl
  · refine .ite (fun _ => .next Within.refl) fun _ => ?_
    split
    · exact .next Within.refl
    next f e =>
      have hf : Within (mask [.regs, .ev, .out, .mem, .prog, .kv, .mrd, .hbm]) s f.s := Within.refl.reserveAgain
      extract_lets st' src mrd a at_ g b
      have ha : Within (mask [.regs, .ev, .out, .mem, .prog, .kv, .mrd, .hbm]) s a := hf.set_mrd (by decide)
      have hb : Within (mask [.regs, .ev, .out, .mem, .prog, .kv, .mrd, .hbm]) s b := ha.dramWrite
      exact .next (.kvLow (.foldl hb fun _ _ g => g.dispatch))

theorem Within.almApply (h : Within M s0 s) (hm : Fits [.regs, .staged, .limits, .pages, .alm] M := by decide) :
    Within M s0 s.almApply :=
  h.step hm (.ite (fun _ => Within.refl) fun _ => .ite (fun _ => .set_alm Within.refl.applyPage (by decide))
    fun _ => Within.refl.applyPage)

theorem Within.guardUpdate (h : Within M s0 s) (hm : Fits [.mrd] M := by decide) : Within M s0 s.guardUpdate :=
  h.step hm (.set_mrd Within.refl (by decide))

theorem execAlmanacSlotClose_within : ResWithin (mask [.regs, .staged, .limits, .pages, .mrd, .alm]) s (execAlmanacSlotClose s) :=
  .ite (fun _ => .next Within.refl) fun _ => .next (.almApply (.ite (fun _ => .guardUpdate (.setReg64
    (.ite (fun _ => .set_alm Within.refl (by decide)) fun _ => Within.refl)))
    fun _ => .setReg64 (.ite (fun _ => .set_alm Within.refl (by decide)) fun _ => Within.refl)))

theorem Within.hbmFmt {hs q src : Nat} (h : Within M s0 s) (hm : Fits (loss []) M := by decide) :
    Within M s0 (s.hbmFmt hs q src) :=
  h.step hm (.ite (fun _ => Within.refl.raise.hbmAnswer) fun _ => .ite (fun _ => Within.refl.raise.hbmAnswer)
    fun _ => Within.refl.raise)

theorem Within.readAnswer {hs q stat : Nat} {units : List (Nat × Bool)} (h : Within M s0 s) (hm : Fits [.out] M := by decide) :
    Within M s0 (s.readAnswer hs q stat units) :=
  h.step hm (.foldl Within.refl fun _ _ g => g.hbmAnswer)

theorem Within.readUnits {hs source : Nat} {fl : List Flip} {served : Option Nat} {a i n : Nat} (h : Within M s0 s)
    (hm : Fits (loss []) M := by decide) : Within M s0 (s.readUnits hs source fl served a i n).2 := by
  induction n generalizing s i with
  | zero => exact h
  | succ n ih =>
    have hr : Within M s0 (s.readAt hs (a + 64 * i) source fl served).s := h.step hm Within.refl.readAt
    rcases e : (s.readAt hs (a + 64 * i) source fl served).s.readUnits hs source fl served a (i + 1) n with ⟨l, u⟩
    rw [State.readUnits, e]
    exact .snd e (ih hr)

theorem Within.markDie {l : List Nat} (h : Within M s0 s) (hm : Fits [.hbm] M := by decide) : Within M s0 (s.markDie l) :=
  h.step hm (.set_hbm Within.refl (by decide) id)

theorem Within.disturbHbm {fl : List Flip} (h : Within M s0 s) (hm : Fits [.mem] M := by decide) :
    Within M s0 (s.disturbHbm fl) :=
  h.step hm (Within.refl.set_mem (by decide) (Mem.wf_hbm swf_disturb))

theorem execHbmRead_within {stack : Nat} {head : BitVec 512} {hdr : BitVec 128} {flips : List Flip} {stackUe : List Nat} :
    ResWithin (mask (loss [])) s (execHbmRead stack head hdr flips stackUe s) :=
  .onUnit (.ite (fun _ => Within.refl.hbmFmt) fun _ => .ite (fun _ => Within.refl) fun _ => .ite (fun _ => Within.refl.hbmAnswer)
    fun _ => .ite (fun _ => Within.refl.hbmUnmapped.readAnswer) fun _ => Within.refl.disturbHbm.markDie.readUnits.readAnswer)

theorem execHbmWrite_within {stack : Nat} {pkt : MeshPkt} {flips : List Flip} :
    ResWithin (mask (loss [])) s (execHbmWrite stack pkt flips s) := by
  dsimp only [execHbmWrite]
  exact .onUnit (.ite (fun _ => Within.refl.hbmFmt) fun _ => .ite (fun _ => Within.refl)
    fun _ => .ite (fun _ => .ite (fun _ => Within.refl.hbmAnswer) fun _ => Within.refl)
    fun _ => .ite (fun _ => .ite (fun _ => Within.refl.hbmUnmapped.hbmAnswer) fun _ => Within.refl.hbmUnmapped)
    fun _ => .ite (fun _ => .ite (fun _ => Within.refl.hbmRsv.hbmAnswer) fun _ => Within.refl.hbmRsv)
    fun _ => .ite (fun _ => .hbmAnswer (.ite (fun _ => .foldl
    (.foldl (by split; exacts [Within.refl.disturbHbm.cowTarget, Within.refl.disturbHbm])
    fun _ _ g => .writeAt g fun g1 => g1.hbmUe) fun _ _ g => g.cachePut)
    fun _ => .cacheSync (.foldl (by split; exacts [Within.refl.disturbHbm.cowTarget, Within.refl.disturbHbm])
    fun _ _ g => .writeAt g fun g1 => g1.hbmUe)))
    fun _ => .ite (fun _ => .foldl (.foldl (by split; exacts [Within.refl.disturbHbm.cowTarget, Within.refl.disturbHbm])
    fun _ _ g => .writeAt g fun g1 => g1.hbmUe) fun _ _ g => g.cachePut)
    fun _ => .cacheSync (.foldl (by split; exacts [Within.refl.disturbHbm.cowTarget, Within.refl.disturbHbm])
    fun _ _ g => .writeAt g fun g1 => g1.hbmUe))

theorem Within.set_poison {a : List Nat} {b : List Nat} (h : Within M s0 s) (hm : Fits [.hbm] M := by decide) :
    Within M s0 { s with hbm := { s.hbm with kpoison := a, onDie := b } } := h.set_hbm hm id

/-- The definition is opened as a function: on its arguments the kernel would evaluate what `metUnit` reads. -/
theorem Within.refresh {hs sa source : Nat} {fl : List Flip} (h : Within M s0 s) (hm : Fits (loss []) M := by decide) :
    Within M s0 (s.refresh hs sa source fl) := by
  refine h.step hm ?_
  have e : @State.refresh = @State.refresh := rfl
  conv_rhs at e => delta State.refresh
  rw [e]
  beta_reduce
  extract_lets a comp
  split
  next d c hq =>
  extract_lets poison
  have hp : ∀ k, Within (mask (loss [])) s (poison k) := fun k =>
    .ite (fun _ => .set_poison Within.refl.hbmUe) fun _ => Within.refl.hbmUe.setUnit
  refine .ite (fun _ => Within.refl) fun _ => .ite (fun _ => hp 2) fun _ => ?_
  split
  · exact Within.refl
  · exact .ite (fun _ => Within.refl.hbmCorrected) fun _ => Within.refl.hbmCorrected.setUnit
  · exact hp _

theorem execHbmScrubRead_within {stack : Nat} {flips : List Flip} {stackUe : Bool} :
    ResWithin (mask (loss [])) s (execHbmScrubRead stack flips stackUe s) :=
  .onUnit (.ite (fun _ => Within.refl) fun _ => .refresh (.markDie (.disturbHbm (.ite (fun _ => Within.refl.setReg.updStack)
    fun _ => Within.refl.setReg))))

theorem Within.keepCmd {hs c : Nat} (h : Within M s0 s) (hm : Fits [.regs] M := by decide) : Within M s0 (s.keepCmd hs c) :=
  h.step hm (Within.refl.setReg64)

theorem Within.setRepair {hs last : Nat} (h : Within M s0 s) (hm : Fits [.regs] M := by decide) :
    Within M s0 (s.setRepair hs last) :=
  h.step hm (Within.refl.setReg)

theorem Within.repairFail {hs sa : Nat} (h : Within M s0 s) (hm : Fits [.regs, .ev, .out] M := by decide) :
    Within M s0 (s.repairFail hs sa) :=
  h.step hm (Within.refl.setRepair.report)

theorem execHbmSoftRepair_within {src : Source} {stack : Nat} {cmd : DWord} {noSpare : Bool} {flips : List Flip} :
    ResWithin (mask (loss [.pages])) s (execHbmSoftRepair src stack cmd noSpare flips s) :=
  .onUnit (.goWrite Within.refl fun g => .ite (fun _ => g.keepCmd) fun _ => .ite (fun _ => g.keepCmd.setRepair)
    fun _ => .ite (fun _ => g.keepCmd.repairFail)
    fun _ => .setRepair (.updStack (.foldl g.keepCmd.disturbHbm fun _ _ g1 => g1.refresh)))

theorem execHbmHardRepair_within {src : Source} {stack : Nat} {cmd : DWord} {noSpare : Bool} :
    ResWithin (mask [.regs, .pages, .ev, .out, .hbm, .nv]) s (execHbmHardRepair src stack cmd noSpare s) :=
  .onUnit (.goWrite Within.refl fun g => .ite (fun _ => g.keepCmd) fun _ => .ite (fun _ => g.keepCmd.repairFail)
    fun _ => g.keepCmd.storeDefect.updStack.setRepair)

theorem execHbmStackLost_within {stack : Nat} : ResWithin (mask (loss [.dev])) s (execHbmStackLost stack s) :=
  .onUnit (.ite (fun _ => Within.refl) fun _ => Within.refl.updStack.raise.review)

theorem execHbmHot_within {stack temp : Nat} : ResWithin (mask [.regs, .ev, .out, .hbm]) s (execHbmHot stack temp s) :=
  .onUnit (.ite (fun _ => Within.refl.updStack.flag.log) fun _ => Within.refl.updStack)

theorem Within.winRange {off wr : Nat} (h : Within M s0 s) (hm : Fits [.regs, .ev, .out] M := by decide) :
    Within M s0 (s.winRange off wr) :=
  h.step hm (Within.refl.incReg.report)

theorem execBar4Read_within {off len : Nat} : ResWithin (mask (loss [])) s (execBar4Read off len s) := by
  refine .next ?_
  extract_lets a
  refine .ite (fun _ => Within.refl) fun _ => .ite (fun _ => Within.refl.winRange.emit) fun _ => ?_
  have hf : Within (mask (loss [])) s ((unitsOf a len).foldl (fun (acc : List Byte × Bool × State) u =>
      ((acc.1 ++ (acc.2.2.readAt (acc.2.2.mapOf u).1 u 1 [] none).data,
        acc.2.1 || (acc.2.2.readAt (acc.2.2.mapOf u).1 u 1 [] none).poison,
        (acc.2.2.readAt (acc.2.2.mapOf u).1 u 1 [] none).s) : List Byte × Bool × State)) ([], false, s)).2.2 :=
    .foldlEq (fun b : List Byte × Bool × State => b.2.2) Within.refl fun b u c g e => by subst e; exact g.readAt
  split
  next d p u e => exact .emit (.thd e hf)

theorem execBar4Write_within {off : Nat} {data : List Byte} {poisoned : Bool} :
    ResWithin (mask (loss [])) s (execBar4Write off data poisoned s) :=
  .next (.ite (fun _ => Within.refl) fun _ => .ite (fun _ => Within.refl.winRange)
    fun _ => .cacheSync (.foldl Within.refl fun _ _ g => g.devWrite))

theorem Within.resizeBar4 {log2 : Nat} (h : Within M s0 s) (hm : Fits [.regs, .staged, .pages] M := by decide) :
    Within M s0 (s.resizeBar4 log2) := by
  refine h.step hm ?_
  dsimp only [State.resizeBar4]
  exact .ite (fun _ => Within.refl) fun _ => .noteOrder
    (.setReg64 (by
      split
      exacts [Within.refl.setReg, .set_staged Within.refl.setReg (by decide) (fun i => sput_rising (sput_rising i))]))

theorem execBar4Resize_within {log2 : Nat} : ResWithin (mask [.regs, .staged, .pages]) s (execBar4Resize log2 s) :=
  .onUnit Within.refl.resizeBar4

theorem Within.portDown {p cause : Nat} (h : Within M s0 s) (hm : Fits (loss []) M := by decide) :
    Within M s0 (s.portDown p cause) :=
  h.step hm (Within.refl.linkLost.updTP.nbrEvent)

theorem Within.sendLink {p : Nat} {nak : Bool} (h : Within M s0 s) (hm : Fits [.regs, .out, .tre] M := by decide) :
    Within M s0 (s.sendLink p nak) :=
  h.step hm (Within.refl.updTP.trlEmit)

theorem Within.refusePkt {p : Nat} (h : Within M s0 s) (hm : Fits (loss []) M := by decide) : Within M s0 (s.refusePkt p) :=
  h.step hm (.ite (fun _ => Within.refl.updTP.portDown) fun _ => Within.refl.updTP.sendLink)

theorem Within.takeReturns {p : Nat} {b : TBody} (h : Within M s0 s) (hm : Fits [.regs, .out, .tre] M := by decide) :
    Within M s0 (s.takeReturns p b) := by
  cases b
  case link c => exact h.step hm Within.refl.updTP.trlFlow
  all_goals exact h

theorem Within.trlFmt {p cls : Nat} (h : Within M s0 s) (hm : Fits [.regs, .ev, .out] M := by decide) :
    Within M s0 (s.trlFmt p cls) :=
  h.step hm (Within.refl.report)

theorem Within.announce {p : Nat} (h : Within M s0 s) (hm : Fits [.regs, .out, .tre] M := by decide) :
    Within M s0 (s.announce p) :=
  h.step hm (by dsimp only [State.announce]; split; exacts [Within.refl, Within.refl.trlPut])

theorem Within.hearTime {p : Nat} {root : DWord} {hops : Nat} (h : Within M s0 s)
    (hm : Fits [.regs, .ev, .out, .tre] M := by decide) : Within M s0 (s.hearTime p root hops) :=
  h.step hm (.ite (fun _ => Within.refl) fun _ => .ite (fun _ => Within.refl.updTP.chooseParent)
    fun _ => Within.refl.updTP.chooseParent.announce)

theorem Within.answerQuery {p : Nat} {hs : THead} {q : Nat} (h : Within M s0 s) (hm : Fits [.regs, .out, .tre] M := by decide) :
    Within M s0 (s.answerQuery p hs q) :=
  h.step hm (Within.refl.trlPut)

theorem Within.hear {l : Nat} (h : Within M s0 s) (hm : Fits [.slc] M := by decide) : Within M s0 (s.hear l) :=
  h.step hm (.set_slc Within.refl (by decide))

theorem Within.onReady {n l : Nat} {recs : List ResRec} (h : Within M s0 s)
    (hm : Fits (loss [.staged, .limits, .pages, .dev, .intake, .alm, .host, .freeCtr]) M := by decide) :
    Within M s0 (s.onReady n l recs) :=
  h.step hm (.ite (fun _ => Within.refl.hear) fun _ => Within.refl.hear.updRound.tryCommit)

theorem Within.abortFor {num cause code : Nat} {f : Forbid} (h : Within M s0 s) (hm : Fits (loss []) M := by decide) :
    Within M s0 (s.abortFor num cause code f) :=
  h.step hm (by dsimp only [State.abortFor]; split; exacts [Within.refl.sendAbort, Within.refl.sendAbort.updStep.abandonFrom])

theorem Within.leadAbort {num cause code : Nat} (h : Within M s0 s) (hm : Fits (loss []) M := by decide) :
    Within M s0 (s.leadAbort num cause code) :=
  h.step hm (Within.refl.abortFor)

theorem Within.onNotReady {n l code : Nat} (h : Within M s0 s) (hm : Fits (loss []) M := by decide) :
    Within M s0 (s.onNotReady n l code) :=
  h.step hm (.ite (fun _ => Within.refl.hear.leadAbort) fun _ => Within.refl.hear)

theorem Within.heed {l : Nat} (h : Within M s0 s) (hm : Fits [.regs, .slc] M := by decide) : Within M s0 (s.heed l) :=
  h.step hm (.ite (fun _ => Within.refl.hear) fun _ => .set_slc Within.refl.hear.setReg (by decide))

theorem Within.onCommit {n l : Nat} {b : CommitBody} (h : Within M s0 s)
    (hm : Fits (loss [.staged, .limits, .pages, .dev, .intake, .alm, .host, .freeCtr]) M := by decide) :
    Within M s0 (s.onCommit n l b) := by
  refine h.step hm ?_
  unfold State.onCommit
  extract_lets a w b c d e
  have ha : Within (mask (loss [.staged, .limits, .pages, .dev, .intake, .alm, .host, .freeCtr])) s a := Within.refl.heed
  have hb : Within (mask (loss [.staged, .limits, .pages, .dev, .intake, .alm, .host, .freeCtr])) s b := ha.applyCommit
  have hc : Within (mask (loss [.staged, .limits, .pages, .dev, .intake, .alm, .host, .freeCtr])) s e :=
    .ite (fun _ => ha) fun _ => hb.set_mrd_slc (by decide)
  exact .ite (fun _ => ha) fun _ => hc.sendSlice

theorem Within.onAbort {n l : Nat} (h : Within M s0 s)
    (hm : Fits [.regs, .ev, .out, .mem, .prog, .kv, .mrd, .hbm, .ldg, .st, .bt, .slc] M := by decide) :
    Within M s0 (s.onAbort n l) := by
  refine h.step hm ?_
  dsimp only [State.onAbort]
  refine .ite (fun _ => Within.refl.hear) fun _ => ?_
  split
  exacts [.set_slc Within.refl.hear (by decide), .abandonFrom (.set_slc Within.refl.hear (by decide))]

theorem Within.onDone {n l : Nat} (h : Within M s0 s)
    (hm : Fits (loss [.staged, .limits, .pages, .dev, .intake, .alm, .host, .freeCtr]) M := by decide) :
    Within M s0 (s.onDone n l) := by
  refine h.step hm ?_
  dsimp only [State.onDone]
  split
  exacts [Within.refl.hear,
    .ite (fun _ => Within.refl.hear) fun _ => .tryCommit (.ite (fun _ => Within.refl.hear.updRound.leadApply)
      fun _ => Within.refl.hear.updRound.endRound)]

theorem Within.onStatusQ {l : Nat} (h : Within M s0 s) (hm : Fits [.regs, .ev, .out, .tre, .slc] M := by decide) :
    Within M s0 (s.onStatusQ l) :=
  h.step hm (Within.refl.hear.sendSlice)

theorem Within.onStatusR {l last : Nat} (h : Within M s0 s) (hm : Fits [.regs, .ev, .out, .tre, .slc] M := by decide) :
    Within M s0 (s.onStatusR l last) :=
  h.step hm (.ite (fun _ => .sendSlice (.set_slc Within.refl.hear (by decide))) fun _ => .set_slc Within.refl.hear (by decide))

theorem Within.onBeat {l : Nat} (h : Within M s0 s) (hm : Fits [.regs, .ev, .out, .tre, .slc] M := by decide) :
    Within M s0 (s.onBeat l) :=
  h.step hm (Within.refl.heed.sendSlice)

theorem Within.onSlice {m : SliceMsg} (h : Within M s0 s)
    (hm : Fits (loss [.staged, .limits, .pages, .dev, .intake, .alm, .host, .freeCtr]) M := by decide) :
    Within M s0 (s.onSlice m) := by
  refine h.step hm ?_
  dsimp only [State.onSlice]
  split
  exacts [Within.refl.onReady, Within.refl.onNotReady, Within.refl.onCommit, Within.refl.onAbort, Within.refl.onDone,
    Within.refl.onStatusQ, Within.refl.onStatusR, Within.refl.onBeat]

theorem Within.sliceIn {head : Nat} {m : SliceMsg} (h : Within M s0 s)
    (hm : Fits (loss [.staged, .limits, .pages, .dev, .intake, .alm, .host, .freeCtr]) M := by decide) :
    Within M s0 (s.sliceIn head m) := by
  refine h.step hm ?_
  dsimp only [State.sliceIn]
  split
  exacts [.ite (fun _ => .onReady (.set_slc Within.refl (by decide))) fun _ => .set_slc Within.refl (by decide),
    .ite (fun _ => Within.refl.onSlice) fun _ => Within.refl]

theorem Within.trlSend {via flow : Nat} {chk : Bool} {hs : THead} {body : TBody} (h : Within M s0 s)
    (hm : Fits [.regs, .ev, .out, .tre] M := by decide) : Within M s0 (s.trlSend via flow chk hs body) :=
  h.step hm (by dsimp only [State.trlSend]; split; exacts [Within.refl.trlNoRoute, Within.refl.trlOut])

theorem Within.maintAnswer {p : Nat} {hs : THead} {q value stat : Nat} (h : Within M s0 s)
    (hm : Fits [.regs, .ev, .out, .tre] M := by decide) : Within M s0 (s.maintAnswer p hs q value stat) :=
  h.step hm (Within.refl.trlSend)

theorem Within.maintOrder {p : Nat} {hs : THead} {q : Nat} (h : Within M s0 s)
    (hm : Fits (loss [.staged, .limits, .limStaged, .pages, .latch, .lowHeld, .host, .combs, .clk, .rt]) M := by decide) :
    Within M s0 (s.maintOrder p hs q) :=
  h.step hm (.ite (fun _ => Within.refl) fun _ => .ite (fun _ => Within.refl.maintAnswer)
    fun _ => .ite (fun _ => Within.refl.maintAnswer) fun _ => .ite (fun _ => Within.refl.read4.maintAnswer)
    fun _ => Within.refl.write4.maintAnswer)

theorem Within.trlDeliver {p : Nat} {hs : THead} {b : TBody} (h : Within M s0 s)
    (hm : Fits packetParts M := by decide) : Within M s0 (s.trlDeliver p hs b) := by
  refine h.step hm ?_
  dsimp only [State.trlDeliver]
  refine .ite (fun _ => Within.refl.sliceViol) fun _ => ?_
  split
  exacts [.ite (fun _ => Within.refl.updTP) fun _ => Within.refl.serveRemote, Within.refl.attInject, Within.refl.attInject,
    .whenB Within.refl fun _ => Within.refl.sliceIn, Within.refl.maintOrder, Within.refl]

theorem Within.trlTake {p : Nat} {hs : THead} {b : TBody} (h : Within M s0 s)
    (hm : Fits packetParts M := by decide) : Within M s0 (s.trlTake p hs b) := by
  refine h.step hm ?_
  unfold State.trlTake
  refine .ite (fun _ => Within.refl.takeReturns) fun _ => .ite (fun _ => Within.refl.trlFmt) fun _ => .ite (fun _ => ?_)
    fun _ => .ite (fun _ => ?_) fun _ => .ite (fun _ => Within.refl.trlDrop) fun _ => .ite (fun _ => Within.refl.trlDrop)
    fun _ => .ite (fun _ => Within.refl.sliceViol) fun _ => .ite (fun _ => Within.refl.trlDeliver)
    fun _ => .ite (fun _ => Within.refl.trlDrop) fun _ => .ite (fun _ => Within.refl.report) fun _ => Within.refl.trlSend
  · split
    exacts [Within.refl.hearTime, Within.refl]
  · split
    exacts [Within.refl.answerQuery, Within.refl]

theorem Within.resend {p : Nat} {w : BitVec 128} {body : TBody} (h : Within M s0 s) (hm : Fits [.regs, .out] M := by decide) :
    Within M s0 (s.resend p w body) :=
  h.step hm (Within.refl.incReg.addReg64.emit)

theorem Within.takeAck {p lack : Nat} {nak : Bool} (h : Within M s0 s) (hm : Fits [.regs, .out, .tre] M := by decide) :
    Within M s0 (s.takeAck p lack nak) :=
  h.step hm (.ite (fun _ => .foldl Within.refl.updTP.trlFlow fun _ _ g => g.resend) fun _ => Within.refl.updTP.trlFlow)

theorem Within.treathIn {p : Nat} {k : TPkt} (h : Within M s0 s)
    (hm : Fits packetParts M := by decide) : Within M s0 (s.treathIn p k) :=
  h.step hm (.ite (fun _ => Within.refl) fun _ => .ite (fun _ => Within.refl.refusePkt) fun _ => .ite (fun _ => Within.refl)
    fun _ => .ite (fun _ => Within.refl.updTP.addReg64.takeAck.trlTake)
    fun _ => Within.refl.updTP.addReg64.takeAck.trlTake.freeRx)

theorem execTreathPacketReceive_within {port : Nat} {pkt : TPkt} :
    ResWithin (mask packetParts) s (execTreathPacketReceive port pkt s) :=
  .onUnit Within.refl.treathIn

theorem execLinkKeepalive_within {port : Nat} : ResWithin (mask [.regs, .out, .tre]) s (execLinkKeepalive port s) :=
  .onUnit (.ite (fun _ => Within.refl.sendLink) fun _ => Within.refl)

theorem execTrlPortDown_within {port cause : Nat} : ResWithin (mask (loss [])) s (execTrlPortDown port cause s) :=
  .onUnit (.ite (fun _ => Within.refl.portDown) fun _ => Within.refl)

theorem Within.stayOut {p : Nat} {before : Option Ident} (h : Within M s0 s) (hm : Fits [.regs, .ev, .out, .tre] M := by decide) :
    Within M s0 (s.stayOut p before) :=
  h.step hm (.ite (fun _ => Within.refl.updTP) fun _ => Within.refl.updTP.nbrEvent)

theorem Within.retrainOne {p : Nat} {x : TrainInfo} (h : Within M s0 s) (hm : Fits (loss []) M := by decide) :
    Within M s0 (s.retrainOne p x) := by
  refine h.step hm ?_
  dsimp only [State.retrainOne]
  refine .ite (fun _ => .updTP (.train (.updTP (.ite (fun _ => Within.refl.linkLost) fun _ => Within.refl)))) fun _ => ?_
  split
  exacts [.ite (fun _ => .set_tre (.updTP (.train (.updTP (.ite (fun _ => Within.refl.linkLost)
    fun _ => Within.refl)))) (by decide) id) fun _ => .stayOut (.updTP (.train (.updTP (.ite (fun _ => Within.refl.linkLost)
    fun _ => Within.refl)))),
    .stayOut (.updTP (.train (.updTP (.ite (fun _ => Within.refl.linkLost) fun _ => Within.refl))))]

theorem execTrlRetrain_within {src : Source} {port : Nat} {info : TrainInfo} :
    ResWithin (mask (loss [.pages])) s (execTrlRetrain src port info s) :=
  .onUnit (.ite (fun _ => .ite (fun _ => Within.refl.updTP.retrainOne) fun _ => Within.refl)
    fun _ => .goWrite Within.refl fun g => g.setReg.updTP.retrainOne)

theorem execTimeExchange_within {port : Nat} {t1 t2 t3 t4 resid1 resid2 : DWord} :
    ResWithin (mask [.regs, .out, .dev, .tre]) s (execTimeExchange port t1 t2 t3 t4 resid1 resid2 s) :=
  .onUnit (.ite (fun _ => Within.refl) fun _ => .ite (fun _ => Within.refl.announce)
    fun _ => .ite (fun _ => .set_tre (.set_dev (.set_tre Within.refl.announce (by decide) id) (by decide)) (by decide) id)
    fun _ => .set_tre Within.refl.announce (by decide) id)

theorem execTimeHoldover_within : ResWithin (mask [.regs, .ev, .out, .tre]) s (execTimeHoldover s) := by
  dsimp only [execTimeHoldover]
  exact .next (by
    split
    exacts [Within.refl,
      .ite (fun _ => Within.refl) fun _ => .chooseParent (.updTP (.report (.set_tre Within.refl (by decide) id)))])

theorem Within.leadReady {n : Nat} {own : List ResRec} (h : Within M s0 s)
    (hm : Fits (loss [.staged, .limits, .pages, .dev, .intake, .alm, .host, .freeCtr]) M := by decide) :
    Within M s0 (s.leadReady n own) :=
  h.step hm (Within.refl.updRound.tryCommit)

theorem Within.shareBad {step : Word} {e : ShareEvent} {own : List ResRec} (h : Within M s0 s)
    (hm : Fits [.regs, .ev, .out, .tre, .slc] M := by decide) : Within M s0 (s.shareBad step e own) :=
  h.step hm (.ite (fun _ => .sendSlice (.set_slc Within.refl (by decide))) fun _ => .sendSlice (.set_slc Within.refl (by decide)))

theorem execSliceShareReady_within {step : Word} {cannot : Option ShareEvent} :
    ResWithin (mask (loss [.staged, .limits, .pages, .dev, .intake, .alm, .host, .freeCtr]))
      s (execSliceShareReady step cannot s) := by
  dsimp only [execSliceShareReady]
  refine .ite (fun _ => .next Within.refl)
    fun _ => .ite (fun _ => by
      split
      exacts [.next Within.refl,
        .ite (fun _ => .next (.ite (fun _ => Within.refl.updStep.leadReady) fun _ => Within.refl.updStep))
          fun _ => .next Within.refl.abortFor, .next (.ite (fun _ => Within.refl.leadReady) fun _ => Within.refl)])
    fun _ => ?_
  split
  exacts [.next Within.refl.shareBad, .next (.ite (fun _ => Within.refl.sendSlice) fun _ => Within.refl)]

theorem execReadyMsg_within {step : Word} {sender : Nat} {recs : List ResRec} :
    ResWithin (mask (loss [.staged, .limits, .pages, .dev, .intake, .alm, .host, .freeCtr]))
      s (execReadyMsg step sender recs s) :=
  .next (.whenB Within.refl fun _ => Within.refl.onReady)

theorem execNotReadyMsg_within {step : Word} {sender : Nat} {code : BitVec 16} :
    ResWithin (mask (loss [])) s (execNotReadyMsg step sender code s) :=
  .next (.whenB Within.refl fun _ => Within.refl.onNotReady)

theorem execCommitMsg_within {step : Word} {sender : Nat} {body : CommitBody} :
    ResWithin (mask (loss [.staged, .limits, .pages, .dev, .intake, .alm, .host, .freeCtr]))
      s (execCommitMsg step sender body s) :=
  .next (.whenB Within.refl fun _ => Within.refl.onCommit)

theorem execAbortMsg_within {step : Word} {sender : Nat} :
    ResWithin (mask [.regs, .ev, .out, .mem, .prog, .kv, .mrd, .hbm, .ldg, .st, .bt, .slc]) s (execAbortMsg step sender s) :=
  .next (.whenB Within.refl fun _ => Within.refl.onAbort)

theorem execDoneMsg_within {step : Word} {sender : Nat} :
    ResWithin (mask (loss [.staged, .limits, .pages, .dev, .intake, .alm, .host, .freeCtr])) s (execDoneMsg step sender s) :=
  .next (.whenB Within.refl fun _ => Within.refl.onDone)

theorem execStatusQ_within {sender : Nat} : ResWithin (mask [.regs, .ev, .out, .tre, .slc]) s (execStatusQ sender s) :=
  .next (.whenB Within.refl fun _ => Within.refl.onStatusQ)

theorem execStatusR_within {sender : Nat} {lastStep : Word} :
    ResWithin (mask [.regs, .ev, .out, .tre, .slc]) s (execStatusR sender lastStep s) :=
  .next (.whenB Within.refl fun _ => Within.refl.onStatusR)

theorem execBeatMsg_within {sender : Nat} : ResWithin (mask [.regs, .ev, .out, .tre, .slc]) s (execBeatMsg sender s) :=
  .next (.whenB Within.refl fun _ => Within.refl.onBeat)

theorem execSliceBeatTimer_within : ResWithin (mask [.regs, .ev, .out, .tre, .slc]) s (execSliceBeatTimer s) :=
  .next (.whenB Within.refl fun _ => .set_slc Within.refl.sendAll (by decide))

theorem execSliceCommitTimeout_within {step : Word} : ResWithin (mask (loss [])) s (execSliceCommitTimeout step s) := by
  dsimp only [execSliceCommitTimeout]
  exact .next
    (.whenB Within.refl fun _ => by
      split
      exacts [Within.refl, by split; exacts [.ite (fun _ => Within.refl.leadAbort) fun _ => Within.refl, Within.refl]])

theorem Within.spareIn {l : Nat} (h : Within M s0 s)
    (hm : Fits (loss [.staged, .limits, .pages, .dev, .intake, .alm, .host, .freeCtr]) M := by decide) :
    Within M s0 (s.spareIn l) :=
  h.step hm (by dsimp only [State.spareIn]; split; exacts [Within.refl, .openNoStep (.set_slc Within.refl (by decide))])

theorem Within.loseMember {l : Nat} (h : Within M s0 s)
    (hm : Fits (loss [.staged, .limits, .pages, .dev, .intake, .alm, .host, .freeCtr]) M := by decide) :
    Within M s0 (s.loseMember l) := by
  refine h.step hm ?_
  dsimp only [State.loseMember]
  exact .spareIn
    (.foldl (by split; exacts [.leadAbort (.set_slc Within.refl.report (by decide)), .set_slc Within.refl.report (by decide)])
    fun _ _ g => g.endRound)

theorem Within.loseBoth {d : Nat} (h : Within M s0 s) (hm : Fits [.regs, .ev, .out, .slc] M := by decide) :
    Within M s0 (s.loseBoth d) :=
  h.step hm (.set_slc (.foldl Within.refl fun _ _ g => g.report) (by decide))

theorem execSliceMemberLost_within {logical : Nat} :
    ResWithin (mask (loss [.staged, .limits, .pages, .dev, .intake, .alm, .host, .freeCtr]))
      s (execSliceMemberLost logical s) := by
  dsimp only [execSliceMemberLost]
  exact .next (.whenB Within.refl fun _ => .ite (fun _ => Within.refl.loseMember)
    fun _ => by split; exacts [Within.refl, .ite (fun _ => Within.refl.loseBoth) fun _ => Within.refl])

theorem Within.takeOver (h : Within M s0 s)
    (hm : Fits (loss [.staged, .limits, .pages, .dev, .intake, .alm, .host, .freeCtr]) M := by decide) :
    Within M s0 s.takeOver := by
  refine h.step hm ?_
  unfold State.takeOver
  extract_lets old a b c src1 src2 d e f
  have ha : Within (mask (loss [.staged, .limits, .pages, .dev, .intake, .alm, .host, .freeCtr])) s a := by
    dsimp only [a]
    split
    exacts [Within.refl.abandonFrom, Within.refl]
  have hd : Within (mask (loss [.staged, .limits, .pages, .dev, .intake, .alm, .host, .freeCtr])) s d :=
    .set_intake_slc ha.setReg.setReg (by decide) (by exact id)
  exact hd.toHosts.report.loseMember

theorem execSliceLeadChange_within :
    ResWithin (mask (loss [.staged, .limits, .pages, .dev, .intake, .alm, .host, .freeCtr])) s (execSliceLeadChange s) :=
  .next (.whenB Within.refl fun _ => .ite (fun _ => .ite (fun _ => .takeOver (.set_slc Within.refl (by decide)))
    fun _ => .sendAll (.set_slc Within.refl (by decide))) fun _ => .ite (fun _ => Within.refl.takeOver) fun _ => Within.refl)

theorem Within.maintIn {op p : Nat} {k : TPkt} (h : Within M s0 s)
    (hm : Fits packetParts M := by decide) : Within M s0 (s.maintIn op p k) := by
  refine h.step hm ?_
  dsimp only [State.maintIn]
  split
  exacts [.ite (fun _ => Within.refl.treathIn) fun _ => Within.refl, Within.refl]

theorem execMaintRead_within {port : Nat} {pkt : TPkt} :
    ResWithin (mask packetParts) s (execMaintRead port pkt s) :=
  .onUnit Within.refl.maintIn

theorem execMaintWrite_within {port : Nat} {pkt : TPkt} :
    ResWithin (mask packetParts) s (execMaintWrite port pkt s) :=
  .onUnit Within.refl.maintIn

theorem execMaintResponse_within {port : Nat} {pkt : TPkt} :
    ResWithin (mask packetParts) s (execMaintResponse port pkt s) :=
  .onUnit Within.refl.maintIn

theorem execIdentityQuery_within {port : Nat} {pkt : TPkt} :
    ResWithin (mask packetParts) s (execIdentityQuery port pkt s) :=
  .onUnit Within.refl.maintIn

theorem execNeighbourQuery_within {port : Nat} {pkt : TPkt} :
    ResWithin (mask packetParts) s (execNeighbourQuery port pkt s) :=
  .onUnit Within.refl.maintIn

theorem ResWithin.whenFunction {f : State → State} (hf : Within M s s → Within M s (f s)) : ResWithin M s (s.whenFunction f) :=
  .next (Within.refl.whenB fun _ => hf Within.refl)

theorem State.own_of_mem_hostPages {p : Nat} (h : swf pageDflt s.pages = true) (hp : p ∈ s.hostPages) :
    (s.page p).own = some .host := by
  obtain ⟨⟨k, g⟩, he, rfl⟩ := List.mem_map.1 hp
  obtain ⟨hm, ho⟩ := List.mem_filter.1 he
  have hs : sfind s.pages k = some g := sfind_of_mem (swf_iff.1 h).1 hm
  rw [State.page, sget, hs]
  exact beq_iff_eq.1 ho

theorem State.not_fixed_of_mem_hostPages {p : Nat} (i : s.Inv) (hp : p ∈ s.hostPages) : fixedPage p = false := by
  refine Bool.eq_false_iff.2 fun hf => ?_
  have ho := i.fixed p hf
  rw [State.own_of_mem_hostPages i.pages hp] at ho
  cases ho

/-- The host's page `p`, which the invariant does not let be fixed, becomes unowned. -/
theorem Within.disown {p : Nat} (h : Within M s0 s) (hf : s0.Inv → fixedPage p = false)
    (hm : Fits [.staged, .pages] M := by decide) : Within M s0 (s.disown p) := by
  have hd : Within M s0 (if (s.page p).pending then s else s.dropStaged p) :=
    .ite (fun _ => h) fun _ => h.step hm Within.refl.dropStaged
  exact hd.setOwnerOf hf (.trans (by decide) hm)

theorem Within.functionReset (h : Within M s0 s) (hm : Fits [.regs, .staged, .pages, .ev, .host] M := by decide) :
    Within M s0 s.functionReset := by
  refine h.step hm ?_
  unfold State.functionReset
  extract_lets src a b c
  have hb : Within (mask [.regs, .staged, .pages, .ev, .host]) s b :=
    .resizeBar4 (.set_regs_host Within.refl (by decide) swf_filter)
  have hc : Within (mask [.regs, .staged, .pages, .ev, .host]) s c := List.foldlRecOn (motive := fun t => Within _ s t) _ _ hb
    fun t g p hp => g.disown fun i => State.not_fixed_of_mem_hostPages (hb.inv i) hp
  exact .ite (fun _ => hc.setReg.evtStop) fun _ => hc

theorem execFunctionLevelReset_within : ResWithin (mask [.regs, .staged, .pages, .ev, .host]) s (execFunctionLevelReset s) :=
  .whenFunction fun g => g.functionReset

theorem execHotReset_within : ResWithin (mask [.regs, .staged, .pages, .ev, .host]) s (execHotReset s) :=
  .whenFunction fun g => g.functionReset

theorem execPciLinkDown_within : ResWithin (mask [.regs, .ev, .out, .host]) s (execPciLinkDown s) :=
  .next (.whenB Within.refl fun _ => .report (.incReg (.set_host Within.refl (by decide))))

theorem Within.releaseHeld (h : Within M s0 s) (hm : Fits [.out, .host] M := by decide) : Within M s0 s.releaseHeld :=
  h.step hm (.ite (fun _ => Within.refl) fun _ => .foldl (.set_host Within.refl (by decide)) fun _ _ g => g.hostNow)

theorem Within.linkTrain (h : Within M s0 s) (hm : Fits [.host, .freeCtr] M := by decide) : Within M s0 s.linkTrain :=
  h.step hm (.ite (fun _ => Within.refl) fun _ => .set_host Within.refl.draw (by decide))

theorem execHostWritesRelease_within : ResWithin (mask [.out, .host, .freeCtr]) s (execHostWritesRelease s) :=
  .whenFunction fun g => .releaseHeld (.ite (fun _ => .set_host g.linkTrain (by decide)) fun _ => g.linkTrain)

theorem execPciAerUncorr_within {status : Word} : ResWithin (mask [.regs, .ev, .out, .host]) s (execPciAerUncorr status s) :=
  .whenFunction fun g => g.aerReport

theorem execMsixUnmask_within {vector : Option Nat} : ResWithin (mask [.regs, .out, .host]) s (execMsixUnmask vector s) := by
  dsimp only [execMsixUnmask]
  split
  exacts [.onUnit Within.refl.setReg.msixFlush, .next (.msixFlush (.set_host Within.refl (by decide)))]

theorem Within.bmcSend {r : EvRec} (h : Within M s0 s) (hm : Fits [.ev, .out, .freeCtr] M := by decide) :
    Within M s0 (s.bmcSend r) :=
  h.step hm (.emit (.set_ev Within.refl.draw (by decide) id id))

theorem Within.bmcDrain (h : Within M s0 s) (hm : Fits [.ev, .out, .freeCtr] M := by decide) : Within M s0 s.bmcDrain :=
  h.step hm (.foldl (.set_ev Within.refl (by decide) id (fun _ => by simp)) fun _ _ g => g.bmcSend)

theorem Within.ringPut {r : EvRec} (h : Within M s0 s) (hm : Fits [.regs, .ev, .out, .host] M := by decide) :
    Within M s0 (s.ringPut r).2 := by
  refine h.step hm ?_
  dsimp only [State.ringPut]
  split
  exacts [.flag (.set_ev Within.refl.incReg (by decide) id id), Within.refl.toHost.setReg]

theorem Within.ringOverflow (h : Within M s0 s) (hm : Fits [.regs, .ev, .out, .host] M := by decide) :
    Within M s0 s.ringOverflow.2 := by
  refine h.step hm ?_
  dsimp only [State.ringOverflow]
  split
  exacts [Within.refl, .ringPut (.toBmc (.set_ev Within.refl (by decide) id id))]

theorem Within.evtBatch (h : Within M s0 s) (hm : Fits [.regs, .ev, .out, .host] M := by decide) : Within M s0 s.evtBatch := by
  refine h.step hm ?_
  unfold State.evtBatch
  split
  next first u hu =>
  have gu : Within (mask [.regs, .ev, .out, .host]) s u := .snd hu Within.refl.ringOverflow
  extract_lets n l src a
  have ha : Within (mask [.regs, .ev, .out, .host]) s a := gu.set_ev (by decide) (by exact id) (by exact id)
  split
  next any v hv =>
  have gv : Within (mask [.regs, .ev, .out, .host]) s v := .snd hv (.foldlEq Prod.snd ha fun b r c g e => by
    rcases hq : State.ringPut b.2 r with ⟨w, x⟩
    rw [hq] at e
    subst e
    exact .snd hq g.ringPut)
  exact .ite (fun _ => gv) fun _ => .toHost (.ite (fun _ => gv) fun _ => gv.toHost)

theorem execEvtBatch_within : ResWithin (mask [.regs, .ev, .out, .host, .freeCtr]) s (execEvtBatch s) :=
  .next (.whenB Within.refl fun _ => .bmcDrain (.ite (fun _ => Within.refl.evtBatch) fun _ => Within.refl))

theorem ResWithin.managed {f : State → State} (hf : Within M s s → Within M s (f s)) (hm : Fits [.out] M := by decide) :
    ResWithin M s (s.managed f) :=
  .next (.ite (fun _ => hf Within.refl) fun _ => .ite (fun _ => Within.refl) fun _ => Within.refl.emit hm)

theorem execBmcPageRead_within {page off : Nat} : ResWithin (mask [.regs, .latch, .out]) s (execBmcPageRead page off s) :=
  .managed fun g => .ite (fun _ => g.emit) fun _ => g.read4.emit

theorem execBmcPageWrite_within {page off : Nat} {val : Word} :
    ResWithin (mask (loss [.staged, .limits, .limStaged, .pages, .lowHeld, .host, .combs, .clk, .rt]))
      s (execBmcPageWrite page off val s) :=
  .managed fun g => .ite (fun _ => g.emit) fun _ => g.write4.emit

theorem execI3cEntdaa_within {addr : BitVec 7} : ResWithin (mask [.mgmt]) s (execI3cEntdaa addr s) :=
  .next (.whenB Within.refl fun _ => .set_mgmt Within.refl (by decide))

theorem execSensorUpdate_within {alertLevel tripLevel : Bool} :
    ResWithin (mask [.mgmt]) s (execSensorUpdate alertLevel tripLevel s) :=
  .next (.whenB Within.refl fun _ => .set_mgmt Within.refl (by decide))

theorem ResWithin.spdm {f : State → State} (hf : Within M s s → Within M s (f s)) (hm : Fits [.out] M := by decide) :
    ResWithin M s (s.spdm f) :=
  .managed (fun g => .ite (fun _ => hf g) fun _ => g.emit hm) hm

theorem execSpdmGetCertificate_within {slot ofs len : Nat} : ResWithin (mask [.out]) s (execSpdmGetCertificate slot ofs len s) :=
  .spdm fun g => .ite (fun _ => g.emit) fun _ => g.emit

theorem Within.respNonce (h : Within M s0 s) (hm : Fits [.freeCtr] M := by decide) : Within M s0 s.respNonce.2 :=
  h.step hm (Within.refl.draw)

theorem execSpdmChallenge_within {slot : Nat} {nonce : BitVec 256} :
    ResWithin (mask [.out, .mgmt, .freeCtr]) s (execSpdmChallenge slot nonce s) :=
  .spdm fun g => .ite (fun _ => g.emit) fun _ => .emit (.set_mgmt g.respNonce (by decide))

theorem execSpdmGetMeasurements_within {index : Nat} {signed : Bool} {nonce : BitVec 256} :
    ResWithin (mask [.out, .mgmt, .freeCtr]) s (execSpdmGetMeasurements index signed nonce s) :=
  .spdm fun g => .ite (fun _ => g.emit) fun _ => .ite (fun _ => g.emit) fun _ => .emit (.set_mgmt g.respNonce (by decide))

theorem execSlhDsaSignature_within {selector : Nat} : ResWithin (mask [.out]) s (execSlhDsaSignature selector s) :=
  by dsimp only [execSlhDsaSignature]; exact .spdm fun g => by split <;> exact g.emit

theorem execSlhDsaCertChain_within : ResWithin (mask [.out]) s (execSlhDsaCertChain s) :=
  .spdm fun g => g.emit

theorem Within.pldm {cmd : Nat} {b : List Nat} (h : Within M s0 s) (hm : Fits [.out] M := by decide) :
    Within M s0 (s.pldm cmd b) :=
  h.step hm (Within.refl.emit)

theorem execRequestUpdate_within : ResWithin (mask [.out, .mgmt]) s (execRequestUpdate s) :=
  .managed fun g => .ite (fun _ => g.pldm) fun _ => .ite (fun _ => g.pldm) fun _ => .pldm (.set_mgmt g (by decide))

theorem ResWithin.fdWhen {st cmd : Nat} {f : State → State} (hf : Within M s s → Within M s (f s))
    (hm : Fits [.out] M := by decide) :
    ResWithin M s (s.fdWhen st cmd f) :=
  .managed (fun g => .ite (fun _ => hf g) fun _ => g.pldm hm) hm

theorem execPassComponentTable_within {comps : List Nat} : ResWithin (mask [.out, .mgmt]) s (execPassComponentTable comps s) :=
  .fdWhen fun g => .pldm (.set_mgmt g (by decide))

theorem execUpdateComponent_within {comp size : Nat} : ResWithin (mask [.out, .mgmt]) s (execUpdateComponent comp size s) :=
  .fdWhen fun g => .ite (fun _ => g.pldm) fun _ => .pldm (.set_mgmt g (by decide))

theorem execRequestFirmwareData_within {ofs : Nat} {data : List Byte} :
    ResWithin (mask [.out, .mgmt]) s (execRequestFirmwareData ofs data s) :=
  .managed fun g => .ite (fun _ => g) fun _ => .emit (.set_mgmt g (by decide))

theorem Within.fdTo {n : Nat} (h : Within M s0 s) (hm : Fits [.mgmt] M := by decide) : Within M s0 (s.fdTo n) :=
  h.step hm (.set_mgmt Within.refl (by decide))

theorem execTransferComplete_within {ok : Bool} : ResWithin (mask [.out, .mgmt]) s (execTransferComplete ok s) :=
  .managed fun g => .ite (fun _ => g) fun _ => .ite (fun _ => g.fdTo.pldm) fun _ => g.fdTo.pldm

theorem execVerifyComplete_within : ResWithin (mask [.regs, .ev, .out, .nv, .mgmt]) s (execVerifyComplete s) :=
  .managed fun g => .ite (fun _ => g) fun _ => .ite (fun _ => g) fun _ => .ite (fun _ => g.fwStart.fdTo.pldm)
    fun _ => g.fwReject.fdTo.pldm

theorem execApplyComplete_within : ResWithin (mask [.out, .mgmt]) s (execApplyComplete s) :=
  .managed fun g => .ite (fun _ => g) fun _ => g.fdTo.pldm

theorem execActivateFirmware_within {selfContained : Bool} :
    ResWithin (mask [.out, .mgmt]) s (execActivateFirmware selfContained s) :=
  .fdWhen fun g => .ite (fun _ => g.pldm) fun _ => g.fdTo.pldm

theorem execGetStatus_within : ResWithin (mask [.out]) s (execGetStatus s) :=
  .managed fun g => g.pldm

theorem execCancelUpdate_within : ResWithin (mask [.out, .nv, .mgmt]) s (execCancelUpdate s) :=
  .managed fun g => .ite (fun _ => g.pldm)
    fun _ => .pldm (.set_mgmt (.ite (fun _ => .set_nv g (by decide) (⟨id, id, id, le_rfl, fun _ => le_rfl⟩))
    fun _ => g) (by decide))

theorem execCombTarget_within : ResWithin (mask [.regs, .pages, .ev, .out, .combs, .clk]) s (execCombTarget s) :=
  .next (.whenB Within.refl fun _ => Within.refl.retarget)

theorem Within.doSwitch {m : Nat × Nat × Nat} (h : Within M s0 s) (hm : Fits [.regs, .combs] M := by decide) :
    Within M s0 (s.doSwitch m) :=
  h.step hm (.changeResult (.ite (fun _ => Within.refl) fun _ => Within.refl.updComb.wrapReg))

theorem Within.reportXing {c code b : Nat} (h : Within M s0 s) (hm : Fits [.regs, .ev, .out] M := by decide) :
    Within M s0 (s.reportXing c code b) := by
  refine h.step hm ?_
  dsimp only [State.reportXing]
  refine .foldl Within.refl fun _ _ g => .foldl g fun _ _ g1 => ?_
  split
  exacts [g1, .ite (fun _ => g1) fun _ => by split <;> exact g1.report]

theorem Within.refuseMove {l : List (Nat × Nat × Nat)} {m : Nat × Nat × Nat} (h : Within M s0 s)
    (hm : Fits [.regs, .ev, .out] M := by decide) : Within M s0 (s.refuseMove l m) :=
  h.step hm (.foldl Within.refl.changeResult fun _ _ g => g.reportXing)

theorem execLocalChangeSwitch_within {comb : Nat} :
    ResWithin (mask [.regs, .pages, .ev, .out, .combs, .clk]) s (execLocalChangeSwitch comb s) := by
  dsimp only [execLocalChangeSwitch]
  exact .onUnit (by
    split
    exacts [Within.refl, .settleWaiting (.ite (fun _ => Within.refl.updComb.doSwitch) fun _ => Within.refl.updComb.refuseMove)])

theorem Within.syncDone {ch : SyncChange} (h : Within M s0 s) (hm : Fits [.regs, .pages, .ev, .out, .combs, .clk] M := by decide) :
    Within M s0 (s.syncDone ch) := by
  refine h.step hm ?_
  dsimp only [State.syncDone]
  split
  exacts [.settleWaiting (.schedule (.set_clk Within.refl.wrapReg (by decide))),
    .settleWaiting (.set_clk Within.refl.wrapReg (by decide))]

theorem Within.dropReturns {c : Nat} (h : Within M s0 s) (hm : Fits [.staged, .pages, .prog] M := by decide) :
    Within M s0 (s.dropReturns c) :=
  h.step hm (.ite (fun _ => Within.refl) fun _ => .dropShadow (.ite (fun _ => .updPage (.dropStaged
    (.set_staged Within.refl (by decide) filter_rising)) (by decide) fun _ => id)
    fun _ => .set_staged Within.refl (by decide) filter_rising))

theorem Within.toParked {c : Nat} (h : Within M s0 s)
    (hm : Fits [.regs, .staged, .pages, .ev, .out, .die, .prog, .combs] M := by decide) : Within M s0 (s.toParked c) := by
  refine h.step hm ?_
  unfold State.toParked
  extract_lets a b src d
  have ha : Within (mask [.regs, .staged, .pages, .ev, .out, .die, .prog, .combs]) s a := Within.refl.dropReturns.updComb
  have hb : Within (mask [.regs, .staged, .pages, .ev, .out, .die, .prog, .combs]) s b := by
    refine .foldl ha fun _ _ g => ?_
    extract_lets t keep
    exact .ite (fun _ => g.tileTo.updTile) fun _ => g
  clear_value b
  have hd : Within (mask [.regs, .staged, .pages, .ev, .out, .die, .prog, .combs]) s d := .set_die hb (by decide) (by exact id)
  exact .ite (fun _ => hd) fun _ => hd.queueSwitch

theorem Within.parkAll {l : List Nat} (h : Within M s0 s)
    (hm : Fits [.regs, .staged, .pages, .ev, .out, .die, .prog, .combs] M := by decide) : Within M s0 (s.parkAll l) :=
  h.step hm (.ite (fun _ => Within.refl) fun _ => .distWrite (.foldl Within.refl fun _ _ g => g.toParked))

theorem Within.makeMoves {l : List (Nat × Nat × Nat)} (h : Within M s0 s) (hm : Fits [.regs, .ev, .out, .combs] M := by decide) :
    Within M s0 (s.makeMoves l) :=
  h.step hm (.foldl (.foldl Within.refl fun _ _ g => g.refuseMove) fun _ _ g => g.doSwitch)

theorem execSyncFallSwitch_within :
    ResWithin (mask [.regs, .staged, .pages, .ev, .out, .die, .prog, .combs, .clk]) s (execSyncFallSwitch s) := by
  dsimp only [execSyncFallSwitch]
  split
  exacts [.next Within.refl,
    .ite (fun _ => .next Within.refl) fun _ => .ite (fun _ => .next Within.refl.makeMoves.parkAll.syncDone)
      fun _ => .next (.set_clk Within.refl.makeMoves.parkAll (by decide))]

theorem execSyncRiseSwitch_within : ResWithin (mask [.regs, .pages, .ev, .out, .combs, .clk]) s (execSyncRiseSwitch s) := by
  dsimp only [execSyncRiseSwitch]
  split
  exacts [.next Within.refl, .ite (fun _ => .next Within.refl) fun _ => .next Within.refl.makeMoves.syncDone]

theorem execClkLockFail_within {comb : Nat} :
    ResWithin (mask [.regs, .pages, .ev, .out, .combs, .clk]) s (execClkLockFail comb s) := by
  dsimp only [execClkLockFail]
  exact .onUnit (by
    split
    exacts [Within.refl.updComb.changeResult.flag.report.settleWaiting,
      by
        split
        exacts [.ite (fun _ => Within.refl) fun _ => .report (.flag (.changeResult (.set_clk Within.refl (by decide)))),
          Within.refl], Within.refl])

theorem execClkRefLost_within {ref : Nat} : ResWithin (mask (loss [.dev])) s (execClkRefLost ref s) :=
  .onUnit (.ite (fun _ => Within.refl) fun _ => .ite (fun _ => .foldl (.ite (fun _ => .report (.set_dev Within.refl (by decide)))
    fun _ => .set_dev Within.refl (by decide)) fun _ _ g => g.portDown)
    fun _ => .ite (fun _ => .report (.set_dev Within.refl (by decide))) fun _ => .set_dev Within.refl (by decide))

theorem Within.setMargins {c : Nat} {codes : List Nat} (h : Within M s0 s) (hm : Fits [.regs] M := by decide) :
    Within M s0 (s.setMargins c codes) :=
  h.step hm (.foldl Within.refl fun _ _ g => g.setReg)

theorem execStretchStart_within {comb : Nat} {codes : List Nat} :
    ResWithin (mask [.regs, .combs]) s (execStretchStart comb codes s) :=
  .onUnit (.ite (fun _ => Within.refl.setMargins.updComb) fun _ => Within.refl)

theorem execStretchEnd_within {comb : Nat} {codes : List Nat} {skipped : Nat} :
    ResWithin (mask [.regs, .combs]) s (execStretchEnd comb codes skipped s) :=
  .onUnit (.ite (fun _ => Within.refl.setMargins.updComb.setReg) fun _ => Within.refl)

theorem Within.setLimit {p off code v : Nat} (h : Within M s0 s) (hm : Fits [.limits, .limStaged] M := by decide) :
    Within M s0 (s.setLimit p off code v) :=
  h.step hm (.set_limStaged (.set_limits Within.refl (by decide) swf_sset) (by decide) swf_sset)

theorem Within.strikeComb {c code : Nat} (h : Within M s0 s)
    (hm : Fits [.regs, .limits, .limStaged, .ev, .out, .die, .nv] M := by decide) : Within M s0 (s.strikeComb c code) := by
  refine h.step hm ?_
  dsimp only [State.strikeComb]
  split
  exacts [Within.refl.noteStrike.appendDefect, Within.refl.noteStrike.raiseOffset, Within.refl.noteStrike.setLimit]

theorem Within.shortfallCheck {c : Nat} (h : Within M s0 s)
    (hm : Fits [.regs, .limits, .limStaged, .pages, .ev, .out, .die, .combs, .clk, .nv] M := by decide) :
    Within M s0 (s.shortfallCheck c) :=
  h.step hm (.ite (fun _ => Within.refl) fun _ => Within.refl.report.updComb.strikeComb.retarget)

theorem Within.minderActs {frame : Nat} (h : Within M s0 s) (hm : Fits [.dev] M := by decide) :
    Within M s0 (s.minderActs frame) :=
  h.step hm (.set_dev Within.refl (by decide))

theorem Within.gnomRequest {c v : Nat} (h : Within M s0 s) (hm : Fits [.regs, .pages, .ev, .out, .combs, .clk] M := by decide) :
    Within M s0 (s.gnomRequest c v) :=
  h.step hm (.ite (fun _ => Within.refl) fun _ => Within.refl.updComb.retarget)

theorem execGnomonLoop_within {comb : Nat} {stretched : Bool} {minMargin powerW : Nat} :
    ResWithin (mask [.regs, .limits, .limStaged, .pages, .ev, .out, .dev, .die, .combs, .clk, .nv])
      s (execGnomonLoop comb stretched minMargin powerW s) :=
  .onUnit (.ite (fun _ => Within.refl) fun _ => .shortfallCheck
    (.ite (fun _ => .ite (fun _ => Within.refl.minderActs.updComb.updComb.updComb)
    fun _ => .ite (fun _ => Within.refl.minderActs.updComb.updComb.gnomRequest)
    fun _ => Within.refl.minderActs.updComb.updComb.updComb)
    fun _ => .ite (fun _ => .ite (fun _ => .ite (fun _ => Within.refl.minderActs.updComb.updComb.updComb)
    fun _ => .ite (fun _ => Within.refl.minderActs.updComb.updComb.gnomRequest) fun _ => Within.refl.minderActs.updComb.updComb)
    fun _ => Within.refl.minderActs.updComb.updComb) fun _ => Within.refl.minderActs.updComb.updComb))

theorem Within.bClose {site : Nat} (h : Within M s0 s) (hm : Fits [.regs] M := by decide) : Within M s0 (s.bClose site) :=
  h.step hm (.foldl Within.refl fun _ _ g => g.setReg)

theorem Within.bSettle {site : Nat} (h : Within M s0 s) (hm : Fits (loss [.die, .mt, .nv]) M := by decide) :
    Within M s0 (s.bSettle site) :=
  h.step hm (Within.refl.bRun)

theorem Within.bPark {site : Nat} (h : Within M s0 s) (hm : Fits (loss [.die, .mt, .nv]) M := by decide) :
    Within M s0 (s.bPark site) :=
  h.step hm (.foldl Within.refl.bSettle.updB.bClose fun _ _ g => g.segLost)

theorem Within.parkComb {c cause : Nat} (h : Within M s0 s)
    (hm : Fits (loss [.pages, .die, .combs, .clk, .mt, .nv]) M := by decide) : Within M s0 (s.parkComb c cause) :=
  h.step hm (.ite (fun _ => Within.refl) fun _ => .retarget (.dropCache (.foldl (.foldl
    (.ite (fun _ => Within.refl.updComb.flag.flag.log) fun _ => Within.refl.updComb) fun _ _ g => g.blame) fun _ _ g => g.bPark)))

theorem Within.setSensors {c : Nat} {l : List Nat} (h : Within M s0 s) (hm : Fits [.regs, .combs] M := by decide) :
    Within M s0 (s.setSensors c l) :=
  h.step hm (.updComb (.setReg (.foldl Within.refl fun _ _ g => g.setReg)))

theorem execTempSample_within {comb : Nat} {sensors : List Nat} :
    ResWithin (mask (loss [.pages, .die, .combs, .clk, .mt, .nv])) s (execTempSample comb sensors s) :=
  .onUnit (.ite (fun _ => Within.refl) fun _ => .ite (fun _ => .queueSwitch
    (.ite (fun _ => Within.refl.setSensors.updComb.parkComb) fun _ => Within.refl.setSensors.updComb))
    fun _ => .ite (fun _ => Within.refl.setSensors.updComb.parkComb) fun _ => Within.refl.setSensors.updComb)

theorem Within.leaveThrottle (h : Within M s0 s) (hm : Fits [.combs] M := by decide) : Within M s0 s.leaveThrottle :=
  h.step hm (.foldl Within.refl fun _ _ g => g.updComb)

theorem Within.throttleComb {c : Nat} (h : Within M s0 s) (hm : Fits [.regs, .ev, .out, .combs] M := by decide) :
    Within M s0 (s.throttleComb c) :=
  h.step hm (.ite (fun _ => .ite (fun _ => Within.refl.updComb) fun _ => Within.refl.updComb.flag.flag.log)
    fun _ => .ite (fun _ => Within.refl.updComb) fun _ => Within.refl.updComb)

theorem execThermalLoop_within {frame : Nat} :
    ResWithin (mask [.regs, .pages, .ev, .out, .dev, .combs, .clk]) s (execThermalLoop frame s) :=
  .onUnit (.ite (fun _ => Within.refl) fun _ => .retarget (.leaveThrottle
    (.foldl Within.refl.minderActs fun _ _ g => g.throttleComb)))

theorem Within.bZero {site : Nat} (h : Within M s0 s) (hm : Fits [.mem] M := by decide) : Within M s0 (s.bZero site) :=
  h.step hm (Within.refl.set_mem (by decide) (Mem.wf_buf swf_filter))

theorem Within.combLost {c : Nat} (h : Within M s0 s)
    (hm : Fits [.regs, .staged, .pages, .ev, .out, .die, .mem, .prog, .kv, .combs, .clk, .mt, .wt, .rt, .bt] M := by decide) :
    Within M s0 (s.combLost c) := by
  refine h.step hm ?_
  unfold State.combLost
  extract_lets a sites b c src1 src2 d
  have ha : Within (mask [.regs, .staged, .pages, .ev, .out, .die, .mem, .prog, .kv, .combs, .clk, .mt, .wt, .rt, .bt]) s a :=
    Within.refl.dropReturns.updComb
  have hb : Within (mask [.regs, .staged, .pages, .ev, .out, .die, .mem, .prog, .kv, .combs, .clk, .mt, .wt, .rt, .bt]) s b :=
    .foldl ha fun _ _ g => g.tileTo
  have hc : Within (mask [.regs, .staged, .pages, .ev, .out, .die, .mem, .prog, .kv, .combs, .clk, .mt, .wt, .rt, .bt]) s c :=
    .foldl hb fun _ _ g => g.bZero
  have hd : Within (mask [.regs, .staged, .pages, .ev, .out, .die, .mem, .prog, .kv, .combs, .clk, .mt, .wt, .rt, .bt]) s d :=
    hc.set_units (by decide) (by exact id)
  exact hd.dropCache

theorem execThermalTrip_within {comb sensor temp : Nat} :
    ResWithin (mask [.regs, .staged, .pages, .ev, .out, .dev, .die, .mem, .prog, .kv, .mrd, .hbm, .combs, .clk, .ldg, .mt, .st, .wt, .rt, .bt])
      s (execThermalTrip comb sensor temp s) :=
  .onUnit (.ite (fun _ => Within.refl) fun _ => .failWith (.foldl (.set_dev Within.refl (by decide)) fun _ _ g => g.combLost))

theorem Within.portCut {p : Nat} (h : Within M s0 s) (hm : Fits [.regs, .ev, .out, .tre] M := by decide) :
    Within M s0 (s.portCut p) :=
  h.step hm (.ite (fun _ => Within.refl) fun _ => Within.refl.updTP.leaveBundle.nbrEvent)

theorem Within.attachCheck {a : Nat} {lost : List Nat} (h : Within M s0 s)
    (hm : Fits [.regs, .ev, .out, .dev, .mem, .prog, .kv, .mrd, .hbm, .ldg, .st, .bt, .tre] M := by decide) :
    Within M s0 (s.attachCheck a lost) :=
  h.step hm (.ite (fun _ => Within.refl) fun _ => .ite (fun _ => .ite (fun _ => Within.refl.log.failWith)
    fun _ => .ite (fun _ => Within.refl.log.failWith) fun _ => .ite (fun _ => Within.refl.log.updStack)
    fun _ => Within.refl.log.portCut) fun _ => .foldl Within.refl fun _ _ g => g.log)

theorem Within.attachAll {lost : List Nat} (h : Within M s0 s)
    (hm : Fits [.regs, .ev, .out, .dev, .mem, .prog, .kv, .mrd, .hbm, .ldg, .st, .bt, .tre] M := by decide) :
    Within M s0 (s.attachAll lost) :=
  h.step hm (.foldl Within.refl fun _ _ g => g.attachCheck)

theorem Within.switchWithout (h : Within M s0 s)
    (hm : Fits [.regs, .staged, .pages, .ev, .out, .die, .mem, .prog, .hbm] M := by decide) : Within M s0 s.switchWithout := by
  refine h.step hm ?_
  dsimp only [State.switchWithout]
  split
  exacts [.ite (fun _ => Within.refl.finishSwitch) fun _ => Within.refl, Within.refl]

theorem Within.abandonAll {f : Forbid} (h : Within M s0 s)
    (hm : Fits [.regs, .ev, .out, .mem, .prog, .kv, .mrd, .hbm, .ldg, .st, .bt] M := by decide) : Within M s0 (s.abandonAll f) :=
  h.step hm (.foldl Within.refl fun _ _ g => g.abandonOne)

theorem Within.replaceComb {c n : Nat} (h : Within M s0 s) (hm : Fits [.prog] M := by decide) : Within M s0 (s.replaceComb c n) := by
  refine h.step hm ?_
  dsimp only [State.replaceComb]
  split
  exacts [Within.refl,
    .ite (fun _ => Within.refl)
      fun _ => by split; exacts [Within.refl.updSlot, .ite (fun _ => Within.refl) fun _ => Within.refl.updSlot]]

theorem execCombIsolated_within {comb : Nat} {undervolt : Bool} :
    ResWithin (mask [.regs, .staged, .pages, .ev, .out, .dev, .die, .mem, .prog, .kv, .mrd, .hbm, .combs, .clk, .ldg, .mt, .st, .wt, .rt, .bt, .tre])
      s (execCombIsolated comb undervolt s) :=
  .onUnit (.ite (fun _ => Within.refl) fun _ => .review (.attachAll (.foldl (.switchWithout (.queueSwitch (.distWrite
    (.foldl Within.refl.flag.flag.setReg.log.abandonAll.combLost fun _ _ g => g.replaceComb)))) fun _ _ g => g.licenceReturn)))

theorem execSenseFallback_within {comb : Nat} {opened : Bool} :
    ResWithin (mask [.regs, .ev, .out, .combs]) s (execSenseFallback comb opened s) :=
  .onUnit (.ite (fun _ => Within.refl) fun _ => Within.refl.updComb.report)

theorem Within.setCapN {n : Nat} (h : Within M s0 s) (hm : Fits [.regs, .clk] M := by decide) : Within M s0 (s.setCapN n) :=
  h.step hm (.setReg (.setReg (.set_clk Within.refl (by decide))))

theorem Within.capDown (h : Within M s0 s) (hm : Fits [.regs, .clk] M := by decide) : Within M s0 s.capDown :=
  h.step hm (Within.refl.setCapN)

theorem Within.capLoop {p : Nat} (h : Within M s0 s) (hm : Fits [.regs, .pages, .ev, .out, .combs, .clk] M := by decide) :
    Within M s0 (s.capLoop p) :=
  h.step hm (.ite (fun _ => .ite (fun _ => Within.refl.sprintRelease) fun _ => .ite (fun _ => Within.refl.capDown.retarget)
    fun _ => .ite (fun _ => Within.refl.setCapN.retarget) fun _ => Within.refl)
    fun _ => .ite (fun _ => .ite (fun _ => .retarget (.setReg (.setCapN (.set_clk
    (.set_clk Within.refl (by decide)) (by decide)))))
    fun _ => .ite (fun _ => .retarget (.capDown (.set_clk Within.refl (by decide)))) fun _ => .set_clk Within.refl (by decide))
    fun _ => .ite (fun _ => .retarget (.capDown (.report (.setReg (.set_clk (.set_clk Within.refl (by decide)) (by decide))))))
    fun _ => .set_clk Within.refl (by decide))

theorem Within.addEnergy {n' nj : Nat} (h : Within M s0 s) (hm : Fits [.prog, .ldg] M := by decide) :
    Within M s0 (s.addEnergy n' nj) :=
  h.step hm (.ite (fun _ => .set_ldg Within.refl (by decide)) fun _ => Within.refl.updLaunch)

theorem Within.launch {a : Interval} {e tot : Nat} {x : Nat × Nat × Nat} (h : Within M s0 a.s)
    (hm : Fits [.prog, .ldg] M := by decide) : Within M s0 (Interval.launch a e tot x).1.s := by
  refine h.step hm ?_
  unfold Interval.launch
  split
  · exact Within.refl
  · exact Within.refl.addEnergy.set_ldg (by decide)

theorem Within.comb {r : PowerReading} {a : Interval} {c : Nat} (h : Within M s0 a.s) (hm : Fits [.prog, .ldg] M := by decide) :
    Within M s0 (Interval.comb r a c).s := by
  refine h.step hm ?_
  unfold Interval.comb
  extract_lets e tot l
  split
  next b left hb =>
  have gb : Within (mask [.prog, .ldg]) a.s b.s := by
    have hf : Within (mask [.prog, .ldg]) a.s ((sortStreams (l.map (·.2.1))).foldl (fun acc n =>
        (l.filter fun x => x.2.1 == n).foldl (fun acc x =>
          ((acc.1.launch e tot x).1, acc.2 - (acc.1.launch e tot x).2)) acc) (a, e)).1.s :=
      .foldlBy (fun b : Interval × Nat => b.1.s) Within.refl fun _ _ g => .foldlBy (fun b : Interval × Nat => b.1.s) g fun _ _ g => g.launch
    exact (congrArg (fun b => b.1.s) hb) ▸ hf
  exact gb.set_ldg (by decide)

theorem Within.ledgerInterval {r : PowerReading} (h : Within M s0 s) (hm : Fits [.prog, .ldg] M := by decide) :
    Within M s0 (s.ledgerInterval r) := by
  refine h.step hm ?_
  unfold State.ledgerInterval
  split
  · exact Within.refl
  · extract_lets a b
    have ha : Within (mask [.prog, .ldg]) s a.s := .foldlBy Interval.s Within.refl fun _ _ g => g.comb
    exact ha.set_ldg (by decide)

theorem Within.vinRange {core aux : Nat} (h : Within M s0 s) (hm : Fits [.regs, .ev, .out] M := by decide) :
    Within M s0 (s.vinRange core aux) :=
  h.step hm (.ite (fun _ => Within.refl.setReg.report) fun _ => Within.refl.setReg)

theorem execPowerInterval_within {r : PowerReading} :
    ResWithin (mask [.regs, .staged, .limits, .pages, .ev, .out, .prog, .combs, .clk, .ldg]) s (execPowerInterval r s) :=
  .next (.whenB Within.refl fun _ => .capLoop (.ledgerInterval (.wrapReg (.setReg (.setReg (.vinRange (.setReg (.setReg (.foldl
    (.foldl (.ite (fun _ => .applyPage (.ite (fun _ => Within.refl.applyPage) fun _ => Within.refl))
    fun _ => .ite (fun _ => Within.refl.applyPage) fun _ => Within.refl) fun _ _ g => g.setReg) fun _ _ g => g.updComb)))))))))

theorem Within.brakeOn (h : Within M s0 s) (hm : Fits [.regs, .pages, .ev, .out, .combs, .clk] M := by decide) :
    Within M s0 s.brakeOn := by
  refine h.step hm ?_
  dsimp only [State.brakeOn]
  refine .whenB Within.refl fun _ => ?_
  split
  exacts [.ite (fun _ => .ite (fun _ => .retarget (.set_clk (.foldl (.departs (.report (.set_clk Within.refl (by decide))))
    fun _ _ g => g.changeResult) (by decide)))
    fun _ => .set_clk (.scheduleSync (.set_clk (.foldl (.departs (.report (.set_clk Within.refl (by decide))))
    fun _ _ g => g.changeResult) (by decide))) (by decide))
    fun _ => .set_clk (.departs (.report (.set_clk Within.refl (by decide)))) (by decide),
    .ite (fun _ => .ite (fun _ => .retarget (.departs (.report (.set_clk Within.refl (by decide)))))
      fun _ => .departs (.report (.set_clk Within.refl (by decide))))
      fun _ => .ite (fun _ => .set_clk (.scheduleSync (.departs (.report (.set_clk Within.refl (by decide))))) (by decide))
      fun _ => .scheduleSync (.departs (.report (.set_clk Within.refl (by decide))))]

theorem execPwrBrake_within : ResWithin (mask [.regs, .pages, .ev, .out, .dev, .combs, .clk]) s (execPwrBrake s) :=
  .next (.whenB (.set_dev Within.refl (by decide)) fun _ => .brakeOn (.set_dev Within.refl (by decide)))

theorem execBrakeRelease_within : ResWithin (mask [.regs, .pages, .ev, .out, .dev, .combs, .clk]) s (execBrakeRelease s) :=
  .next (.whenB (.set_dev Within.refl (by decide)) fun _ => .retarget (.set_clk (.set_dev Within.refl (by decide)) (by decide)))

theorem execLedgerClear_within {src : Source} : ResWithin (mask [.pages, .ev, .out, .ldg]) s (execLedgerClear src s) :=
  .next (.goWrite Within.refl fun g => g.clearLedger)

theorem Within.loseMinder {frame : Nat} (h : Within M s0 s)
    (hm : Fits (loss [.pages, .dev, .die, .combs, .clk, .mt, .nv]) M := by decide) : Within M s0 (s.loseMinder frame) :=
  h.step hm (.review (.foldl (.log (.set_dev Within.refl (by decide))) fun _ _ g => .ite (fun _ => g)
    fun _ => .ite (fun _ => g.updComb) fun _ => g.parkComb))

theorem execMinderRestart_within {frame : Nat} :
    ResWithin (mask (loss [.pages, .dev, .die, .combs, .clk, .mt, .nv])) s (execMinderRestart frame s) :=
  .onUnit (.whenB Within.refl fun _ => .ite (fun _ => .loseMinder (.log (.set_dev (.retarget
    (.foldl Within.refl fun _ _ g => g.updComb)) (by decide))))
    fun _ => .log (.set_dev (.retarget (.foldl Within.refl fun _ _ g => g.updComb)) (by decide)))

theorem execMinderLost_within {frame : Nat} :
    ResWithin (mask (loss [.pages, .dev, .die, .combs, .clk, .mt, .nv])) s (execMinderLost frame s) :=
  .onUnit (.whenB Within.refl fun _ => Within.refl.loseMinder)

theorem execKeeperWatchdog_within :
    ResWithin (mask [.regs, .pages, .ev, .out, .dev, .mem, .prog, .kv, .mrd, .hbm, .combs, .clk, .ldg, .st, .bt])
      s (execKeeperWatchdog s) :=
  .next (.whenB Within.refl fun _ => .failWith (.brakeOn (.set_dev Within.refl (by decide))))

theorem execKeeperFenceOrder_within {site : Nat} :
    ResWithin (mask [.regs, .staged, .pages, .ev, .out, .dev, .die, .mem, .prog, .kv, .mrd, .hbm, .ldg, .st, .bt])
      s (execKeeperFenceOrder site s) :=
  .onUnit (.whenB Within.refl fun _ => Within.refl.leaveRun.review)

theorem Within.standInPassed {x : StandIn} (h : Within M s0 s)
    (hm : Fits [.regs, .staged, .pages, .ev, .out, .die, .prog] M := by decide) : Within M s0 (s.standInPassed x) :=
  h.step hm (.queueSwitch (.stageChosen (.set_die Within.refl (by decide) id)))

theorem Within.chooseAgain {x : StandIn} (h : Within M s0 s)
    (hm : Fits [.regs, .staged, .pages, .ev, .out, .die, .prog] M := by decide) : Within M s0 (s.chooseAgain x) := by
  refine h.step hm ?_
  dsimp only [State.chooseAgain]
  split
  exacts [.ite (fun _ => .incReg (.updTile (.set_die Within.refl (by decide) id)))
    fun _ => .substitute (.set_die Within.refl (by decide) id),
    .substitute (.set_die Within.refl (by decide) id)]

theorem Within.karFailed {site : Nat} (h : Within M s0 s) (hm : Fits [.regs, .ev, .out, .die, .nv] M := by decide) :
    Within M s0 (s.karFailed site) :=
  h.step hm (Within.refl.flag.log.strikeTile)

theorem Within.returnUnit {site : Nat} (h : Within M s0 s) (hm : Fits [.regs, .ev, .out, .die] M := by decide) :
    Within M s0 (s.returnUnit site) :=
  h.step hm (by dsimp only [State.returnUnit]; split; exacts [.set_die Within.refl (by decide) id, Within.refl.tileTo.updTile])

theorem execKarComplete_within {site : Nat} {passed : Bool} :
    ResWithin (mask [.regs, .staged, .pages, .ev, .out, .dev, .die, .mem, .prog, .kv, .mrd, .hbm, .ldg, .st, .bt, .nv])
      s (execKarComplete site passed s) := by
  dsimp only [execKarComplete]
  exact .onUnit
    (.whenB Within.refl fun _ => by
      split
      exacts [.ite (fun _ => Within.refl.standInPassed) fun _ => Within.refl.karFailed.chooseAgain.review,
        .ite (fun _ => Within.refl.returnUnit) fun _ => Within.refl.karFailed.review])

theorem execReinstateStage_within {site : Nat} : ResWithin (mask [.staged, .pages, .die, .prog]) s (execReinstateStage site s) := by
  dsimp only [execReinstateStage]
  exact .onUnit (by
    split
    exacts [Within.refl,
      .ite (fun _ => Within.refl) fun _ => .ite (fun _ => .set_die Within.refl.stageRemap (by decide) id)
        fun _ => .queueSwitch (.set_die Within.refl.stageRemap (by decide) id)])

theorem Within.routerLost {site : Nat} (h : Within M s0 s)
    (hm : Fits [.regs, .staged, .pages, .ev, .out, .dev, .die, .mem, .prog, .kv, .mrd, .hbm, .ldg, .st, .bt, .tre] M := by decide) :
    Within M s0 (s.routerLost site) := by
  refine h.step hm ?_
  dsimp only [State.routerLost]
  exact .ite (fun _ => Within.refl) fun _ => .review
    (.attachAll (by
      split
      exacts [.substitute (.tileTo (.set_die Within.refl (by decide) id)), .tileTo (.set_die Within.refl (by decide) id)]))

theorem execRouterProbeTimeout_within {site : Nat} :
    ResWithin (mask [.regs, .staged, .pages, .ev, .out, .dev, .die, .mem, .prog, .kv, .mrd, .hbm, .ldg, .st, .bt, .tre, .nv])
      s (execRouterProbeTimeout site s) :=
  .onUnit (.whenB Within.refl fun _ => Within.refl.appendDefect.routerLost.queueSwitch)

theorem execStandbyInRange_within : ResWithin (mask [.dev]) s (execStandbyInRange s) :=
  .next (.whenB Within.refl fun _ => .set_dev Within.refl (by decide))

theorem execStandbyLost_within : ResWithin (mask resetParts) s (execStandbyLost s) :=
  .next (Within.refl.whenB fun _ => ⟨rfl, fun f hf => by cases f <;> first | rfl | exact absurd hf (by decide),
    fun _ => { State.reset_inv with }, id, id, id, le_rfl, fun _ => le_rfl⟩)

theorem Within.bootFailed {c b why : Nat} (h : Within M s0 s) (hm : Fits [.regs, .ev, .out] M := by decide) :
    Within M s0 (s.bootFailed c b why) :=
  h.step hm (Within.refl.flag.log)

theorem Within.loadFrom {e : StartEnv} {b c : Nat} (h : Within M s0 s) (hm : Fits [.regs, .ev, .out] M := by decide) :
    Within M s0 (s.loadFrom e b c).2 := by
  refine h.step hm ?_
  dsimp only [State.loadFrom]
  split
  exacts [Within.refl, by split; exacts [Within.refl.bootFailed, Within.refl.bootFailed.bootFailed]]

theorem Within.applyLcs (h : Within M s0 s) (hm : Fits [.ev, .out, .nv] M := by decide) : Within M s0 s.applyLcs := by
  refine h.step hm ?_
  unfold State.applyLcs
  extract_lets n t old m
  have hn : s.nv.Forward m := ⟨fun i => by simp [m, n, i], fun i => by simp [m, n, i], fun i => by simp [m, n, i],
    by dsimp only [m, n]; split <;> omega, fun _ => le_rfl⟩
  exact .ite (fun _ => Within.refl) fun _ => (Within.refl.set_nv (by decide) hn).log

theorem Within.sometime {lo hi : Nat} (h : Within M s0 s) (hm : Fits [.dev, .freeCtr] M := by decide) :
    Within M s0 (s.sometime lo hi) :=
  h.step hm (.set_dev Within.refl.draw (by decide))

theorem Within.keeperStart (h : Within M s0 s) (hm : Fits [.regs, .ev, .out, .dev, .nv] M := by decide) :
    Within M s0 s.keeperStart := by
  refine h.step hm ?_
  unfold State.keeperStart
  extract_lets moves src1 a b c d e f
  have hb : Within (mask [.regs, .ev, .out, .dev, .nv]) s b := .foldl (.set_dev Within.refl (by decide)) fun _ _ g => g.log
  have hc : Within (mask [.regs, .ev, .out, .dev, .nv]) s c := .ite (fun _ => hb.log) fun _ => hb
  have hd : Within (mask [.regs, .ev, .out, .dev, .nv]) s d := by
    dsimp only [d]
    split
    exacts [hc.log, hc]
  have he : Within (mask [.regs, .ev, .out, .dev, .nv]) s e := by
    dsimp only [e]
    split
    exacts [hd.log, hd]
  have hf : Within (mask [.regs, .ev, .out, .dev, .nv]) s f := .foldl he fun _ _ g => g.report
  exact hf.set_dev_nv (by decide) ⟨id, id, id, le_rfl, fun _ => le_rfl⟩

theorem Within.showComp {b c : Nat} (h : Within M s0 s) (hm : Fits [.regs] M := by decide) : Within M s0 (s.showComp b c) :=
  h.step hm (Within.refl.setReg.setReg)

theorem Within.comp {e : StartEnv} {first : Nat} {a : Boot} {c : Nat} (h : Within M s0 a.s)
    (hm : Fits [.regs, .ev, .out] M := by decide) : Within M s0 (Boot.comp e first a c).s := by
  refine h.step hm ?_
  unfold Boot.comp
  split
  next r u hu =>
  have gu : Within (mask [.regs, .ev, .out]) a.s u := .snd hu Within.refl.loadFrom
  split
  · exact gu
  · exact .ite (fun _ => gu.showComp) fun _ => gu.showComp.setReg

theorem Within.applyLicence (h : Within M s0 s) (hm : Fits [.regs, .ev, .out] M := by decide) : Within M s0 s.applyLicence := by
  refine h.step hm ?_
  dsimp only [State.applyLicence]
  refine .ite (fun _ => Within.refl.setReg) fun _ => ?_
  split
  exacts [Within.refl.setReg.setReg, Within.refl.licInvalid.setReg]

theorem Within.boot {e : StartEnv} (h : Within M s0 s)
    (hm : Fits [.regs, .ev, .out, .dev, .mem, .prog, .kv, .mrd, .hbm, .host, .ldg, .st, .bt, .nv, .mgmt, .freeCtr] M := by decide) :
    Within M s0 (s.boot e).s := by
  refine h.step hm ?_
  unfold State.boot
  extract_lets src1 src2 a b c d src3 d' f first
  have ha : Within (mask [.regs, .ev, .out, .dev, .mem, .prog, .kv, .mrd, .hbm, .host, .ldg, .st, .bt, .nv, .mgmt, .freeCtr]) s a :=
    Within.refl.set_dev_nv (by decide) ⟨id, id, id, le_rfl, fun _ => le_rfl⟩
  have hd : Within (mask [.regs, .ev, .out, .dev, .mem, .prog, .kv, .mrd, .hbm, .host, .ldg, .st, .bt, .nv, .mgmt, .freeCtr]) s d :=
    .foldl ha.devTo.linkTrain.sometime fun _ _ g => g.setReg
  have hf : Within (mask [.regs, .ev, .out, .dev, .mem, .prog, .kv, .mrd, .hbm, .host, .ldg, .st, .bt, .nv, .mgmt, .freeCtr]) s f :=
    .applyLcs (hd.set_host (by decide))
  split
  next r u hu =>
  have gu : Within (mask [.regs, .ev, .out, .dev, .mem, .prog, .kv, .mrd, .hbm, .host, .ldg, .st, .bt, .nv, .mgmt, .freeCtr]) s u :=
    .snd hu hf.loadFrom
  split
  · exact gu.failWith
  next b =>
    extract_lets src4 i j k l src5 src6 m
    have hi : Within (mask [.regs, .ev, .out, .dev, .mem, .prog, .kv, .mrd, .hbm, .host, .ldg, .st, .bt, .nv, .mgmt, .freeCtr]) s i :=
      gu.set_nv (by decide) ⟨id, id, id, le_rfl, fun _ => le_rfl⟩
    have hl : Within (mask [.regs, .ev, .out, .dev, .mem, .prog, .kv, .mrd, .hbm, .host, .ldg, .st, .bt, .nv, .mgmt, .freeCtr]) s l.s :=
      .foldlBy Boot.s hi.setReg.showComp.keeperStart fun _ _ g => g.comp
    have hq : Within (mask [.regs, .ev, .out, .dev, .mem, .prog, .kv, .mrd, .hbm, .host, .ldg, .st, .bt, .nv, .mgmt, .freeCtr]) s m :=
      hl.set_mgmt (by decide)
    split
    exacts [hq.failWith, hq.applyLicence]

theorem Within.writeFmax {e : StartEnv} (h : Within M s0 s) (hm : Fits [.regs, .nv] M := by decide) :
    Within M s0 (s.writeFmax e) := by
  refine h.step hm ?_
  unfold State.writeFmax
  extract_lets a old gen tab
  have ha : Within (mask [.regs, .nv]) s a := .foldl Within.refl fun _ _ g => g.setReg
  clear_value a
  exact ha.set_nv (by decide) ⟨id, id, id, le_rfl, fun _ => le_rfl⟩

theorem Within.foundDefect {d : Defect} {ref page : Nat} (h : Within M s0 s)
    (hm : Fits [.regs, .ev, .out, .die, .nv] M := by decide) : Within M s0 (s.foundDefect d ref page) :=
  h.step hm (.ite (fun _ => Within.refl) fun _ => Within.refl.listDefect.log)

theorem Within.findings {e : StartEnv} (h : Within M s0 s) (hm : Fits [.regs, .ev, .out, .die, .nv] M := by decide) :
    Within M s0 (s.findings e) :=
  h.step hm (.foldl (.foldl (.foldl Within.refl fun _ _ g => g.foundDefect) fun _ _ g => g.flag.log.foundDefect)
    fun _ _ g => g.foundDefect)

theorem Within.readList (h : Within M s0 s) (hm : Fits [.limits, .limStaged, .die, .mgmt] M := by decide) :
    Within M s0 s.readList := by
  refine h.step hm ?_
  unfold State.readList
  extract_lets l src1 src2 a
  have ha : Within (mask [.limits, .limStaged, .die, .mgmt]) s a := Within.refl.set_die_mgmt (by decide) (by exact id)
  refine .foldl ha fun _ _ g => ?_
  split
  exacts [g.setLimit, g]

theorem Within.seamTest {e : StartEnv} {b : Nat} (h : Within M s0 s) (hm : Fits [.regs, .ev, .out, .die, .nv] M := by decide) :
    Within M s0 (s.seamTest e b) := by
  refine h.step hm ?_
  unfold State.seamTest
  extract_lets l a src half b c
  have ha : Within (mask [.regs, .ev, .out, .die, .nv]) s a := .foldl Within.refl fun _ _ g => g.setReg
  have hb : Within (mask [.regs, .ev, .out, .die, .nv]) s b := .foldl ha fun _ _ g => g.setReg
  exact .ite (fun _ => Within.refl) fun _ => .ite (fun _ => (.log (.set_die ha (by decide) id)))
    fun _ => .foldl hb.setReg fun _ _ g => g.foundDefect

theorem Within.startTile {e : StartEnv} {maps : List (List Nat)} {benched : List Nat} {k : Nat} (h : Within M s0 s)
    (hm : Fits [.regs, .ev, .out, .die] M := by decide) : Within M s0 (s.startTile e maps benched k) :=
  h.step hm (.ite (fun _ => Within.refl.tileTo) fun _ => .ite (fun _ => .ite (fun _ => Within.refl.tileTo.updTile)
    fun _ => Within.refl.tileTo) fun _ => .ite (fun _ => Within.refl.tileTo.updTile)
    fun _ => .ite (fun _ => Within.refl.tileTo.updTile) fun _ => .ite (fun _ => Within.refl.tileTo.updTile.updTile)
    fun _ => Within.refl.tileTo.updTile)

theorem Within.startAttach {a : Nat} (h : Within M s0 s)
    (hm : Fits [.regs, .ev, .out, .dev, .mem, .prog, .kv, .mrd, .hbm, .ldg, .st, .bt] M := by decide) :
    Within M s0 (s.startAttach a) :=
  h.step hm (.ite (fun _ => .ite (fun _ => Within.refl.log.failWith) fun _ => .ite (fun _ => Within.refl.log.failWith)
    fun _ => Within.refl.log) fun _ => .foldl Within.refl fun _ _ g => g.log)

theorem Within.test {e : StartEnv} (h : Within M s0 s)
    (hm : Fits bootParts M := by decide) : Within M s0 (s.test e) := by
  refine h.step hm ?_
  unfold State.test
  extract_lets a now b c d e f src1 g maps benched i src2 j k l m n o src3 p
  have hc : Within (mask bootParts) s c :=
    .foldl Within.refl.devTo.sometime fun _ _ g => g.updComb
  have he : Within (mask bootParts) s e :=
    .foldl hc.readList fun _ _ g => g.seamTest
  have hg : Within (mask bootParts) s g :=
    .set_die he.findings (by decide) (by exact id)
  have hi : Within (mask bootParts) s i :=
    .foldl hg fun _ _ g => .foldl g fun _ _ g => g.setReg
  clear_value i
  have hj : Within (mask bootParts) s j :=
    .set_die hi (by decide) (by exact id)
  have hk : Within (mask bootParts) s k :=
    .foldl hj fun _ _ g => g.startTile
  have ho : Within (mask bootParts) s o :=
    .foldl hk.writeFmax.setReg.setReg fun _ _ g => g.startAttach
  have hp : Within (mask bootParts) s p :=
    ho.set_dev (by decide)
  exact .ite (fun _ => hc.failWith) fun _ => hp.retarget

theorem Within.trainStack {e : StartEnv} {hs : Nat} (h : Within M s0 s) (hm : Fits [.regs, .ev, .out, .hbm] M := by decide) :
    Within M s0 (s.trainStack e hs) :=
  h.step hm (.ite (fun _ => Within.refl.updStack.report) fun _ => Within.refl.updStack)

theorem Within.advanceFloors {banks : List (Nat × Nat)} (h : Within M s0 s) (hm : Fits [.regs, .nv] M := by decide) :
    Within M s0 (s.advanceFloors banks) := h.step hm (.foldl Within.refl fun _ _ g => .ite (fun hf => g.setFloor hf.2.le) fun _ => g)

theorem Within.placeArea (h : Within M s0 s) (hm : Fits [.die, .intake, .mrd] M := by decide) : Within M s0 s.placeArea := by
  refine h.step hm ?_
  unfold State.placeArea
  exact Within.refl.set_die_intake_mrd (by decide) (by exact id) (by exact id)

theorem Within.startPort {e : StartEnv} {p : Nat} (h : Within M s0 s) (hm : Fits [.regs, .ev, .out, .tre] M := by decide) :
    Within M s0 (s.startPort e p) := by
  refine h.step hm ?_
  dsimp only [State.startPort]
  refine .ite (fun _ => Within.refl.trainDown) fun _ => ?_
  split
  exacts [Within.refl.train, Within.refl.trainDown]

theorem Within.trainAll {e : StartEnv} {banks : List (Nat × Nat)} {before : Nat} (h : Within M s0 s)
    (hm : Fits [.regs, .pages, .ev, .out, .dev, .die, .mem, .prog, .intake, .kv, .mrd, .hbm, .combs, .clk, .ldg, .st, .bt, .tre,
      .nv, .freeCtr] M := by decide) :
    Within M s0 (s.trainAll e banks before) :=
  h.step hm (.ite (fun _ => .failWith (.foldl (.foldl Within.refl.devTo.sometime fun _ _ g => g.listDefect)
    fun _ _ g => g.trainStack)) fun _ => .ite (fun _ => .brakeOn (.advanceFloors (.devTo (.log (.set_dev (.chooseParent
    (.formBundles (.foldl (.placeArea (.foldl (.foldl Within.refl.devTo.sometime fun _ _ g => g.listDefect)
    fun _ _ g => g.trainStack)) fun _ _ g => g.startPort))) (by decide))))))
    fun _ => .advanceFloors (.devTo (.log (.set_dev (.chooseParent (.formBundles (.foldl (.placeArea (.foldl
    (.foldl Within.refl.devTo.sometime fun _ _ g => g.listDefect) fun _ _ g => g.trainStack))
    fun _ _ g => g.startPort))) (by decide)))))

theorem execStartInstant_within {env : StartEnv} :
    ResWithin (mask [.regs, .limits, .limStaged, .pages, .ev, .out, .dev, .die, .mem, .prog, .intake, .kv, .mrd, .hbm, .host,
      .combs, .clk, .ldg, .st, .bt, .tre, .nv, .mgmt, .freeCtr])
      s (execStartInstant env s) :=
  .next (.whenB Within.refl fun _ => .ite (fun _ => Within.refl.boot) fun _ => .ite (fun _ => Within.refl.boot.test)
    fun _ => Within.refl.boot.test.trainAll)

theorem Within.coldReset {old : DevState} {latch : Bool} (h : Within M s0 s) (hm : Fits resetParts M := by decide) :
    Within M s0 (s.coldReset old latch) :=
  h.step hm ⟨rfl, fun f hf => by cases f <;> first | rfl | exact absurd hf (by decide),
    fun i => { State.reset_inv with bmc := i.bmc }, id, id, id, le_rfl, fun _ => le_rfl⟩

theorem execPerstAssert_within :
    ResWithin (mask coldParts) s (execPerstAssert s) :=
  .next (.ite (fun _ => .set_dev Within.refl (by decide)) fun _ => .coldReset (.set_dev Within.refl (by decide)))

theorem execResetAssert_within :
    ResWithin (mask coldParts) s (execResetAssert s) :=
  .next (.ite (fun _ => .set_dev Within.refl (by decide)) fun _ => .coldReset (.set_dev Within.refl (by decide)))

theorem Within.rotateOne {site : Nat} (h : Within M s0 s) (hm : Fits [.regs, .ev, .out, .die] M := by decide) :
    Within M s0 (s.rotateOne site) := by
  refine h.step hm ?_
  unfold State.rotateOne
  extract_lets rotate
  have hr (sp : Nat) (home : Option Nat) : Within (mask [.regs, .ev, .out, .die]) s (rotate (s.toQuarantine sp) home) :=
    Within.refl.toQuarantine.updTile
  clear_value rotate
  split
  · refine .ite (fun _ => Within.refl) fun _ => ?_
    split
    exacts [.set_die (hr _ _) (by decide) id, Within.refl.incReg]
  · exact .ite (fun _ => hr _ _) fun _ => Within.refl

theorem execFieldRotation_within {sites : List Nat} : ResWithin (mask [.regs, .ev, .out, .die]) s (execFieldRotation sites s) :=
  .onUnit (.whenB Within.refl fun _ => .foldl Within.refl fun _ _ g => g.rotateOne)

theorem execFieldTestDone_within {site : Nat} {passed : Bool} :
    ResWithin (mask [.regs, .ev, .out, .dev, .die, .mem, .prog, .kv, .mrd, .hbm, .ldg, .st, .bt, .nv])
      s (execFieldTestDone site passed s) :=
  .onUnit (.whenB Within.refl fun _ => .ite (fun _ => Within.refl.updTile.incReg.returnUnit)
    fun _ => Within.refl.updTile.incReg.flag.setReg.log.strikeTile.review)

theorem Within.zeroise {site : Nat} (h : Within M s0 s) (hm : Fits [.mem, .prog, .mt, .wt, .bt] M := by decide) :
    Within M s0 (s.zeroise site) :=
  h.step hm (.set_prog (x := { s.prog with runs := serase s.prog.runs site }) (.set_bt (x := serase s.bt site)
    (.set_wt (x := serase s.wt site) (.set_mt (x := serase s.mt site) (.set_mem (x := { s.mem with
      ops := wipeStore opsRows site s.mem.ops, sst := wipeStore sstRows site s.mem.sst, buf := wipeStore bufRows site s.mem.buf })
      Within.refl (by decide) fun i => Mem.wf_buf swf_filter (Mem.wf_sst swf_filter (Mem.wf_ops swf_filter i)))
      (by decide) swf_serase) (by decide) swf_serase) (by decide) swf_serase) (by decide) id swf_serase)

theorem execScanEnable_within {src : Source} {ctl : Word} :
    ResWithin (mask [.regs, .pages, .ev, .out, .mem, .prog, .mt, .wt, .bt]) s (execScanEnable src ctl s) := by
  dsimp only [execScanEnable]
  exact .next (.goWrite Within.refl fun g => by split; exacts [g.setReg, .ite (fun _ => g.zeroise.setReg.log) fun _ => g.setReg])

theorem execDefectAppendFlush_within : ResWithin (mask [.nv]) s (execDefectAppendFlush s) :=
  .next (.whenB Within.refl fun _ => .set_nv Within.refl (by decide) (⟨id, id, id, le_rfl, fun _ => le_rfl⟩))

theorem execInputRangeCut_within {vCore vAux : Nat} :
    ResWithin (mask coldParts) s (execInputRangeCut vCore vAux s) := by
  refine .next (.whenB Within.refl fun _ => ?_)
  extract_lets src1 src2 a
  have ha : Within (mask coldParts) s a :=
    Within.refl.set_dev_nv (by decide) ⟨id, id, id, le_rfl, fun _ => le_rfl⟩
  exact .ite (fun _ => ha) fun _ => ha.coldReset

theorem execPinShort_within {pin : OutPin} {level : Bool} : ResWithin (mask [.mgmt]) s (execPinShort pin level s) :=
  by dsimp only [execPinShort]; exact .next (.whenB Within.refl fun _ => by split <;> exact .set_mgmt Within.refl (by decide))

theorem execSeamWireFail_within {bridge wire : Nat} : ResWithin (mask [.nv]) s (execSeamWireFail bridge wire s) :=
  .onUnit (.ite (fun _ => Within.refl) fun _ => .set_nv Within.refl (by decide) (⟨id, id, id, le_rfl, fun _ => le_rfl⟩))

theorem execBusMasterEnableClear_within : ResWithin (mask [.host]) s (execBusMasterEnableClear s) :=
  .next (.whenB Within.refl fun _ => .set_host Within.refl (by decide))

theorem execHostReadCompletionTimeout_within {stream : Nat} :
    ResWithin (mask [.intake]) s (execHostReadCompletionTimeout stream s) :=
  .next Within.refl.setPend

theorem execHbmFullRateReturn_within {stack temp : Nat} : ResWithin (mask [.hbm]) s (execHbmFullRateReturn stack temp s) :=
  .onUnit (.ite (fun _ => Within.refl) fun _ => Within.refl.updStack)

theorem Within.bar0Due (h : Within M s0 s) (hm : Fits [.ev, .out, .host] M := by decide) : Within M s0 s.bar0Due :=
  h.step hm (.ite (fun _ => Within.refl) fun _ => .log (.set_host Within.refl (by decide)))

theorem Within.advance (h : Within M s0 s) (hm : Fits [.dev, .tre] M := by decide) : Within M s0 s.advance := by
  refine h.step hm ?_
  unfold State.advance
  extract_lets t
  exact .ite (fun _ => .set_dev Within.refl (by decide)) fun _ =>
    .ite (fun _ => .set_dev_tre Within.refl (by decide) (by exact id)) fun _ =>
    .ite (fun _ => .set_dev_tre Within.refl (by decide) (by exact id)) fun _ => .set_tre Within.refl (by decide) (by exact id)

theorem Within.tick (h : Within M s0 s) (hm : Fits [.ev, .out, .dev, .host, .tre] M := by decide) : Within M s0 s.tick :=
  h.step hm (Within.refl.advance.bar0Due)


/-! ### Every command -/

theorem ResWithin.mono {l k : List Field} {r : Res} (h : ResWithin (mask l) s r) (hm : Fits l (mask k) := by decide) :
    ResWithin (mask k) s r := fun t e => Within.refl.next (h t e) hm


/-- Every command moves only within its parts, keeps the invariant and leaves the queue. -/
theorem exec_within (c : Instr) (s : State) : ResWithin (mask (commandParts c)) s (exec c s) := by
  cases c with
  | registerWrite => dsimp only [exec, commandParts]; exact execRegisterWrite_within.mono
  | rcRead => dsimp only [exec, commandParts]; exact execRcRead_within.mono
  | latchedRead => dsimp only [exec, commandParts]; exact execLatchedRead_within.mono
  | pageCommit => dsimp only [exec, commandParts]; exact execPageCommit_within.mono
  | pageDiscard => dsimp only [exec, commandParts]; exact execPageDiscard_within.mono
  | pageClaim => dsimp only [exec, commandParts]; exact execPageClaim_within.mono
  | pageRelease => dsimp only [exec, commandParts]; exact execPageRelease_within.mono
  | pass => dsimp only [exec, commandParts]; exact execPass_within.mono
  | groupEmit => dsimp only [exec, commandParts]; exact execGroupEmit_within.mono
  | weightPacketIntake => dsimp only [exec, commandParts]; exact execWeightPacketIntake_within.mono
  | load => dsimp only [exec, commandParts]; exact execLoad_within.mono
  | planeLoadStart => dsimp only [exec, commandParts]; exact execPlaneLoadStart_within.mono
  | planeLoadDone => dsimp only [exec, commandParts]; exact execPlaneLoadDone_within.mono
  | wfill => dsimp only [exec, commandParts]; exact execWfill_within.mono
  | opsDmaWrite => dsimp only [exec, commandParts]; exact execOpsDmaWrite_within.mono
  | sfn => dsimp only [exec, commandParts]; exact execSfn_within.mono
  | shadowCompare => dsimp only [exec, commandParts]; exact execShadowCompare_within.mono
  | arbiterVerdict => dsimp only [exec, commandParts]; exact execArbiterVerdict_within.mono
  | shadowStall => dsimp only [exec, commandParts]; exact execShadowStall_within.mono
  | steerWordArrive => dsimp only [exec, commandParts]; exact execSteerWordArrive_within.mono
  | wagDataArrive => dsimp only [exec, commandParts]; exact execWagDataArrive_within.mono
  | steerOrphan => dsimp only [exec, commandParts]; exact execSteerOrphan_within.mono
  | flitReceive => dsimp only [exec, commandParts]; exact execFlitReceive_within.mono
  | linkSilence => dsimp only [exec, commandParts]; exact execLinkSilence_within.mono
  | combineWindowExpire => dsimp only [exec, commandParts]; exact execCombineWindowExpire_within.mono
  | sinkChunkReceive => dsimp only [exec, commandParts]; exact execSinkChunkReceive_within.mono
  | sealFlow => dsimp only [exec, commandParts]; exact execSealFlow_within.mono
  | deadlockSuspect => dsimp only [exec, commandParts]; exact execDeadlockSuspect_within.mono
  | scheduledRead => dsimp only [exec, commandParts]; exact execScheduledRead_within.mono
  | scheduledWrite => dsimp only [exec, commandParts]; exact execScheduledWrite_within.mono
  | bRead => dsimp only [exec, commandParts]; exact execBRead_within.mono
  | bWrite => dsimp only [exec, commandParts]; exact execBWrite_within.mono
  | partnerRead => dsimp only [exec, commandParts]; exact execPartnerRead_within.mono
  | partnerWrite => dsimp only [exec, commandParts]; exact execPartnerWrite_within.mono
  | areadRowPresent => dsimp only [exec, commandParts]; exact execAreadRowPresent_within.mono
  | holdAdmit => dsimp only [exec, commandParts]; exact execHoldAdmit_within.mono
  | dmaWindowTimeout => dsimp only [exec, commandParts]; exact execDmaWindowTimeout_within.mono
  | bScrubRead => dsimp only [exec, commandParts]; exact execBScrubRead_within.mono
  | bScrubWriteback => dsimp only [exec, commandParts]; exact execBScrubWriteback_within.mono
  | win => dsimp only [exec, commandParts]; exact execWin_within.mono
  | fill => dsimp only [exec, commandParts]; exact execFill_within.mono
  | spill => dsimp only [exec, commandParts]; exact execSpill_within.mono
  | send => dsimp only [exec, commandParts]; exact execSend_within.mono
  | wait => dsimp only [exec, commandParts]; exact execWait_within.mono
  | waitRelease => dsimp only [exec, commandParts]; exact execWaitRelease_within.mono
  | nop => dsimp only [exec, commandParts]; exact execNop_within.mono
  | endCode => dsimp only [exec, commandParts]; exact execEndCode_within.mono
  | fillDone => dsimp only [exec, commandParts]; exact execFillDone_within.mono
  | writeAckReceive => dsimp only [exec, commandParts]; exact execWriteAckReceive_within.mono
  | instanceComplete => dsimp only [exec, commandParts]; exact execInstanceComplete_within.mono
  | templateRelease => dsimp only [exec, commandParts]; exact execTemplateRelease_within.mono
  | forage => dsimp only [exec, commandParts]; exact execForage_within.mono
  | gangStart => dsimp only [exec, commandParts]; exact execGangStart_within.mono
  | launch => dsimp only [exec, commandParts]; exact execLaunch_within.mono
  | switchRecord => dsimp only [exec, commandParts]; exact execSwitchRecord_within.mono
  | switchShadowLoad => dsimp only [exec, commandParts]; exact execSwitchShadowLoad_within.mono
  | combEpochSwitch => dsimp only [exec, commandParts]; exact execCombEpochSwitch_within.mono
  | epochDrainTimeout => dsimp only [exec, commandParts]; exact execEpochDrainTimeout_within.mono
  | imageInstall => dsimp only [exec, commandParts]; exact execImageInstall_within.mono
  | imageRemove => dsimp only [exec, commandParts]; exact execImageRemove_within.mono
  | imageQuery => dsimp only [exec, commandParts]; exact execImageQuery_within.mono
  | treathRetrain => dsimp only [exec, commandParts]; exact execTreathRetrain_within.mono
  | policySet => dsimp only [exec, commandParts]; exact execPolicySet_within.mono
  | fwUpdate => dsimp only [exec, commandParts]; exact execFwUpdate_within.mono
  | fwUpdateDone => dsimp only [exec, commandParts]; exact execFwUpdateDone_within.mono
  | floorCommit => dsimp only [exec, commandParts]; exact execFloorCommit_within.mono
  | licenceInstall => dsimp only [exec, commandParts]; exact execLicenceInstall_within.mono
  | ownerKeySet => dsimp only [exec, commandParts]; exact execOwnerKeySet_within.mono
  | lcsRequest => dsimp only [exec, commandParts]; exact execLcsRequest_within.mono
  | intakeWrite => dsimp only [exec, commandParts]; exact execIntakeWrite_within.mono
  | intakePartial => dsimp only [exec, commandParts]; exact execIntakePartial_within.mono
  | appendFetchDone => dsimp only [exec, commandParts]; exact execAppendFetchDone_within.mono
  | openRec => dsimp only [exec, commandParts]; exact execOpenRec_within.mono
  | appendRec => dsimp only [exec, commandParts]; exact execAppendRec_within.mono
  | generateRec => dsimp only [exec, commandParts]; exact execGenerateRec_within.mono
  | pauseRec => dsimp only [exec, commandParts]; exact execPauseRec_within.mono
  | resumeRec => dsimp only [exec, commandParts]; exact execResumeRec_within.mono
  | forkRec => dsimp only [exec, commandParts]; exact execForkRec_within.mono
  | closeRec => dsimp only [exec, commandParts]; exact execCloseRec_within.mono
  | queryRec => dsimp only [exec, commandParts]; exact execQueryRec_within.mono
  | stepCommit => dsimp only [exec, commandParts]; exact execStepCommit_within.mono
  | decisionTick => dsimp only [exec, commandParts]; exact execDecisionTick_within.mono
  | stepRecord => dsimp only [exec, commandParts]; exact execStepRecord_within.mono
  | lqTailWrite => dsimp only [exec, commandParts]; exact execLqTailWrite_within.mono
  | stepReissue => dsimp only [exec, commandParts]; exact execStepReissue_within.mono
  | almanacSlotClose => dsimp only [exec, commandParts]; exact execAlmanacSlotClose_within.mono
  | hbmRead => dsimp only [exec, commandParts]; exact execHbmRead_within.mono
  | hbmWrite => dsimp only [exec, commandParts]; exact execHbmWrite_within.mono
  | hbmScrubRead => dsimp only [exec, commandParts]; exact execHbmScrubRead_within.mono
  | hbmSoftRepair => dsimp only [exec, commandParts]; exact execHbmSoftRepair_within.mono
  | hbmHardRepair => dsimp only [exec, commandParts]; exact execHbmHardRepair_within.mono
  | hbmStackLost => dsimp only [exec, commandParts]; exact execHbmStackLost_within.mono
  | hbmHot => dsimp only [exec, commandParts]; exact execHbmHot_within.mono
  | bar4Read => dsimp only [exec, commandParts]; exact execBar4Read_within.mono
  | bar4Write => dsimp only [exec, commandParts]; exact execBar4Write_within.mono
  | bar4Resize => dsimp only [exec, commandParts]; exact execBar4Resize_within.mono
  | treathPacketReceive => dsimp only [exec, commandParts]; exact execTreathPacketReceive_within.mono
  | linkKeepalive => dsimp only [exec, commandParts]; exact execLinkKeepalive_within.mono
  | trlPortDown => dsimp only [exec, commandParts]; exact execTrlPortDown_within.mono
  | trlRetrain => dsimp only [exec, commandParts]; exact execTrlRetrain_within.mono
  | timeExchange => dsimp only [exec, commandParts]; exact execTimeExchange_within.mono
  | timeHoldover => dsimp only [exec, commandParts]; exact execTimeHoldover_within.mono
  | sliceShareReady => dsimp only [exec, commandParts]; exact execSliceShareReady_within.mono
  | readyMsg => dsimp only [exec, commandParts]; exact execReadyMsg_within.mono
  | notReadyMsg => dsimp only [exec, commandParts]; exact execNotReadyMsg_within.mono
  | commitMsg => dsimp only [exec, commandParts]; exact execCommitMsg_within.mono
  | abortMsg => dsimp only [exec, commandParts]; exact execAbortMsg_within.mono
  | doneMsg => dsimp only [exec, commandParts]; exact execDoneMsg_within.mono
  | statusQ => dsimp only [exec, commandParts]; exact execStatusQ_within.mono
  | statusR => dsimp only [exec, commandParts]; exact execStatusR_within.mono
  | beatMsg => dsimp only [exec, commandParts]; exact execBeatMsg_within.mono
  | sliceBeatTimer => dsimp only [exec, commandParts]; exact execSliceBeatTimer_within.mono
  | sliceCommitTimeout => dsimp only [exec, commandParts]; exact execSliceCommitTimeout_within.mono
  | sliceMemberLost => dsimp only [exec, commandParts]; exact execSliceMemberLost_within.mono
  | sliceLeadChange => dsimp only [exec, commandParts]; exact execSliceLeadChange_within.mono
  | maintRead => dsimp only [exec, commandParts]; exact execMaintRead_within.mono
  | maintWrite => dsimp only [exec, commandParts]; exact execMaintWrite_within.mono
  | maintResponse => dsimp only [exec, commandParts]; exact execMaintResponse_within.mono
  | identityQuery => dsimp only [exec, commandParts]; exact execIdentityQuery_within.mono
  | neighbourQuery => dsimp only [exec, commandParts]; exact execNeighbourQuery_within.mono
  | functionLevelReset => dsimp only [exec, commandParts]; exact execFunctionLevelReset_within.mono
  | hotReset => dsimp only [exec, commandParts]; exact execHotReset_within.mono
  | pciLinkDown => dsimp only [exec, commandParts]; exact execPciLinkDown_within.mono
  | hostWritesRelease => dsimp only [exec, commandParts]; exact execHostWritesRelease_within.mono
  | pciAerUncorr => dsimp only [exec, commandParts]; exact execPciAerUncorr_within.mono
  | msixUnmask => dsimp only [exec, commandParts]; exact execMsixUnmask_within.mono
  | evtBatch => dsimp only [exec, commandParts]; exact execEvtBatch_within.mono
  | bmcPageRead => dsimp only [exec, commandParts]; exact execBmcPageRead_within.mono
  | bmcPageWrite => dsimp only [exec, commandParts]; exact execBmcPageWrite_within.mono
  | i3cEntdaa => dsimp only [exec, commandParts]; exact execI3cEntdaa_within.mono
  | sensorUpdate => dsimp only [exec, commandParts]; exact execSensorUpdate_within.mono
  | spdmGetCertificate => dsimp only [exec, commandParts]; exact execSpdmGetCertificate_within.mono
  | spdmChallenge => dsimp only [exec, commandParts]; exact execSpdmChallenge_within.mono
  | spdmGetMeasurements => dsimp only [exec, commandParts]; exact execSpdmGetMeasurements_within.mono
  | slhDsaSignature => dsimp only [exec, commandParts]; exact execSlhDsaSignature_within.mono
  | slhDsaCertChain => dsimp only [exec, commandParts]; exact execSlhDsaCertChain_within.mono
  | requestUpdate => dsimp only [exec, commandParts]; exact execRequestUpdate_within.mono
  | passComponentTable => dsimp only [exec, commandParts]; exact execPassComponentTable_within.mono
  | updateComponent => dsimp only [exec, commandParts]; exact execUpdateComponent_within.mono
  | requestFirmwareData => dsimp only [exec, commandParts]; exact execRequestFirmwareData_within.mono
  | transferComplete => dsimp only [exec, commandParts]; exact execTransferComplete_within.mono
  | verifyComplete => dsimp only [exec, commandParts]; exact execVerifyComplete_within.mono
  | applyComplete => dsimp only [exec, commandParts]; exact execApplyComplete_within.mono
  | activateFirmware => dsimp only [exec, commandParts]; exact execActivateFirmware_within.mono
  | getStatus => dsimp only [exec, commandParts]; exact execGetStatus_within.mono
  | cancelUpdate => dsimp only [exec, commandParts]; exact execCancelUpdate_within.mono
  | combTarget => dsimp only [exec, commandParts]; exact execCombTarget_within.mono
  | localChangeSwitch => dsimp only [exec, commandParts]; exact execLocalChangeSwitch_within.mono
  | syncFallSwitch => dsimp only [exec, commandParts]; exact execSyncFallSwitch_within.mono
  | syncRiseSwitch => dsimp only [exec, commandParts]; exact execSyncRiseSwitch_within.mono
  | clkLockFail => dsimp only [exec, commandParts]; exact execClkLockFail_within.mono
  | clkRefLost => dsimp only [exec, commandParts]; exact execClkRefLost_within.mono
  | stretchStart => dsimp only [exec, commandParts]; exact execStretchStart_within.mono
  | stretchEnd => dsimp only [exec, commandParts]; exact execStretchEnd_within.mono
  | gnomonLoop => dsimp only [exec, commandParts]; exact execGnomonLoop_within.mono
  | tempSample => dsimp only [exec, commandParts]; exact execTempSample_within.mono
  | thermalLoop => dsimp only [exec, commandParts]; exact execThermalLoop_within.mono
  | thermalTrip => dsimp only [exec, commandParts]; exact execThermalTrip_within.mono
  | combIsolated => dsimp only [exec, commandParts]; exact execCombIsolated_within.mono
  | senseFallback => dsimp only [exec, commandParts]; exact execSenseFallback_within.mono
  | powerInterval => dsimp only [exec, commandParts]; exact execPowerInterval_within.mono
  | pwrBrake => dsimp only [exec, commandParts]; exact execPwrBrake_within.mono
  | brakeRelease => dsimp only [exec, commandParts]; exact execBrakeRelease_within.mono
  | ledgerClear => dsimp only [exec, commandParts]; exact execLedgerClear_within.mono
  | minderRestart => dsimp only [exec, commandParts]; exact execMinderRestart_within.mono
  | minderLost => dsimp only [exec, commandParts]; exact execMinderLost_within.mono
  | keeperWatchdog => dsimp only [exec, commandParts]; exact execKeeperWatchdog_within.mono
  | keeperFenceOrder => dsimp only [exec, commandParts]; exact execKeeperFenceOrder_within.mono
  | karComplete => dsimp only [exec, commandParts]; exact execKarComplete_within.mono
  | reinstateStage => dsimp only [exec, commandParts]; exact execReinstateStage_within.mono
  | routerProbeTimeout => dsimp only [exec, commandParts]; exact execRouterProbeTimeout_within.mono
  | standbyInRange => dsimp only [exec, commandParts]; exact execStandbyInRange_within.mono
  | standbyLost => dsimp only [exec, commandParts]; exact execStandbyLost_within.mono
  | startInstant => dsimp only [exec, commandParts]; exact execStartInstant_within.mono
  | perstAssert => dsimp only [exec, commandParts]; exact execPerstAssert_within.mono
  | resetAssert => dsimp only [exec, commandParts]; exact execResetAssert_within.mono
  | fieldRotation => dsimp only [exec, commandParts]; exact execFieldRotation_within.mono
  | fieldTestDone => dsimp only [exec, commandParts]; exact execFieldTestDone_within.mono
  | scanEnable => dsimp only [exec, commandParts]; exact execScanEnable_within.mono
  | defectAppendFlush => dsimp only [exec, commandParts]; exact execDefectAppendFlush_within.mono
  | inputRangeCut => dsimp only [exec, commandParts]; exact execInputRangeCut_within.mono
  | pinShort => dsimp only [exec, commandParts]; exact execPinShort_within.mono
  | seamWireFail => dsimp only [exec, commandParts]; exact execSeamWireFail_within.mono
  | busMasterEnableClear => dsimp only [exec, commandParts]; exact execBusMasterEnableClear_within.mono
  | hostReadCompletionTimeout => dsimp only [exec, commandParts]; exact execHostReadCompletionTimeout_within.mono
  | hbmFullRateReturn => dsimp only [exec, commandParts]; exact execHbmFullRateReturn_within.mono

theorem State.Inv.withPending {c : List Instr} (i : s.Inv) : ({ s with pending := c } : State).Inv := { i with }

/-- Settles O3: every part of the state after reset is what the invariant asks. -/
theorem resetInv : Obligations.ResetInv := State.reset_inv

/-- Settles O4, from what every command keeps; on an empty queue time passes. -/
theorem stepKeepsInv : Obligations.StepKeepsInv := by
  intro s t i h
  unfold step at h
  split at h
  · cases h
    split
    exacts [(Within.tick .refl rfl : Within (mask [.ev, .out, .dev, .host, .tre]) s s.tick).inv i, i]
  · exact (exec_within _ _ t h).inv i.withPending

/-- Settles O5: the frame of every command holds the queue. -/
theorem queueUntouched : Obligations.QueueUntouched := fun c s t h => (exec_within c s t h).queue

/-- Settles O6: the frame of every command holds that fuses and floors only go forward. -/
theorem onlyForward : Obligations.OnlyForward := fun c s t h => (exec_within c s t h).fwd

/-- Settles O8: a part outside the command's parts is outside its mask. -/
theorem commandFrames : Obligations.CommandFrames := fun c s t f h hf => (exec_within c s t h).same f (mask_testBit hf)

end

section

variable {s : State}

/-! ### Which commands stop -/

/-- A next state is answered. -/
def Nexts (r : Res) : Prop := ∃ t, r = .next t

theorem Nexts.next {t : State} : Nexts (.next t) := ⟨t, rfl⟩

/-- A command answers a next state from every state, or from every state that it names a unit the device does not have. -/
def Answers (r : State → Res) : Prop := (∀ s, Nexts (r s)) ∨ ∀ s, r s = .fault .noSuchUnit

theorem Answers.next {f : State → State} : Answers fun s => .next (f s) := .inl fun _ => .next

theorem Answers.onUnit {ok : Bool} {f : State → State} : Answers fun s => onUnit ok f s := by
  cases ok
  · exact .inr fun _ => rfl
  · exact .inl fun _ => .next

theorem Answers.onKind {k : Kind} {site : Nat} {f : State → State} : Answers fun s => onKind k site f s := by
  by_cases h : isKind k site
  · exact .inl fun s => ⟨f s, if_pos h⟩
  · exact .inr fun s => if_neg h

theorem execMsixUnmask_answers {vector : Option Nat} : Answers fun s => execMsixUnmask vector s := by
  cases vector
  · exact .next
  · exact .onUnit

theorem execTemplateRelease_nexts {launch tmpl : Nat} : Nexts (execTemplateRelease launch tmpl s) := by
  unfold execTemplateRelease
  repeat' split
  all_goals exact .next

theorem execLaunch_nexts : Nexts (execLaunch s) := by
  unfold execLaunch
  repeat' first | extract_lets | split
  all_goals exact .next

theorem execSwitchRecord_nexts : Nexts (execSwitchRecord s) := by
  unfold execSwitchRecord
  repeat' split
  all_goals exact .next

theorem execSwitchShadowLoad_nexts : Nexts (execSwitchShadowLoad s) := by
  unfold execSwitchShadowLoad
  repeat' split
  all_goals exact .next

theorem execIntakeWrite_nexts {off : Nat} {data : List Byte} {poisoned : Bool} : Nexts (execIntakeWrite off data poisoned s) := by
  unfold execIntakeWrite
  repeat' split
  all_goals exact .next

theorem execIntakePartial_nexts {stream : Nat} : Nexts (execIntakePartial stream s) := by
  unfold execIntakePartial
  repeat' first | extract_lets | split
  all_goals exact .next

theorem execAppendFetchDone_nexts {stream : Nat} {toks : List Word} : Nexts (execAppendFetchDone stream toks s) := by
  unfold execAppendFetchDone
  repeat' split
  all_goals exact .next

theorem execStepCommit_nexts : Nexts (execStepCommit s) := by
  unfold execStepCommit
  repeat' first | extract_lets | split
  all_goals exact .next

theorem execDecisionTick_nexts : Nexts (execDecisionTick s) := by
  unfold execDecisionTick
  repeat' first | extract_lets | split
  all_goals exact .next

theorem execStepRecord_nexts : Nexts (execStepRecord s) := by
  unfold execStepRecord
  repeat' first | extract_lets | split
  all_goals exact .next

theorem execStepReissue_nexts : Nexts (execStepReissue s) := by
  unfold execStepReissue
  repeat' split
  all_goals exact .next

theorem execAlmanacSlotClose_nexts : Nexts (execAlmanacSlotClose s) := by
  unfold execAlmanacSlotClose
  repeat' split
  all_goals exact .next

theorem execSliceShareReady_nexts {step : Word} {cannot : Option ShareEvent} : Nexts (execSliceShareReady step cannot s) := by
  unfold execSliceShareReady
  extract_lets n st own
  clear_value st own
  repeat' split
  all_goals exact .next

theorem execSyncFallSwitch_nexts : Nexts (execSyncFallSwitch s) := by
  unfold execSyncFallSwitch
  repeat' first | extract_lets | split
  all_goals exact .next

theorem execSyncRiseSwitch_nexts : Nexts (execSyncRiseSwitch s) := by
  unfold execSyncRiseSwitch
  repeat' split
  all_goals exact .next

theorem exec_answers (c : Instr) : Answers fun s => exec c s := by
  cases c with
  | registerWrite => dsimp only [exec]; exact .onUnit
  | rcRead => dsimp only [exec]; exact .onUnit
  | latchedRead => dsimp only [exec]; exact .onUnit
  | pageCommit => dsimp only [exec]; exact .onUnit
  | pageDiscard => dsimp only [exec]; exact .onUnit
  | pageClaim => dsimp only [exec]; exact .onUnit
  | pageRelease => dsimp only [exec]; exact .onUnit
  | pass => dsimp only [exec]; exact .onKind
  | groupEmit => dsimp only [exec]; exact .onKind
  | weightPacketIntake => dsimp only [exec]; exact .onKind
  | load => dsimp only [exec]; exact .onKind
  | planeLoadStart => dsimp only [exec]; exact .onKind
  | planeLoadDone => dsimp only [exec]; exact .onKind
  | wfill => dsimp only [exec]; exact .onKind
  | opsDmaWrite => dsimp only [exec]; exact .onUnit
  | sfn => dsimp only [exec]; exact .onKind
  | shadowCompare => dsimp only [exec]; exact .onKind
  | arbiterVerdict => dsimp only [exec]; exact .onKind
  | shadowStall => dsimp only [exec]; exact .onKind
  | steerWordArrive => dsimp only [exec]; exact .onKind
  | wagDataArrive => dsimp only [exec]; exact .onKind
  | steerOrphan => dsimp only [exec]; exact .onUnit
  | flitReceive => dsimp only [exec]; exact .onUnit
  | linkSilence => dsimp only [exec]; exact .onUnit
  | combineWindowExpire => dsimp only [exec]; exact .onUnit
  | sinkChunkReceive => dsimp only [exec]; exact .onUnit
  | sealFlow => dsimp only [exec]; exact .onUnit
  | deadlockSuspect => dsimp only [exec]; exact .onUnit
  | scheduledRead => dsimp only [exec]; exact .onUnit
  | scheduledWrite => dsimp only [exec]; exact .onUnit
  | bRead => dsimp only [exec]; exact .onKind
  | bWrite => dsimp only [exec]; exact .onKind
  | partnerRead => dsimp only [exec]; exact .onUnit
  | partnerWrite => dsimp only [exec]; exact .onUnit
  | areadRowPresent => dsimp only [exec]; exact .onKind
  | holdAdmit => dsimp only [exec]; exact .onKind
  | dmaWindowTimeout => dsimp only [exec]; exact .onKind
  | bScrubRead => dsimp only [exec]; exact .onKind
  | bScrubWriteback => dsimp only [exec]; exact .onKind
  | win => dsimp only [exec]; exact .onKind
  | fill => dsimp only [exec]; exact .onKind
  | spill => dsimp only [exec]; exact .onKind
  | send => dsimp only [exec]; exact .onKind
  | wait => dsimp only [exec]; exact .onUnit
  | waitRelease => dsimp only [exec]; exact .onUnit
  | nop => dsimp only [exec]; exact .onUnit
  | endCode => dsimp only [exec]; exact .onUnit
  | fillDone => dsimp only [exec]; exact .onUnit
  | writeAckReceive => dsimp only [exec]; exact .onKind
  | instanceComplete => dsimp only [exec]; exact .onUnit
  | templateRelease => dsimp only [exec]; exact .inl fun _ => execTemplateRelease_nexts
  | forage => dsimp only [exec]; exact .onUnit
  | gangStart => dsimp only [exec]; exact .onUnit
  | launch => dsimp only [exec]; exact .inl fun _ => execLaunch_nexts
  | switchRecord => dsimp only [exec]; exact .inl fun _ => execSwitchRecord_nexts
  | switchShadowLoad => dsimp only [exec]; exact .inl fun _ => execSwitchShadowLoad_nexts
  | combEpochSwitch => dsimp only [exec]; exact .onUnit
  | epochDrainTimeout => dsimp only [exec]; exact .onUnit
  | imageInstall => dsimp only [exec]; exact .onUnit
  | imageRemove => dsimp only [exec]; exact .onUnit
  | imageQuery => dsimp only [exec]; exact .onUnit
  | treathRetrain => dsimp only [exec]; exact .onUnit
  | policySet => dsimp only [exec]; exact .onUnit
  | fwUpdate => dsimp only [exec]; exact .onUnit
  | fwUpdateDone => dsimp only [exec]; exact .next
  | floorCommit => dsimp only [exec]; exact .onUnit
  | licenceInstall => dsimp only [exec]; exact .onUnit
  | ownerKeySet => dsimp only [exec]; exact .onUnit
  | lcsRequest => dsimp only [exec]; exact .onUnit
  | intakeWrite => dsimp only [exec]; exact .inl fun _ => execIntakeWrite_nexts
  | intakePartial => dsimp only [exec]; exact .inl fun _ => execIntakePartial_nexts
  | appendFetchDone => dsimp only [exec]; exact .inl fun _ => execAppendFetchDone_nexts
  | openRec => dsimp only [exec]; exact .next
  | appendRec => dsimp only [exec]; exact .next
  | generateRec => dsimp only [exec]; exact .next
  | pauseRec => dsimp only [exec]; exact .next
  | resumeRec => dsimp only [exec]; exact .next
  | forkRec => dsimp only [exec]; exact .next
  | closeRec => dsimp only [exec]; exact .next
  | queryRec => dsimp only [exec]; exact .next
  | stepCommit => dsimp only [exec]; exact .inl fun _ => execStepCommit_nexts
  | decisionTick => dsimp only [exec]; exact .inl fun _ => execDecisionTick_nexts
  | stepRecord => dsimp only [exec]; exact .inl fun _ => execStepRecord_nexts
  | lqTailWrite => dsimp only [exec]; exact .next
  | stepReissue => dsimp only [exec]; exact .inl fun _ => execStepReissue_nexts
  | almanacSlotClose => dsimp only [exec]; exact .inl fun _ => execAlmanacSlotClose_nexts
  | hbmRead => dsimp only [exec]; exact .onUnit
  | hbmWrite => dsimp only [exec]; exact .onUnit
  | hbmScrubRead => dsimp only [exec]; exact .onUnit
  | hbmSoftRepair => dsimp only [exec]; exact .onUnit
  | hbmHardRepair => dsimp only [exec]; exact .onUnit
  | hbmStackLost => dsimp only [exec]; exact .onUnit
  | hbmHot => dsimp only [exec]; exact .onUnit
  | bar4Read => dsimp only [exec]; exact .next
  | bar4Write => dsimp only [exec]; exact .next
  | bar4Resize => dsimp only [exec]; exact .onUnit
  | treathPacketReceive => dsimp only [exec]; exact .onUnit
  | linkKeepalive => dsimp only [exec]; exact .onUnit
  | trlPortDown => dsimp only [exec]; exact .onUnit
  | trlRetrain => dsimp only [exec]; exact .onUnit
  | timeExchange => dsimp only [exec]; exact .onUnit
  | timeHoldover => dsimp only [exec]; exact .next
  | sliceShareReady => dsimp only [exec]; exact .inl fun _ => execSliceShareReady_nexts
  | readyMsg => dsimp only [exec]; exact .next
  | notReadyMsg => dsimp only [exec]; exact .next
  | commitMsg => dsimp only [exec]; exact .next
  | abortMsg => dsimp only [exec]; exact .next
  | doneMsg => dsimp only [exec]; exact .next
  | statusQ => dsimp only [exec]; exact .next
  | statusR => dsimp only [exec]; exact .next
  | beatMsg => dsimp only [exec]; exact .next
  | sliceBeatTimer => dsimp only [exec]; exact .next
  | sliceCommitTimeout => dsimp only [exec]; exact .next
  | sliceMemberLost => dsimp only [exec]; exact .next
  | sliceLeadChange => dsimp only [exec]; exact .next
  | maintRead => dsimp only [exec]; exact .onUnit
  | maintWrite => dsimp only [exec]; exact .onUnit
  | maintResponse => dsimp only [exec]; exact .onUnit
  | identityQuery => dsimp only [exec]; exact .onUnit
  | neighbourQuery => dsimp only [exec]; exact .onUnit
  | functionLevelReset => dsimp only [exec]; exact .next
  | hotReset => dsimp only [exec]; exact .next
  | pciLinkDown => dsimp only [exec]; exact .next
  | hostWritesRelease => dsimp only [exec]; exact .next
  | pciAerUncorr => dsimp only [exec]; exact .next
  | msixUnmask => dsimp only [exec]; exact execMsixUnmask_answers
  | evtBatch => dsimp only [exec]; exact .next
  | bmcPageRead => dsimp only [exec]; exact .next
  | bmcPageWrite => dsimp only [exec]; exact .next
  | i3cEntdaa => dsimp only [exec]; exact .next
  | sensorUpdate => dsimp only [exec]; exact .next
  | spdmGetCertificate => dsimp only [exec]; exact .next
  | spdmChallenge => dsimp only [exec]; exact .next
  | spdmGetMeasurements => dsimp only [exec]; exact .next
  | slhDsaSignature => dsimp only [exec]; exact .next
  | slhDsaCertChain => dsimp only [exec]; exact .next
  | requestUpdate => dsimp only [exec]; exact .next
  | passComponentTable => dsimp only [exec]; exact .next
  | updateComponent => dsimp only [exec]; exact .next
  | requestFirmwareData => dsimp only [exec]; exact .next
  | transferComplete => dsimp only [exec]; exact .next
  | verifyComplete => dsimp only [exec]; exact .next
  | applyComplete => dsimp only [exec]; exact .next
  | activateFirmware => dsimp only [exec]; exact .next
  | getStatus => dsimp only [exec]; exact .next
  | cancelUpdate => dsimp only [exec]; exact .next
  | combTarget => dsimp only [exec]; exact .next
  | localChangeSwitch => dsimp only [exec]; exact .onUnit
  | syncFallSwitch => dsimp only [exec]; exact .inl fun _ => execSyncFallSwitch_nexts
  | syncRiseSwitch => dsimp only [exec]; exact .inl fun _ => execSyncRiseSwitch_nexts
  | clkLockFail => dsimp only [exec]; exact .onUnit
  | clkRefLost => dsimp only [exec]; exact .onUnit
  | stretchStart => dsimp only [exec]; exact .onUnit
  | stretchEnd => dsimp only [exec]; exact .onUnit
  | gnomonLoop => dsimp only [exec]; exact .onUnit
  | tempSample => dsimp only [exec]; exact .onUnit
  | thermalLoop => dsimp only [exec]; exact .onUnit
  | thermalTrip => dsimp only [exec]; exact .onUnit
  | combIsolated => dsimp only [exec]; exact .onUnit
  | senseFallback => dsimp only [exec]; exact .onUnit
  | powerInterval => dsimp only [exec]; exact .next
  | pwrBrake => dsimp only [exec]; exact .next
  | brakeRelease => dsimp only [exec]; exact .next
  | ledgerClear => dsimp only [exec]; exact .next
  | minderRestart => dsimp only [exec]; exact .onUnit
  | minderLost => dsimp only [exec]; exact .onUnit
  | keeperWatchdog => dsimp only [exec]; exact .next
  | keeperFenceOrder => dsimp only [exec]; exact .onUnit
  | karComplete => dsimp only [exec]; exact .onUnit
  | reinstateStage => dsimp only [exec]; exact .onUnit
  | routerProbeTimeout => dsimp only [exec]; exact .onUnit
  | standbyInRange => dsimp only [exec]; exact .next
  | standbyLost => dsimp only [exec]; exact .next
  | startInstant => dsimp only [exec]; exact .next
  | perstAssert => dsimp only [exec]; exact .next
  | resetAssert => dsimp only [exec]; exact .next
  | fieldRotation => dsimp only [exec]; exact .onUnit
  | fieldTestDone => dsimp only [exec]; exact .onUnit
  | scanEnable => dsimp only [exec]; exact .next
  | defectAppendFlush => dsimp only [exec]; exact .next
  | inputRangeCut => dsimp only [exec]; exact .next
  | pinShort => dsimp only [exec]; exact .next
  | seamWireFail => dsimp only [exec]; exact .onUnit
  | busMasterEnableClear => dsimp only [exec]; exact .next
  | hostReadCompletionTimeout => dsimp only [exec]; exact .next
  | hbmFullRateReturn => dsimp only [exec]; exact .onUnit

/-- Settles O7: whether a command stops is seen from its operands. -/
theorem stopsOnlyWithoutUnit : Obligations.StopsOnlyWithoutUnit := by
  refine ⟨fun c s => (exec_answers c).imp (fun h => h s) fun h => h s, fun c s t e => ?_⟩
  rcases exec_answers c with h | h
  · obtain ⟨u, hu⟩ := h s
    cases hu.symm.trans e
  · exact h t

end

section

/-! ### The machine's step and its reset -/

/-- Settles O1: by cases on the queue of waiting commands. -/
theorem stepRunsFront : Obligations.StepRunsFront := by
  unfold Obligations.StepRunsFront
  refine ⟨fun c rest s h => ?_, fun s h hr => ?_, fun s h hr => ?_⟩
  · rw [step.eq_def, h]
  · rw [step.eq_def, h]
    exact congrArg _ (if_pos hr)
  · rw [step.eq_def, h]
    exact congrArg _ (if_neg (by simp [hr]))

/-- Settles O2: every store of the reset state is empty and reads as its default. -/
theorem resetLeaves : Obligations.ResetLeaves :=
  ⟨rfl, rfl, rfl, fun _ => rfl, fun _ => ⟨rfl, rfl⟩, fun _ _ => rfl, rfl, rfl⟩

end

section

variable {s t : State}

/-! ### What runs -/

/-- A command runs when its next state is reached within its parts. -/
theorem Runs.of_within {c : Instr} {parts : List Field} {P : State → Prop} (h : exec c s = .next t)
    (hw : Within (mask parts) s t) (hP : P t) : Runs c s parts P :=
  ⟨t, h, hw.queue, fun f hf => hw.same f (mask_testBit hf), hP⟩

theorem onUnit_next {ok : Bool} {f : State → State} (h : ok = true) : onUnit ok f s = .next (f s) := if_pos h

theorem onKind_next {k : Kind} {site : Nat} {f : State → State} (h : isKind k site = true) :
    onKind k site f s = .next (f s) := if_pos h

/-! ### Reads of control pages -/

section
variable {src : Source} {p off q o : Nat} {r : RegRow} {w : Word}

theorem inBar0_of_lt (hp : p < 32768) (ho : off < 4096) : inBar0 p off = true := by simp [inBar0, hp, ho]

theorem State.readOut_eq (ha : off % 4 = 0) :
    s.readOut src p off = (s.read4 src p off).2.emit (.readData src p off (BitVec.ofNat 64 (s.read4 src p off).1)) := by
  rw [State.readOut, if_neg fun h => h.2 ha]

theorem exec_rcRead (hp : p < 32768) (ho : off < 4096) (ha : off % 4 = 0) : exec (.rcRead src p off) s =
    .next ((s.read4 src p off).2.emit (.readData src p off (BitVec.ofNat 64 (s.read4 src p off).1))) :=
  (onUnit_next (inBar0_of_lt hp ho)).trans (congrArg _ (State.readOut_eq ha))

theorem exec_latchedRead (hp : p < 32768) (ho : off < 4096) (ha : off % 4 = 0) : exec (.latchedRead src p off) s =
    .next ((s.read4 src p off).2.emit (.readData src p off (BitVec.ofNat 64 (s.read4 src p off).1))) :=
  (onUnit_next (inBar0_of_lt hp ho)).trans (congrArg _ (State.readOut_eq ha))

theorem State.read4_rc (ht : s.target p off = some (q, o)) (hr : regRow q o = some r) (hc : r.acc = .rc) :
    s.read4 src p off = (s.readReg src p off, s.setReg q o 0) := by simp only [State.read4, ht, hr, if_pos hc]

theorem State.read4_low (ht : s.target p off = some (q, o)) (hr : regRow q o = some r) (hc : r.acc ≠ .rc) (hw : r.wide = true)
    (hl : (o - r.lo) % 8 = 0) : s.read4 src p off =
      (s.readReg src p off, { s with latch := sput s.latch (halfKey src q (o + 4)) (w32 (s.readReg src p (off + 4))) }) := by
  simp [State.read4, ht, hr, hc, hw, hl]

theorem State.read4_high (ht : s.target p off = some (q, o)) (hr : regRow q o = some r) (hc : r.acc ≠ .rc) (hw : r.wide = true)
    (hl : (o - r.lo) % 8 ≠ 0) (hk : sfind s.latch (halfKey src q o) = some w) :
    s.read4 src p off = (w.toNat, { s with latch := serase s.latch (halfKey src q o) }) := by
  simp [State.read4, ht, hr, hc, hw, hl, hk]

end

/-- Settles O9: what a 4-byte read leaves, by the access of the register's row. -/
theorem pageReads : Obligations.PageReads := by
  refine ⟨fun src p off q o r s i hp ho ha ht hr hc => ?_, fun src p off q o r s hp ho ha ht hr hc hw hl => ?_,
    fun src p off q o r w s hp ho ha ht hr hc hw hl hk => ?_⟩
  · refine .of_within (exec_rcRead hp ho ha) ?_ ?_ <;> rw [State.read4_rc ht hr hc]
    · exact Within.refl.setReg.emit
    · refine ⟨?_, fun k hk => sget_sset_other (by simpa using hk), rfl⟩
      rw [State.reg_emit_other, State.reg_setReg _ i.regs, if_pos rfl]
      rfl
  · refine .of_within (exec_latchedRead hp ho ha) ?_ ?_ <;> rw [State.read4_low ht hr hc hw hl]
    · exact (Within.refl.set_latch (by decide)).emit
    · exact ⟨(sfind_sput).trans (if_pos rfl), rfl⟩
  · refine .of_within (exec_latchedRead hp ho ha) ?_ ?_ <;> rw [State.read4_high ht hr hc hw hl hk]
    · exact (Within.refl.set_latch (by decide)).emit
    · exact congrArg (fun x => s.out ++ [Out.readData src p off x]) (BitVec.ofNat_toNat ..)

end

section

variable {s t : State} {p q : Nat} {src : Source}

/-! ### Commits and discards (R680 to R683) -/

/-- An order that is not refused for its owner or its CHECK leaves only its record. -/
theorem State.order_unlogged {off res : Nat} (h3 : res ≠ 3) (h4 : res ≠ 4) : s.order src q off res = s.noteOrder src q res := by
  simp [State.order, h3, h4]

theorem exec_pageCommit {check : Bool} {seq : BitVec 16} (hp : p < 32759) (hq : s.orderPage p = some q) :
    exec (.pageCommit src p check seq) s = .next (s.commitAt src q check seq.toNat).2 := by
  change execPageCommit src p check seq s = _
  rw [execPageCommit, onUnit_next (decide_eq_true (by omega)), State.commitOrder, hq]

theorem exec_pageDiscard (hp : p < 32759) (hq : s.orderPage p = some q) :
    exec (.pageDiscard src p) s = .next (s.discardAt src q).2 := by
  change execPageDiscard src p s = _
  rw [execPageDiscard, onUnit_next (decide_eq_true (by omega)), State.discardOrder, hq]

/-- A page of an M tile waits for its comb's next switch: an accepted commit only stands there. -/
theorem State.acceptCommit_mtl {slotsOnly : Bool} (hc : pageClass q = .mtl) : s.acceptCommit src q slotsOnly =
    (s.updPage q fun g => { g with seq := (g.seq + 1) % 2 ^ 32, pending := true, who := srcCode src, slotsOnly }).setResult src q 1
      true := by
  have hne : q ≠ pgMrd := fun e => by rw [e] at hc; cases hc
  simp only [State.acceptCommit, if_neg hne, State.takeEffect, hc]

/-- The shared staged copy of the page's owner is accepted. -/
theorem State.commitAt_accepted {check : Bool} {seq : Nat} (hl : (s.lock && src != .keeper) = false)
    (hn : (s.page q).pending = false) (hs : check = true → (s.page q).seq % 65536 = seq) (ho : s.ownsOk src q = true)
    (hd : (s.page q).slotDirty = []) (hst : s.stagedOf q ≠ []) (ha : s.agrees q = true) :
    (s.commitAt src q check seq).2 =
      (s.acceptCommit src q false).order src q 0x018 (b2n ((s.acceptCommit src q false).page q).pending) := by
  have hc : (check && (s.page q).seq % 65536 != seq) = false := by
    cases check
    · rfl
    · simp [hs rfl]
  simp [State.commitAt, hl, hn, hc, ho, hd, hst, ha]

theorem State.page_setResult_pending {code : Nat} {acc : Bool} (h : swf pageDflt s.pages = true) :
    ((s.setResult src q code acc).page q).pending = (s.page q).pending := by
  rw [State.setResult, State.page_updPage s h, if_pos rfl]

theorem runs_commit_mtl {check : Bool} {seq : BitVec 16} (i : s.Inv) (hp : p < 32759) (hq : s.orderPage p = some q)
    (hc : pageClass q = .mtl) (hl : (s.lock && src != .keeper) = false) (hn : (s.page q).pending = false)
    (hs : check = true → (s.page q).seq % 65536 = seq.toNat) (ho : s.ownsOk src q = true) (hd : (s.page q).slotDirty = [])
    (hst : s.stagedOf q ≠ []) (ha : s.agrees q = true) :
    Runs (.pageCommit src p check seq) s [.pages] fun t =>
      PagesOnly q s t ∧ (t.page q).pending = true ∧ (t.page q).seq = ((s.page q).seq + 1) % 2 ^ 32
        ∧ (t.page q).own = (s.page q).own
        ∧ (t.page q).results.head? = some { src, seq := ((s.page q).seq + 1) % 2 ^ 32 % 65536, code := 1 } := by
  have hacc : PageMove [.pages] q s (s.updPage q fun g =>
      { g with seq := (g.seq + 1) % 2 ^ 32, pending := true, who := srcCode src, slotsOnly := false }) :=
    (PageMove.refl i).updPage (by simp) _
  have hres : PageMove [.pages] q s (s.acceptCommit src q false) := by
    rw [State.acceptCommit_mtl hc]
    exact hacc.updPage (by simp) _
  have hend := hres.noteOrder (by simp) src 1
  have hpend : ((s.acceptCommit src q false).page q).pending = true := by
    rw [State.acceptCommit_mtl hc, State.page_setResult_pending hacc.wf, State.page_updPage s i.pages, if_pos rfl]
  have hex : exec (.pageCommit src p check seq) s = .next ((s.acceptCommit src q false).noteOrder src q 1) := by
    rw [exec_pageCommit hp hq, State.commitAt_accepted hl hn hs ho hd hst ha, hpend, State.order_unlogged (by decide) (by decide)]
    rfl
  refine ⟨_, hex, hend.queue, hend.same, hend.only, ?_⟩
  rw [State.noteOrder, State.page_updPage _ hres.wf, if_pos rfl, State.acceptCommit_mtl hc, State.setResult,
    State.page_updPage _ hacc.wf, if_pos rfl, State.page_updPage s i.pages]
  simp

theorem State.discardAt_owned (hl : (s.lock && src != .keeper) = false) (hn : (s.page q).pending = false)
    (ho : s.ownsOk src q = true) : (s.discardAt src q).2 =
      (((s.dropStaged q).dropSlots q (srcCode src)).setResult src q 0 false).noteOrder src q 0 := by
  rw [← State.order_unlogged (off := 0x018) (by decide) (by decide)]
  simp [State.discardAt, hl, hn, ho]

theorem State.stagedOf_dropStaged_other (h : p ≠ q) : (s.dropStaged q).stagedOf p = s.stagedOf p := by
  simp only [State.stagedOf, State.dropStaged, State.updPage, List.filter_filter]
  refine List.filter_congr fun e _ => ?_
  by_cases he : e.1 / 4096 = p <;> simp [he, h]

theorem State.dirty_dropStaged (i : s.Inv) : ((s.dropStaged q).page q).dirty = 0 := by
  have h : ∀ m, ((({ s with staged := m } : State).updPage q fun g => { g with dirty := 0 }).page q).dirty = 0 := fun m => by
    rw [State.page_updPage { s with staged := m } i.pages, if_pos rfl]
  exact h _

theorem runs_discard (i : s.Inv) (hp : p < 32759) (hq : s.orderPage p = some q) (hl : (s.lock && src != .keeper) = false)
    (hn : (s.page q).pending = false) (ho : s.ownsOk src q = true) :
    Runs (.pageDiscard src p) s [.staged, .limStaged, .pages] fun t =>
      t.stagedOf q = [] ∧ (t.page q).dirty = 0 ∧ PagesOnly q s t ∧ (∀ p', p' ≠ q → t.stagedOf p' = s.stagedOf p') := by
  have hdrop : PageMove [.staged, .pages] q s (s.dropStaged q) := (PageMove.refl i).dropStaged (by simp) (by simp)
  have hslots : PageMove [.staged, .pages] q (s.dropStaged q) ((s.dropStaged q).updPage q fun g =>
      { g with slotDirty := g.slotDirty.filter (· != srcCode src) }) :=
    ⟨rfl, fun f hf => Field.same_updPage (by rintro rfl; simp at hf) _ _ _, State.updPage_pages_wf hdrop.wf _ _,
      fun x hx => by rw [State.page_updPage _ hdrop.wf, if_neg hx]⟩
  have hpages : ∀ x, ((((s.dropStaged q).dropSlots q (srcCode src)).setResult src q 0 false).noteOrder src q 0).page x =
      ((((s.dropStaged q).updPage q fun g => { g with slotDirty := g.slotDirty.filter (· != srcCode src) }).setResult src q 0
        false).noteOrder src q 0).page x := fun _ => rfl
  have hres : PageMove [.staged, .pages] q (s.dropStaged q) (((s.dropStaged q).updPage q fun g =>
      { g with slotDirty := g.slotDirty.filter (· != srcCode src) }).setResult src q 0 false) := hslots.updPage (by simp) _
  refine .of_within ((exec_pageDiscard hp hq).trans (congrArg _ (State.discardAt_owned hl hn ho)))
    Within.refl.dropStaged.dropSlots.setResult.noteOrder ⟨State.stagedOf_dropStaged s q, ?_, fun x hx => ?_,
    fun p' h => State.stagedOf_dropStaged_other h⟩
  · rw [hpages, State.noteOrder, State.page_updPage _ hres.wf, if_pos rfl, State.setResult, State.page_updPage _ hslots.wf,
      if_pos rfl, State.page_updPage _ hdrop.wf, if_pos rfl]
    exact State.dirty_dropStaged i
  · rw [hpages, (hres.noteOrder (by simp) src 0).only x hx, hdrop.only x hx]

/-- A claim of a page whose accepted commit waits keeps the accepted copy (log 45). -/
theorem runs_claim_pending (i : s.Inv) (hp : p < 32759) (hq : s.orderPage p = some q) (hl : (s.lock && src != .keeper) = false)
    (hf : fixedPage q = false) (ho : (s.page q).own = none) (hn : (s.page q).pending = true) :
    Runs (.pageClaim src p) s [.pages] fun t => (t.page q).own = some src ∧ (t.page q).pending = true ∧ PagesOnly q s t := by
  have htaken : PageMove [.pages] q s (s.setOwn q (some src)) := (PageMove.refl i).updPage (by simp) _
  have hend := htaken.noteOrder (by simp) src 0
  have hex : (s.claimAt src q).2 = (s.setOwn q (some src)).noteOrder src q 0 := by
    rw [State.claimAt_new hl (State.mayClaim_iff.2 (.inr ⟨hf, .inl ho⟩)) (by simp [ho]), State.leaveStaged, if_pos hn]
  refine ⟨_, (exec_pageClaim hp hq).trans (congrArg _ hex), hend.queue, hend.same, ?_, ?_, hend.only⟩
  · rw [State.own_noteOrder htaken.wf, State.own_setOwn i.pages]
  · rw [State.noteOrder, State.page_updPage _ htaken.wf, if_pos rfl, State.setOwn, State.page_updPage _ i.pages, if_pos rfl]
    exact hn

/-- Settles O11: an accepted commit of an M tile's page only stands there until the safe point; a discard and a claim touch one page. -/
theorem pageCommits : Obligations.PageCommits := by
  unfold Obligations.PageCommits
  refine ⟨?commit, ?discard, ?claim⟩
  case commit =>
    intro src p q check seq s i hp hq hc hl hn hs ho hd hst ha
    exact runs_commit_mtl i hp hq hc hl hn hs ho hd hst ha
  case discard =>
    intro src p q s i hp hq hl hn ho
    exact runs_discard i hp hq hl hn ho
  case claim =>
    intro src p q s i hp hq hl hf ho hn
    exact runs_claim_pending i hp hq hl hf ho hn

end

section

variable {s t : State} {p q off : Nat} {src : Source} {r : RegRow} {v : DWord}

/-! ### Refused writes, commits, claims and releases (R675, R687, R690, R691) -/

/-- A 4-byte write of a block register acts on the physical page that the order point gives. -/
theorem exec_registerWrite_block (hp : p < 32759) (h0 : 0x040 ≤ off) (h1 : off < 0x800) (ha : off % 4 = 0)
    (hq : s.orderPage p = some q) :
    exec (.registerWrite src p off 4 v false) s = .next (s.blockWrite src q off (v.toNat % 2 ^ 32)).2 := by
  change execRegisterWrite src p off 4 v false s = _
  have hcommit : ¬off = 0x018 := by omega
  have howner : ¬off = 0x020 := by omega
  have hmask : ¬off = 0x010 := by omega
  rw [execRegisterWrite, onUnit_next (inBar0_of_lt (by omega) (by omega)), if_neg (by simp), if_neg (by simp), if_pos ⟨rfl, ha⟩,
    State.write4, if_neg (by omega), if_neg hcommit, if_neg howner, hq]
  simp only [State.physWrite, if_neg hmask, if_neg (show ¬off < 0x040 by omega), if_pos h1]

theorem State.gatedR_refused {f : State → State} {res : Nat} (h : s.writeRes src q = res) (hne : res ≠ 0) :
    (s.gatedR src q off f).2 = s.order src q off res := by
  rw [State.gatedR, State.gated, h]
  exact if_neg hne

/-- A write of a narrow RW register that the order point refuses leaves only the order's record. -/
theorem State.blockWrite_rw_refused {res w : Nat} (hr : regRow q off = some r) (hacc : r.acc = .rw) (hw : r.wide = false)
    (h : s.writeRes src q = res) (hne : res ≠ 0) : (s.blockWrite src q off w).2 = s.order src q off res := by
  simp only [State.blockWrite, hr, hacc, hw, Bool.not_false, if_true]
  exact State.gatedR_refused h hne

/-- A write of a staged register by a source that does not own the page leaves only the order's record. -/
theorem State.blockWrite_st_refused {w : Nat} (hr : regRow q off = some r) (hacc : r.acc = .st)
    (hl : (s.lock && src != .keeper) = false) (hn : (s.page q).pending = false) (hlim : isLimit q off = false)
    (ho : s.ownsOk src q = false) : (s.blockWrite src q off w).2 = s.order src q off 4 := by
  simp only [State.blockWrite, hr, hacc, State.stageOrder, hl, hn, hlim, ho]
  rfl

theorem State.writeRes_of_other (hl : (s.lock && src != .keeper) = false) (ho : s.ownsOk src q = false) :
    s.writeRes src q = 4 := by simp [State.writeRes, hl, ho]

theorem State.writeRes_of_lock (hl : s.lock = true) (hk : src ≠ .keeper) : s.writeRes src q = 5 := by
  simp [State.writeRes, hl, hk]

@[simp] theorem State.page_toBmc (s : State) (e : EvRec) (x : Nat) : (s.toBmc e).page x = s.page x := by
  rw [State.toBmc]
  split <;> rfl

@[simp] theorem State.page_log (s : State) (a b c d e f x : Nat) : (s.log a b c d e f).page x = s.page x :=
  State.page_toBmc s _ x

theorem State.own_order (h : swf pageDflt s.pages = true) (src : Source) (q off res x : Nat) :
    ((s.order src q off res).page x).own = (s.page x).own := by
  rw [State.order]
  split
  · exact (congrArg PageSt.own (State.page_log _ _ _ _ _ _ _ x)).trans (State.own_noteOrder h src q x res)
  · exact State.own_noteOrder h src q x res

theorem State.own_setResult (h : swf pageDflt s.pages = true) (src : Source) (q code : Nat) (acc : Bool) (x : Nat) :
    ((s.setResult src q code acc).page x).own = (s.page x).own := by
  rw [State.setResult, State.page_updPage s h]
  split
  · subst x
    rfl
  · rfl

/-- Settles O13: the write is refused with 4 whatever the register's access, and a refusal touches no owner. -/
theorem notOwnerRefused : Obligations.NotOwnerRefused := by
  unfold Obligations.NotOwnerRefused
  intro src o p off q r v s i hp h0 h1 ha hq hr hlim hw hacc hn hl hown hne
  have ho : s.ownsOk src q = false := State.ownsOk_of_other (by simp [hown]) (by simpa [hown] using hne)
  have hres : (s.blockWrite src q off (v.toNat % 2 ^ 32)).2 = s.order src q off 4 := by
    cases hacc with
    | inl hrw => exact State.blockWrite_rw_refused hr hrw hw (State.writeRes_of_other hl ho) (by decide)
    | inr hst => exact State.blockWrite_st_refused hr hst hl hn hlim ho
  exact .of_within ((exec_registerWrite_block hp h0 h1 ha hq).trans (congrArg _ hres)) Within.refl.order
    ⟨rfl, State.own_order i.pages src q off 4⟩

/-! ### Locked pages -/

theorem State.commitAt_locked {check : Bool} {seq : Nat} (hl : s.lock = true) (hk : src ≠ .keeper) :
    (s.commitAt src q check seq).2 = (s.setResult src q 5 false).order src q 0x018 5 := by
  simp [State.commitAt, hl, hk]

theorem State.claimAt_locked (hl : s.lock = true) (hk : src ≠ .keeper) : (s.claimAt src q).2 = s.order src q 0x020 5 := by
  simp [State.claimAt, hl, hk]

theorem State.releaseAt_locked (hl : s.lock = true) (hk : src ≠ .keeper) : (s.releaseAt src q).2 = s.order src q 0x020 5 := by
  simp [State.releaseAt, hl, hk]

/-- An order that leaves only its record touches no owner. -/
theorem runs_order {c : Instr} {res : Nat} (i : s.Inv) (hex : exec c s = .next (s.order src q off res)) :
    Runs c s [.pages, .ev, .out] fun t => ∀ x, (t.page x).own = (s.page x).own :=
  .of_within hex Within.refl.order (State.own_order i.pages src q off res)

/-- Settles O60: each of the four orders is refused with 5. -/
theorem lockedPages : Obligations.LockedPages := by
  unfold Obligations.LockedPages
  intro src p q off r v check seq s i hk hl hp hq h0 h1 ha hr hacc hw _ _ _
  refine ⟨?write, ?commit, ?claim, ?release⟩
  case write =>
    exact runs_order i ((exec_registerWrite_block hp h0 h1 ha hq).trans
      (congrArg _ (State.blockWrite_rw_refused hr hacc hw (State.writeRes_of_lock hl hk) (by decide))))
  case commit =>
    refine .of_within ((exec_pageCommit hp hq).trans (congrArg _ (State.commitAt_locked hl hk)))
      Within.refl.setResult.order fun x => ?_
    rw [State.own_order (s := s.setResult src q 5 false) (State.updPage_pages_wf i.pages q _), State.own_setResult i.pages]
  case claim => exact runs_order i ((exec_pageClaim hp hq).trans (congrArg _ (State.claimAt_locked hl hk)))
  case release => exact runs_order i ((exec_pageRelease hp hq).trans (congrArg _ (State.releaseAt_locked hl hk)))

end

section

variable {s u v w : State} {site cyc : Nat}

/-! ### The passes and the weight packets of an M tile (R123 to R131) -/

theorem exec_pass {w0 : DWord} {rec_ : BitVec 128} {ups : List Upset} {l : Launch} (hm : isKind .m site = true)
    (hrun : s.mayRun site = true) (hp : pPlanes rec_.toNat ≠ 0) (hf : pNfeat rec_.toNat ≠ 0) (hu : u = s.mAdvance site cyc)
    (hl : u.launchAt site = some l) :
    exec (.pass site w0 rec_ cyc ups) s = .next
      ((u.updM site fun t => { t with
        more := t.more ++ [passStart (anchored rec_ l) (u.physDest (w0.toNat % 65536)) (s.taskAt site) l.cmask cyc
          t.nLoads t.nPass (some l.id) (some l.step) ups], nPass := t.nPass + 1 }).runM site cyc) := by
  change execPass site w0 rec_ cyc ups s = _
  simp only [execPass, onKind_next hm, hrun, Bool.not_true, hp, hf, ← hu, hl]
  rfl

theorem exec_pass_empty {w0 : DWord} {rec_ : BitVec 128} {ups : List Upset} (hm : isKind .m site = true)
    (hrun : s.mayRun site = true) (h : pPlanes rec_.toNat = 0 ∨ pNfeat rec_.toNat = 0) :
    exec (.pass site w0 rec_ cyc ups) s = .next (s.mEvent site 6 0x0104 (s.taskAt site) 0 0 0 (s.stepAt site)) := by
  change execPass site w0 rec_ cyc ups s = _
  simp only [execPass, onKind_next hm, hrun, Bool.not_true, if_pos h]
  rfl

theorem exec_weightPacketIntake {pkt : MeshPkt} (hm : isKind .m site = true) (hrun : s.inRun site = true)
    (hvc : hVc (MeshPkt.hdr pkt) = 1) (h1 : 1 ≤ (MeshPkt.body pkt).length) (h12 : (MeshPkt.body pkt).length ≤ 12) :
    exec (.weightPacketIntake site pkt cyc) s = .next
      (((s.mAdvance site cyc).updM site fun t => { t with queue := t.queue ++ [{
        at_ := cyc, head := BitVec.ofNat 512 (MeshPkt.head pkt), beats := wpBody pkt, poison := MeshPkt.poisoned pkt, came := 0
        used := 0 }] }).runM site cyc) := by
  change execWeightPacketIntake site pkt cyc s = _
  have h0 : ¬(MeshPkt.body pkt).length = 0 := by omega
  have hlong : ¬12 < (MeshPkt.body pkt).length := by omega
  simp [execWeightPacketIntake, onKind_next hm, hrun, hvc, h0, hlong]

/-- Settles O14: the three commands at the tile's intake, case by case. -/
theorem mTileWork : Obligations.MTileWork := by
  unfold Obligations.MTileWork
  refine ⟨?pass, ?empty, ?weights⟩
  case pass =>
    intro site w0 rec_ cyc ups l s u hm hrun hp hf hu hl
    exact exec_pass hm hrun hp hf hu hl
  case empty =>
    intro site w0 rec_ cyc ups s hm hrun h
    exact exec_pass_empty hm hrun h
  case weights =>
    intro site pkt cyc s hm hrun hvc h1 h12
    exact exec_weightPacketIntake hm hrun hvc h1 h12

/-! ### The oldest group of an M tile (R136, R145, R149) -/

section
variable {fixed : Nat} {hit : Option (Nat × Tally)} {g : TGroup} {rest : List TGroup} {feats : List (List Tal)}
  {lost : List (Nat × Nat × Nat)}

/-- While the oldest group's last flit cannot leave, the tile only runs up to the cycle. -/
theorem exec_groupEmit_waits (hm : isKind .m site = true) (hu : u = (s.mAdvance site cyc).runM site cyc)
    (hg : (u.mtile site).groups = g :: rest) (hc : cyc < g.lastFlit) : exec (.groupEmit site cyc hit) s = .next u := by
  change execGroupEmit site cyc hit s = _
  simp only [execGroupEmit, onKind_next hm, ← hu, hg, if_pos hc]

/-- The oldest group leaves, poisoned where it failed a check or where its residue disagrees. -/
theorem exec_groupEmit (hm : isKind .m site = true) (hu : u = (s.mAdvance site cyc).runM site cyc)
    (hg : (u.mtile site).groups = g :: rest) (hc : g.lastFlit ≤ cyc)
    (hv : v = (if rest.isEmpty then u else u.mAdvance site (cyc + 1))) (hh : hitTally g.slot hit g.feats = (feats, fixed, lost))
    (hw : w = (v.updM site fun t => { t with groups := rest }).tallyEcc site fixed lost g.step) :
    exec (.groupEmit site cyc hit) s = .next
      (if (w.mtile site).groupFailed g then (w.sendGroup site g (feats.map fun f => f.map Tal.taint)).fenceM site
        else match badResidue feats with
          | none => w.sendGroup site g feats
          | some i =>
            ((w.csFail site { cyc, check := 2, col := i % 32, block := 0, word := csWord 2 0 (g.first + i / 32) 0 (i % 32)
                              group := g.num, pass := g.pass, task := g.task, launch := none, step := g.step }).sendGroup site g
              (taintFrom (i / 4 * 4) feats)).fenceM site) := by
  change execGroupEmit site cyc hit s = _
  simp only [execGroupEmit, onKind_next hm, ← hu, hg, if_neg (Nat.not_lt.2 hc), ← hv, hh, ← hw] <;> rfl

end

/-- One packet leaves for each feature. -/
theorem State.length_out_sendGroup (g : TGroup) (feats : List (List Tal)) :
    (s.sendGroup site g feats).out.length = s.out.length + feats.length := by
  simp [State.sendGroup, State.emits]

/-- Settles O15: the clauses are the branches of the group's emission. -/
theorem groupLeaves : Obligations.GroupLeaves := by
  unfold Obligations.GroupLeaves
  refine ⟨?sound, ?residue, ?failed, ?packets, ?waits⟩
  case sound =>
    intro site cyc fixed hit g rest feats lost s u v w hm hu hg hc hv hh hw hf hr
    rw [exec_groupEmit hm hu hg hc hv hh hw, hf, hr]
    rfl
  case residue =>
    intro site cyc i fixed hit g rest feats lost s u v w hm hu hg hc hv hh hw hf hr
    rw [exec_groupEmit hm hu hg hc hv hh hw, hf, hr]
    rfl
  case failed =>
    intro site cyc fixed hit g rest feats lost s u v w hm hu hg hc hv hh hw hf
    rw [exec_groupEmit hm hu hg hc hv hh hw, hf]
    rfl
  case packets =>
    intro site slot g feats s
    exact ⟨State.length_out_sendGroup g feats, rfl⟩
  case waits =>
    intro site cyc hit g rest s u hm hu hg hc
    exact exec_groupEmit_waits hm hu hg hc

/-! ### Loads of an M tile (R157, R158) -/

section
variable {w0 rec_ : DWord}

theorem loadBad_of_no_planes {g : LdGeom} {r : Nat} (h : ldPlanes r = 0) : loadBad g r = 1 := if_pos h

theorem exec_load_no_planes (hm : isKind .m site = true) (hrun : s.mayRun site = true) (h : ldPlanes rec_.toNat = 0) :
    exec (.load site w0 rec_) s = .next
      ((s.updM site fun t => t.poisonSet (ldSet rec_.toNat)).mEvent site 6 0x0104 (s.taskAt site) 1 0 0 (s.stepAt site)) := by
  change execLoad site w0 rec_ s = _
  simp only [execLoad, onKind_next hm, hrun, Bool.not_true, loadBad_of_no_planes h]
  rfl

theorem exec_load_geometry (hm : isKind .m site = true) (hrun : s.mayRun site = true)
    (h : loadBad (geomOf (s.regN site)) rec_.toNat = 2) :
    exec (.load site w0 rec_) s = .next
      ((s.updM site fun t => t.poisonSet (ldSet rec_.toNat)).mEvent site 7 0x0105 (s.taskAt site) (s.regN site 0x070) 0 0
        (s.stepAt site)) := by
  change execLoad site w0 rec_ s = _
  simp only [execLoad, onKind_next hm, hrun, Bool.not_true, h]
  rfl

/-- The load as it waits in its tile's queue. -/
def State.newLoad (s : State) (site : Nat) (w0 rec_ : DWord) : MLoad :=
  { rec_, cm := bit w0.toNat 1, rm := bit w0.toNat 0, cmask := (s.maskOf site).1, rmask := (s.maskOf site).2.1
    d0 := (s.maskOf site).2.2.1, d1 := (s.maskOf site).2.2.2, task := s.taskAt site, step := s.stepAt site
    idx := (s.mtile site).nLoads, passes := (s.mtile site).nPass, started := false, bad := false }

theorem exec_load (hm : isKind .m site = true) (hrun : s.mayRun site = true)
    (h : loadBad (geomOf (s.regN site)) rec_.toNat = 0) :
    exec (.load site w0 rec_) s = .next (s.updM site fun t => { t with
      nLoads := t.nLoads + 1, loads := t.loads ++ [s.newLoad site w0 rec_] }) := by
  change execLoad site w0 rec_ s = _
  simp only [execLoad, onKind_next hm, hrun, Bool.not_true, h]
  rfl

/-- Settles O16: a load that R158 refuses poisons its set, every other one joins the queue. -/
theorem loadQueues : Obligations.LoadQueues := by
  unfold Obligations.LoadQueues
  refine ⟨?joins, ?planes, ?geometry⟩
  case joins =>
    intro site w0 rec_ s i hm hrun h
    refine .of_within (exec_load hm hrun h) Within.refl.updM ⟨⟨s.newLoad site w0 rec_, ?_⟩, ?_, fun k hk => ?_⟩
    · rw [State.mtile_updM s i.mt, if_pos rfl]
      exact ⟨rfl, rfl, rfl, rfl, rfl, rfl, rfl, rfl, rfl⟩
    · rw [State.mtile_updM s i.mt, if_pos rfl]
    · rw [State.mtile_updM s i.mt, if_neg hk]
  case planes =>
    intro site w0 rec_ s hm hrun h
    exact exec_load_no_planes hm hrun h
  case geometry =>
    intro site w0 rec_ s hm hrun h
    exact exec_load_geometry hm hrun h

end

/-! ### Plane loads (R114 to R120) -/

section
variable {l : MLoad} {rest : List MLoad}

theorem exec_planeLoadStart_waits (hm : isKind .m site = true) (hu : u = (s.mAdvance site cyc).runM site cyc)
    (hl : (u.mtile site).loads = l :: rest) (hs : l.started = false)
    (hw : (u.mtile site).reads l = true ∨ cyc < (u.mtile site).freeAt (ldSet l.rec_.toNat)) :
    exec (.planeLoadStart site cyc) s = .next u := by
  change execPlaneLoadStart site cyc s = _
  have hheld : (l.started || (u.mtile site).reads l || decide (cyc < (u.mtile site).freeAt (ldSet l.rec_.toNat))) = true := by
    simpa [hs] using hw
  simp only [execPlaneLoadStart, onKind_next hm, ← hu, hl, hheld, if_true]

/-- A load that starts shows in LOAD_CUR and asks for its rows; one whose rows its geometry places outside is logged. -/
theorem exec_planeLoadStart (hm : isKind .m site = true) (hu : u = (s.mAdvance site cyc).runM site cyc)
    (hl : (u.mtile site).loads = l :: rest) (hs : l.started = false) (hr : (u.mtile site).reads l = false)
    (hf : (u.mtile site).freeAt (ldSet l.rec_.toNat) ≤ cyc)
    (hv : v = (u.setReg64 site 0x070 l.rec_.toNat).updM site (fun t =>
      { t.putSet (ldSet l.rec_.toNat) { t.set (ldSet l.rec_.toNat) with ready := false } with
        loads := { l with started := true } :: rest, got := [] })) :
    exec (.planeLoadStart site cyc) s = .next
      ((if v.loadRows l (geomOf (v.regN site)) then v.mEvent site 7 0x0105 l.task (v.regN site 0x070) 0 0 l.step else v).loadReads
        site l cyc) := by
  change execPlaneLoadStart site cyc s = _
  have hfree : (l.started || (u.mtile site).reads l || decide (cyc < (u.mtile site).freeAt (ldSet l.rec_.toNat))) = false := by
    simpa [hs, hr] using hf
  simp only [execPlaneLoadStart, onKind_next hm, ← hu, hl, hfree, ← hv]
  rfl

theorem exec_planeLoadDone_waits (hm : isKind .m site = true) (hl : (s.mtile site).loads = l :: rest) (hs : l.started = true)
    (hu : u = s.loadRun site (cyc - 4)) (hc : u.loadCame site l = false) : exec (.planeLoadDone site cyc) s = .next u := by
  change execPlaneLoadDone site cyc s = _
  simp only [execPlaneLoadDone, onKind_next hm, hl, hs, Bool.not_true, ← hu, hc]
  rfl

theorem exec_planeLoadDone (hm : isKind .m site = true) (hl : (s.mtile site).loads = l :: rest) (hs : l.started = true)
    (hu : u = s.loadRun site (cyc - 4)) (hc : u.loadCame site l = true) (hv : v = u.mAdvance site cyc) :
    exec (.planeLoadDone site cyc) s = .next
      ((v.updM site fun t => { t.putSet (ldSet l.rec_.toNat) (v.loadSet site l) with loads := rest, got := [] }).runM site cyc) := by
  change execPlaneLoadDone site cyc s = _
  simp only [execPlaneLoadDone, onKind_next hm, hl, hs, Bool.not_true, ← hu, hc, ← hv]
  rfl

theorem State.length_planes_loadSet (l : MLoad) : (s.loadSet site l).planes.length = ldPlanes l.rec_.toNat := by
  simp [State.loadSet]

/-- Settles O17: a load waits, starts and completes as its tile's state says. -/
theorem planeLoads : Obligations.PlaneLoads := by
  unfold Obligations.PlaneLoads
  refine ⟨?starts, ?held, ?done, ?waits, ?outside⟩
  case starts =>
    intro site cyc l rest s u v hm hu hl hs hr hf hv hrows
    rw [exec_planeLoadStart hm hu hl hs hr hf hv, hrows]
    rfl
  case held =>
    intro site cyc l rest s u hm hu hl hs hw
    exact exec_planeLoadStart_waits hm hu hl hs hw
  case done =>
    intro site cyc l rest s u v hm hl hs hu hc hv
    exact ⟨exec_planeLoadDone hm hl hs hu hc hv, rfl, State.length_planes_loadSet l⟩
  case waits =>
    intro site cyc l rest s u hm hl hs hu hc
    exact exec_planeLoadDone_waits hm hl hs hu hc
  case outside =>
    intro site cyc l rest s u v hm hu hl hs hr hf hv hrows
    rw [exec_planeLoadStart hm hu hl hs hr hf hv, hrows]
    rfl

end

end

section

variable {s u v w : State} {site : Nat}

/-! ### Operations of an S tile (R107, R173 to R195) -/

section
variable {w0 w1 : DWord} {op : SOp} {flips : List Flip} {anchor : Int} {live : Nat → Bool} {x xs : List SElem} {t : STile} {ev : SEval}

theorem exec_sfn_empty (hk : isKind .s site = true) (hrun : s.mayRun site = true) (hn : bits w0.toNat 47 31 = 0)
    (hop : bits w0.toNat 55 48 = sopCode op) :
    exec (.sfn site w0 w1 op flips) s = .next (s.raise site 3 0x0304 (s.taskAt site) (sopCode op) 0 0 (s.stepAt site)) := by
  change execSfn site w0 w1 op flips s = _
  simp [execSfn, onKind_next hk, hrun, hn, hop]

/-- An operation reads its vector, masks it and applies itself. -/
theorem exec_sfn {n : Nat} (hk : isKind .s site = true) (hrun : s.mayRun site = true) (hn : n = bits w0.toNat 47 31) (h1 : 1 ≤ n)
    (h2 : n ≤ 65536) (hop : bits w0.toNat 55 48 = sopCode op)
    (hu : u = { s with mem := { s.mem with sst := disturb sstDflt s.mem.sst flips } })
    (hx : u.sVector site (bits w1.toNat 63 53) (bits w1.toNat 41 38) n (u.sAnchor site w1.toNat) = (x, v)) :
    exec (.sfn site w0 w1 op flips) s = .next (v.sApply site w1.toNat op (u.sAnchor site w1.toNat) (v.sLive site w0.toNat)
      ((List.range n).map fun i => if v.sLive site w0.toNat i then nth (sElemF 0) x i else sElemF 0)) := by
  subst hn hu
  change execSfn site w0 w1 op flips s = _
  have hgo : (!s.mayRun site || decide (65536 < bits w0.toNat 47 31) || bits w0.toNat 55 48 != sopCode op) = false := by
    simp [hrun, hop, h2]
  simp only [execSfn, onKind_next hk, hgo, if_neg (Nat.one_le_iff_ne_zero.1 h1), hx]
  rfl

theorem nth_eq_default {α : Type} {d : α} {l : List α} (h : ∀ b ∈ l, b = d) (i : Nat) : nth d l i = d := by
  induction l generalizing i with
  | nil => rfl
  | cons b l ih =>
    cases i with
    | zero => exact h b List.mem_cons_self
    | succ i => exact ih (fun b hb => h b (List.mem_cons_of_mem _ hb)) i

/-- Where no operand overflowed there is nothing to report. -/
theorem State.sOvf_of_none {task : Nat} {l : List Bool} (h : ∀ b ∈ l, b = false) : s.sOvf site task l = s := by
  have hno : ((List.range l.length).find? fun i => nth false l i) = none :=
    List.find?_eq_none.2 fun i _ => by simp [nth_eq_default h i]
  rw [State.sOvf, hno]

/-- An operation that is not shadowed and gives finite results: its rows, its steer words and, unless poisoned, its tokens. -/
theorem State.sApply_finite {w1 : Nat} {poison : Bool} (ho : xs.any (·.ovf) = false)
    (he : ev = evalOp (cleanOp op) (xs.map (·.c)) live) (hb : ev.bad = false)
    (hp : (xs.any (·.poison) || sopPoisoned op xs.length live) = poison) (ht : (s.stile site).before (s.stepAt site) = (false, t))
    (hw : w = ((s.updS site fun _ => t).wrapReg site 0x04C).sWrite site (s.taskAt site) w1 anchor op xs ev poison) :
    s.sApply site w1 op anchor live xs =
      if poison then (if ev.toks.isEmpty then w else w.emit (.sval site (shadowOut w1 anchor op xs ev poison))).sendSteers site op
        ev.steer
      else ((if ev.toks.isEmpty then w else w.emit (.sval site (shadowOut w1 anchor op xs ev poison))).sendSteers site op
        ev.steer).addToks (s.stepAt site) (sopWhere op).1 ev.toks := by
  have hovf : s.sOvf site (s.taskAt site) (xs.map fun x => x.ovf && !(sopCode op == 0x17 && x.direct)) = s := by
    refine State.sOvf_of_none fun b hb => ?_
    obtain ⟨e, he, rfl⟩ := List.mem_map.1 hb
    rw [Bool.eq_false_iff.2 (List.any_eq_false.1 ho e he), Bool.false_and]
  simp only [State.sApply, hovf, ← he, hb, hp, Bool.or_false, ht, Bool.false_eq_true, if_false, ← hw]

/-- Settles O19: the operation applied to its masked vector, with and without poison. -/
theorem sfnResult : Obligations.SfnResult := by
  unfold Obligations.SfnResult
  refine ⟨?applies, ?clean, ?empty, ?frame, ?poisoned⟩
  case applies =>
    intro site n w0 w1 op flips x s u v hk hrun hn h1 h2 hop hu hx
    exact exec_sfn hk hrun hn h1 h2 hop hu hx
  case clean =>
    intro site n w0 w1 op s v w x xs t ev live hk hrun hn h1 h2 hop hx hlive hxs hp ho hsp he hb ht hw
    have hu : s = { s with mem := { s.mem with sst := disturb sstDflt s.mem.sst [] } } := rfl
    rw [exec_sfn hk hrun hn h1 h2 hop hu hx, ← hlive, ← hxs, State.sApply_finite ho he hb (by rw [hp, hsp]; rfl) ht hw]
    rfl
  case empty =>
    intro site w0 w1 op flips s hk hrun hn hop
    exact exec_sfn_empty hk hrun hn hop
  case frame =>
    intro site w0 w1 op flips s hk hrun hn h2 hop
    have hex := exec_sfn (w1 := w1) (flips := flips) hk hrun rfl (Nat.one_le_iff_ne_zero.2 hn) h2 hop rfl rfl
    exact ⟨_, hex, fun f hf => (exec_within _ s _ hex).same f (mask_testBit hf)⟩
  case poisoned =>
    intro site w1 op anchor live xs s w t ev ho he hb hp ht hw
    rw [State.sApply_finite ho he hb (by simpa using hp) ht hw]
    rfl

end

/-! ### Shadow runs (R195 to R198) -/

section
variable {out : SOut} {x : Shadow} {arb : Nat}

/-- A partner that agrees ends the shadow run. -/
theorem exec_shadowCompare_agrees (hk : isKind .s site = true)
    (hx : (s.stile site).shadows.find? (fun x => x.pout.isNone) = some x) :
    exec (.shadowCompare site x.out) s = .next
      ((s.updS site fun t => { t with shadows := updShadow (fun x => x.pout.isNone) (fun _ => none) t.shadows }).shadowDone
        x.step) := by
  change execShadowCompare site x.out s = _
  simp only [execShadowCompare, onKind_next hk, hx, if_true]

/-- A partner that disagrees is logged, and the arbiter is to run the operation. -/
theorem exec_shadowCompare_disagrees (hk : isKind .s site = true)
    (hx : (s.stile site).shadows.find? (fun x => x.pout.isNone) = some x) (hne : x.out ≠ out)
    (ha : s.arbiterOf site x.partner = some arb) (hu : u = (s.updS site fun t =>
      { t with shadows := (updShadow (fun x => x.pout.isNone) (fun x => some { x with pout := some out, arb := some arb })
        t.shadows) })) :
    exec (.shadowCompare site out) s = .next
      (((u.setReg site 0x05C (u.shadowWord 0 x (u.sRef arb))).setReg site 0x060 x.task).raise site 0 0x0301 x.task
        (((u.setReg site 0x05C (u.shadowWord 0 x (u.sRef arb))).setReg site 0x060 x.task).regN site 0x05C) 0 0
        (if x.step = 0 then none else some x.step)) := by
  change execShadowCompare site out s = _
  simp only [execShadowCompare, onKind_next hk, hx, if_neg hne, ha, Option.map_some, Option.getD_some, ← hu]

/-- The third run decides: the tiles outvoted are FENCED. -/
theorem exec_arbiterVerdict (hk : isKind .s site = true)
    (hx : (s.stile site).shadows.find? (fun x => x.pout.isSome && x.arb.isSome) = some x) (ha : x.arb = some arb)
    (hu : u = (s.updS site fun t => { t with shadows := (updShadow (fun x => x.pout.isSome && x.arb.isSome) (fun _ => none)
      t.shadows) })) (verdict : Nat) (hv : (if out = x.out then 0 else if x.pout = some out then 1 else 2) = verdict) :
    exec (.arbiterVerdict site out) s = .next
      ((if verdict = 0 then [x.partner] else if verdict = 1 then [site] else [site, x.partner, arb]).foldl
        (fun s k => s.fence k 0x0301) (u.setReg site 0x05C (u.shadowWord verdict x (u.sRef arb)))) := by
  change execArbiterVerdict site out s = _
  simp only [execArbiterVerdict, onKind_next hk, hx, ha, Option.getD_some, ← hu, hv]

theorem State.regN_incReg (h : swf regDflt s.regs = true) (p off : Nat) :
    (s.incReg p off).regN p off = satInc (s.regN p off) % 2 ^ 32 := by
  rw [State.incReg, State.regN, State.reg_setReg s h, if_pos rfl]
  exact BitVec.toNat_ofNat ..

/-- A shadow run that stalls is marked, and its partner counts it. -/
theorem exec_shadowStall (hk : isKind .s site = true)
    (hx : (s.stile site).shadows.find? (fun x => x.pout.isNone && !x.stalled) = some x) :
    exec (.shadowStall site) s = .next
      ((s.updS site fun t => { t with shadows := (updShadow (fun x => x.pout.isNone && !x.stalled)
        (fun x => some { x with stalled := true }) t.shadows) }).incReg x.partner 0x064) := by
  change execShadowStall site s = _
  simp only [execShadowStall, onKind_next hk, hx]

/-- Settles O20: the comparison, the three verdicts and the stall. -/
theorem shadowRuns : Obligations.ShadowRuns := by
  unfold Obligations.ShadowRuns
  refine ⟨?agrees, ?disagrees, ?partner, ?own, ?allThree, ?stalls⟩
  case agrees =>
    intro site x s hk hx
    exact .of_within (exec_shadowCompare_agrees hk hx) Within.refl.updS.shadowDone rfl
  case disagrees =>
    intro site arb out x s u hk hx hne ha hu
    exact exec_shadowCompare_disagrees hk hx hne ha hu
  case partner =>
    intro site arb out x s u hk hx ha ho hu
    exact exec_arbiterVerdict hk hx ha hu 0 (if_pos ho)
  case own =>
    intro site arb out x s u hk hx ha ho hp hu
    exact exec_arbiterVerdict hk hx ha hu 1 (by rw [if_neg ho, if_pos hp])
  case allThree =>
    intro site arb out x s u hk hx ha ho hp hu
    rw [exec_arbiterVerdict hk hx ha hu 2 (by rw [if_neg ho, if_neg hp]), if_neg (by decide), if_neg (by decide)]
    simp only [List.foldl_cons, List.foldl_nil]
  case stalls =>
    intro site x s i hk hx
    refine .of_within (exec_shadowStall hk hx) Within.refl.updS.incReg ⟨?_, fun k hk => ?_, ?_⟩
    · exact State.regN_incReg (s := s.updS site _) i.regs x.partner 0x064
    · exact sget_sset_other (by simpa using hk)
    · rw [State.incReg, State.stile_setReg_other, State.stile_updS s i.st, if_pos rfl]

end

end

section

variable {s t u : State} {site port slot cyc : Nat}

/-! ### Flits at a router's inputs (R229, R270, R271) -/

section
variable {f : Flit} {cr : BitVec 4}

/-- An open link's flit comes in after the word's credit. -/
theorem exec_flitReceive (ha : isSite site = true) (hp : portExists site port = true) (hh : s.physHole site = false)
    (hs : isSeamPort site port = false) (hu : u = (s.meshTo site cyc).takeCredit site port cr) :
    exec (.flitReceive site port (.flit f cr) cyc) s = .next ((u.flitIn site port cyc f).sinkRetry site) := by
  change execFlitReceive site port (.flit f cr) cyc s = _
  have hopen : ¬isSeamPort site port = true := by simp [hs]
  rw [execFlitReceive, onUnit_next (by rw [ha, hp]; rfl), if_neg (by simp [hh]), State.takeWord, if_neg hopen, hu]

theorem State.flitIn_head (ht : s.takes site port f = true) (hg : fGood f = true) (hf : fType f = 1) :
    s.flitIn site port cyc f = (((s.updR site fun r => { r with crcRun := serase r.crcRun port }).crossed site port
      (fVc f * 2 + b2n (fEsc f))).headIn site port cyc f) := by
  simp [State.flitIn, ht, hg, hf]

theorem State.flitIn_body (ht : s.takes site port f = true) (hg : fGood f = true) (hf : fType f = 2) :
    s.flitIn site port cyc f = (((s.updR site fun r => { r with crcRun := serase r.crcRun port }).crossed site port
      (fVc f * 2 + b2n (fEsc f))).bodyIn site port cyc f true) := by
  simp [State.flitIn, ht, hg, hf]

/-- A good flit that is idle or finds no room only ends the port's run of failures. -/
theorem State.flitIn_not_taken (ht : s.takes site port f = false ∨ (fType f ≠ 1 ∧ fType f ≠ 2)) (hg : fGood f = true) :
    s.flitIn site port cyc f = s.updR site fun r => { r with crcRun := serase r.crcRun port } := by
  obtain hroom | ⟨hhead, hbody⟩ := ht
  · simp [State.flitIn, hroom, hg]
  · simp [State.flitIn, hg, hhead, hbody]

theorem State.flitIn_bad_head (hg : fGood f = false) (hf : fType f = 1) :
    s.flitIn site port cyc f = ((((s.crcFail site port (fVc f)).crossed site port (fVc f * 2 + b2n (fEsc f))).cutLane site
      (laneKey port f)).dropLane site (laneKey port f)) := by
  simp [State.flitIn, hg, hf]

theorem State.flitIn_bad_body (ht : s.takes site port f = true) (hg : fGood f = false) (hf : fType f = 2) :
    s.flitIn site port cyc f =
      ((s.crcFail site port (fVc f)).crossed site port (fVc f * 2 + b2n (fEsc f))).bodyIn site port cyc f false := by
  simp [State.flitIn, ht, hg, hf]

theorem State.flitIn_bad_not_taken (hg : fGood f = false) (hf : fType f ≠ 1)
    (ht : s.takes site port f = false ∨ fType f ≠ 2) : s.flitIn site port cyc f = s.crcFail site port (fVc f) := by
  obtain hroom | hbody := ht
  · simp [State.flitIn, hg, hf, hroom]
  · simp [State.flitIn, hg, hf, hbody]

end

/-- Settles O22: each clause is one branch of a flit's arrival. -/
theorem flitsArrive : Obligations.FlitsArrive := by
  unfold Obligations.FlitsArrive
  refine ⟨?head, ?body, ?badHead, ?badBody, ?notTaken, ?badNotTaken⟩
  case head =>
    intro site port cyc f cr s u ha hp hh hs hu ht hg hf
    rw [exec_flitReceive ha hp hh hs hu, State.flitIn_head ht hg hf]
  case body =>
    intro site port cyc f cr s u ha hp hh hs hu ht hg hf
    rw [exec_flitReceive ha hp hh hs hu, State.flitIn_body ht hg hf]
  case badHead =>
    intro site port cyc f cr s u ha hp hh hs hu hg hf
    rw [exec_flitReceive ha hp hh hs hu, State.flitIn_bad_head hg hf]
  case badBody =>
    intro site port cyc f cr s u ha hp hh hs hu ht hg hf
    rw [exec_flitReceive ha hp hh hs hu, State.flitIn_bad_body ht hg hf]
  case notTaken =>
    intro site port cyc f cr s u ha hp hh hs hu ht hg
    rw [exec_flitReceive ha hp hh hs hu, State.flitIn_not_taken ht hg]
  case badNotTaken =>
    intro site port cyc f cr s u ha hp hh hs hu hg hf ht
    rw [exec_flitReceive ha hp hh hs hu, State.flitIn_bad_not_taken hg hf ht]

/-! ### Timers of the mesh (R262, R273, R296) -/

theorem exec_linkSilence (ha : isSite site = true) (h1 : 1 ≤ port) (hp : portExists site port = true)
    (hh : s.physHole site = false) : exec (.linkSilence site port) s = .next (s.linkDown site port 1) := by
  change execLinkSilence site port s = _
  rw [execLinkSilence, onUnit_next (by simp [ha, h1, hp]), if_neg (by simp [hh])]

theorem exec_combineWindowExpire_ends {c : CSlot} (ha : isSite site = true) (hn : slot < 4) (hu : u = s.meshTo site cyc)
    (hc : sfind (u.router site).slots slot = some c) (hd : c.deadline ≤ cyc) :
    exec (.combineWindowExpire site slot cyc) s = .next
      ((u.updR site fun r => { r with slots := serase r.slots slot }).sendWhole site c.pkt c.esc cyc) := by
  change execCombineWindowExpire site slot cyc s = _
  rw [execCombineWindowExpire, onUnit_next (by simp [ha, hn])]
  simp only [← hu, hc, if_neg (Nat.not_lt.2 hd)]

/-- A slot that is free, or whose window still runs, stays. -/
theorem exec_combineWindowExpire_waits (ha : isSite site = true) (hn : slot < 4) (hu : u = s.meshTo site cyc)
    (hd : (sfind (u.router site).slots slot).all (fun c => decide (cyc < c.deadline)) = true) :
    exec (.combineWindowExpire site slot cyc) s = .next u := by
  change execCombineWindowExpire site slot cyc s = _
  rw [execCombineWindowExpire, onUnit_next (by simp [ha, hn])]
  simp only [← hu]
  cases hc : sfind (u.router site).slots slot with
  | none => rfl
  | some c =>
    rw [hc] at hd
    exact congrArg _ (if_pos (by simpa using hd))

theorem exec_deadlockSuspect {comb : Nat} (hc : comb < 24) (ht : s.tasksPending comb ≠ 0)
    (hu : u = (List.range 120).foldl (fun s p => (s.flag (pgRouter (mkSite comb p)) 9).updR (mkSite comb p) Router.snap) s) :
    exec (.deadlockSuspect comb) s = .next
      ((u.forbid (pgRouter (mkSite comb 0)) 0x050B comb (u.epochOf comb) (s.tasksPending comb) comb none).haltComb comb) := by
  change execDeadlockSuspect comb s = _
  rw [execDeadlockSuspect, onUnit_next (decide_eq_true hc)]
  simp only [if_neg ht, ← hu]

/-- Settles O23: a silence, the end of a window and a comb without progress. -/
theorem meshTimers : Obligations.MeshTimers := by
  unfold Obligations.MeshTimers
  refine ⟨?silence, ?ends, ?waits, ?suspect⟩
  case silence =>
    intro site port s ha h1 hp hh
    exact exec_linkSilence ha h1 hp hh
  case ends =>
    intro site slot cyc c s u ha hn hu hc hd
    exact exec_combineWindowExpire_ends ha hn hu hc hd
  case waits =>
    intro site slot cyc s u ha hn hu hd
    exact exec_combineWindowExpire_waits ha hn hu hd
  case suspect =>
    intro comb s u hc ht hu
    exact exec_deadlockSuspect hc ht hu

/-! ### Sinks and seals (R265, R266, R275) -/

section
variable {pkt : MeshPkt} {c n : ChunkAcc} {e : Nat}

theorem exec_sinkChunkReceive (ha : isSite site = true) (ho : s.portOpenFor site 0 = true)
    (hf : s.sinkFull site (chunkOf pkt) = false) :
    exec (.sinkChunkReceive site pkt) s = .next ((s.sinkChunk site (chunkOf pkt)).sinkRetry site) := by
  change execSinkChunkReceive site pkt s = _
  rw [execSinkChunkReceive, onUnit_next ha, if_neg (by simp [ho]), if_neg (by simp [hf])]

theorem exec_sinkChunkReceive_full (ha : isSite site = true) (ho : s.portOpenFor site 0 = true)
    (hf : s.sinkFull site (chunkOf pkt) = true) :
    exec (.sinkChunkReceive site pkt) s = .next (s.updR site fun r => { r with waiting := r.waiting ++ [pkt] }) := by
  change execSinkChunkReceive site pkt s = _
  rw [execSinkChunkReceive, onUnit_next ha, if_neg (by simp [ho]), if_pos hf]

/-- A chunk that a sink's entry takes: it waits for contributors, or completes, unless it has more than the entry expects. -/
theorem State.sinkChunk_eq (hs : s.sinkFor site c.red = some e) (hoff : c.off < seChunks e)
    (hnew : (s.router site).doneCh.contains (c.red, c.off) = false)
    (hn : n = ((s.router site).accOf c).elim c (ChunkAcc.add · c)) : s.sinkChunk site c =
      if n.contrib < seExpect e then
        s.updR site fun r => { r with acc := (r.acc.filter fun x => !(x.red == c.red && x.off == c.off)) ++ [n] }
      else if n.contrib = seExpect e then
        if n.agrees then (s.sinkWrite site e c.off (n.rows (!n.agrees))).chunkDone site e c.red c.off
        else ((s.sinkWrite site e c.off (n.rows (!n.agrees))).chunkDone site e c.red c.off).redFail site 0 c.red c.off
      else ((s.sinkWrite site e c.off (n.rows true)).chunkDone site e c.red c.off).redFail site 1 c.red c.off := by
  have hacc : (match (s.router site).accOf c with
    | some x => x.add c
    | none => c) = n := by
    rw [hn]
    cases (s.router site).accOf c <;> rfl
  simp only [State.sinkChunk, hs, if_neg (Nat.not_le.2 hoff), hnew, ← hacc] <;> rfl

/-- Where nothing waits there is nothing to try again. -/
theorem State.sinkRetry_of_nil (h : (s.router site).waiting = []) : s.sinkRetry site = s := by
  rw [State.sinkRetry, h]
  rfl

end

section
variable {dest : BitVec 16} {flow : BitVec 12}

theorem exec_sealFlow_none (ha : isSite site = true)
    (hf : (s.router site).flows.find? (fun f => f.dest == dest.toNat && f.flow == flow.toNat && f.guard) = none) :
    exec (.sealFlow site dest flow) s = .next s := by
  change execSealFlow site dest flow s = _
  rw [execSealFlow, onUnit_next ha, hf]

theorem State.useFlow_next {d k step : Nat} {f : Flow}
    (hf : (s.router site).flows.find? (fun f => f.dest == d && f.flow == k && f.guard) = some f) :
    (s.useFlow site d k step true).1 = f.next := by
  have hp : (fun f : Flow => f.dest == d && f.flow == k && f.guard == true) = fun f => f.dest == d && f.flow == k && f.guard := by
    simp
  simp only [State.useFlow, hp, hf]

theorem exec_sealFlow {f : Flow} (ha : isSite site = true)
    (hf : (s.router site).flows.find? (fun f => f.dest == dest.toNat && f.flow == flow.toNat && f.guard) = some f) :
    exec (.sealFlow site dest flow) s = .next
      ((s.useFlow site dest.toNat flow.toNat f.step true).2.inject site (mkPkt (mkHdr dest.toNat
        ((s.useFlow site dest.toNat flow.toNat f.step true).2.ownDest site) 3
        ((s.useFlow site dest.toNat flow.toNat f.step true).2.epochOf (siteComb site)) 1 1 2 flow.toNat f.next) 0 [])) := by
  change execSealFlow site dest flow s = _
  rw [execSealFlow, onUnit_next ha, hf]
  simp only [State.useFlow_next hf]
  rfl

end

/-- Settles O24: a chunk waits, accumulates or completes; a seal uses its flow once more. -/
theorem sinksAndSeals : Obligations.SinksAndSeals := by
  unfold Obligations.SinksAndSeals
  refine ⟨?full, ?lacks, ?completes, ?frame, ?sealed, ?noFlow⟩
  case full =>
    intro site pkt s ha ho hf
    exact exec_sinkChunkReceive_full ha ho hf
  case lacks =>
    intro site e pkt c n s i ha ho hc hf hs hoff hnew hn hless hnone
    subst hc
    have hacc : (s.sinkChunk site (chunkOf pkt)).sinkRetry site = s.updR site fun r => { r with
        acc := (r.acc.filter fun x => !(x.red == (chunkOf pkt).red && x.off == (chunkOf pkt).off)) ++ [n] } := by
      rw [State.sinkChunk_eq hs hoff hnew hn, if_pos hless, State.sinkRetry_of_nil]
      rw [State.router_updR s i.rt, if_pos rfl]
      exact hnone
    refine .of_within ((exec_sinkChunkReceive ha ho hf).trans (congrArg _ hacc)) Within.refl.updR ⟨?_, ?_, fun k hk => ?_⟩
    · rw [State.router_updR s i.rt, if_pos rfl]
    · rw [State.router_updR s i.rt, if_pos rfl]
    · rw [State.router_updR s i.rt, if_neg hk]
  case completes =>
    intro site e pkt c n s ha ho hc hf hs hoff hnew hn hall hag
    subst hc
    rw [exec_sinkChunkReceive ha ho hf, State.sinkChunk_eq hs hoff hnew hn, if_neg (Nat.not_lt.2 hall.ge), if_pos hall, hag]
    rfl
  case frame =>
    intro site pkt s ha
    have hex : exec (.sinkChunkReceive site pkt) s = .next _ := onUnit_next ha
    exact ⟨_, hex, fun f hf => (exec_within _ s _ hex).same f (mask_testBit hf)⟩
  case sealed =>
    intro site dest flow f s ha hf
    exact exec_sealFlow ha hf
  case noFlow =>
    intro site dest flow s ha hf
    exact exec_sealFlow_none ha hf

end

section

variable {s t u v r : State} {site port row cyc : Nat} {flips : List Flip}

/-! ### Scheduled accesses of a B tile (R316 to R318) -/

/-- A port that may present and is free in the bank cycle enters its rows. -/
theorem State.present_free {rows : List Nat} (hl : r.bLive site = true) (hp : r.portUsed site port = true)
    (hb : (r.btile site).busy port (cyc + 2) = false) : r.present site port rows cyc flips none =
      r.updB site fun t => { t with pipe := t.pipe ++ rows.map fun x => {
        cyc := cyc + 2, port, write := false, row := x, words := [], wmask := 0, flips,
        own := !r.portBank site port x, sel := false, job := none, load := none } } := by
  simp only [State.present, hl, hp, hb]
  rfl

theorem exec_scheduledRead {pair : Bool} (hk : schedOk site port row pair = true) (hr : r = s.bRun site cyc)
    (hl : r.bLive site = true) (hp : r.portUsed site port = true) (hb : (r.btile site).busy port (cyc + 2) = false) :
    exec (.scheduledRead site port row pair cyc flips) s = .next
      (r.updB site fun t => { t with pipe := t.pipe ++ (accessRows pair row).map fun x => {
        cyc := cyc + 2, port, write := false, row := x, words := [], wmask := 0, flips,
        own := !r.portBank site port x, sel := false, job := none, load := none } }) := by
  change execScheduledRead site port row pair cyc flips s = _
  rw [execScheduledRead, onUnit_next hk, ← hr, State.present_free hl hp hb]

/-- The access that a scheduled write of one row enters. -/
def writeAccess (port row cyc : Nat) (words : List RowWord) (own : Bool) : BAccess :=
  { cyc := cyc + 2, port, write := true, row, words, wmask := 0xFFFF, flips := [], own, sel := false, job := none, load := none }

theorem exec_scheduledWrite {words : List RowWord} (hk : schedOk site port row false = true) (hw : words.length = 16)
    (hr : r = s.bRun site cyc) (hl : r.bLive site = true) (hp : r.portUsed site port = true)
    (hb : (r.btile site).busy port (cyc + 2) = false) :
    exec (.scheduledWrite site port row words cyc) s = .next
      (if r.portBank site port row then (r.sideWords site row words 0).2.updB site fun t => { t with
          pipe := t.pipe ++ [writeAccess port row cyc (r.sideWords site row words 0).1 false] }
        else r.updB site fun t => { t with pipe := t.pipe ++ [writeAccess port row cyc [] true] }) := by
  have hpair : decide (16 < words.length) = false := decide_eq_false (by omega)
  have hall : words.take 16 = words := List.take_of_length_le hw.le
  change execScheduledWrite site port row words cyc s = _
  simp only [execScheduledWrite, hpair, onUnit_next hk, ← hr, hl, hp, hb]
  cases hbank : r.portBank site port row
  · simp [accessRows, nth, hbank, writeAccess]
  · simp [accessRows, nth, hbank, writeAccess, hall]

/-- Settles O25: a read enters every row of its access; a write stores its words as the side channel brings them, or is marked. -/
theorem scheduledAccess : Obligations.ScheduledAccess := by
  unfold Obligations.ScheduledAccess
  refine ⟨?read, ?write, ?refused⟩
  case read =>
    intro site port row cyc pair flips s r hk hr hl hp hb
    exact exec_scheduledRead hk hr hl hp hb
  case write =>
    intro site port row cyc words ws s r u hk hw hr hl hp hb hbank hu
    rw [exec_scheduledWrite hk hw hr hl hp hb, if_pos hbank, hu]
    rfl
  case refused =>
    intro site port row cyc words s r hk hw hr hl hp hb hbank
    rw [exec_scheduledWrite hk hw hr hl hp hb, if_neg (by simp [hbank])]
    rfl

/-! ### Requests at the tile port (R319, R320, R332, R336, R340) -/

section
variable {w : BWait}

theorem State.bCome_room (hr : (r.btile site).room w = true)
    (hw : (r.btile site).waiting.any (fun x => x.vc == w.vc && x.packet == w.packet) = false) :
    r.bCome site cyc w = r.bTake site cyc w := by
  simp only [State.bCome, hr, hw]
  rfl

/-- A request without room waits. -/
theorem State.bCome_full (hr : (r.btile site).room w = false) :
    r.bCome site cyc w = r.updB site fun t => { t with waiting := t.waiting ++ [w] } := by
  simp only [State.bCome, hr]
  rfl

end

section
variable {head : BitVec 512} {hdr : BitVec 128} {poison : Bool}

theorem exec_bRead (hk : isKind .b site = true) (hl : s.bLive site = true) (hw : bIsWrite head.toNat = false)
    (ho : bOp head.toNat ≠ 5) : exec (.bRead site head hdr poison cyc) s = .next ((s.bRun site cyc).bCome site cyc
      (.read head.toNat (hSrc hdr.toNat) (hLen hdr.toNat) (hVc hdr.toNat) (hEpoch hdr.toNat) poison none)) := by
  change execBRead site head hdr poison cyc s = _
  simp only [execBRead, onKind_next hk, hl, hw, if_neg ho]
  rfl

/-- A request whose OP is a write is no read. -/
theorem exec_bRead_write (hk : isKind .b site = true) (hw : bIsWrite head.toNat = true) :
    exec (.bRead site head hdr poison cyc) s = .next s := by
  change execBRead site head hdr poison cyc s = _
  simp [execBRead, onKind_next hk, hw]

theorem exec_partnerRead (hk : isKind .b site = true) (hp : port < 4) (hl : s.bLive site = true) (ho : bOp head.toNat = 5)
    (hpart : s.partnerOk site port (hVc hdr.toNat) (hSrc hdr.toNat) = true) :
    exec (.partnerRead site port head hdr poison cyc) s = .next ((s.bRun site cyc).bCome site cyc
      (.read head.toNat (hSrc hdr.toNat) (hLen hdr.toNat) (hVc hdr.toNat) (hEpoch hdr.toNat) poison (some port))) := by
  change execPartnerRead site port head hdr poison cyc s = _
  rw [execPartnerRead, onUnit_next (by simp [hk, hp])]
  simp only [hl, ho, hpart]
  rfl

/-- A request of rows that comes to a queue with room joins it. -/
theorem State.bCome_read {h src len vc e : Nat} {p : Option Nat} (hm : bMalformed h len = false) (hn : bRows h ≠ 0)
    (hroom : (r.btile site).reads.length < 8) (hw : (r.btile site).waiting.any (fun x => x.vc == vc && x.packet) = false) :
    r.bCome site cyc (.read h src len vc e poison p) = r.updB site fun t => { t with reads := t.reads ++ [
      ⟨bRow h, bRows h, bReply h, bRflow h, bTag h, p, bRow h, [], cyc + 1, poison, none⟩] } := by
  rw [State.bCome_room (by simp [BTile.room, hroom]) (by simpa [BWait.vc, BWait.packet] using hw), State.bTake, State.bEnqueue,
    if_neg (by simp [hm]), if_neg hn]

end

section
variable {pkt : MeshPkt}

theorem exec_bWrite (hk : isKind .b site = true) (hl : s.bLive site = true) (hr : bIsRead (MeshPkt.head pkt) = false)
    (ho : bOp (MeshPkt.head pkt) ≠ 6) :
    exec (.bWrite site pkt cyc) s = .next ((s.bRun site cyc).bCome site cyc (.write pkt none)) := by
  change execBWrite site pkt cyc s = _
  simp only [execBWrite, onKind_next hk, hl, hr, if_neg ho]
  rfl

/-- A request whose OP is a read is no write. -/
theorem exec_bWrite_read (hk : isKind .b site = true) (hr : bIsRead (MeshPkt.head pkt) = true) :
    exec (.bWrite site pkt cyc) s = .next s := by
  change execBWrite site pkt cyc s = _
  simp [execBWrite, onKind_next hk, hr]

theorem exec_partnerWrite (hk : isKind .b site = true) (hp : port < 4) (hl : s.bLive site = true)
    (ho : bOp (MeshPkt.head pkt) = 6) (hpart : s.partnerOk site port (hVc (MeshPkt.hdr pkt)) (hSrc (MeshPkt.hdr pkt)) = true) :
    exec (.partnerWrite site port pkt cyc) s = .next ((s.bRun site cyc).bCome site cyc (.write pkt (some port))) := by
  change execPartnerWrite site port pkt cyc s = _
  rw [execPartnerWrite, onUnit_next (by simp [hk, hp])]
  simp only [hl, ho, hpart]
  rfl

/-- The record of a write packet before its rows are held. -/
def writePkt (h : Nat) : BPkt := { noPkt with ack := bAck h, reply := bReply h, rflow := bRflow h, tag := bTag h }

/-- The rows of a write packet that finds room are held, where no bank mask refuses any of them. -/
theorem State.bCome_write {p : Option Nat} (hm : bMalformed (MeshPkt.head pkt) (hLen (MeshPkt.hdr pkt)) = false)
    (hn : bRows (MeshPkt.head pkt) ≠ 0) (hroom : bRows (MeshPkt.head pkt) ≤ (r.btile site).holdFree)
    (hw : (r.btile site).waiting.any (fun x => x.vc == hVc (MeshPkt.hdr pkt) && x.packet) = false)
    (hp : ∀ q ∈ p, ∀ x, r.portBank site q x = true) :
    r.bCome site cyc (.write pkt p) = r.bHoldRows site (hSrc (MeshPkt.hdr pkt)) (hEpoch (MeshPkt.hdr pkt)) cyc
        (pktRows (MeshPkt.head pkt) ((MeshPkt.body pkt).map fun f => { f with poison := f.poison || MeshPkt.poisoned pkt }))
        (bWmask (MeshPkt.head pkt)) p.isSome (writePkt (MeshPkt.head pkt)) := by
  rw [State.bCome_room (by simp [BTile.room, hroom]) (by simpa [BWait.vc, BWait.packet] using hw), State.bTake, State.bHoldPkt]
  cases p with
  | none => simp [writePkt, hm, hn]
  | some q => simp [writePkt, hm, hn, hp q rfl]

end

/-! ### The AREAD queue (R319, R338) -/

section
variable {q : BReadReq} {rest : List BReadReq} {l : List WordRead}

/-- What the request has read once it has presented its row. -/
def BReadReq.gotAfter (q : BReadReq) (l : List WordRead) : List (List Byte × Bool) :=
  q.got ++ (rowHalves l).map fun h => (h.1, h.2 || q.poison)

theorem got_append_eq : (q.got ++ (rowHalves l).map fun h => (h.1, h.2 || q.poison)) = q.gotAfter l := rfl

theorem length_gotAfter : (q.gotAfter l).length = (q.got ++ rowHalves l).length := by simp [BReadReq.gotAfter]

/-- The head request leaves the queue after its last row. -/
def State.readDone (s : State) (site : Nat) (q : BReadReq) (rest : List BReadReq) (cyc : Nat) : State :=
  s.updB site fun t => { t with
    claims := t.claims ++ [(cyc + 1, 5, q.row)], reads := rest.map fun x => { x with headAt := max x.headAt (cyc + 1) } }

/-- The head request presents its row: 12 halves, or the last row, make a response; after the last row the request is done. -/
theorem exec_areadRowPresent (hk : isKind .b site = true) (hr : s.bRun site cyc = r) (hq : (r.btile site).reads = q :: rest)
    (hl : r.bLive site = true) (hb : (r.btile site).busy 5 (cyc + 1) = false)
    (hc : (r.btile site).claimed false q.row (cyc + 1) = false) (hu : r.areadRow site q flips = (l, u)) {full : Prop} [Decidable full]
    (hfull : (q.seg.isNone = true ∧ (12 ≤ (q.gotAfter l).length ∨ q.left = 1)) ↔ full) (hv : v =
      (if full then u.bAnswer site q.reply q.rflow 3 q.first q.tag 0 ((q.gotAfter l).map fun g => (leNat g.1, g.2)) else u)) :
    exec (.areadRowPresent site cyc flips) s = .next
      (if q.left = 1 then ((match q.seg with
        | some x => State.segDone (v.readDone site q rest cyc) x (q.gotAfter l)
        | none => v.readDone site q rest cyc).bRetry site cyc)
      else v.updB site fun t => { t with
        claims := t.claims ++ [(cyc + 1, 5, q.row)]
        reads := { q with row := q.row + 1, left := q.left - 1, got := if full then [] else q.gotAfter l
                          first := if full then q.row + 1 else q.first, headAt := cyc + 1 } :: rest }) := by
  change execAreadRowPresent site cyc flips s = _
  have hgo : (!r.bLive site || (r.btile site).busy 5 (cyc + 1) || (r.btile site).claimed false q.row (cyc + 1)) = false := by
    simp [hl, hb, hc]
  simp only [execAreadRowPresent, onKind_next hk, hr, hq, hgo, hu, Bool.false_eq_true, if_false]
  simp only [got_append_eq, hfull, ← hv]
  split
  · cases q.seg <;> rfl
  · rfl

/-- Settles O26: a request joins its queue or waits; the head request presents a row, with or without its response. -/
theorem rowReads : Obligations.RowReads := by
  unfold Obligations.RowReads
  refine ⟨?joins, ?waits, ?partner, ?last, ?more, ?segment, ?response, ?write⟩
  case joins =>
    intro site cyc head hdr poison s r hk hl hw ho hm hn hr hroom hwait
    rw [exec_bRead hk hl hw ho, ← hr, State.bCome_read hm hn hroom hwait]
  case waits =>
    intro site cyc head hdr poison s r hk hl hw ho hm hn hr hfull
    rw [exec_bRead hk hl hw ho, ← hr, State.bCome_full (by simp [BTile.room, hm, hn, hfull])]
  case partner =>
    intro site port cyc head hdr poison s r hk hp hl ho hpart hm hn hr hroom hwait
    rw [exec_partnerRead hk hp hl ho hpart, ← hr, State.bCome_read hm hn hroom hwait]
  case last =>
    intro site cyc flips q rest l s r u hk hr hq hl hb hc h1 hseg hu
    rw [exec_areadRowPresent hk hr hq hl hb hc hu (full := True) (by simp [hseg, h1]) (if_pos trivial).symm, if_pos h1, hseg]
    rfl
  case more =>
    intro site cyc flips q rest l s r u hk hr hq hl hb hc h1 hu hpart
    have hfull : (q.seg.isNone = true ∧ (12 ≤ (q.gotAfter l).length ∨ q.left = 1)) ↔ False := by
      rw [length_gotAfter, iff_false, Option.isNone_iff_eq_none]
      rintro ⟨hnone, h12⟩
      have hless := hpart.resolve_left (not_not.2 hnone)
      omega
    rw [exec_areadRowPresent hk hr hq hl hb hc hu hfull (if_neg not_false).symm, if_neg h1]
    rfl
  case segment =>
    intro site cyc flips q x rest l s r u hk hr hq hl hb hc h1 hseg hu
    rw [exec_areadRowPresent hk hr hq hl hb hc hu (full := False) (by simp [hseg]) (if_neg not_false).symm, if_pos h1, hseg]
    rfl
  case response =>
    intro site cyc flips q rest l s r u hk hr hq hl hb hc h1 hu hseg h12
    have hfull : (q.seg.isNone = true ∧ (12 ≤ (q.gotAfter l).length ∨ q.left = 1)) ↔ True := by
      rw [length_gotAfter, iff_true, hseg]
      exact ⟨rfl, .inl h12⟩
    rw [exec_areadRowPresent hk hr hq hl hb hc hu hfull (if_pos trivial).symm, if_neg h1]
    rfl
  case write =>
    intro site cyc head hdr poison s hk hw
    exact exec_bRead_write hk hw

end

/-! ### The hold queue (R332 to R334) -/

section
variable {e : BHeld}

theorem exec_holdAdmit (hk : isKind .b site = true) (hu : s.bRun site cyc = u) (hl : u.bLive site = true)
    (hb : (u.btile site).busy 6 (cyc + 1) = false) (he : u.bEligible site cyc (u.btile site).hold [] = some e) :
    exec (.holdAdmit site cyc) s = .next
      ((u.updB site fun t => { t with
        hold := t.hold.filter fun x => x != e,
        pipe := t.pipe ++ [{ cyc := cyc + 1, port := 6, write := true, row := e.row, words := e.words, wmask := e.wmask,
                             flips := [], own := false, sel := true, job := some e.pkt, load := none }] }).bRetry site cyc) := by
  change execHoldAdmit site cyc s = _
  simp only [execHoldAdmit, onKind_next hk, hu, hl, hb, he]
  rfl

/-- Only what an update leaves at its own tile counts. -/
theorem State.updB_congr {f g : BTile → BTile} (h : f (s.btile site) = g (s.btile site)) : s.updB site f = s.updB site g :=
  congrArg (fun b => { s with bt := sset btDflt s.bt site b }) h

/-- The one held row is too old: it is counted, reported where its packet was not yet, and settled as lost. -/
theorem exec_dmaWindowTimeout (hk : isKind .b site = true) (hu : s.bRun site cyc = u) (hh : (u.btile site).hold = [e])
    (ha : e.arr + 4096 ≤ cyc) (hv : v = (u.updB site fun t => { t with hold := [] }).incReg site 0x05C) {first : Bool}
    (hf : (((v.btile site).pkts.find? fun p => p.pkt == e.pkt).all fun p => !p.logged) = first) :
    exec (.dmaWindowTimeout site cyc) s = .next
      (((((if first then v.raise site 1 0x0202 e.row e.src 0 0 (v.combStep site) else v.flag site 1).updB site fun t =>
        t.logPkt e.pkt).bRowDone site e.pkt true)).bRetry site cyc) := by
  have hold : ((u.btile site).hold.filter fun e => decide (e.arr + 4096 ≤ cyc)) = [e] := by simp [hh, ha]
  have hout : (u.updB site fun t => { t with hold := t.hold.filter fun x => !([e].contains x) }) =
      u.updB site fun t => { t with hold := [] } := State.updB_congr (by simp [hh])
  have hfirst : (match (v.btile site).pkts.find? fun p => p.pkt == e.pkt with
      | some p => !p.logged
      | none => true) = first := by
    rw [← hf]
    cases (v.btile site).pkts.find? fun p => p.pkt == e.pkt <;> rfl
  change execDmaWindowTimeout site cyc s = _
  simp only [execDmaWindowTimeout, onKind_next hk, hu, hold, hout, List.foldl_cons, List.foldl_nil, ← hv, ← hfirst] <;> rfl

end

/-- Settles O27: a packet's rows are held or wait; a held row is admitted, or times out. -/
theorem rowWrites : Obligations.RowWrites := by
  unfold Obligations.RowWrites
  refine ⟨?held, ?waits, ?partner, ?lands, ?first, ?again, ?read⟩
  case held =>
    intro site cyc pkt s u hk hl hr ho hu hm hn hroom hwait
    rw [exec_bWrite hk hl hr ho, hu, State.bCome_write hm hn hroom hwait (by simp)]
    rfl
  case waits =>
    intro site cyc pkt s u hk hl hr ho hu hm hfull
    rw [exec_bWrite hk hl hr ho, hu, State.bCome_full (by simp [BTile.room, hm, hfull])]
  case partner =>
    intro site port cyc pkt s u hk hp hl ho hpart hu hm hn hroom hwait hbank
    rw [exec_partnerWrite hk hp hl ho hpart, hu, State.bCome_write hm hn hroom hwait (by simpa using hbank)]
    rfl
  case lands =>
    intro site cyc e s u hk hu hl hb he
    exact exec_holdAdmit hk hu hl hb he
  case first =>
    intro site cyc e s u v hk hu hh ha hv hf
    rw [exec_dmaWindowTimeout hk hu hh ha hv hf, if_pos rfl]
  case again =>
    intro site cyc e p s u v hk hu hh ha hv hp hlog
    have hf : (((v.btile site).pkts.find? fun p => p.pkt == e.pkt).all fun p => !p.logged) = false := by
      rw [hp, Option.all_some, hlog]
      rfl
    rw [exec_dmaWindowTimeout hk hu hh ha hv hf, if_neg Bool.false_ne_true]
  case read =>
    intro site cyc pkt s hk hr
    exact exec_bWrite_read hk hr

/-! ### Scrub (R324, R345, R348) -/

theorem exec_bScrubRead {l : List WordRead} (hk : isKind .b site = true) (hu : s.bRun site cyc = u) (hl : u.bLive site = true)
    (hi : u.regN site 0x064 % 65536 ≠ 0) (hr : (u.btile site).scrubRow = row)
    (hdue : (u.btile site).scrubAt + u.regN site 0x064 % 65536 ≤ cyc) (hb : (u.btile site).busy 7 (cyc + 1) = false)
    (hc : (u.btile site).claimed false row (cyc + 1) = false) (hv : u.bReadRow site row 2 flips = (l, v)) :
    exec (.bScrubRead site cyc flips) s = .next
      (v.updB site fun t => { t with claims := t.claims ++ [(cyc + 1, 7, row)],
                                     scrubRow := (row + 1) % bufRows, scrubAt := cyc,
                                     scrubBack := if l.any (fun w => match w with
                                       | .corrected _ | .bad _ _ => true
                                       | _ => false) then t.scrubBack ++ [(row, sideForm row l)] else t.scrubBack }) := by
  change execBScrubRead site cyc flips s = _
  have hgo : (!u.bLive site || u.regN site 0x064 % 65536 == 0 || decide (cyc < (u.btile site).scrubAt + u.regN site 0x064 % 65536)
      || (u.btile site).busy 7 (cyc + 1) || (u.btile site).claimed false row (cyc + 1)) = false := by
    simp [hl, hi, hdue, hb, hc]
  simp only [execBScrubRead, onKind_next hk, hu, hr, hgo, hv] <;> rfl

theorem exec_bScrubWriteback {ws : List RowWord} {rest : List (Nat × List RowWord)} (hk : isKind .b site = true)
    (hu : s.bRun site cyc = u) (hs : (u.btile site).scrubBack = (row, ws) :: rest) (hl : u.bLive site = true)
    (hb : (u.btile site).busy 7 (cyc + 1) = false) (hc : (u.btile site).claimed true row (cyc + 1) = false) :
    exec (.bScrubWriteback site cyc) s = .next (u.updB site fun t => { t with scrubBack := rest, pipe := t.pipe ++ [{
      cyc := cyc + 1, port := 7, write := true, row, words := ws, wmask := 0xFFFF, flips := [], own := false, sel := true,
      job := none, load := none }] }) := by
  change execBScrubWriteback site cyc s = _
  have hgo : (!u.bLive site || (u.btile site).busy 7 (cyc + 1) || (u.btile site).claimed true row (cyc + 1)) = false := by
    simp [hl, hb, hc]
  simp only [execBScrubWriteback, onKind_next hk, hu, hs, hgo]
  rfl

/-- Settles O28: the read that is due and the oldest write-back. -/
theorem rowScrub : Obligations.RowScrub := by
  unfold Obligations.RowScrub
  refine ⟨?read, ?back⟩
  case read =>
    intro site cyc row flips l s u v hk hu hl hi hr hdue hb hc hv
    exact exec_bScrubRead hk hu hl hi hr hdue hb hc hv
  case back =>
    intro site cyc row ws rest s u hk hu hs hl hb hc
    exact exec_bScrubWriteback hk hu hs hl hb hc

end

section

/-! ### Words and rows of a byte store -/

section
variable {α : Type} {d : Nat → α} {m : Sparse α} {l : List α} {k : Nat}

theorem length_sgetMany (n : Nat) : (sgetMany d m k n).length = n := by
  induction n generalizing k with
  | zero => rfl
  | succ n ih => rw [sgetMany, List.length_cons, ih]

theorem sgetMany_congr {m' : Sparse α} {n : Nat} (h : ∀ a, k ≤ a → a < k + n → sget d m' a = sget d m a) :
    sgetMany d m' k n = sgetMany d m k n := by
  induction n generalizing k with
  | zero => rfl
  | succ n ih =>
    rw [sgetMany, sgetMany, h k le_rfl (by omega), ih fun a h1 h2 => h a (by omega) (by omega)]

/-- What is written reads back. -/
theorem sgetMany_ssetMany [DecidableEq α] (h : swf d m = true) : sgetMany d (ssetMany d m k l) k l.length = l := by
  induction l generalizing m k with
  | nil => rfl
  | cons x l ih =>
    have hx : sget d (ssetMany d (sset d m k x) (k + 1) l) k = x := by
      rw [sget_ssetMany_outside (by omega), sget_sset h, if_pos rfl]
    rw [ssetMany, List.length_cons, sgetMany, hx, ih (swf_sset h)]

end

theorem leNat_leBytes (n v : Nat) : leNat (leBytes n v) = v % 256 ^ n := by
  induction n generalizing v with
  | zero => exact (Nat.mod_one v).symm
  | succ n ih =>
    rw [leBytes, leNat, ih, BitVec.toNat_ofNat, Nat.pow_succ' (n := n)]
    exact (Nat.mod_mul ..).symm

section
variable {d : Nat → Byte} {m : Sparse Byte} {k : Nat} {w : RowWord}

theorem getWord_putWord (h : swf d m = true) : getWord d (putWord d m k w) k = w := by
  have hl : sgetMany d (putWord d m k w) k 9 = leBytes 8 w.data.toNat ++ [w.chk] := by
    have hlen : (leBytes 8 w.data.toNat ++ [w.chk]).length = 9 := by simp [length_leBytes]
    rw [putWord, ← hlen, sgetMany_ssetMany h]
  have hdata : leAt (leBytes 8 w.data.toNat ++ [w.chk]) 0 8 = w.data.toNat := by
    have hlt := w.data.isLt
    rw [leAt, List.drop_zero, List.take_left' (length_leBytes 8 _), leNat_leBytes]
    omega
  rw [getWord, hl]
  simp only [hdata]
  rw [BitVec.ofNat_toNat, BitVec.setWidth_eq]
  rfl

/-- A word is not touched by a write that begins nine bytes away. -/
theorem getWord_putWord_other {k' : Nat} (h : k' + 9 ≤ k ∨ k + 9 ≤ k') :
    getWord d (putWord d m k w) k' = getWord d m k' := by
  rw [getWord, sgetMany_congr fun a h1 h2 => sget_putWord_outside (by omega)]
  rfl

variable {rows site row : Nat} {ws : List RowWord}

/-- The first words of a row, written in order. -/
def putWords (d : Nat → Byte) (rows : Nat) (m : Sparse Byte) (site row n : Nat) (ws : List RowWord) : Sparse Byte :=
  (List.range n).foldl (fun m w => putWord d m (wordKey rows site row w) (nth (wordForm 0 row false) ws w)) m

theorem swf_putWords (h : swf d m = true) (n : Nat) : swf d (putWords d rows m site row n ws) = true :=
  swf_foldl h fun _ _ hm => swf_putWord hm

/-- With every word in force a row's write is the write of its sixteen words. -/
theorem putRow_full : putRow d rows m site row 0xFFFF ws = putWords d rows m site row 16 ws := by
  have hbit : ∀ w, w < 16 → bit 0xFFFF w = true := by decide
  refine List.foldl_ext _ _ _ fun m w hw => ?_
  rw [if_pos (hbit w (List.mem_range.1 hw))]

theorem getWord_putWords (h : swf d m = true) {n w : Nat} (hw : w < n) :
    getWord d (putWords d rows m site row n ws) (wordKey rows site row w) = nth (wordForm 0 row false) ws w := by
  induction n with
  | zero => omega
  | succ n ih =>
    rw [putWords, List.range_succ, List.foldl_append, List.foldl_cons, List.foldl_nil]
    obtain hlt | rfl := Nat.lt_succ_iff_lt_or_eq.1 hw
    · rw [getWord_putWord_other (by unfold wordKey; omega)]
      exact ih hlt
    · exact getWord_putWord (swf_putWords h w)

theorem map_nth_range {α : Type} (x : α) (l : List α) : (List.range l.length).map (nth x l) = l := by
  induction l with
  | nil => rfl
  | cons a l ih =>
    rw [List.length_cons, List.range_succ_eq_map, List.map_cons, List.map_map]
    exact congrArg (a :: ·) ih

end

/-- Settles O29: every word of the row reads back, and a row's words lie between its first byte and the next row's. -/
theorem rowsReadBack : Obligations.RowsReadBack := by
  unfold Obligations.RowsReadBack
  intro site row ws m _ hlen h
  refine ⟨?_, fun a ha => sget_putRow_outside ha⟩
  rw [getRow, putRow_full]
  calc (List.range 16).map _
      = (List.range 16).map (nth (wordForm 0 row false) ws) :=
        List.map_congr_left fun w hw => getWord_putWords h (List.mem_range.1 hw)
    _ = ws := by rw [← hlen, map_nth_range]

end

section

variable {s0 s t u v : State} {site cyc : Nat}

/-! ### The slots of the images stand while a tile runs -/

/-- The images' slots are those of an earlier state. -/
def SlotsKept (s t : State) : Prop := t.prog.slots = s.prog.slots

/-- Every part of the state but the programs. -/
def besidePrograms : List Field :=
  [.regs, .staged, .limits, .limStaged, .pages, .latch, .lowHeld, .ev, .out, .dev, .die, .mem, .intake, .kv, .mrd, .alm, .hbm,
    .host, .combs, .clk, .ldg, .mt, .st, .wt, .rt, .bt, .tre, .slc, .nv, .mgmt, .freeCtr]

namespace SlotsKept

theorem refl : SlotsKept s s := rfl

/-- A move that leaves the programs alone. -/
theorem beside (h : SlotsKept s0 s) (g : Within (mask besidePrograms) s t) : SlotsKept s0 t :=
  (congrArg Prog.slots (g.same .prog (by decide))).trans h

theorem ite {c : Prop} [Decidable c] {a b : State} (ha : SlotsKept s0 a) (hb : SlotsKept s0 b) :
    SlotsKept s0 (if c then a else b) := by
  split
  · exact ha
  · exact hb

theorem foldl {α : Type} {l : List α} {f : State → α → State} (h : SlotsKept s0 s)
    (hf : ∀ s x, SlotsKept s0 s → SlotsKept s0 (f s x)) : SlotsKept s0 (l.foldl f s) :=
  List.foldlRecOn (motive := SlotsKept s0) l f h fun s g x _ => hf s x g

theorem snd {α : Type} {p : α × State} {a : α} (e : p = (a, t)) (h : SlotsKept s0 p.2) : SlotsKept s0 t := by
  subst e
  exact h

/-! #### Steps given up -/

theorem markBoundary (h : SlotsKept s0 s) : SlotsKept s0 s.markBoundary := h

theorem abandonOne {code : Nat} {own last : Bool} {st : StepRec} (h : SlotsKept s0 s) :
    SlotsKept s0 (s.abandonOne code own last st) := by
  unfold State.abandonOne
  extract_lets n a recs b c d e fin st' src f g
  have hb : SlotsKept s0 b := h.beside Within.refl.doneAbandoned.endLaunches.clearTiles
  have hc : SlotsKept s0 c := hb
  have hg : SlotsKept s0 g := hc.markBoundary.beside (.kvLow (.set_mrd Within.refl.logReplay (by decide)))
  exact ite (hg.beside Within.refl.record) hg

theorem abandonFrom {num code : Nat} {last : Bool} (h : SlotsKept s0 s) : SlotsKept s0 (s.abandonFrom num code last) :=
  h.foldl fun _ _ g => g.abandonOne

theorem blame {num : Nat} {f : Forbid} (h : SlotsKept s0 s) : SlotsKept s0 (s.blame num f) := by
  dsimp only [State.blame]
  split
  · exact ite (h.beside (.set_slc Within.refl (by decide))) (h.beside Within.refl.blameGone)
  · refine ite h (ite (h.beside Within.refl.updStep) ?_)
    split
    · exact h.beside Within.refl.updStep
    · exact abandonFrom (ite (h.beside Within.refl.updStep.sendAbort) (h.beside Within.refl.updStep))

theorem forbid {page code a0 a1 a2 det : Nat} {step : Option Nat} (h : SlotsKept s0 s) :
    SlotsKept s0 (s.forbid page code a0 a1 a2 det step) := (h.beside Within.refl.log).blame

theorem raise {page b code a0 a1 a2 det : Nat} {step : Option Nat} (h : SlotsKept s0 s) :
    SlotsKept s0 (s.raise page b code a0 a1 a2 det step) := (h.beside Within.refl.flag).forbid

theorem forbidUe {code a0 a1 a2 row : Nat} {step : Option Nat} (h : SlotsKept s0 s) :
    SlotsKept s0 (s.forbidUe site code a0 a1 a2 row step) := ite (h.forbid.beside Within.refl.strikeTile) h.forbid

/-! #### The memory -/

theorem poisonRead {k sa : Nat} {served : Option Nat} (h : SlotsKept s0 s) : SlotsKept s0 (s.poisonRead k sa served) := by
  dsimp only [State.poisonRead]
  split
  · exact h
  · exact h.blame

theorem hbmUe {k sa source kind : Nat} {served : Option Nat} (h : SlotsKept s0 s) :
    SlotsKept s0 (s.hbmUe k sa source kind served) := by
  dsimp only [State.hbmUe]
  split
  · exact h.beside Within.refl.ueLog
  · exact (h.beside Within.refl.ueNote).forbid

theorem ctlDecode {k sa source : Nat} {d : List Byte × List Byte} {served : Option Nat} (h : SlotsKept s0 s) :
    SlotsKept s0 (s.ctlDecode k sa source d served).s := by
  unfold State.ctlDecode
  extract_lets a c p
  have ha : SlotsKept s0 a := ite (h.beside Within.refl.addReg64) h
  split
  · exact ha.poisonRead
  · split
    · exact ha.hbmUe
    · split
      · exact ha
      · exact ha.beside Within.refl.hbmCorrected
      · exact ha.hbmUe

theorem devUnit {a : Nat} {served : Option Nat} (h : SlotsKept s0 s) : SlotsKept s0 (s.devUnit a served).s := by
  unfold State.devUnit
  split
  · exact h
  · split
    exact h.ctlDecode

theorem hbmUnmapped {src a : Nat} {step : Option Nat} (h : SlotsKept s0 s) : SlotsKept s0 (s.hbmUnmapped a src step) := h.raise

theorem hbmRsv {src a : Nat} {step : Option Nat} (h : SlotsKept s0 s) : SlotsKept s0 (s.hbmRsv a src step) := h.raise

theorem tileWrite {src a : Nat} {units : List (Nat × Bool)} {step : Option Nat} (h : SlotsKept s0 s) :
    SlotsKept s0 (s.tileWrite src a units step) :=
  ite h.raise (h.foldl fun _ _ g => ite (ite g.hbmUnmapped g) (ite (ite g.hbmRsv g) (g.beside (.writeAt .refl fun k => k))))

theorem copyPage {step src dst : Nat} (h : SlotsKept s0 s) : SlotsKept s0 (s.copyPage step src dst) := by
  unfold State.copyPage
  extract_lets base pb a kv b
  have ha : SlotsKept s0 a := h.foldl fun _ _ g => g.devUnit.beside Within.refl.devWrite
  have hb : SlotsKept s0 b := ha
  exact hb.beside Within.refl.incReg

theorem cowTarget {step task a : Nat} (h : SlotsKept s0 s) : SlotsKept s0 (s.cowTarget step task a).2 := by
  dsimp only [State.cowTarget]
  split
  · split
    · exact h
    · split
      · exact h
      · exact h.copyPage.beside Within.refl.updStep
  · exact h

/-! #### The queues of a B tile -/

theorem bFmt {head src : Nat} (h : SlotsKept s0 s) : SlotsKept s0 (s.bFmt site head src) :=
  ite (h.raise.beside Within.refl.bAnswer) (ite (h.raise.beside Within.refl.bAnswer) h.raise)

theorem collide {write own : Bool} {winner loser row : Nat} (h : SlotsKept s0 s) :
    SlotsKept s0 (s.collide site write own winner loser row) :=
  forbid (beside (ite h (h.beside Within.refl.setReg)) Within.refl.flag)

theorem bEnqueue {head src len : Nat} {poison : Bool} {port : Option Nat} (h : SlotsKept s0 s) :
    SlotsKept s0 (s.bEnqueue site head src len poison port cyc) :=
  ite h.bFmt (ite (h.beside Within.refl.bAnswer) (h.beside Within.refl.updB))

theorem bHoldPkt {pkt : MeshPkt} {port : Option Nat} (h : SlotsKept s0 s) : SlotsKept s0 (s.bHoldPkt site pkt port cyc) :=
  ite h.bFmt (ite (h.beside Within.refl.bAckPkt) (foldl (h.beside Within.refl.bHoldRows) fun _ _ g =>
    (g.beside Within.refl.updB).collide.beside Within.refl.bRowDone))

theorem bTake {w : BWait} (h : SlotsKept s0 s) : SlotsKept s0 (s.bTake site cyc w) := by
  cases w with
  | read => exact h.bEnqueue
  | write => exact h.bHoldPkt
  | rows => exact h.beside Within.refl.bHoldRows
  | seg => exact h.beside Within.refl.segEnqueue

theorem bCome {w : BWait} (h : SlotsKept s0 s) : SlotsKept s0 (s.bCome site cyc w) := ite h.bTake (h.beside Within.refl.updB)

theorem holdPkts {src m : Nat} {partner : Bool} {p : BPkt} {rows : List (Nat × List RowWord)} (h : SlotsKept s0 s) :
    SlotsKept s0 (s.holdPkts site src m partner p rows) := h.foldl fun _ _ g => g.bCome

/-! #### Writes of the KV store -/

theorem segUnits {p k a n : Nat} (h : SlotsKept s0 s) :
    SlotsKept s0 (s.segUnits p k a n).2 := h.foldl fun _ _ g => ite g g.devUnit

theorem cachePut {p k a n : Nat} (h : SlotsKept s0 s) : SlotsKept s0 (s.cachePut p k a n) := by
  unfold State.cachePut
  split
  · exact h
  refine ite h ?_
  split
  next us u hu =>
  have gu : SlotsKept s0 u := snd hu h.segUnits
  split
  · split
    · exact gu.beside Within.refl.dropSeg
    · exact gu
  · split
    next place v hv =>
    have gv : SlotsKept s0 v := snd hv (by
      split
      · exact gu.beside Within.refl.dropSeg
      · exact gu.beside Within.refl.segPlace)
    split
    · exact gv
    · extract_lets n g src kv x
      split
      · exact gv
      · have hx : SlotsKept s0 x := gv
        exact hx.holdPkts

theorem cacheSync {a len : Nat} (h : SlotsKept s0 s) : SlotsKept s0 (s.cacheSync a len) := by
  dsimp only [State.cacheSync]
  refine h.foldl fun _ _ g => ?_
  split
  · exact g.cachePut
  · exact g

theorem kvWrite {src task a : Nat} {units : List (Nat × Bool)} {step : Option Nat} (h : SlotsKept s0 s) :
    SlotsKept s0 (s.kvWrite src task a units step) := by
  dsimp only [State.kvWrite]
  refine ite h.tileWrite (h.foldl fun s x g => ?_)
  have hcow : SlotsKept s0 (match step with
      | some num => s.cowTarget num task x.1
      | none => (x.1, s)).2 := by
    split
    · exact g.cowTarget
    · exact g
  split
  · exact cachePut (tileWrite hcow)
  · exact cacheSync (tileWrite hcow)

/-! #### A B tile's cycles -/

theorem updXfer {n : Nat} {f : Xfer → Xfer} (h : SlotsKept s0 s) : SlotsKept s0 (s.updXfer site n f) := h

theorem seqDone {j : SeqJob} (h : SlotsKept s0 s) : SlotsKept s0 (s.seqDone site j) := by
  dsimp only [State.seqDone]
  split
  · exact h.beside Within.refl.updB.seqSend
  · exact (h.beside Within.refl.updB).kvWrite.updXfer
  · exact h.beside Within.refl.updB.remoteWrites

theorem seqRow {n : Nat} {l : List WordRead} (h : SlotsKept s0 s) : SlotsKept s0 (s.seqRow site n l) := by
  dsimp only [State.seqRow]
  split
  · exact h
  · exact ite h.seqDone (h.beside Within.refl.updB)

theorem bufUe {row word syn source : Nat} (h : SlotsKept s0 s) : SlotsKept s0 (s.bufUe site row word syn source) := by
  have hinc : SlotsKept s0 (s.incHalf site 0x04C 16) := h.beside Within.refl.incHalf
  exact ite (beside (ite hinc (hinc.beside Within.refl.setReg)) Within.refl.flag.log)
    (forbidUe (beside (ite hinc (hinc.beside Within.refl.setReg)) Within.refl.flag))

theorem bWords {row source i : Nat} {ws : List RowWord} (h : SlotsKept s0 s) :
    SlotsKept s0 (s.bWords site row source ws i).2 := by
  induction ws generalizing s i with
  | nil => exact h
  | cons w ws ih =>
    refine ih ?_
    split
    · exact h.beside Within.refl.incHalf
    · exact h.bufUe
    · exact h

theorem bReadRow {row source : Nat} {fl : List Flip} (h : SlotsKept s0 s) : SlotsKept s0 (s.bReadRow site row source fl).2 := by
  unfold State.bReadRow
  exact bWords h

theorem bankRead {l : List BAccess} {a : BAccess} (h : SlotsKept s0 s) : SlotsKept s0 (s.bankRead site l a) := by
  have hread : SlotsKept s0 (if (!bankServed l a) = true then ((List.range 16).map fun _ => WordRead.poisoned 0, s)
      else s.bReadRow site a.row 0 a.flips).2 := by
    split
    · exact h
    · exact h.bReadRow
  dsimp only [State.bankRead]
  split
  · exact hread.seqRow
  · split
    · exact hread.beside Within.refl.emit.loadRow
    · exact hread.beside Within.refl.emit

theorem bankCycle {c : Nat} (h : SlotsKept s0 s) : SlotsKept s0 (s.bankCycle site c) :=
  foldl (foldl (h.beside Within.refl.updB) fun _ _ g => g.bankRead) fun _ _ g => g.beside Within.refl.bankWrite

theorem bankSelect {c : Nat} (h : SlotsKept s0 s) : SlotsKept s0 (s.bankSelect site c) :=
  foldl (h.beside Within.refl.updB) fun _ _ g => g.collide

theorem bRun {c : Nat} (h : SlotsKept s0 s) : SlotsKept s0 (s.bRun site c) :=
  beside (foldl (h.foldl fun _ _ g => g.bankSelect.bankCycle) fun _ _ g => g.bankSelect) Within.refl.bClock

end SlotsKept

/-- Where a unit stands for a destination hangs on the slots alone. -/
theorem State.physDest_of_slotsKept (h : SlotsKept s t) (d : Nat) : t.physDest d = s.physDest d := by
  have hslot : t.slot = s.slot := funext fun n => by rw [State.slot, h, State.slot]
  have hcomb : t.physComb = s.physComb := by
    funext c
    rw [State.physComb, State.physComb, State.activeSlot, State.activeSlot, hslot]
  rw [State.physDest, State.physDest, hcomb]

section
variable {w0 w1 ofs : DWord}

/-! ### Transfers of a B tile's micro-program (R328, R329, R375, R376) -/

theorem exec_win (hk : isKind .b site = true) (hr : s.bRuns site = true) :
    exec (.win site w0 cyc) s = .next
      (((s.bRun site cyc).updB site fun t => { t with
        wins := t.wins ++ [(bits w0.toNat 52 48, cyc, (s.bRun site cyc).bWin site (bits w0.toNat 52 48))] }).setReg site
        (0x100 + 4 * bits w0.toNat 52 48) (w0.toNat % 2 ^ 32)) := by
  change execWin site w0 cyc s = _
  rw [execWin, onKind_next hk, if_neg (by simp [hr])]

theorem exec_fill_no_rows (hk : isKind .b site = true) (hr : s.bRuns site = true) (hn : fRows w0.toNat = 0) :
    exec (.fill site w0 ofs cyc) s = .next (s.countUp site (fCtr w0.toNat)) := by
  change execFill site w0 ofs cyc s = _
  rw [execFill, onKind_next hk]
  simp only [if_neg (show ¬(!s.bRuns site) = true by simp [hr]), if_pos hn]

theorem exec_spill_no_rows (hk : isKind .b site = true) (hr : s.bRuns site = true) (hn : fRows w0.toNat = 0) :
    exec (.spill site w0 ofs cyc) s = .next (s.countUp site (fCtr w0.toNat)) := by
  change execSpill site w0 ofs cyc s = _
  rw [execSpill, onKind_next hk]
  simp only [if_neg (show ¬(!s.bRuns site) = true by simp [hr]), if_pos hn]

/-- A FILL of rows starts its transfer and asks this device's memory or another device for them. -/
theorem exec_fill {n a : Nat} (hk : isKind .b site = true) (hr : s.bRuns site = true) (hn : n = fRows w0.toNat) (hn0 : n ≠ 0)
    (hu : u = s.bRun site cyc) (ha : a = u.operand site (bits w0.toNat 55 48) ofs.toNat)
    (hv : v = u.startXfer site (fCtr w0.toNat) 1 (a % 2 ^ 40) (fRow w0.toNat) (2 * n)) :
    exec (.fill site w0 ofs cyc) s = .next
      (if u.isLocal a then
        v.kvRead site
          { id := u.prog.nextXfer, ctr := fCtr w0.toNat, kind := 1, addr := a % 2 ^ 40, row := fRow w0.toNat, left := 2 * n,
            step := u.stepAt site, gone := false }
          (a % 2 ^ 40) (2 * n)
      else v.remoteReads site a (128 * n) (xferFlow (fCtr w0.toNat))) := by
  change execFill site w0 ofs cyc s = _
  rw [execFill, onKind_next hk]
  dsimp only
  rw [if_neg (by simp [hr]), ← hn, if_neg hn0, ← hu, ← ha, State.isLocal_startXfer, ← hv]

theorem exec_spill {n a : Nat} (hk : isKind .b site = true) (hr : s.bRuns site = true) (hn : n = fRows w0.toNat) (hn0 : n ≠ 0)
    (hu : u = s.bRun site cyc) (ha : a = u.operand site (bits w0.toNat 55 48) ofs.toNat) :
    exec (.spill site w0 ofs cyc) s = .next
      ((u.startXfer site (fCtr w0.toNat) 0 (a % 2 ^ 40) (fRow w0.toNat)
        (if u.isLocal a then 1 else (writeCuts (a % 2 ^ 40) (2 * n)).length)).seqRead site (fRow w0.toNat) n (u.stepAt site)
        (if u.isLocal a then .local u.prog.nextXfer (a % 2 ^ 40) (u.ownDest site) (u.stepAt site)
         else .remote a (xferFlow (fCtr w0.toNat)))) := by
  change execSpill site w0 ofs cyc s = _
  rw [execSpill, onKind_next hk]
  dsimp only
  rw [if_neg (by simp [hr]), ← hn, if_neg hn0, ← hu, ← ha]

theorem exec_send_no_rows (hk : isKind .b site = true) (hr : s.bRuns site = true) (hn : bits w0.toNat 33 27 = 0) :
    exec (.send site w0 w1 cyc) s = .next (if bit w0.toNat 25 then s.countUp site (fCtr w0.toNat) else s) := by
  change execSend site w0 w1 cyc s = _
  rw [execSend, onKind_next hk]
  simp only [if_neg (show ¬(!s.bRuns site) = true by simp [hr]), if_pos hn]

theorem exec_send {n dest : Nat} {l : List (Nat × Nat × Nat)} (hk : isKind .b site = true) (hr : s.bRuns site = true)
    (hn : n = bits w0.toNat 33 27) (hn0 : n ≠ 0) (hd : dest = (s.bRun site cyc).physDest (bits w1.toNat 63 48))
    (hl : (s.bRun site cyc).sendPkts site dest (bits w1.toNat 33 22) (bitN w0.toNat 26) (bitN w0.toNat 25) (bits w1.toNat 47 34) n
      (fCtr w0.toNat) = (l, u)) :
    exec (.send site w0 w1 cyc) s = .next (u.seqRead site (fRow w0.toNat) n (u.stepAt site) (.send l)) := by
  rw [State.physDest_of_slotsKept (SlotsKept.refl.bRun (s := s))] at hd
  subst hd
  change execSend site w0 w1 cyc s = _
  rw [execSend, onKind_next hk]
  simp only [if_neg (show ¬(!s.bRuns site) = true by simp [hr]), ← hn, if_neg hn0, hl]

end

/-- Settles O30: each transfer by its rows and by where they are; a SEND's destination through the slots that stand. -/
theorem microTransfers : Obligations.MicroTransfers := by
  unfold Obligations.MicroTransfers
  refine ⟨?win, ?noRows, ?fillLocal, ?fillRemote, ?spill, ?send, ?sendNone, ?unaligned⟩
  case win =>
    intro site cyc w0 s hk hr
    exact exec_win hk hr
  case noRows =>
    intro site cyc w0 ofs s hk hr hn
    exact ⟨exec_fill_no_rows hk hr hn, exec_spill_no_rows hk hr hn⟩
  case fillLocal =>
    intro site n a base cyc w0 ofs s u hk hr hn hn0 hu ha hb hloc h64
    subst hb
    rw [exec_fill hk hr hn hn0 hu ha rfl, if_pos hloc, State.kvRead, if_neg (not_not.2 h64)]
    rfl
  case fillRemote =>
    intro site n a cyc w0 ofs s u hk hr hn hn0 hu ha hrem
    rw [exec_fill hk hr hn hn0 hu ha rfl, if_neg (by simp [hrem])]
  case spill =>
    intro site n a cyc w0 ofs s u hk hr hn hn0 hu ha
    exact exec_spill hk hr hn hn0 hu ha
  case send =>
    intro site n dest cyc w0 w1 s u l hk hr hn hn0 hd hl
    exact exec_send hk hr hn hn0 hd hl
  case sendNone =>
    intro site cyc w0 w1 s hk hr hn
    exact exec_send_no_rows hk hr hn
  case unaligned =>
    intro site a base cyc w0 ofs s u v x hk hr hn hu ha hb hloc h64 hx
    subst hb
    rw [exec_fill hk hr rfl hn hu ha rfl, if_pos hloc, State.kvRead, if_pos h64]
    exact congrArg (fun y => Host.Outcome.next ((Prod.snd y).updXfer site u.prog.nextXfer fun y => { y with left := 0 })) hx

end

section

variable {s t u v : State} {site cyc : Nat} {w0 w1 : DWord}

/-! ### Control of a micro-program (R373, R376, R377) -/

/-- A tile that runs programs. -/
theorem runs_programs (hs : isSite site = true) (hk : siteKind site ≠ .w) : (isSite site && siteKind site != .w) = true := by
  simp [hs, hk]

/-- What a command that changes one tile's run leaves. -/
theorem runs_updRun {c : Instr} {f : TileRun → TileRun} {x : TileRun} (i : s.Inv) (hex : exec c s = .next (s.updRun site f))
    (hx : f (s.run site) = x) :
    Runs c s [.prog] fun t => t.run site = x ∧ ∀ k, k ≠ site → t.run k = s.run k := by
  refine .of_within hex Within.refl.updRun ⟨?_, fun k hk => ?_⟩
  · rw [State.run_updRun s i.runs, if_pos rfl, hx]
  · rw [State.run_updRun s i.runs, if_neg hk]

theorem exec_wait (hs : isSite site = true) (hk : siteKind site ≠ .w) (hr : s.mayRun site = true)
    (hc : nth 0 (s.run site).ctr (bits w0.toNat 50 48) < w0.toNat % 2 ^ 32) :
    exec (.wait site w0) s = .next
      (s.updRun site fun r => { r with wait := some (bits w0.toNat 50 48, w0.toNat % 2 ^ 32) }) := by
  change execWait site w0 s = _
  rw [execWait, onUnit_next (runs_programs hs hk)]
  simp only [hr, if_neg (Nat.not_le.2 hc)]
  rfl

theorem exec_waitRelease {c n : Nat} (hs : isSite site = true) (hk : siteKind site ≠ .w) (hw : (s.run site).wait = some (c, n))
    (hc : n ≤ nth 0 (s.run site).ctr c) :
    exec (.waitRelease site) s = .next (s.updRun site fun r => { r with wait := none }) := by
  change execWaitRelease site s = _
  rw [execWaitRelease, onUnit_next (runs_programs hs hk), hw]
  simp only [if_pos hc]

theorem exec_nop (hs : isSite site = true) (hk : siteKind site ≠ .w) : exec (.nop site) s = .next s := by
  change execNop site s = _
  rw [execNop, onUnit_next (runs_programs hs hk)]

theorem exec_endCode (hs : isSite site = true) (hk : siteKind site ≠ .w) (hr : s.mayRun site = true) :
    exec (.endCode site) s = .next (s.updRun site fun r => { r with ended := true }) := by
  change execEndCode site s = _
  rw [execEndCode, onUnit_next (runs_programs hs hk), if_pos hr]

theorem exec_writeAckReceive {rflow : BitVec 12} {stat : BitVec 2} (hk : isKind .b site = true) (hi : (s.run site).inst ≠ none) :
    exec (.writeAckReceive site rflow stat) s = .next (s.countUp site (rflow.toNat % 8)) := by
  change execWriteAckReceive site rflow stat s = _
  rw [execWriteAckReceive, onKind_next hk, if_neg (by simpa using hi)]

theorem exec_fillDone {ctr : Nat} {x : Xfer} (hs : isSite site = true) (hk : siteKind site ≠ .w) (hc : ctr < 8)
    (hu : u = (if siteKind site = .b then s.bRun site cyc else s))
    (hx : (u.run site).pend.find? (fun x => x.ctr == ctr && u.xferLanded site x) = some x) :
    exec (.fillDone site ctr cyc) s = .next
      (((u.updRun site fun r => { r with pend := r.pend.filter fun y => y.id != x.id }).updB site fun t =>
        { t with pkts := t.pkts.filter fun p => p.ctr != some x.id }).countUp site ctr) := by
  change execFillDone site ctr cyc s = _
  rw [execFillDone, onUnit_next (by simp [hs, hk, hc])]
  simp only [beq_iff_eq, ← hu, hx]

/-! ### Program commands of a tile that does not run (R377) -/

section
variable (hr : s.mayRun site = false)
include hr

theorem exec_wait_stopped (hs : isSite site = true) (hk : siteKind site ≠ .w) : exec (.wait site w0) s = .next s := by
  change execWait site w0 s = _
  rw [execWait, onUnit_next (runs_programs hs hk), if_pos (by simp [hr])]

theorem exec_endCode_stopped (hs : isSite site = true) (hk : siteKind site ≠ .w) : exec (.endCode site) s = .next s := by
  change execEndCode site s = _
  rw [execEndCode, onUnit_next (runs_programs hs hk), if_neg (by simp [hr])]

theorem State.bRuns_stopped : (!s.bRuns site) = true := by simp [State.bRuns, hr]

theorem exec_win_stopped (hk : isKind .b site = true) : exec (.win site w0 cyc) s = .next s := by
  change execWin site w0 cyc s = _
  rw [execWin, onKind_next hk, if_pos (State.bRuns_stopped hr)]

theorem exec_fill_stopped (hk : isKind .b site = true) : exec (.fill site w0 w1 cyc) s = .next s := by
  change execFill site w0 w1 cyc s = _
  rw [execFill, onKind_next hk, if_pos (State.bRuns_stopped hr)]

theorem exec_spill_stopped (hk : isKind .b site = true) : exec (.spill site w0 w1 cyc) s = .next s := by
  change execSpill site w0 w1 cyc s = _
  rw [execSpill, onKind_next hk, if_pos (State.bRuns_stopped hr)]

theorem exec_send_stopped (hk : isKind .b site = true) : exec (.send site w0 w1 cyc) s = .next s := by
  change execSend site w0 w1 cyc s = _
  rw [execSend, onKind_next hk, if_pos (State.bRuns_stopped hr)]

theorem exec_pass_stopped {r : BitVec 128} {l : List Upset} (hk : isKind .m site = true) :
    exec (.pass site w0 r cyc l) s = .next s := by
  change execPass site w0 r cyc l s = _
  rw [execPass, onKind_next hk, if_pos (by simp [hr])]

theorem exec_load_stopped (hk : isKind .m site = true) : exec (.load site w0 w1) s = .next s := by
  change execLoad site w0 w1 s = _
  rw [execLoad, onKind_next hk, if_pos (by simp [hr])]

theorem exec_wfill_stopped (hk : isKind .m site = true) : exec (.wfill site w0 w1 cyc) s = .next s := by
  change execWfill site w0 w1 cyc s = _
  rw [execWfill, onKind_next hk, if_pos (by simp [hr])]

theorem exec_sfn_stopped {op : SOp} {l : List Flip} (hk : isKind .s site = true) : exec (.sfn site w0 w1 op l) s = .next s := by
  change execSfn site w0 w1 op l s = _
  rw [execSfn, onKind_next hk, if_pos (by simp [hr])]

end

/-- Settles O31: each control command changes its tile's run alone; a tile whose program does not go on ignores every program command. -/
theorem microControl : Obligations.MicroControl := by
  unfold Obligations.MicroControl
  refine ⟨?wait, ?release, ?nop, ?ends, ?ack, ?fill, ?stopped, ?bStopped, ?mStopped, ?sStopped⟩
  case wait =>
    intro site w0 s i hs hk hr hc
    exact runs_updRun i (exec_wait hs hk hr hc) rfl
  case release =>
    intro site c n s i hs hk hw hc
    exact runs_updRun i (exec_waitRelease hs hk hw hc) rfl
  case nop =>
    intro site s hs hk
    exact exec_nop hs hk
  case ends =>
    intro site s i hs hk hr
    exact runs_updRun i (exec_endCode hs hk hr) rfl
  case ack =>
    intro site rflow stat s i hk hi
    exact runs_updRun i (exec_writeAckReceive hk hi) rfl
  case fill =>
    intro site ctr cyc x s u hs hk hc hu hx
    exact exec_fillDone hs hk hc hu hx
  case stopped =>
    intro site w0 s hs hk hr
    exact ⟨exec_wait_stopped hr hs hk, exec_endCode_stopped hr hs hk⟩
  case bStopped =>
    intro site cyc w0 w1 s hk hr
    exact ⟨exec_win_stopped hr hk, exec_fill_stopped hr hk, exec_spill_stopped hr hk, exec_send_stopped hr hk⟩
  case mStopped =>
    intro site cyc w0 w1 r l s hk hr
    exact ⟨exec_pass_stopped hr hk, exec_load_stopped hr hk, exec_wfill_stopped hr hk⟩
  case sStopped =>
    intro site w0 w1 op l s hk hr
    exact exec_sfn_stopped hr hk

end

section

variable {s t u r v : State} {site cyc comb : Nat}

/-! ### Instances (R405, R407 to R409) -/

section
variable {i : Inst}

/-- An `Inst` that has ended, whose tile is quiet once it has run up to the cycle, leaves the tile. -/
theorem exec_instanceComplete (hs : isSite site = true) (hk : siteKind site ≠ .w) (hi : (s.run site).inst = some i)
    (he : (s.run site).ended = true) (hw : (s.run site).wait = none)
    (hr : r = (if siteKind site = .m then (s.mAdvance site cyc).runM site cyc else if siteKind site = .b then s.bRun site cyc else s))
    (hq : r.tileQuiet site = true) (hu : u = r.updRun site (fun r => { r with inst := none, ended := false })) :
    exec (.instanceComplete site cyc) s = .next (if (u.prog.runs.any fun e => e.2.inst == some i) then u else u.countDone i) := by
  change execInstanceComplete site cyc s = _
  rw [execInstanceComplete, onUnit_next (runs_programs hs hk)]
  simp only [hi, beq_iff_eq, ← hr]
  rw [if_neg (by simp [he, hw, hq]), ← hu]

theorem exec_forage {l d p : Nat} (hs : isSite site = true) (hk : siteKind site ≠ .w) (hl : s.served site = some l)
    (hi : s.idle site = true) (hg : s.gangWaits (siteComb site) l = false) (hf : s.forageFor site l = some (d, p, i)) :
    exec (.forage site) s = .next ((s.setPool d p ((s.pool d p).filter fun x => x != i)).startInst site i) := by
  change execForage site s = _
  rw [execForage, onUnit_next (runs_programs hs hk), hl]
  simp only [hi, hg, hf]
  rfl

/-- A gang whose tiles are all idle starts on every one of them. -/
theorem exec_gangStart {pool : Nat} {rest : List Inst} {sites : List (Option Nat)} (hc : comb < 24) (hp : pool < 4)
    (hl : s.pool comb pool = i :: rest) (hg : s.isGang i = true)
    (hs : sites = ((logicals .m).filter fun l => s.elig l i).map (fun l => s.serving comb l))
    (hall : ∀ x ∈ sites, ∃ k, x = some k ∧ s.idle k = true) :
    exec
      (.gangStart comb pool) s = .next ((sites.filterMap id).foldl (fun s t => s.startInst t i) (s.setPool comb pool rest)) := by
  have hidle : (sites.all fun x => match x with
      | some t => s.idle t
      | none => false) = true := by
    refine List.all_eq_true.2 fun x hx => ?_
    obtain ⟨k, rfl, hk⟩ := hall x hx
    exact hk
  change execGangStart comb pool s = _
  rw [execGangStart, onUnit_next (decide_eq_true ⟨hc, hp⟩), hl]
  simp only [← hs, hg, Bool.true_and]
  exact congrArg _ (if_pos hidle)

/-- Settles O32: an `Inst` leaves, is foraged, or starts as a gang. -/
theorem instances : Obligations.Instances := by
  unfold Obligations.Instances
  refine ⟨?completes, ?forages, ?gang⟩
  case completes =>
    intro site cyc i s r u hs hk hi he hw hr hq hu
    exact exec_instanceComplete hs hk hi he hw hr hq hu
  case forages =>
    intro site l d p i s hs hk hl hi hg hf
    exact exec_forage hs hk hl hi hg hf
  case gang =>
    intro comb pool i rest sites s hc hp hl hg hs hall
    exact exec_gangStart hc hp hl hg hs hall

end

/-! ### Launches (R386 to R406) -/

section
variable {l : LRec} {rest : List DispRec}

/-- A launch record that no switch and no graph holds back is taken and checked. -/
theorem exec_launch (hq : s.prog.dq = .launch l :: rest) (hh : s.switchHolds l = false) (hg : s.graphBusy l = false)
    (hu : u = { s with prog := { s.prog with dq := rest } }) : exec .launch s =
      match u.checkLaunch l with
      | .bad c => .next (u.rejectLaunch l c)
      | .ok n i im b => .next (u.startLaunch l n i im b) := by
  change execLaunch s = _
  simp only [execLaunch, hq, hh, hg, hu] <;> rfl

end

/-- An `Inst` joins the end of a pool. -/
def State.joinPool (s : State) (comb p : Nat) (i : Inst) : State := s.setPool comb p (s.pool comb p ++ [i])

theorem State.pool_joinPool (c p c' p' : Nat) (i : Inst) : (s.joinPool c p i).pool c' p' =
    if poolKey c' p' = poolKey c p then s.pool c p ++ [i] else s.pool c' p' := by
  have hput : (s.joinPool c p i).prog.pools = sput s.prog.pools (poolKey c p) (s.pool c p ++ [i]) := if_neg (by simp [poolDflt])
  rw [State.pool, sget, hput, sfind_sput]
  split <;> rfl

theorem State.mem_pool_joinPool {c p : Nat} {i : Inst} : i ∈ (s.joinPool c p i).pool c p := by
  rw [State.pool_joinPool, if_pos rfl]
  exact List.mem_append_right _ (List.mem_singleton_self i)

/-- What waits in a pool goes on waiting when another `Inst` joins. -/
theorem State.pool_subset_joinPool {c p c' p' : Nat} {i x : Inst} (hx : x ∈ s.pool c' p') :
    x ∈ (s.joinPool c p i).pool c' p' := by
  rw [State.pool_joinPool]
  split
  next hk =>
    have hsame : s.pool c' p' = s.pool c p := by rw [State.pool, State.pool, hk]
    exact List.mem_append_left _ (hsame ▸ hx)
  next => exact hx

/-- The instances of a template join their pools, one after the other. -/
def State.joinAll (s : State) (c : Nat) (tm : Template) (inst : Nat → Inst) (n : Nat) : State :=
  (List.range n).foldl (fun s j => s.joinPool c (poolOf tm j) (inst j)) s

section
variable {c n : Nat} {tm : Template} {inst : Nat → Inst}

theorem State.joinAll_succ :
    s.joinAll c tm inst (n + 1) = (s.joinAll c tm inst n).joinPool c (poolOf tm n) (inst n) := by
  rw [State.joinAll, List.range_succ, List.foldl_append]
  rfl

theorem State.mem_pool_joinAll {j : Nat} (hj : j < n) : inst j ∈ (s.joinAll c tm inst n).pool c (poolOf tm j) := by
  induction n with
  | zero => omega
  | succ n ih =>
    rw [State.joinAll_succ]
    obtain hlt | rfl := Nat.lt_succ_iff_lt_or_eq.1 hj
    · exact State.pool_subset_joinPool (ih hlt)
    · exact State.mem_pool_joinPool

theorem State.pool_subset_joinAll {c' p' : Nat} {x : Inst} (hx : x ∈ s.pool c' p') : x ∈ (s.joinAll c tm inst n).pool c' p' := by
  induction n with
  | zero => exact hx
  | succ n ih => exact State.joinAll_succ (s := s) ▸ State.pool_subset_joinPool ih

/-- Only the pools of the program state change. -/
theorem State.prog_joinAll : (s.joinAll c tm inst n).prog.launches = s.prog.launches
    ∧ (s.joinAll c tm inst n).prog.slots = s.prog.slots ∧ (s.joinAll c tm inst n).prog.runs = s.prog.runs := by
  induction n with
  | zero => exact ⟨rfl, rfl, rfl⟩
  | succ n ih => exact State.joinAll_succ (s := s) ▸ ih

end

section
variable {launch tmpl : Nat} {l : Launch} {r : TmplRun} {im : Image} {tm : Template}

/-- The template is marked released in its launch. -/
def State.markReleased (s : State) (launch tmpl : Nat) : State :=
  s.updLaunch launch fun l => { l with tmpls := l.tmpls.map fun x => if x.idx = tmpl then { x with released := true } else x }

theorem State.ids_markReleased : (s.markReleased launch tmpl).prog.launches.map (·.id) = s.prog.launches.map (·.id) := by
  simp only [State.markReleased, State.updLaunch, List.map_map]
  refine List.map_congr_left fun l _ => ?_
  rw [Function.comp_apply]
  split <;> rfl

theorem exec_templateRelease (hl : s.launch? launch = some l) (hr : l.tmpls.find? (fun t => t.idx == tmpl) = some r)
    (him : (s.slot l.slot).img = some im) (htm : im.tasks[tmpl]? = some tm) (hrel : r.released = false)
    (h0 : l.depMet tm.dep0 = true) (h1 : l.depMet tm.dep1 = true) :
    exec (.templateRelease launch tmpl) s = .next ((s.markReleased launch tmpl).joinAll (s.physComb tm.home) tm
      (fun j => ⟨launch, tmpl, j, r.first + j, s.physComb tm.home⟩) r.total) := by
  change execTemplateRelease launch tmpl s = _
  simp only [execTemplateRelease, hl, hr, him, Option.bind_some, htm, hrel, h0, h1]
  rfl

/-- Settles O33: the record at the head starts or is rejected; a released template's instances all wait in their pools. -/
theorem launches : Obligations.Launches := by
  unfold Obligations.Launches
  refine ⟨?starts, ?rejected, ?released⟩
  case starts =>
    intro l rest n i im b s u hq hh hg hu hc
    rw [exec_launch hq hh hg hu, hc]
  case rejected =>
    intro l rest c s u hq hh hg hu hc
    rw [exec_launch hq hh hg hu, hc]
  case released =>
    intro launch tmpl l r im tm s hl hr him htm hrel h0 h1
    have hex := exec_templateRelease hl hr him htm hrel h0 h1
    obtain ⟨hlaunches, hslots, hruns⟩ := State.prog_joinAll (s := s.markReleased launch tmpl) (c := s.physComb tm.home) (tm := tm)
      (inst := fun j => ⟨launch, tmpl, j, r.first + j, s.physComb tm.home⟩) (n := r.total)
    have hw : Within (mask [.prog]) s _ := exec_within _ s _ hex
    refine .of_within hex hw
      ⟨fun j hj => State.mem_pool_joinAll (inst := fun j => ⟨launch, tmpl, j, r.first + j, s.physComb tm.home⟩) hj,
        fun c p x hx => State.pool_subset_joinAll hx, ?_, hslots, hruns⟩
    rw [hlaunches, State.ids_markReleased]

end

/-! ### Switch records (R379, R382, R385) -/

section
variable {w : Switching} {x : SwitchRec} {rest : List DispRec}

/-- A change of the program state that keeps its stores canonical. -/
theorem State.progChange_within (x : Prog) (h0 : swf slotDflt s.prog.slots = true → swf slotDflt x.slots = true)
    (h1 : swf runDflt s.prog.runs = true → swf runDflt x.runs = true) : Within (mask [.prog]) s { s with prog := x } :=
  Within.refl.set_prog (by decide) h0 h1

/-- Without a switch under way or loaded there is no shadow to drop. -/
theorem State.dropShadow_none (hc : s.prog.cur = none) (hp : s.prog.pre = none) : s.dropShadow = s := by
  have hs : s.shadow = none := by simp [State.shadow, hc, hp]
  rw [State.dropShadow, hs]

/-- The switch record at the queue's head is taken when the Keeper has none of its own. -/
theorem exec_switchRecord (hc : s.prog.cur = none) (ha : s.prog.ahead = []) (hq : s.prog.dq = .switch x :: rest)
    (hu : u = { s with prog := { s.prog with dq := rest } }) : exec .switchRecord s = .next (u.takeSwitch x) := by
  change execSwitchRecord s = _
  rw [execSwitchRecord, if_neg (by simp [hc]), ha, hq, hu]

theorem State.takeSwitch_refused {c : Nat} (hc : s.switchRule x = c) (hne : c ≠ 0) :
    s.takeSwitch x = (s.record x.done (doneRec 2 c 0xFF 0 0 0 0)).log pgMrd 0x0F03 c x.slot 0 0 := by
  rw [State.takeSwitch, hc]
  exact if_pos hne

/-- A switch without a loaded shadow begins. -/
theorem State.takeSwitch_begins (hr : s.switchRule x = 0) (hc : s.prog.cur = none) (hp : s.prog.pre = none) :
    s.takeSwitch x = { s with prog := { s.prog with
      cur := some { sw := x, loaded := false, since := s.dev.chrono, combs := [], left := [] } } } := by
  rw [State.takeSwitch, hr, hp]
  simp only [Option.filter_none, State.dropShadow_none hc hp]
  rfl

/-- A switch whose shadow is loaded begins with it. -/
theorem State.takeSwitch_loaded (hr : s.switchRule x = 0) (hp : s.prog.pre = some w) (hw : w.sw = x) :
    s.takeSwitch x = { s with prog := { s.prog with cur := some { w with since := s.dev.chrono }, pre := none } } := by
  have hf : (some w).filter (fun w => decide (w.sw = x)) = some w := by simp [hw]
  rw [State.takeSwitch, hr, hp, hf]
  rfl

end

/-! ### The shadow copies (R364, R379, R380) -/

section
variable {w : Switching} {im : Image} {b : List Byte}

theorem exec_switchShadowLoad (hc : s.prog.cur = some w) (hl : w.loaded = false) :
    exec .switchShadowLoad s = .next (s.stepOne w) := by
  change execSwitchShadowLoad s = _
  simp only [execSwitchShadowLoad, hc, hl]
  rfl

/-- The switch that is next is loaded before it begins. -/
theorem exec_switchShadowLoad_next {x : SwitchRec} (hc : s.prog.cur = none) (hn : s.nextSwitch = some x)
    (hr : s.switchRule x = 0) (hp : s.prog.pre = none) :
    exec .switchShadowLoad s = .next (s.stepOne { sw := x, loaded := false, since := s.dev.chrono, combs := [], left := [] }) := by
  change execSwitchShadowLoad s = _
  simp only [execSwitchShadowLoad, hc, hn, hr, hp, State.dropShadow_none hc hp]
  rfl

theorem State.stepOne_null (hf : s.shadowFree = true) (hn : w.sw.slot = nullSlot) : s.stepOne w = s.loadShadow w none := by
  rw [State.stepOne, if_neg (by simp [hf]), if_pos hn]

/-- The image of a slot is read; one that is corrupt abandons the switch. -/
theorem State.stepOne_read (hf : s.shadowFree = true) (hn : w.sw.slot ≠ nullSlot) (hi : (s.slot w.sw.slot).img = some im)
    (hu : u = s.noteRead (s.slot w.sw.slot).addr im.size none) (hb : u.dram (s.slot w.sw.slot).addr im.size = some b) :
    s.stepOne w = if headBad b || crcBad b then u.switchCrc w
      else (u.updSlot w.sw.slot fun y => { y with img := some (imageOf b) }).loadShadow w (some (imageOf b)) := by
  rw [State.stepOne, if_neg (by simp [hf]), if_neg hn]
  simp only [hi, ← hu, hb]

end

/-! ### Combs switch (R291, R378, R381) -/

section
variable {w : Switching}

theorem exec_combEpochSwitch_flush (hk : comb < 24) (hc : s.prog.cur = some w) (hr : s.switchReady w comb = true)
    (hf : w.sw.flush = true) : exec (.combEpochSwitch comb cyc) s = .next (s.switchComb w comb cyc true) := by
  change execCombEpochSwitch comb cyc s = _
  rw [execCombEpochSwitch, onUnit_next (decide_eq_true hk), hc]
  dsimp only
  rw [if_neg (by simp [hr]), if_pos hf]

theorem exec_combEpochSwitch_drain (hk : comb < 24) (hc : s.prog.cur = some w) (hr : s.switchReady w comb = true)
    (hf : w.sw.flush = false) (hu : u = ((List.range 120).map (mkSite comb)).foldl (fun s k =>
      (if siteKind k == .w then s.wRun k cyc else s).sendMarkers k) s) :
    exec (.combEpochSwitch comb cyc) s = .next (if u.combDrained comb then u.switchComb w comb cyc false else u) := by
  change execCombEpochSwitch comb cyc s = _
  rw [execCombEpochSwitch, onUnit_next (decide_eq_true hk), hc]
  dsimp only
  rw [if_neg (by simp [hr]), if_neg (by simp [hf]), ← hu]

theorem exec_epochDrainTimeout (hk : comb < 24) (hc : s.prog.cur = some w) (hr : s.switchReady w comb = true)
    (hf : w.sw.flush = false) (hl : w.sw.limit ≠ 0) (ht : w.since + 1000 * w.sw.limit ≤ s.dev.chrono) :
    exec (.epochDrainTimeout comb cyc) s = .next
      ((s.log (pgCmb comb) 0x1503 comb (s.epochOf comb) 0 0).switchComb w comb cyc true) := by
  change execEpochDrainTimeout comb cyc s = _
  rw [execEpochDrainTimeout, onUnit_next (decide_eq_true hk), hc]
  simp only
  rw [if_pos (by simp [hr, hf, hl, ht])]

end

/-- Settles O34: the record, the shadow copies and the combs' switch, case by case. -/
theorem switches : Obligations.Switches := by
  unfold Obligations.Switches
  refine ⟨?begins, ?refused, ?loads, ?corrupt, ?flush, ?drain, ?limit, ?loaded, ?null⟩
  case begins =>
    intro x rest s hc ha hq hr hp
    have hex := exec_switchRecord hc ha hq rfl
    rw [State.takeSwitch_begins hr hc hp] at hex
    exact .of_within hex (State.progChange_within _ id id) rfl
  case refused =>
    intro x rest c s u hc ha hq hu hr hne
    rw [exec_switchRecord hc ha hq hu, State.takeSwitch_refused hr hne]
  case loads =>
    intro w im b s u hc hl hf hn hi hu hb hhead hcrc
    rw [exec_switchShadowLoad hc hl, State.stepOne_read hf hn hi hu hb, if_neg (by simp [hhead, hcrc])]
  case corrupt =>
    intro w im b s u hc hl hf hn hi hu hb hcrc
    rw [exec_switchShadowLoad hc hl, State.stepOne_read hf hn hi hu hb, if_pos (by simp [hcrc])]
  case flush =>
    intro comb cyc w s hk hc hr hf
    exact exec_combEpochSwitch_flush hk hc hr hf
  case drain =>
    intro comb cyc w s u hk hc hr hf hu
    exact exec_combEpochSwitch_drain hk hc hr hf hu
  case limit =>
    intro comb cyc w s hk hc hr hf hl ht
    exact exec_epochDrainTimeout hk hc hr hf hl ht
  case loaded =>
    intro x rest w s hc ha hq hr hp hw
    have hex := exec_switchRecord hc ha hq rfl
    rw [State.takeSwitch_loaded hr hp hw] at hex
    exact .of_within hex (State.progChange_within _ id id) rfl
  case null =>
    intro x s hc hn hr hp hf hs
    rw [exec_switchShadowLoad_next hc hn hr hp, State.stepOne_null hf hs]

end

section

variable {s t u v w : State} {src : Source} {mb op : Nat} {f : State → MbRes}

/-! ### The Keeper's mailboxes (R687, R853 to R856) -/

/-- An order whose result is not 0, or that finds an operation running, leaves its record and its answer. -/
theorem State.mailbox_refused {r : Nat} (hm : mb < 4)
    (hr : (if s.lock && src != .keeper then 5 else if (s.page (pgKpr mb)).own == some src then 0 else 4) = r)
    (hb : r ≠ 0 ∨ bit (s.regN (pgKpr mb) 0x040) 31 = true) :
    s.mailbox src mb op f = .next ((s.order src (pgKpr mb) 0x044 r).goReply src (pgKpr mb) 0x044 r) := by
  rw [State.mailbox, onUnit_next (decide_eq_true hm)]
  simp only [hr, if_pos hb]

/-- Every order at a mailbox is one of its operations. -/
theorem exec_mailbox {ports : List TrainInfo} {c : Instr}
    (hc : c ∈ ([.imageInstall src mb, .imageRemove src mb, .imageQuery src mb, .treathRetrain src mb ports, .policySet src mb,
      .fwUpdate src mb, .floorCommit src mb, .licenceInstall src mb, .ownerKeySet src mb, .lcsRequest src mb] : List Instr)) :
    ∃ op f, exec c s = s.mailbox src mb op f := by
  simp only [List.mem_cons, List.not_mem_nil, or_false] at hc
  obtain rfl | rfl | rfl | rfl | rfl | rfl | rfl | rfl | rfl | rfl := hc
  exacts [⟨0x01, _, (by change execImageInstall src mb s = _; rfl)⟩, ⟨0x02, _, (by change execImageRemove src mb s = _; rfl)⟩,
    ⟨0x03, _, (by change execImageQuery src mb s = _; rfl)⟩, ⟨0x10, _, (by change execTreathRetrain src mb ports s = _; rfl)⟩,
    ⟨0x11, _, (by change execPolicySet src mb s = _; rfl)⟩, ⟨0x20, _, (by change execFwUpdate src mb s = _; rfl)⟩,
    ⟨0x21, _, (by change execFloorCommit src mb s = _; rfl)⟩, ⟨0x30, _, (by change execLicenceInstall src mb s = _; rfl)⟩,
    ⟨0x31, _, (by change execOwnerKeySet src mb s = _; rfl)⟩, ⟨0x40, _, (by change execLcsRequest src mb s = _; rfl)⟩]

/-- Settles O35: whatever the operation, the mailbox answers before it looks at it. -/
theorem mailboxRefuses : Obligations.MailboxRefuses := by
  unfold Obligations.MailboxRefuses
  refine ⟨?notOwner, ?locked, ?busy⟩
  case notOwner =>
    intro src mb ports c s hm hl ho hc
    obtain ⟨op, f, hex⟩ := exec_mailbox hc
    rw [hex, State.mailbox_refused (r := 4) hm (by simp [hl, ho]) (.inl (by decide))]
  case locked =>
    intro src mb ports c s hm hl hc
    obtain ⟨op, f, hex⟩ := exec_mailbox hc
    rw [hex, State.mailbox_refused (r := 5) hm (by simp [hl]) (.inl (by decide))]
  case busy =>
    intro src mb ports c s hm hl ho hb hc
    obtain ⟨op, f, hex⟩ := exec_mailbox hc
    rw [hex, State.mailbox_refused (r := 0) hm (by simp [hl, ho]) (.inr hb)]

theorem State.keeper_mbGo : (s.mbGo src mb op).dev.keeper = s.dev.keeper := by
  have hw : Within (mask [.regs, .pages, .ev, .out]) s (s.mbGo src mb op) := by
    rw [State.mbGo]
    split
    · exact Within.refl.setReg.setReg
    · exact Within.refl.setReg.order.goReply.setReg
  exact congrArg Dev.keeper (hw.same .dev (by decide))

/-- An operation that the mailbox takes runs on the state that shows it, and is done unless it goes on. -/
theorem State.mailbox_open (ho : MbOpen src mb s) (hu : u = s.mbGo src mb op) : s.mailbox src mb op f =
    .next (if (f u).runs then (f u).s else (f u).s.mbDone mb op (f u).code (f u).out0 (f u).out1) := by
  obtain ⟨hm, hl, hown, hbusy, hkeeper⟩ := ho
  have hr : (if s.lock && src != .keeper then 5 else if (s.page (pgKpr mb)).own == some src then 0 else 4) = 0 := by
    simp [hl, hown]
  have hgo : ¬((!u.dev.keeper) = true) := by simp [hu, State.keeper_mbGo, hkeeper]
  rw [State.mailbox, onUnit_next (decide_eq_true hm)]
  simp only [hr, if_neg (show ¬(0 ≠ 0 ∨ bit (s.regN (pgKpr mb) 0x040) 31 = true) by simp [hbusy])]
  subst hu
  exact congrArg _ (if_neg hgo)

/-- An operation that ends at once. -/
theorem State.mailbox_done {c a b : Nat} (ho : MbOpen src mb s) (hu : u = s.mbGo src mb op) (hf : f u = ⟨v, c, a, b, false⟩) :
    s.mailbox src mb op f = .next (v.mbDone mb op c a b) := by
  rw [State.mailbox_open ho hu, hf]
  rfl

/-- Settles O36: each operation's answer on the state that shows it. -/
theorem mailboxImages : Obligations.MailboxImages := by
  unfold Obligations.MailboxImages
  refine ⟨?install, ?remove, ?query, ?retrain, ?policy⟩
  case install =>
    intro src mb n a h b s u v ho hu hn ha hn63 hal hsize hact hh hb hv hrule
    change execImageInstall src mb s = _
    rw [execImageInstall]
    refine State.mailbox_done ho hu ?_
    have hbytes : u.imageBytes a = some b := by rw [State.imageBytes, hh, Option.bind_some, hb]
    rw [hn, ha, State.installImage, if_neg (by omega), if_neg hact, hbytes, hh]
    simp only [Option.elim_some, ← hv, hrule]
    rfl
  case remove =>
    intro src mb n s u ho hu hn hn63 hact
    change execImageRemove src mb s = _
    rw [execImageRemove]
    refine State.mailbox_done ho hu ?_
    simp only [hn, if_neg (Nat.not_lt.2 hn63), if_neg hact]
    rfl
  case query =>
    intro src mb n im s u ho hu hn hn63 him
    change execImageQuery src mb s = _
    rw [execImageQuery]
    refine State.mailbox_done ho hu ?_
    simp only [hn, if_neg (Nat.not_lt.2 hn63), him]
    rfl
  case retrain =>
    intro src mb ports s u ho hu hs
    change execTreathRetrain src mb ports s = _
    rw [execTreathRetrain]
    refine State.mailbox_done ho hu ?_
    simp only [hs]
    rfl
  case policy =>
    intro src mb r s u t ho hu hc h2 h5
    change execPolicySet src mb s = _
    rw [execPolicySet]
    refine State.mailbox_done ho hu ?_
    simp only [hc, if_neg h2, if_neg h5]
    rfl

/-- The flash write's end tells the mailbox that asked. -/
theorem exec_fwUpdateDone {x : FwWrite} (hx : s.nv.update = some x) (hm : x.mailbox = some mb) :
    exec .fwUpdateDone s = .next (((({ s with nv := { s.nv.setBank (1 - s.nv.active) (s.nv.written x) with
      update := none } } : State).log (pgKpr 0) 0x1602 x.comp x.version (1 - s.nv.active) 0)).mbDone mb 0x20 0 0 0) := by
  change execFwUpdateDone s = _
  simp only [execFwUpdateDone, hx, hm]
  rfl

/-- Settles O37: each operation's answer on the state that shows it; the update's answer comes with the end of its write. -/
theorem mailboxFirmware : Obligations.MailboxFirmware := by
  unfold Obligations.MailboxFirmware
  refine ⟨?update, ?written, ?floor, ?licence, ?ownerKey, ?lifeCycle, ?newOwnerKey⟩
  case update =>
    intro src mb p x s u v ho hu hlive hup hv hp hx h0
    change execFwUpdate src mb s = _
    rw [execFwUpdate]
    refine (State.mailbox_open ho hu).trans ?_
    simp only [hlive, hup, ← hv, hp, hx, h0]
    rfl
  case written =>
    intro x mb s hx hm
    exact exec_fwUpdateDone hx hm
  case floor =>
    intro src mb c f s u ho hu hc hf hc0 hc6 hf127 hlow hhigh
    change execFloorCommit src mb s = _
    rw [execFloorCommit]
    refine State.mailbox_done ho hu ?_
    simp only [hc, hf, if_neg (show ¬(c = 0 ∨ 6 < c ∨ 127 < f) by omega),
      if_neg (show ¬(f < u.nv.floor c ∨ objSvn (u.nv.obj u.nv.active c) < f) by omega)]
    rfl
  case licence =>
    intro src mb o s u v ho hu hlive hup hv hd h0
    change execLicenceInstall src mb s = _
    rw [execLicenceInstall]
    refine State.mailbox_done ho hu ?_
    simp only [hlive, hup, ← hv, hd, h0]
    rfl
  case ownerKey =>
    intro src mb k s u v ho hu hlife hv howner hd
    change execOwnerKeySet src mb s = _
    rw [execOwnerKeySet]
    refine State.mailbox_done ho hu ?_
    simp only [hlife, ← hv, howner, hd]
    rfl
  case lifeCycle =>
    intro src mb o s u v w ho hu hlive hup hv hd htok hvend hmove hauth hw
    change execLcsRequest src mb s = _
    rw [execLcsRequest]
    refine State.mailbox_done ho hu ?_
    simp only [hlive, hup, ← hv, hd, htok, hvend, hmove, hauth, ← hw]
    rfl
  case newOwnerKey =>
    intro src mb k o s u v w ho hu hlife hv howner hd h1 hw hdo hbody hok
    change execOwnerKeySet src mb s = _
    rw [execOwnerKeySet]
    refine State.mailbox_done ho hu ?_
    have hset : v.nv.owner.isNone = false := by
      rw [Option.isNone_eq_false_iff]
      exact Option.isSome_iff_ne_none.2 howner
    simp only [hlife, ← hv, hset, hd, if_neg h1, ← hw, hdo, hbody, hok]
    rfl

end

section

variable {s t f u : State} {off stream n op : Nat} {data : List Byte}

/-! ### Bits of registers -/

theorem bit_eq_testBit (v i : Nat) : bit v i = v.testBit i := by
  rw [bit, Nat.testBit_eq_decide_div_mod_eq]
  exact beq_eq_decide ..

theorem bit_putBits_one (v b : Nat) : bit (putBits v b b 1) b = true := by
  have hlt : v % 2 ^ b < 2 ^ b := Nat.mod_lt _ (Nat.two_pow_pos b)
  have hdiv : putBits v b b 1 / 2 ^ b = v / 2 ^ (b + 1) * 2 + 1 := by
    have hsum : putBits v b b 1 = v % 2 ^ b + 2 ^ b * (v / 2 ^ (b + 1) * 2 + 1) := by
      rw [putBits, Nat.add_sub_cancel_left]
      ring
    rw [hsum, Nat.add_mul_div_left _ _ (Nat.two_pow_pos b), Nat.div_eq_of_lt hlt, Nat.zero_add]
  rw [bit, hdiv]
  simp [Nat.add_mod]

theorem bit_mod_two_pow {b k : Nat} (v : Nat) (h : b < k) : bit (v % 2 ^ k) b = bit v b := by
  rw [bit_eq_testBit, bit_eq_testBit, Nat.testBit_mod_two_pow, decide_eq_true h, Bool.true_and]

theorem State.regN_setReg (h : swf regDflt s.regs = true) (p off v q o : Nat) :
    (s.setReg p off v).regN q o = if regKey q o = regKey p off then v % 2 ^ 32 else s.regN q o := by
  rw [State.regN, State.reg_setReg s h]
  split
  · exact BitVec.toNat_ofNat ..
  · rfl

/-- A fault bit that is set reads back. -/
theorem State.flagged_flag {p b : Nat} (h : swf regDflt s.regs = true) (hb : b < 32) : (s.flag p b).flagged p b = true := by
  rw [State.flagged, State.flag, State.regN_setReg h, if_pos rfl, bit_mod_two_pow _ hb, bit_putBits_one]

/-! ### The intake window (R429 to R433, R652) -/

theorem exec_intakeWrite (ho : s.intakeOpen = true) (hl : off + data.length ≤ 0x8000000) :
    exec (.intakeWrite off data false) s = .next ((slotParts off data).foldl State.slotWrite s) := by
  change execIntakeWrite off data false s = _
  rw [execIntakeWrite, if_neg Bool.false_ne_true, if_neg (by simp [ho, hl])]

theorem exec_intakeWrite_poisoned : exec (.intakeWrite off data true) s = .next (s.aerReport 0x1000) := by
  change execIntakeWrite off data true s = _
  rw [execIntakeWrite, if_pos rfl]

theorem exec_intakeWrite_dropped (h : s.intakeOpen = false ∨ 0x8000000 < off + data.length) :
    exec (.intakeWrite off data false) s = .next s.dropWrite := by
  change execIntakeWrite off data false s = _
  rw [execIntakeWrite, if_neg Bool.false_ne_true, if_pos (by simpa using h)]

/-- What AER shows of a poisoned write. -/
theorem State.aer_aerReport (x : Nat) : (s.aerReport x).host.aer = s.host.aer ||| w32 x := by
  have hw : Within (mask [.regs, .ev, .out])
      (({ s with host := { s.host with aer := s.host.aer ||| w32 x } } : State).emit (.aer (w32 x))) (s.aerReport x) :=
    Within.refl.report
  exact congrArg HostPort.aer (hw.same .host (by decide))

/-- A stream's partial slot goes. -/
def State.withoutSlot (s : State) (stream : Nat) : State :=
  { s with intake := { s.intake with asm := s.intake.asm.filter fun x => x.stream != stream } }

theorem exec_intakePartial {a : Asm} (ha : s.asmOf stream = some a) (h0 : s.regN pgInt 0x064 ≠ 0)
    (ht : a.since + s.regN pgInt 0x064 * 1000 ≤ s.dev.chrono) :
    exec (.intakePartial stream) s = .next ((s.withoutSlot stream).dropPartial stream a.bytes.length 1) := by
  change execIntakePartial stream s = _
  simp only [execIntakePartial, ha]
  rw [if_neg (by omega)]
  rfl

theorem State.asmOf_withoutSlot (x : Nat) : (s.withoutSlot stream).asmOf x = if x = stream then none else s.asmOf x := by
  rw [State.asmOf, State.withoutSlot, List.find?_filter]
  split
  next hx =>
    subst hx
    exact List.find?_eq_none.2 fun a _ => by simp
  next hx =>
    refine List.find?_congr fun a _ => ?_
    by_cases ha : a.stream = x <;> simp [ha, hx]

/-- Counting and reporting a dropped slot touches no other. -/
theorem State.asmOf_dropPartial (held cause x : Nat) : (s.dropPartial stream held cause).asmOf x = s.asmOf x := by
  have hw : Within (mask [.regs, .ev, .out]) s (s.dropPartial stream held cause) := Within.refl.dropPartial
  rw [State.asmOf, hw.same .intake (by decide)]
  rfl

/-! ### Fetches (R431, R436, R441) -/

/-- The head of the queue of records is the first to be fetched. -/
theorem updFetch_head {g : Pend → Pend} {p : Pend} {rest : List Pend} (h : p.fetched = false) :
    updFetch g (p :: rest) = g p :: rest := if_neg (by simp [h])

theorem exec_appendFetchDone {toks : List Word} {p : Pend} {rest : List Pend} (hp : s.pendOf stream = p :: rest)
    (h : p.fetched = false) :
    exec (.appendFetchDone stream toks) s = .next ((s.fillStage p.stage toks).setPend stream
      (updFetch (fun p => { p with fetched := true, toks := fit 0 (leAt p.raw 8 4) toks })
        ((s.fillStage p.stage toks).pendOf stream))) := by
  change execAppendFetchDone stream toks s = _
  have hfind : (s.pendOf stream).find? (fun p => !p.fetched) = some p := by simp [hp, h]
  rw [execAppendFetchDone, hfind]

theorem exec_hostReadCompletionTimeout : exec (.hostReadCompletionTimeout stream) s = .next
    (s.setPend stream (updFetch (fun p => { p with fetched := true, failed := true }) (s.pendOf stream))) := rfl

theorem State.pendOf_setPend_cons (p : Pend) (rest : List Pend) : (s.setPend stream (p :: rest)).pendOf stream = p :: rest := by
  have hput : (s.setPend stream (p :: rest)).intake.pend = sput s.intake.pend stream (p :: rest) := by
    change sset listDflt s.intake.pend stream (p :: rest) = _
    rw [sset, if_neg (by simp [listDflt])]
  rw [State.pendOf, sget, hput, sfind_sput, if_pos rfl]
  rfl

/-- Settles O38: what a write, a time-out and a fetch's end leave. -/
theorem intakeWrites : Obligations.IntakeWrites := by
  unfold Obligations.IntakeWrites
  refine ⟨?write, ?poisoned, ?dropped, ?partialSlot, ?fetched, ?failed⟩
  case write =>
    intro off data s ho hl
    exact exec_intakeWrite ho hl
  case poisoned =>
    intro off data s
    exact .of_within exec_intakeWrite_poisoned Within.refl.aerReport
      ⟨State.aer_aerReport 0x1000, (Within.refl.aerReport (M := mask [.regs, .ev, .out, .host])).same .intake (by decide)⟩
  case dropped =>
    intro off data s i h
    refine .of_within (exec_intakeWrite_dropped h) Within.refl.dropWrite ⟨?_, ?_⟩
    · rw [State.dropWrite, State.flag, State.regN_setReg (s := s.incReg pgInt 0x074) (State.setReg_regs_wf s i.regs ..),
        if_neg (by decide), State.regN_incReg i.regs]
    · exact State.flagged_flag (State.setReg_regs_wf s i.regs ..) (by decide)
  case partialSlot =>
    intro stream a s ha h0 ht
    have hw : Within (mask [.regs, .ev, .out, .intake]) s (s.withoutSlot stream) := Within.refl.set_intake (by decide) id
    refine .of_within (exec_intakePartial ha h0 ht) hw.dropPartial ⟨?_, fun x hx => ?_⟩
    · rw [State.asmOf_dropPartial, State.asmOf_withoutSlot, if_pos rfl]
    · rw [State.asmOf_dropPartial, State.asmOf_withoutSlot, if_neg hx]
  case fetched =>
    intro stream toks p rest s hp h
    exact ⟨exec_appendFetchDone hp h, updFetch_head h⟩
  case failed =>
    intro stream p rest s hp h
    refine .of_within exec_hostReadCompletionTimeout Within.refl.setPend ⟨?_, fun x hx => sget_sset_other hx⟩
    rw [hp, updFetch_head h, State.pendOf_setPend_cons]

/-! ### Records (R423, R426, R439 to R446) -/

/-- Every record command is a record point of its operation. -/
theorem exec_record {c : Instr}
    (hc : (op, c) ∈ ([(1, .openRec n), (2, .appendRec n), (3, .generateRec n), (4, .pauseRec n), (5, .resumeRec n), (6, .forkRec n),
      (7, .closeRec n), (8, .queryRec n)] : List (Nat × Instr))) : exec c s = .next (s.recordPoint op n) := by
  simp only [List.mem_cons, Prod.mk.injEq, List.not_mem_nil, or_false] at hc
  obtain ⟨rfl, rfl⟩ | ⟨rfl, rfl⟩ | ⟨rfl, rfl⟩ | ⟨rfl, rfl⟩ | ⟨rfl, rfl⟩ | ⟨rfl, rfl⟩ | ⟨rfl, rfl⟩ | ⟨rfl, rfl⟩ := hc
  exacts [rfl, rfl, rfl, rfl, rfl, rfl, rfl, rfl]

/-- One record at a record point is the head of its stream. -/
theorem State.applyPending_one {p : Pend} {rest : List Pend} (hp : s.pendOf n = p :: rest) (h : p.fetched = true) :
    s.applyPending n 1 = (s.setPend n rest).applyRecord n p := by
  rw [State.applyPending, hp]
  exact if_pos h

theorem State.recordPoint_eq {p : Pend} {rest : List Pend} (ht : s.recordTime = true) (hh : s.headIs op n = true)
    (hf : f = s.faultPoint) (hp : (f.showOseq n).pendOf n = p :: rest) (h : p.fetched = true)
    (hu : u = ((f.showOseq n).setPend n rest).applyRecord n p) : s.recordPoint op n =
      ((if (u.stream n).st = 1 ∨ (u.stream n).st = 2 ∨ (u.stream n).st = 3 then u.setStream n (u.stream n).derive else u).streamWrites
        n (f.stream n) []).kvLow := by
  rw [State.recordPoint, if_neg (by simp [ht, hh])]
  simp only [← hf, State.applyPending_one hp h, ← hu]

/-- Settles O39: the record point of each of the eight operations. -/
theorem records : Obligations.Records := by
  unfold Obligations.Records
  intro op n c p rest s f u hc ht hh hf hp h hu
  rw [exec_record hc, State.recordPoint_eq ht hh hf hp h hu]

end

section

variable {s t u : State} {port : Nat} {t1 t2 t3 t4 r1 r2 : DWord} {off : Int}

/-! ### Time over the hive (R605 to R608) -/

/-- An offset is the first large one, outside a slice: the chronometer jumps. -/
def State.jumps (s : State) (off : Int) : Bool := !s.tre.time.stepped && decide (10000 < off.natAbs) && !s.inSlice

/-- The time state of an exchange with the parent. -/
def State.exchanged (s : State) (off : Int) : State :=
  { s with tre := { s.tre with time := { s.tre.time with
    offset := off, stepped := true, slew := if s.jumps off then 0 else off
    sync := decide (s.tre.time.hops ≤ 8) && (decide (off.natAbs < 20) || (s.tre.time.sync && off.natAbs == 20))
    holdover := none, last := s.dev.chrono } } }

/-- The chronometer jumps by an offset. -/
def State.jump (s : State) (off : Int) : State :=
  { s with dev := { s.dev with chrono := ((s.dev.chrono : Int) + off).toNat }
           tre := { s.tre with time := { s.tre.time with last := ((s.dev.chrono : Int) + off).toNat } } }

theorem exec_timeExchange (hp : port < 16) (hr : s.dev.running = true) (ht : s.timePeriod ≠ 0) (hc : s.carriesTime port = true)
    (hpar : s.tre.time.parent = some port) (hu : u = s.announce port) (ho : off = timeOffset t1 t2 t3 t4 r1 r2) :
    exec (.timeExchange port t1 t2 t3 t4 r1 r2) s = .next
      (if u.jumps off then (u.exchanged off).jump off else u.exchanged off) := by
  change execTimeExchange port t1 t2 t3 t4 r1 r2 s = _
  rw [execTimeExchange, onUnit_next (decide_eq_true hp), if_neg (by simp [hr, ht, hc]), if_neg (by simp [hpar])]
  simp only [← hu, ← ho]
  rfl

/-- A parent that has been silent for ten periods is left for another. -/
theorem exec_timeHoldover {p : Nat} (hp : s.tre.time.parent = some p) (ht : s.timePeriod ≠ 0) (hh : s.tre.time.holdover = none)
    (hl : s.tre.time.last + 10 * s.timePeriod ≤ s.dev.chrono)
    (hu : u = { s with tre := { s.tre with time := { s.tre.time with holdover := some s.dev.chrono } } }) :
    exec .timeHoldover s = .next
      (((u.report pgRte 3 0x0B04 p (wrapN 32 u.tre.time.offset) 0).updTP p fun t => { t with heard := none }).chooseParent) := by
  subst hu
  change execTimeHoldover s = _
  rw [execTimeHoldover, hp]
  simp only [hh]
  rw [if_neg (by simpa [ht] using hl)]

/-- Settles O46: an exchange slews or jumps; a silent parent is given up. -/
theorem timeKeeping : Obligations.TimeKeeping := by
  unfold Obligations.TimeKeeping
  refine ⟨?slews, ?jumps, ?holdover⟩
  case slews =>
    intro port t1 t2 t3 t4 r1 r2 off s u hp hr ht hc hpar hu ho hs
    have hj : u.jumps off = false := by
      obtain h | h | h := hs
      · simp [State.jumps, h]
      · simp [State.jumps, h]
      · simp [State.jumps, h]
    have hslew : (u.exchanged off).tre.time.slew = off := if_neg (by simp [hj])
    refine ⟨u.exchanged off, ?_, rfl, hslew, rfl, rfl, rfl, ?_⟩
    · rw [exec_timeExchange hp hr ht hc hpar hu ho, if_neg (by simp [hj])]
    · simp [State.exchanged]
  case jumps =>
    intro port t1 t2 t3 t4 r1 r2 off s u hp hr ht hc hpar hu ho hstep hbig hs
    have hj : u.jumps off = true := by simp [State.jumps, hstep, hbig, hs]
    have hslew : ((u.exchanged off).jump off).tre.time.slew = 0 := if_pos hj
    refine ⟨(u.exchanged off).jump off, ?_, rfl, hslew, rfl⟩
    rw [exec_timeExchange hp hr ht hc hpar hu ho, if_pos hj]
  case holdover =>
    intro p s u hp ht hh hl hu
    exact exec_timeHoldover hp ht hh hl hu

/-! ### Supplies and resets (R744, R795, R807, R884, R885) -/

section
variable {vCore vAux bridge wire : Nat} {env : StartEnv}

theorem exec_standbyInRange (h : s.dev.st = .off) :
    exec .standbyInRange s = .next { s with dev := { s.dev with st := .standby, bootLog := [(0, 1)] } } := by
  change execStandbyInRange s = _
  rw [execStandbyInRange, State.whenB, h]
  rfl

theorem exec_standbyLost (h : s.dev.st ≠ .off) : exec .standbyLost s = .next { State.reset with
      pending := s.pending, out := s.out, freeCtr := s.freeCtr
      nv := { s.nv with update := none, dwait := [], cut := none }
      dev := { State.reset.dev with st := .off, brakeIn := s.dev.brakeIn, bootLog := [] } } := by
  change execStandbyLost s = _
  rw [execStandbyLost, State.whenB, if_pos (by simpa using h)]

theorem exec_perstAssert (h : s.dev.st ≠ .off) (ht : s.dev.tripLatched = false) : exec .perstAssert s =
    .next (({ s with dev := { s.dev with perst := true } } : State).coldReset s.dev.st true) := by
  change execPerstAssert s = _
  rw [execPerstAssert]
  exact congrArg _ (if_neg (by simp [h, ht]))

theorem exec_resetAssert (h : s.dev.st ≠ .off) : exec .resetAssert s =
    .next (({ s with dev := { s.dev with resetN := true } } : State).coldReset s.dev.st false) := by
  change execResetAssert s = _
  rw [execResetAssert]
  exact congrArg _ (if_neg h)

theorem exec_inputRangeCut (hr : s.dev.running = true) (hc : cutRange vCore vAux = true) (ht : s.dev.tripLatched = false) :
    exec (.inputRangeCut vCore vAux) s = .next (({ s with
      nv := { s.nv with cut := some (vCore, vAux) }, dev := { s.dev with inRange := false } } : State).coldReset s.dev.st true) := by
  change execInputRangeCut vCore vAux s = _
  rw [execInputRangeCut, State.whenB, if_pos (by simp [hr, hc])]
  exact congrArg _ (if_neg (by simp [ht]))

theorem exec_defectAppendFlush (hu : s.nv.update = none) (hk : s.dev.keeper = true) : exec .defectAppendFlush s =
    .next { s with nv := { s.nv with dlist := s.nv.dlist ++ s.nv.dwait, dwait := [] } } := by
  change execDefectAppendFlush s = _
  rw [execDefectAppendFlush, State.whenB, if_pos (by simp [hu, hk])]

theorem exec_seamWireFail (hb : bridge < 156) (hw : wire < 544) (hn : (bridge, wire) ∉ s.nv.badWires) :
    exec (.seamWireFail bridge wire) s = .next { s with nv := { s.nv with badWires := s.nv.badWires ++ [(bridge, wire)] } } := by
  change execSeamWireFail bridge wire s = _
  rw [execSeamWireFail, onUnit_next (by simp [hb, hw]), if_neg (by simpa using hn)]

theorem exec_startInstant {a : Boot} (hs : s.dev.st = .standby) (ht : s.dev.tripLatched = false) (ha : s.boot env = a) :
    exec (.startInstant env) s = .next (if a.s.dev.st = .failed then a.s else if (a.s.test env).dev.st = .failed then a.s.test env
      else (a.s.test env).trainAll env a.banks a.s.nv.dlist.length) := by
  change execStartInstant env s = _
  rw [execStartInstant, State.whenB, if_pos (by simp [hs, ht])]
  simp only [ha, beq_iff_eq]

/-- Settles O59: what each reset keeps, and where a start ends. -/
theorem supplies : Obligations.Supplies := by
  unfold Obligations.Supplies
  refine ⟨?inRange, ?lost, ?perst, ?resetN, ?cut, ?flush, ?wire, ?bootFails, ?starts⟩
  case inRange =>
    intro s h
    exact .of_within (exec_standbyInRange h) (Within.refl.set_dev (by decide)) rfl
  case lost =>
    intro s h
    exact ⟨_, exec_standbyLost h, rfl, rfl, rfl, rfl, rfl⟩
  case perst =>
    intro s h ht
    exact ⟨_, exec_perstAssert h ht, rfl, rfl, rfl, rfl, rfl⟩
  case resetN =>
    intro s h
    exact ⟨_, exec_resetAssert h, rfl, rfl, rfl, rfl, rfl, rfl⟩
  case cut =>
    intro vCore vAux s hr hc ht
    exact ⟨_, exec_inputRangeCut hr hc ht, rfl, rfl, rfl, rfl⟩
  case flush =>
    intro s hu hk
    exact .of_within (exec_defectAppendFlush hu hk) (Within.refl.set_nv (by decide) (by exact ⟨id, id, id, le_rfl, fun _ => le_rfl⟩))
      rfl
  case wire =>
    intro bridge wire s hb hw hn
    exact .of_within (exec_seamWireFail hb hw hn) (Within.refl.set_nv (by decide) (by exact ⟨id, id, id, le_rfl, fun _ => le_rfl⟩))
      rfl
  case bootFails =>
    intro env s a hs ht ha hf
    rw [exec_startInstant hs ht ha, if_pos hf]
  case starts =>
    intro env s a hs ht ha hf
    rw [exec_startInstant hs ht ha, if_neg hf]

end

end

section

variable {s t u : State} {p x n : Nat}

/-! ### Reading a store -/

theorem mem_of_sfind_some {α : Type} {m : Sparse α} {k : Nat} {v : α} (h : sfind m k = some v) : (k, v) ∈ m := by
  induction m with
  | nil => cases h
  | cons e m ih =>
    obtain ⟨k', v'⟩ := e
    rw [sfind] at h
    split at h
    next hk =>
      cases h
      exact hk ▸ List.mem_cons_self
    next => exact List.mem_cons_of_mem _ (ih h)

/-- A read where every entry was taken away gives the default. -/
theorem sget_filter_none {α : Type} {d : Nat → α} {m : Sparse α} {q : Nat × α → Bool} {k : Nat} (h : ∀ v, q (k, v) = false) :
    sget d (m.filter q) k = d k := by
  have hnone : sfind (m.filter q) k = none := by
    cases hs : sfind (m.filter q) k with
    | none => rfl
    | some v =>
      have hq := (List.mem_filter.1 (mem_of_sfind_some hs)).2
      rw [h v] at hq
      cases hq
  rw [sget, hnone]
  rfl

/-! ### Registers that change -/

section
variable {ks : List Nat} {q o v : Nat}

theorem RegsOnly.refl : RegsOnly ks s s := fun _ _ => rfl

theorem RegsOnly.setReg (h : RegsOnly ks s t) (hk : regKey q o ∈ ks) : RegsOnly ks s (t.setReg q o v) := fun k hn =>
  (sget_sset_other (ne_of_mem_of_not_mem hk hn).symm).trans (h k hn)

theorem RegsOnly.congr (h : RegsOnly ks s t) (hu : u.regs = t.regs) : RegsOnly ks s u := fun k hn => hu ▸ h k hn

theorem RegsOnly.setReg64 (h : RegsOnly ks s t) (hk : regKey q o ∈ ks) (hk' : regKey q (o + 4) ∈ ks) :
    RegsOnly ks s (t.setReg64 q o v) := (h.setReg hk).setReg hk'

/-- A 64-bit register reads back what was written. -/
theorem State.reg64_setReg64 (h : swf regDflt s.regs = true) (hv : v < 2 ^ 64) (q o : Nat) :
    (s.setReg64 q o v).reg64 q o = v := by
  have hlow : regKey q o ≠ regKey q (o + 4) := by simp only [regKey]; omega
  rw [State.reg64, State.setReg64, State.regN_setReg (State.setReg_regs_wf s h ..), if_neg hlow, State.regN_setReg h, if_pos rfl,
    State.regN_setReg (State.setReg_regs_wf s h ..), if_pos rfl]
  omega

theorem State.reg64_lt (q o : Nat) : s.reg64 q o < 2 ^ 64 := by
  have hlow := (s.reg q o).isLt
  have hhigh := (s.reg q (o + 4)).isLt
  simp only [State.reg64, State.regN]
  omega

end

/-! ### The size of BAR4 (R563 to R565) -/

theorem State.regs_noteOrder (src : Source) (q r : Nat) : (s.noteOrder src q r).regs = s.regs := rfl

/-- The size is written; the window's place `v` is brought below, to a multiple of it. -/
theorem State.resizeBar4_eq (h : s.regN pgPci 0x078 ≠ n) : ∃ (u : State) (v : Nat), u.regs = (s.setReg pgPci 0x078 n).regs
    ∧ u.host = s.host ∧ v < 2 ^ 64 ∧ v % (s.setReg pgPci 0x078 n).bar4Size = 0
    ∧ s.resizeBar4 n = (u.setReg64 pgHbmDev 0x060 v).noteOrder .keeper pgHbmDev 0 := by
  rw [State.resizeBar4, if_neg h]
  refine ⟨_, _, ?_, ?_, (Nat.div_mul_le_self _ _).trans_lt (State.reg64_lt ..), Nat.mul_mod_left _ _, rfl⟩
  · dsimp only
    split <;> rfl
  · dsimp only
    split <;> rfl

/-- The registers of BAR4: its size, its window's place. -/
def bar4Keys : List Nat := [regKey pgPci 0x078, regKey pgHbmDev 0x060, regKey pgHbmDev (0x060 + 4)]

theorem size_mem_bar4Keys : regKey pgPci 0x078 ∈ bar4Keys := List.mem_cons_self

theorem window_mem_bar4Keys : regKey pgHbmDev 0x060 ∈ bar4Keys := List.mem_cons_of_mem _ List.mem_cons_self

theorem windowHigh_mem_bar4Keys : regKey pgHbmDev (0x060 + 4) ∈ bar4Keys :=
  List.mem_cons_of_mem _ (List.mem_cons_of_mem _ List.mem_cons_self)

theorem State.regsOnly_resizeBar4 : RegsOnly bar4Keys s (s.resizeBar4 n) := by
  by_cases h : s.regN pgPci 0x078 = n
  · rw [State.resizeBar4, if_pos h]
    exact .refl
  · obtain ⟨u, v, hu, -, -, -, heq⟩ := State.resizeBar4_eq h
    rw [heq]
    have hsize : RegsOnly bar4Keys s u := RegsOnly.congr (RegsOnly.refl.setReg size_mem_bar4Keys) hu
    exact RegsOnly.congr (hsize.setReg64 window_mem_bar4Keys windowHigh_mem_bar4Keys) (State.regs_noteOrder ..)

theorem State.host_resizeBar4 : (s.resizeBar4 n).host = s.host := by
  by_cases h : s.regN pgPci 0x078 = n
  · rw [State.resizeBar4, if_pos h]
  · obtain ⟨u, v, -, hu, -, -, heq⟩ := State.resizeBar4_eq h
    rw [heq]
    exact hu

theorem State.regN_resizeBar4 (h : swf regDflt s.regs = true) (hn : n ≤ 6) : (s.resizeBar4 n).regN pgPci 0x078 = n := by
  by_cases hs : s.regN pgPci 0x078 = n
  · rw [State.resizeBar4, if_pos hs, hs]
  · obtain ⟨u, v, hu, -, -, -, heq⟩ := State.resizeBar4_eq hs
    have hreg : (s.resizeBar4 n).reg pgPci 0x078 = (s.setReg pgPci 0x078 n).reg pgPci 0x078 := by
      rw [heq, State.reg, State.regs_noteOrder, State.reg, ← hu]
      exact (sget_sset_other (by decide)).trans (sget_sset_other (by decide))
    rw [State.regN, hreg]
    change (s.setReg pgPci 0x078 n).regN pgPci 0x078 = n
    rw [State.regN_setReg h, if_pos rfl]
    omega

/-- The window's place is a multiple of the size. -/
theorem State.window_resizeBar4 (h : swf regDflt s.regs = true) (hs : s.regN pgPci 0x078 ≠ n) :
    (s.resizeBar4 n).reg64 pgHbmDev 0x060 % (s.setReg pgPci 0x078 n).bar4Size = 0 := by
  obtain ⟨u, v, hu, -, hv, hmul, heq⟩ := State.resizeBar4_eq hs
  have hwf : swf regDflt u.regs = true := hu ▸ swf_sset h
  have hwin : (s.resizeBar4 n).reg64 pgHbmDev 0x060 = (u.setReg64 pgHbmDev 0x060 v).reg64 pgHbmDev 0x060 := by
    rw [heq, State.reg64, State.reg64, State.regN, State.regN, State.reg, State.reg, State.regs_noteOrder]
    rfl
  rw [hwin, State.reg64_setReg64 hwf hv, hmul]

/-! ### Pages of the host (R655) -/

theorem State.pages_dropStaged_wf (h : swf pageDflt s.pages = true) : swf pageDflt (s.dropStaged p).pages = true :=
  State.updPage_pages_wf (s := { s with staged := s.staged.filter fun e => e.1 / 0x1000 != p }) h p _

theorem State.own_dropStaged (h : swf pageDflt s.pages = true) : ((s.dropStaged p).page x).own = (s.page x).own := by
  rw [State.dropStaged, State.page_updPage { s with staged := s.staged.filter fun e => e.1 / 0x1000 != p } h]
  split
  · subst x
    rfl
  · rfl

theorem State.disown_eq : s.disown p = State.setOwn (if (s.page p).pending then s else s.dropStaged p) p none := rfl

theorem State.own_disown (h : swf pageDflt s.pages = true) :
    ((s.disown p).page x).own = if x = p then none else (s.page x).own := by
  rw [State.disown_eq]
  split
  · rw [State.setOwn, State.page_updPage s h]
    split <;> rfl
  · rw [State.setOwn, State.page_updPage _ (State.pages_dropStaged_wf h)]
    split
    · rfl
    · exact State.own_dropStaged h

theorem State.pages_disown_wf (h : swf pageDflt s.pages = true) : swf pageDflt (s.disown p).pages = true := by
  rw [State.disown_eq]
  split
  · exact State.updPage_pages_wf h p _
  · exact State.updPage_pages_wf (State.pages_dropStaged_wf h) p _

theorem State.own_disownAll {l : List Nat} (h : swf pageDflt s.pages = true) :
    ((l.foldl State.disown s).page x).own = if x ∈ l then none else (s.page x).own := by
  induction l generalizing s with
  | nil => rfl
  | cons p l ih =>
    rw [List.foldl_cons, ih (State.pages_disown_wf h), State.own_disown h]
    by_cases hl : x ∈ l <;> by_cases hp : x = p <;> simp [hl, hp]

/-- Disowning pages touches neither registers nor the host's port. -/
theorem State.regs_host_disownAll (l : List Nat) :
    (l.foldl State.disown s).regs = s.regs ∧ (l.foldl State.disown s).host = s.host := by
  refine List.foldlRecOn (motive := fun t => t.regs = s.regs ∧ t.host = s.host) l State.disown ⟨rfl, rfl⟩ fun t ht p _ => ?_
  rw [State.disown_eq]
  split
  · exact ht
  · exact ht

theorem State.mem_hostPages (h : (s.page p).own = some .host) : p ∈ s.hostPages := by
  rw [State.page, sget] at h
  cases hs : sfind s.pages p with
  | none =>
    rw [hs] at h
    simp only [pageDflt, Option.getD_none] at h
    split at h <;> cases h
  | some g =>
    rw [hs] at h
    exact List.mem_map.2 ⟨(p, g), List.mem_filter.2 ⟨mem_of_sfind_some hs, by simpa using h⟩, rfl⟩

/-! ### Resets of the function (R647, R655) -/

/-- A reset of the function before its BAR, its pages and its log. -/
def State.functionCleared (s : State) : State :=
  { s with regs := s.regs.filter fun e => !isMsixKey e.1
           host := { s.host with bme := false, funcMask := false, msixPend := [], aer := 0 } }

/-- A reset of the function before its log. -/
def State.functionFreed (s : State) : State :=
  (s.functionCleared.resizeBar4 4).hostPages.foldl State.disown (s.functionCleared.resizeBar4 4)

theorem State.regs_functionFreed : s.functionFreed.regs = (s.functionCleared.resizeBar4 4).regs := by
  rw [State.functionFreed]
  exact (State.regs_host_disownAll _).1

theorem State.host_functionFreed : s.functionFreed.host = s.functionCleared.host := by
  rw [State.functionFreed, (State.regs_host_disownAll _).2, State.host_resizeBar4]

/-- A log that is on ends with the reset: its enable is cleared, its batch kept. -/
def State.logEnded (s : State) : State :=
  if s.evtOn then (s.setReg pgPci 0x048 (putBits (s.regN pgPci 0x048) 31 31 0)).evtStop else s

theorem State.functionReset_eq : s.functionReset = s.functionFreed.logEnded := rfl

theorem State.within_logEnded : Within (mask [.regs, .ev]) s s.logEnded := by
  rw [State.logEnded]
  split
  · exact Within.refl.setReg.evtStop
  · exact .refl

theorem State.regs_evtStop :
    s.evtStop.regs = s.regs := (show Within (mask [.ev]) s s.evtStop from Within.refl.evtStop).same .regs (by decide)

/-- What the log's end leaves of the registers. -/
theorem State.regsOnly_logEnded : RegsOnly [regKey pgPci 0x048] s s.logEnded := by
  rw [State.logEnded]
  split
  · exact (RegsOnly.refl.setReg List.mem_cons_self).congr State.regs_evtStop
  · exact .refl

theorem State.functionReset_host : s.functionReset.host = s.functionCleared.host := by
  rw [State.functionReset_eq, State.within_logEnded.same .host (by decide), State.host_functionFreed]

theorem State.regsOnly_functionReset : RegsOnly [regKey pgPci 0x048] (s.functionCleared.resizeBar4 4) s.functionReset := by
  rw [State.functionReset_eq]
  intro k hk
  rw [State.regsOnly_logEnded k hk, State.regs_functionFreed]

theorem State.functionReset_own (i : s.Inv) : (s.functionReset.page p).own ≠ some .host := by
  have hwf : swf pageDflt (s.functionCleared.resizeBar4 4).pages = true := by
    have hw : Within (mask [.regs, .staged, .pages, .host]) s (s.functionCleared.resizeBar4 4) :=
      .resizeBar4 (.set_regs_host Within.refl (by decide) swf_filter)
    exact (hw.inv i).pages
  have hfreed : (s.functionFreed.page p).own ≠ some .host := by
    rw [State.functionFreed, State.own_disownAll hwf]
    split
    next => simp
    next hn => exact fun ho => hn (State.mem_hostPages ho)
  rw [State.functionReset_eq, State.page, State.within_logEnded.same .pages (by decide)]
  exact hfreed

theorem State.functionReset_msix {v : Nat} (h0 : 32759 ≤ p) (h1 : p < 32767) (hv : v < 4096) :
    s.functionReset.reg p v = regDflt (regKey p v) := by
  have hkey : 32759 * 0x1000 ≤ regKey p v ∧ regKey p v < 32767 * 0x1000 := by
    rw [regKey]
    omega
  obtain ⟨hlow, hhigh⟩ := hkey
  rw [State.reg]
  generalize regKey p v = k at hlow hhigh
  have hpci : k ∉ [regKey pgPci 0x048] := by
    rw [List.mem_singleton, regKey, pgPci]
    omega
  have hbar : k ∉ bar4Keys := by
    simp only [bar4Keys, List.mem_cons, List.not_mem_nil, or_false, regKey, pgPci, pgHbmDev]
    omega
  have hmsix : isMsixKey k = true := by
    rw [isMsixKey, regKey, regKey, decide_eq_true, decide_eq_true]
    · rfl
    · omega
    · omega
  rw [State.regsOnly_functionReset k hpci, State.regsOnly_resizeBar4 k hbar]
  exact sget_filter_none fun _ => congrArg not hmsix

theorem State.functionReset_barSize (i : s.Inv) : s.functionReset.regN pgPci 0x078 = 4 := by
  have hsame : s.functionReset.reg pgPci 0x078 = (s.functionCleared.resizeBar4 4).reg pgPci 0x078 :=
    State.regsOnly_functionReset _ (by decide)
  rw [State.regN, hsame]
  exact State.regN_resizeBar4 (s := s.functionCleared) (swf_filter i.regs) (by decide)

/-! ### The link and the host's writes (R656, R657, R693, R694) -/

theorem exec_pciLinkDown (h : s.host.linkUp = true) : exec .pciLinkDown s = .next
    ((({ s with host := { s.host with linkUp := false, linkBits := 0 } } : State).incReg pgPci 0x074).report pgPci 0 0x0C01 0 0 0) := by
  change execPciLinkDown s = _
  rw [execPciLinkDown, State.whenB, if_pos h]

/-- A report sets its fault bit and touches no other register. -/
theorem State.regs_report (q b code a0 a1 a2 : Nat) : (s.report q b code a0 a1 a2).regs = (s.flag q b).regs := by
  have hw : Within (mask [.ev, .out]) (s.flag q b) (s.report q b code a0 a1 a2) := Within.refl.log
  exact hw.same .regs (by decide)

theorem State.host_report (q b code a0 a1 a2 : Nat) : (s.report q b code a0 a1 a2).host = s.host := by
  have hw : Within (mask [.regs, .ev, .out]) s (s.report q b code a0 a1 a2) := Within.refl.report
  exact hw.same .host (by decide)

theorem State.host_aerReport (x : Nat) :
    (s.aerReport x).host = { s.host with aer := s.host.aer ||| w32 x } := State.host_report ..

theorem exec_busMasterEnableClear (h : s.host.linkUp = true) :
    exec .busMasterEnableClear s = .next { s with host := { s.host with bme := false } } := by
  change execBusMasterEnableClear s = _
  rw [execBusMasterEnableClear, State.whenB, if_pos h]

/-- Writes that no mask holds go out in order. -/
theorem State.hostNow_all {l : List Out} (h : ∀ o ∈ l, ∀ v, o ≠ Out.msix v) :
    l.foldl State.hostNow s = { s with out := s.out ++ l } := by
  induction l generalizing s with
  | nil => simp
  | cons o l ih =>
    have hnow : s.hostNow o = s.emit o := by
      rw [State.hostNow]
      exact fun v hv => h o List.mem_cons_self v hv
    rw [List.foldl_cons, hnow, ih fun o ho => h o (List.mem_cons_of_mem _ ho)]
    simp [State.emit]

theorem exec_hostWritesRelease (hr : s.dev.running = true) (hl : s.host.linkUp = true)
    (h : ∀ o ∈ s.host.held, ∀ v, o ≠ Out.msix v) : exec .hostWritesRelease s = .next
      { s with host := { s.host with bme := true, held := [] }, out := s.out ++ s.host.held } := by
  have htrain : s.linkTrain = s := if_pos (by simp [hl])
  have hopen : ({ s with host := { s.host with bme := true } } : State).hostOpen = true := by simp [State.hostOpen, hl]
  change execHostWritesRelease s = _
  rw [execHostWritesRelease, State.whenFunction, State.whenB, if_pos hr]
  dsimp only
  rw [htrain, if_pos hl, State.releaseHeld, if_neg (by rw [hopen]; decide)]
  exact congrArg _ (State.hostNow_all h)

theorem exec_pciAerUncorr {status : Word} (hr : s.dev.running = true) :
    exec (.pciAerUncorr status) s = .next (s.aerReport status.toNat) := by
  change execPciAerUncorr status s = _
  rw [execPciAerUncorr, State.whenFunction, State.whenB, if_pos hr]

theorem exec_msixUnmask {v : Nat} (hv : v < 2048) :
    exec (.msixUnmask (some v)) s = .next (s.setReg (32759 + v / 256) (v % 256 * 16 + 12)
      (putBits (s.regN (32759 + v / 256) (v % 256 * 16 + 12)) 0 0 0)).msixFlush := by
  change execMsixUnmask (some v) s = _
  rw [execMsixUnmask, onUnit_next (decide_eq_true hv)]

/-- The messages `go` leave the pending ones and go out. -/
def State.msixSend (s : State) (go : List Nat) : State :=
  State.toHosts { s with host := { s.host with msixPend := s.host.msixPend.filter fun v => !go.contains v } } (go.map Out.msix)

theorem State.msixFlush_eq :
    s.msixFlush = s.msixSend ((List.range 2048).filter fun v => s.host.msixPend.contains v && !msixMasked s v) := by
  delta State.msixFlush State.msixSend
  with_reducible rfl

/-- Without pending messages there is nothing to send. -/
theorem State.msixFlush_of_nil (h : s.host.msixPend = []) : s.msixFlush = s := by
  have hgo : ∀ l : List Nat, l.filter (fun v => s.host.msixPend.contains v && !msixMasked s v) = [] := fun l =>
    List.filter_eq_nil_iff.2 fun v _ => by simp [h]
  rw [State.msixFlush_eq, hgo, State.msixSend, h]
  exact congrArg (fun l => { s with host := { s.host with msixPend := l } }) h.symm

/-- Settles O49: the function's resets, its link and its writes. -/
theorem hostFunction : Obligations.HostFunction := by
  unfold Obligations.HostFunction
  refine ⟨?reset, ?linkDown, ?bmeOff, ?release, ?aer, ?unmask, ?funcMask⟩
  case reset =>
    intro s i hr
    have hex : s.whenFunction State.functionReset = .next s.functionReset := by rw [State.whenFunction, State.whenB, if_pos hr]
    refine ⟨s.functionReset, hex, hex, ?_, ?_, ?_, ?_, State.functionReset_barSize i, fun p => State.functionReset_own i,
      fun p v h0 h1 hv => State.functionReset_msix h0 h1 hv⟩
    all_goals rw [State.functionReset_host]; rfl
  case linkDown =>
    intro s i h
    have hwf := State.setReg_regs_wf s i.regs pgPci 0x074 (satInc (s.regN pgPci 0x074))
    refine .of_within (exec_pciLinkDown h) (.report (.incReg (.set_host Within.refl (by decide)))) ⟨?_, ?_, ?_, ?_, ?_⟩
    · rw [State.host_report]
      rfl
    · rw [State.hostOpen, State.host_report]
      rfl
    · rw [State.host_report]
      rfl
    · rw [State.regN, State.reg, State.regs_report]
      change State.regN (State.flag _ pgPci 0) pgPci 0x074 = _
      rw [State.flag, State.regN_setReg (by exact hwf), if_neg (by decide)]
      exact State.regN_incReg i.regs pgPci 0x074
    · rw [State.flagged, State.regN, State.reg, State.regs_report]
      exact State.flagged_flag (by exact hwf) (by decide)
  case bmeOff =>
    intro s h
    exact .of_within (exec_busMasterEnableClear h) (Within.refl.set_host (by decide)) ⟨rfl, Bool.and_false _⟩
  case release =>
    intro s hr hl _ h
    have hw : Within (mask [.host, .out]) s ({ ({ s with host := { s.host with bme := true, held := [] } } : State) with
        out := s.out ++ s.host.held }) := (Within.refl.set_host (by decide)).set_out (by decide)
    exact .of_within (exec_hostWritesRelease hr hl h) hw ⟨rfl, rfl⟩
  case aer =>
    intro status s hr
    refine .of_within (exec_pciAerUncorr hr) Within.refl.aerReport ?_
    rw [State.host_aerReport, w32, BitVec.ofNat_toNat, BitVec.setWidth_eq]
  case unmask =>
    intro v s hv
    exact exec_msixUnmask hv
  case funcMask =>
    intro s h
    have hflush : exec (.msixUnmask none) s = .next { s with host := { s.host with funcMask := false } } := by
      change execMsixUnmask none s = _
      rw [execMsixUnmask, State.msixFlush_of_nil (by exact h)]
    exact .of_within hflush (Within.refl.set_host (by decide)) rfl

end

section

variable {s u v w x : State}

/-! ### Steps (chapters 8, 9, 14) -/

/-- A write to an order register by a source that may write is done, recorded and answered. -/
theorem State.goWrite_free {src : Source} {p off : Nat} {f : State → State} (h : s.writeRes src p = 0) :
    s.goWrite src p off false f = ((f s).order src p off 0).goReply src p off 0 := by
  rw [State.goWrite, if_neg Bool.false_ne_true, State.gated]
  simp only [h, if_pos]

theorem exec_stepCommit {st₀ st : StepRec} {rest₀ rest : List StepRec} (hs : s.mrd.steps = st₀ :: rest₀)
    (hv : v = if s.stepReady st₀ then s.finishCopies st₀ else s) (hst : v.mrd.steps = st :: rest) (hsl : v.inSlice = false)
    (hl : v.live = true) (hr : v.stepReady st = true) (hrb : st.rebuild = false) :
    exec .stepCommit s = .next (v.commitStep st st.results) := by
  change execStepCommit s = _
  simp only [execStepCommit, hs, ← hv, hst]
  rw [if_neg (by simp [hsl, hl, hr]), if_neg (by simp [hrb])]

/-- A tick of a running device, its step formed or proposed. -/
theorem exec_decisionTick (hl : s.live = true) (hr : s.dev.running = true) (ht : s.atTick = true) (hu : u = s.applyMrd)
    (hp : (u.page pgClk).pending = false) (hv : v = u.shedUpdate) (hw : w = (if v.mrd.steps.isEmpty then v.tickCommit else v).markLong)
    (hx : x = if w.mrd.mode = 1 ∧ w.stepTick = true then w.propose else w) :
    exec .decisionTick s = if !x.mayStart || !x.mrd.abandoned.isEmpty then .next x
      else if x.slc.st = 3 then .next (if x.mrd.steps.isEmpty then x.formRebuild else x)
      else if x.mrd.mode = 2 then .next x.formStep else .next x := by
  have hclk : (if u.mrd.steps.isEmpty && (u.page pgClk).pending && !(u.clk.waiting.any fun y => y.1 == pgClk) && u.clkModeStaged
      then u.applyClkCfg else u) = u := if_neg (by simp [hp])
  change execDecisionTick s = _
  rw [execDecisionTick, if_neg (by simp [hl, hr, ht])]
  dsimp only
  rw [← hu, hclk, ← hv, ← hw]
  simp only [Bool.and_eq_true, beq_iff_eq, ← hx]

theorem exec_lqTailWrite {src : Source} {val : Word} (h : s.writeRes src pgMrd = 0) : exec (.lqTailWrite src val) s =
    .next (((s.setReg pgMrd 0x084 val.toNat).order src pgMrd 0x084 0).goReply src pgMrd 0x084 0) := by
  change execLqTailWrite src val s = _
  rw [execLqTailWrite, State.goWrite_free h]

theorem State.regsOnly_setReg64 (p o n : Nat) : RegsOnly [regKey p o, regKey p (o + 4)] s (s.setReg64 p o n) :=
  RegsOnly.refl.setReg64 List.mem_cons_self (List.mem_cons_of_mem _ List.mem_cons_self)

theorem exec_almanacSlotClose (hc : s.dev.chrono % 100000000 = 0) (hl : s.live = true) (h0 : s.alm.closed = 0)
    (ho : s.almOn = true) (hu : u = { s with alm := s.alm.close s.dev.chrono }) :
    exec .almanacSlotClose s = .next ((u.setReg64 pgAlm 0x060 u.alm.gen).guardUpdate.almApply) := by
  change execAlmanacSlotClose s = _
  rw [execAlmanacSlotClose, if_neg (by simp [hc, hl, h0])]
  dsimp only
  have hon : (u.setReg64 pgAlm 0x060 u.alm.gen).almOn = true := by
    rw [State.almOn, State.regN, State.reg, State.regsOnly_setReg64 pgAlm 0x060 _ _ (by decide), hu]
    exact ho
  rw [if_pos ho, ← hu, if_pos hon]

theorem exec_stepReissue {st : StepRec} {rest : List StepRec} {f : Forming} (ha : s.mrd.abandoned = st :: rest) (hl : s.live = true)
    (ht : s.atTick = true) (hd : s.depthOk = true) (hr : s.recovered = true) (hh : s.hostWait = false) (hs : s.slc.st ≠ 2)
    (hf : s.reserveAgain st = some f) : ∃ t : State,
    exec .stepReissue s = .next ((st.recs.foldl (fun (s : State) r => s.dispatch (.launch r)) t).kvLow) ∧ t.mrd.abandoned = rest
      ∧ t.mrd.steps = f.s.mrd.steps ++ [{ st with newPages := f.pages, newBlocks := f.blocks, cow := f.cow }] := by
  change ∃ t, execStepReissue s = _ ∧ _
  rw [execStepReissue, ha]
  dsimp only
  rw [if_neg (by simp [hl, ht, hd, hr, hh, hs]), hf]
  have hmrd : ∀ (u : State) (at_ : Nat) (bs : List Byte), (u.dramWrite at_ bs).mrd = u.mrd := fun u at_ bs =>
    (show Within (mask [.regs, .ev, .out, .mem, .hbm]) u (u.dramWrite at_ bs) from Within.refl.dramWrite).same .mrd (by decide)
  refine ⟨_, rfl, ?_, ?_⟩
  · rw [hmrd]
  · rw [hmrd]

/-- Settles O41: the branches of the step commands, each with its conditions. -/
theorem steps : Obligations.Steps := by
  unfold Obligations.Steps
  refine ⟨?commit, ?form, ?propose, ?launch, ?switch, ?reject, ?tail, ?reissue, ?close⟩
  case commit => exact fun _ _ _ _ _ _ => exec_stepCommit
  case form =>
    intro s u v w x hl hr ht hu hp hv hw hx hm ha hs
    rw [exec_decisionTick hl hr ht hu hp hv hw hx, if_neg (by simp [hm, ha]), if_neg hs]
    split
    · rfl
    · rfl
  case propose =>
    intro s u v w hl hr ht hu hp hv hw h1 h2 h
    rw [exec_decisionTick hl hr ht hu hp hv hw (if_pos ⟨h1, h2⟩).symm]
    exact if_pos (by simpa using h)
  case launch =>
    intro s r h a hl hc hh hne ha hr h1 hm
    change execStepRecord s = _
    simp only [execStepRecord]
    rw [if_neg (by simp [hl, hc, hh, hne]), hh, ← ha, ← hr, h1]
    exact if_neg (by simpa using hm)
  case switch =>
    intro s r h a hl hc hh hne ha hr h1 hm
    change execStepRecord s = _
    simp only [execStepRecord]
    rw [if_neg (by simp [hl, hc, hh, hne]), hh, ← ha, ← hr, h1]
    exact if_neg (by simp [hm])
  case reject =>
    intro s r h a hl hc hh hne ha hr h1
    change execStepRecord s = _
    simp only [execStepRecord]
    rw [if_neg (by simp [hl, hc, hh, hne]), hh, ← ha, ← hr]
    split
    · omega
    · omega
    · omega
    · rfl
  case tail => exact fun _ _ _ => exec_lqTailWrite
  case reissue => exact fun _ _ _ _ => exec_stepReissue
  case close => exact fun _ _ => exec_almanacSlotClose

end

section

variable {s u v w x : State} {stack a t off len : Nat}

/-! ### HBM requests of the mesh (R536 to R543) -/

section
variable {head : BitVec 512} {hdr : BitVec 128} {flips : List Flip} {ue : List Nat}

theorem exec_hbmRead_units {l : List (Nat × Bool)} (hst : stack < 12) (hf : hbmMalformed head.toNat (hLen hdr.toNat) = false)
    (hop : qOp head.toNat = 1) (hn : qUnits head.toNat ≠ 0) (hin : qAddr head.toNat < s.hbmSize)
    (ha : a = (s.tileStep (hSrc hdr.toNat)).elim (qAddr head.toNat) fun x => s.cowRead x.1 x.2 (qAddr head.toNat))
    (hu : u = (s.disturbHbm flips).markDie (ue.map fun i => unitNum stack ((s.mapOf a).2 + 64 * i)))
    (hl : u.readUnits (if a = qAddr head.toNat then stack else (u.mapOf a).1) 0 flips (u.reqStep (hSrc hdr.toNat)) a 0
      (qUnits head.toNat) = (l, v)) :
    exec (.hbmRead stack head hdr flips ue) s = .next (v.readAnswer stack head.toNat (b2n ((v.stack stack).st != .run)) l) := by
  change execHbmRead stack head hdr flips ue s = _
  rw [execHbmRead, onUnit_next (decide_eq_true hst)]
  cases ht : s.tileStep (hSrc hdr.toNat) with
  | none =>
    rw [ht] at ha
    obtain rfl : a = qAddr head.toNat := ha
    rw [if_pos rfl] at hl
    simp only [ht, hf, hop, hn, Nat.not_le.2 hin, ← hu, hl, Bool.false_eq_true, if_false, if_true, ne_eq, not_true]
  | some x =>
    rw [ht] at ha
    obtain rfl : a = s.cowRead x.1 x.2 (qAddr head.toNat) := ha
    simp only [ht, hf, hop, hn, Nat.not_le.2 hin, ← hu, hl, Bool.false_eq_true, if_false, ne_eq, not_true]

theorem exec_hbmRead_unmapped (hst : stack < 12) (hf : hbmMalformed head.toNat (hLen hdr.toNat) = false)
    (hop : qOp head.toNat = 1) (hn : qUnits head.toNat ≠ 0) (hout : s.hbmSize ≤ qAddr head.toNat) :
    exec (.hbmRead stack head hdr flips ue) s = .next ((s.hbmUnmapped (qAddr head.toNat) (hSrc hdr.toNat)
      (s.reqStep (hSrc hdr.toNat))).readAnswer stack head.toNat 0 (List.replicate (qUnits head.toNat) (0, true))) := by
  change execHbmRead stack head hdr flips ue s = _
  rw [execHbmRead, onUnit_next (decide_eq_true hst)]
  simp only [hf, hop, hn, hout, Bool.false_eq_true, if_false, if_true, ne_eq, not_true]

end

/-- The units of a write request, written from the unit `t` on with the poison of the packet's head. -/
def State.writeUnits (s : State) (pkt : MeshPkt) (bad : Bool) (t : Nat) : State :=
  (List.range (qUnits (MeshPkt.head pkt))).foldl (fun s k =>
    s.writeAt (s.mapOf t).1 (t + 64 * k) (qMask (MeshPkt.head pkt))
      (leBytes 64 (nth { lane := 0, pay := 0, poison := true } (MeshPkt.body pkt) k).pay.toNat)
      ((nth { lane := 0, pay := 0, poison := true } (MeshPkt.body pkt) k).poison || bad)
      fun s e => s.hbmUe (s.mapOf (t + 64 * k)).1 (s.mapOf (t + 64 * k)).2 3 e (s.reqStep (hSrc (MeshPkt.hdr pkt)))) s

theorem exec_hbmWrite {f : PFlit} {rest : List PFlit} {esc : Bool} {flips : List Flip} {pkt : MeshPkt} (hst : stack < 12)
    (hp : pkt = { flits := f :: rest, esc }) (hf : hbmMalformed (MeshPkt.head pkt) (hLen (MeshPkt.hdr pkt)) = false)
    (hop : qOp (MeshPkt.head pkt) = 2) (hn : qUnits (MeshPkt.head pkt) ≠ 0) (ha : a = qAddr (MeshPkt.head pkt))
    (hin : a < s.hbmSize) (hr : a < s.rsvBase ∨ keeperSrc (hSrc (MeshPkt.hdr pkt)) = true) (hu : u = s.disturbHbm flips)
    (ht : (u.tileStep (hSrc (MeshPkt.hdr pkt))).elim (a, u) (fun x => u.cowTarget x.1 x.2 a) = (t, v))
    (hw : w = v.writeUnits pkt f.poison t)
    (hx : x = if bits (hSrc (MeshPkt.hdr pkt)) 15 14 = 0 then (w.segsIn t (64 * qUnits (MeshPkt.head pkt))).foldl (fun s y =>
        s.cachePut y.1 y.2 t (qUnits (MeshPkt.head pkt))) w
      else w.cacheSync t (64 * qUnits (MeshPkt.head pkt))) :
    exec (.hbmWrite stack pkt flips) s = .next (if qAck (MeshPkt.head pkt) then
      x.hbmAnswer stack 4 (MeshPkt.head pkt) a (b2n ((x.stack stack).st != .run)) [] else x) := by
  have hrsv : ¬(s.rsvBase ≤ a ∧ ¬keeperSrc (hSrc (MeshPkt.hdr pkt)) = true) := fun h =>
    hr.elim (fun hlt => absurd h.1 (Nat.not_le.2 hlt)) h.2
  have hflits : pkt.flits = f :: rest := by rw [hp]
  rw [State.writeUnits] at hw
  change execHbmWrite stack pkt flips s = _
  rw [execHbmWrite, onUnit_next (decide_eq_true hst)]
  cases hs : u.tileStep (hSrc (MeshPkt.hdr pkt)) with
  | none =>
    rw [hs] at ht
    obtain ⟨rfl, rfl⟩ : a = t ∧ u = v := Prod.mk.inj ht
    simp only [hf, hop, hn, ← ha, Nat.not_le.2 hin, hrsv, ← hu, hs, hflits, ← hw, ← hx, Bool.false_eq_true, if_false, ne_eq, not_true]
  | some y =>
    rw [hs] at ht
    have hcow : u.cowTarget y.1 y.2 a = (t, v) := ht
    simp only [hf, hop, hn, ← ha, Nat.not_le.2 hin, hrsv, ← hu, hs, hcow, hflits, ← hw, ← hx, Bool.false_eq_true, if_false, ne_eq,
      not_true]

/-! ### BAR4 (R563 to R565) -/

theorem exec_bar4Read_outside (hlen : off + len ≤ s.bar4Size)
    (h : s.bar4Open = false ∨ s.hbmSize < s.reg64 pgHbmDev 0x060 + off + len) :
    exec (.bar4Read off len) s = .next ((s.winRange off 0).emit (.bar4Data (List.replicate len 0) false)) := by
  change execBar4Read off len s = _
  rw [execBar4Read, if_neg (Nat.not_lt.2 hlen), if_pos (by simpa using h)]

theorem exec_bar4Write_outside {data : List Byte} {poisoned : Bool} (hlen : off + data.length ≤ s.bar4Size)
    (h : s.bar4Open = false ∨ s.rsvBase < s.reg64 pgHbmDev 0x060 + off + data.length) :
    exec (.bar4Write off data poisoned) s = .next (s.winRange off 1) := by
  change execBar4Write off data poisoned s = _
  rw [execBar4Write, if_neg (Nat.not_lt.2 hlen), if_pos (by simpa using h)]

theorem exec_bar4Write_window {data : List Byte} {poisoned : Bool} (hlen : off + data.length ≤ s.bar4Size) (ho : s.bar4Open = true)
    (ha : a = s.reg64 pgHbmDev 0x060 + off) (hin : a + data.length ≤ s.rsvBase) :
    exec (.bar4Write off data poisoned) s = .next
      (((unitsOf a data.length).foldl (fun s u => s.devWrite u a data poisoned) s).cacheSync a data.length) := by
  subst ha
  change execBar4Write off data poisoned s = _
  rw [execBar4Write, if_neg (Nat.not_lt.2 hlen), if_neg (by simpa [ho] using hin)]

theorem exec_bar4Resize (h : len ≤ 6) : exec (.bar4Resize len) s = .next (s.resizeBar4 len) := by
  change execBar4Resize len s = _
  rw [execBar4Resize, onUnit_next (decide_eq_true h)]

/-- Settles O42: the requests by their branch, BAR4 by its bounds, its size by the registers that change. -/
theorem hbmAccess : Obligations.HbmAccess := by
  unfold Obligations.HbmAccess
  refine ⟨?read, ?unmapped, ?write, ?outside, ?window, ?writeWindow, ?writeOutside, ?resize⟩
  case read => exact fun _ _ _ _ _ _ _ _ _ _ => exec_hbmRead_units
  case unmapped => exact fun _ _ _ _ _ _ => exec_hbmRead_unmapped
  case write => exact fun _ _ _ _ _ _ _ _ _ _ _ _ _ => exec_hbmWrite
  case outside => exact fun _ _ _ => exec_bar4Read_outside
  case window =>
    intro off len a d p s u hlen ho ha hin hd
    subst ha
    change execBar4Read off len s = _
    simp only [execBar4Read, hd]
    rw [if_neg (Nat.not_lt.2 hlen), if_neg (by simpa [ho] using hin)]
  case writeWindow => exact fun _ _ _ _ _ => exec_bar4Write_window
  case writeOutside => exact fun _ _ _ _ => exec_bar4Write_outside
  case resize =>
    intro n s i hn hne
    have hsize : (s.resizeBar4 n).regN pgPci 0x078 = n := State.regN_resizeBar4 i.regs hn
    have hset : (s.setReg pgPci 0x078 n).regN pgPci 0x078 = n := by
      rw [State.regN_setReg i.regs, if_pos rfl]
      omega
    have hbar : (s.resizeBar4 n).bar4Size = 2 ^ n * 2 ^ 30 := by rw [State.bar4Size, hsize, Nat.mod_eq_of_lt (by omega)]
    have hold : (s.setReg pgPci 0x078 n).bar4Size = 2 ^ n * 2 ^ 30 := by rw [State.bar4Size, hset, Nat.mod_eq_of_lt (by omega)]
    refine .of_within (exec_bar4Resize hn) Within.refl.resizeBar4 ⟨hsize, hbar, ?_, State.regsOnly_resizeBar4⟩
    rw [hbar, ← hold]
    exact State.window_resizeBar4 i.regs hne

end

section

variable {s u v : State} {stack pos temp : Nat} {flips : List Flip} {ue : Bool}

/-! ### Scrubbing (R547, R552, R553) -/

/-- The state in which the scrub looks at the unit `pos` of a stack: its position moved on, the faults of the access in. -/
def State.scrubAt (s : State) (stack pos : Nat) (flips : List Flip) (ue : Bool) : State :=
  ((if pos = 0 then (s.setReg (pgHbm stack) 0x068 ((pos + 1) % stackUnits)).updStack stack fun x => { x with rows := [] }
    else s.setReg (pgHbm stack) 0x068 ((pos + 1) % stackUnits)).disturbHbm flips).markDie
      (if ue then [unitNum stack (64 * pos)] else [])

theorem exec_hbmScrubRead (hst : stack < 12) (hp : s.regN (pgHbm stack) 0x04C % 65536 ≠ 0) (hr : (s.stack stack).st = .run)
    (hpos : pos = s.regN (pgHbm stack) 0x068) (hu : u = s.scrubAt stack pos flips ue) :
    exec (.hbmScrubRead stack flips ue) s = .next (u.refresh stack (64 * pos) 2 flips) := by
  subst hpos
  change execHbmScrubRead stack flips ue s = _
  rw [execHbmScrubRead, onUnit_next (decide_eq_true hst), if_neg (by simp [hp, hr]), hu, State.scrubAt]

/-- What the care of one unit that carries no poison does to it. -/
theorem State.refresh_met {sa source : Nat} {d c : List Byte} (hm : s.metUnit stack sa flips = (d, c)) (hp : stsPoison c = false) :
    (s.dieBad stack sa = true → s.keeperUnit (s.unitAddr stack sa) = none →
      s.refresh stack sa source flips = (s.hbmUe stack sa source 2 none).setUnit stack sa d true)
    ∧ (∀ x, s.dieBad stack sa = false → rsDecode stack (sa / 64) d c = .good x → s.refresh stack sa source flips = s)
    ∧ (∀ x, s.dieBad stack sa = false → rsDecode stack (sa / 64) d c = .corrected x → s.keeperUnit (s.unitAddr stack sa) = none →
      s.refresh stack sa source flips = (s.hbmCorrected stack sa).setUnit stack sa x false) := by
  generalize hr : s.refresh stack sa source flips = t
  have e : @State.refresh = @State.refresh := rfl
  conv_rhs at e => delta State.refresh
  rw [e] at hr
  beta_reduce at hr
  extract_lets a comp at hr
  split at hr
  next d' c' hq =>
  obtain ⟨rfl, rfl⟩ := Prod.mk.inj (hm.symm.trans hq)
  extract_lets poison at hr
  rw [if_neg (by simp [hp])] at hr
  refine ⟨fun hd hk => ?_, fun x hd hx => ?_, fun x hd hx hk => ?_⟩
  · rw [← hr, if_pos hd]
    exact if_neg (by simp [comp, a, hk])
  · rw [← hr, if_neg (by simp [hd]), hx]
  · rw [← hr, if_neg (by simp [hd]), hx]
    exact if_neg (by simp [comp, a, hk])

/-! ### Repairs, loss and temperature (R554 to R556, R559, R745) -/

theorem exec_hbmSoftRepair {src : Source} {cmd : DWord} (hst : stack < 12) (hw : s.writeRes src (pgHbm stack) = 0)
    (hb : bit (s.reg64 (pgHbm stack) 0x058) 63 = false) (hgo : bit cmd.toNat 63 = true) (hsoft : bit cmd.toNat 62 = false)
    (hu : u = s.keepCmd stack cmd.toNat) (hr : (u.stack stack).st = .run) (hv : v = u.disturbHbm flips) :
    exec (.hbmSoftRepair src stack cmd false flips) s = .next
      ((((((v.rowUnits stack (cmdAddr cmd.toNat / 64) flips).foldl (fun s k => s.refresh stack (64 * k) 4 flips) v).updStack stack
        fun x => { x with soft := Config.hbmRow (cmdAddr cmd.toNat / 64) :: x.soft, softDone := x.softDone + 1 }).setRepair stack
          1).order src (pgHbm stack) 0x05C 0).goReply src (pgHbm stack) 0x05C 0) := by
  change execHbmSoftRepair src stack cmd false flips s = _
  rw [execHbmSoftRepair, onUnit_next (decide_eq_true hst), hb, State.goWrite_free hw]
  simp only [hgo, hsoft, ← hu, hr, ← hv, Bool.not_true, Bool.or_self, Bool.false_eq_true, if_false, ne_eq, not_true]

theorem exec_hbmHardRepair {src : Source} {cmd : DWord} (hst : stack < 12) (hw : s.writeRes src (pgHbm stack) = 0)
    (hb : bit (s.reg64 (pgHbm stack) 0x058) 63 = false) (hgo : bit cmd.toNat 63 = true) (hhard : bit cmd.toNat 62 = true)
    (hu : u = (s.keepCmd stack cmd.toNat).storeDefect
      { type := 3, origin := 1, start := s.nv.starts % 65536, ref := stack, data := cmdAddr cmd.toNat / 64 }) :
    exec (.hbmHardRepair src stack cmd false) s = .next
      ((((u.updStack stack fun x => { x with hard := x.hard ++ [cmdAddr cmd.toNat] }).setRepair stack
        (u.regN (pgHbm stack) 0x060 % 4)).order src (pgHbm stack) 0x05C 0).goReply src (pgHbm stack) 0x05C 0) := by
  have hnv : (s.keepCmd stack cmd.toNat).nv = s.nv := rfl
  change execHbmHardRepair src stack cmd false s = _
  rw [execHbmHardRepair, onUnit_next (decide_eq_true hst), hb, State.goWrite_free hw]
  simp only [hgo, hhard, hnv, ← hu, Bool.not_true, Bool.or_self, Bool.false_eq_true, if_false, State.regN, State.reg]

theorem exec_hbmStackLost (hst : stack < 12) (hr : (s.stack stack).st = .run) : exec (.hbmStackLost stack) s = .next
    (((s.updStack stack fun x => { x with st := .out }).raise (pgHbm stack) 5 0x0906 stack 0 0 0 none).review) := by
  change execHbmStackLost stack s = _
  rw [execHbmStackLost, onUnit_next (decide_eq_true hst), if_neg (by simp [hr])]

theorem exec_hbmHot_cool (hst : stack < 12) (ht : temp < 95) :
    exec (.hbmHot stack temp) s = .next (s.updStack stack fun x => { x with temp }) := by
  change execHbmHot stack temp s = _
  have hmod : temp % 256 = temp := Nat.mod_eq_of_lt (by omega)
  have hdec : decide (95 ≤ temp) = false := decide_eq_false (by omega)
  rw [execHbmHot, onUnit_next (decide_eq_true hst), if_neg (fun h => absurd h.1 (Nat.not_le.2 ht))]
  simp only [hmod, hdec, Bool.or_false]

theorem exec_hbmHot_hot (hst : stack < 12) (ht : 95 ≤ temp) (hold : (s.stack stack).temp < 95) :
    exec (.hbmHot stack temp) s = .next ((((s.updStack stack fun x =>
      { x with temp := temp % 256, reduced := x.reduced || decide (95 ≤ temp) }).flag pgThm 3)).log (pgHbm stack) 0x1405 stack
        temp 0 0) := by
  change execHbmHot stack temp s = _
  rw [execHbmHot, onUnit_next (decide_eq_true hst), if_pos ⟨ht, hold⟩]

theorem exec_hbmFullRateReturn (hst : stack < 12) (ht : temp < 90) :
    exec (.hbmFullRateReturn stack temp) s = .next (s.updStack stack fun x => { x with temp, reduced := false }) := by
  change execHbmFullRateReturn stack temp s = _
  rw [execHbmFullRateReturn, onUnit_next (decide_eq_true hst), if_neg (Nat.not_le.2 ht)]

/-- A stack holds what was written to it, and the others stay. -/
theorem State.updStack_only (i : s.Inv) (f : Stack → Stack) :
    (s.updStack stack f).stack stack = f (s.stack stack) ∧ ∀ k, k ≠ stack → (s.updStack stack f).stack k = s.stack k :=
  ⟨(State.stack_updStack s i.stk ..).trans (if_pos rfl), fun _ hk => (State.stack_updStack s i.stk ..).trans (if_neg hk)⟩

/-- Settles O43: the scrub through what it does to one unit; the repairs, the loss and the temperature by their branch. -/
theorem hbmCare : Obligations.HbmCare := by
  unfold Obligations.HbmCare
  refine ⟨?good, ?corrected, ?soft, ?hard, ?lost, ?cool, ?hot, ?fullRate, ?dieBad⟩
  case good =>
    intro stack pos flips ue d c x s u hst hp hr hpos hu hm hpo hd hx
    have hdiv : 64 * pos / 64 = pos := by omega
    have hx' : rsDecode stack (64 * pos / 64) d c = .good x := hdiv.symm ▸ hx
    rw [exec_hbmScrubRead hst hp hr hpos hu, (State.refresh_met hm hpo).2.1 x hd hx']
  case corrected =>
    intro stack pos flips ue d c x s u hst hp hr hpos hu hm hpo hd hx hk
    have hdiv : 64 * pos / 64 = pos := by omega
    have hx' : rsDecode stack (64 * pos / 64) d c = .corrected x := hdiv.symm ▸ hx
    rw [exec_hbmScrubRead hst hp hr hpos hu, (State.refresh_met hm hpo).2.2 x hd hx' hk]
  case soft => exact fun _ _ _ _ _ _ _ => exec_hbmSoftRepair
  case hard => exact fun _ _ _ _ _ => exec_hbmHardRepair
  case lost => exact fun _ _ => exec_hbmStackLost
  case cool => exact fun _ _ _ i hst ht => .of_within (exec_hbmHot_cool hst ht) Within.refl.updStack (State.updStack_only i _)
  case hot => exact fun _ _ _ => exec_hbmHot_hot
  case fullRate =>
    exact fun _ _ _ i hst ht => .of_within (exec_hbmFullRateReturn hst ht) Within.refl.updStack (State.updStack_only i _)
  case dieBad =>
    intro stack pos flips ue d c s u hst hp hr hpos hu hm hpo hd hk
    rw [exec_hbmScrubRead hst hp hr hpos hu, (State.refresh_met hm hpo).1 hd hk]

end

section

variable {s u v w : State} {port : Nat} {k : TPkt} {h : THead}

/-! ### Packets of a Treath port (R585 to R600, R625 to R627) -/

/-- A packet in order on a port that is UP: it is the last seen, and its bytes are counted. -/
def State.trlSeen (s : State) (port : Nat) (k : TPkt) (wide : Bool) : State :=
  (s.updTP port fun t => { t with lack := tLseq k.hdr, refused := (0, 0) }).addReg64 (pgTrl port) 0x080
    (16 + (tBytes wide k.body).length)

theorem State.treathIn_order (hup : s.tUp port = true) (hcr : s.noCredit port k = false) (hg : k.good = true)
    (hseq : tLseq k.hdr = ((s.tport port).lack + 1) % 65536) (hh : h = headOf k.hdr) (hu : u = s.trlSeen port k (h.cls == 3))
    (hw : w = (u.takeAck port (tLack k.hdr) (tNak k.hdr)).trlTake port h (maskBody h.pmask k.body)) :
    s.treathIn port k = if h.cls = 0 ∨ (u.tport port).rxq.length < (w.tport port).rxq.length then w
      else w.freeRx port (chanOf h.cls) (tUnits h.cls k.body) := by
  rw [State.trlSeen] at hu
  rw [State.treathIn, if_neg (by simp [hup, hcr]), if_neg (by simp [hg]), if_neg (by simp [hseq])]
  dsimp only
  rw [← hh, ← hu, ← hw]

theorem State.treathIn_crc (hup : s.tUp port = true) (hcr : s.noCredit port k = false) (hg : k.good = false) :
    s.treathIn port k = s.refusePkt port := by
  rw [State.treathIn, if_neg (by simp [hup, hcr]), if_pos (by simp [hg])]

theorem State.treathIn_dropped (hd : s.tUp port = false ∨
    (s.noCredit port k = false ∧ k.good = true ∧ tLseq k.hdr ≠ ((s.tport port).lack + 1) % 65536)) : s.treathIn port k = s := by
  rw [State.treathIn]
  split
  · rfl
  next hopen =>
    obtain hup | ⟨-, hg, hseq⟩ := hd
    · simp [hup] at hopen
    · rw [if_neg (by simp [hg]), if_pos hseq]

theorem exec_treathPacketReceive (hp : port < 16) : exec (.treathPacketReceive port k) s = .next (s.treathIn port k) := by
  change execTreathPacketReceive port k s = _
  rw [execTreathPacketReceive, onUnit_next (decide_eq_true hp)]

theorem exec_linkKeepalive (hp : port < 16) (hup : s.tUp port = true) :
    exec (.linkKeepalive port) s = .next (s.sendLink port false) := by
  change execLinkKeepalive port s = _
  rw [execLinkKeepalive, onUnit_next (decide_eq_true hp), if_pos hup]

/-- Each MAINT command takes the packets of its own operation. -/
theorem exec_maint {op : Nat} {c : Instr} {q : BitVec 512} (hc : (op, c) ∈ ([(1, .maintRead port k), (2, .maintWrite port k),
    (3, .maintResponse port k), (8, .identityQuery port k), (9, .neighbourQuery port k)] : List (Nat × Instr))) (hp : port < 16)
    (hb : k.body = .maint q) (hcls : (headOf k.hdr).cls = 6) (hop : mOp q.toNat = op) : exec c s = .next (s.treathIn port k) := by
  have hin : s.maintIn op port k = s.treathIn port k := by
    rw [State.maintIn, hb]
    exact if_pos ⟨hcls, hop⟩
  simp only [List.mem_cons, Prod.mk.injEq, List.not_mem_nil, or_false] at hc
  obtain ⟨rfl, rfl⟩ | ⟨rfl, rfl⟩ | ⟨rfl, rfl⟩ | ⟨rfl, rfl⟩ | ⟨rfl, rfl⟩ := hc
  · change execMaintRead port k s = _
    rw [execMaintRead, onUnit_next (decide_eq_true hp), hin]
  · change execMaintWrite port k s = _
    rw [execMaintWrite, onUnit_next (decide_eq_true hp), hin]
  · change execMaintResponse port k s = _
    rw [execMaintResponse, onUnit_next (decide_eq_true hp), hin]
  · change execIdentityQuery port k s = _
    rw [execIdentityQuery, onUnit_next (decide_eq_true hp), hin]
  · change execNeighbourQuery port k s = _
    rw [execNeighbourQuery, onUnit_next (decide_eq_true hp), hin]

/-- Settles O44: through what a port does with a packet, in order or not. -/
theorem treathPackets : Obligations.TreathPackets := by
  unfold Obligations.TreathPackets
  refine ⟨?order, ?crc, ?dropped, ?maint, ?keepalive⟩
  case order =>
    intro port k h s u w hp hup hcr hg hseq hh hu hw
    rw [exec_treathPacketReceive hp, State.treathIn_order hup hcr hg hseq hh hu hw]
  case crc =>
    intro port k s hp hup hcr hg
    rw [exec_treathPacketReceive hp, State.treathIn_crc hup hcr hg]
  case dropped =>
    intro port k s hp hd
    rw [exec_treathPacketReceive hp, State.treathIn_dropped hd]
  case maint =>
    intro port op c q k h s u w hc hp hb hh hcls hop hup hcr hg hseq hu hw
    have hwide : (h.cls == 3) = false := by rw [hcls]; rfl
    rw [exec_maint hc hp hb (hh ▸ hcls) hop, State.treathIn_order hup hcr hg hseq hh (by rw [hwide]; exact hu) hw, hcls]
    simp only [OfNat.ofNat_ne_zero, false_or]
  case keepalive => exact fun _ _ => exec_linkKeepalive

/-! ### The ports themselves (R582, R587, R632, R702, R703) -/

theorem exec_trlPortDown {cause : Nat} (hp : port < 16) (hst : (s.tport port).st = 2) :
    exec (.trlPortDown port cause) s = .next (s.portDown port cause) := by
  change execTrlPortDown port cause s = _
  rw [execTrlPortDown, onUnit_next (decide_eq_true hp), if_pos hst]

theorem exec_trlRetrain_owner {src : Source} {info : TrainInfo} (hp : port < 16) (hk : src ≠ .keeper)
    (hw : s.writeRes src (pgTrl port) = 0) (hb : bit (s.regN (pgTrl port) 0x048) 31 = false) :
    exec (.trlRetrain src port info) s = .next
      (((((s.setReg (pgTrl port) 0x048 (s.regN (pgTrl port) 0x048 % 2 ^ 31)).updTP port fun t =>
        { t with tries := [], fails := 0 }).retrainOne port info).order src (pgTrl port) 0x048 0).goReply src (pgTrl port) 0x048 0) := by
  change execTrlRetrain src port info s = _
  rw [execTrlRetrain, onUnit_next (decide_eq_true hp), if_neg hk, hb, State.goWrite_free hw]

theorem exec_trlRetrain_keeper {info : TrainInfo} (hp : port < 16) (hst : (s.tport port).st = 3)
    (htry : (s.recentTries port).length < 3) (hf : (s.tport port).fails < 3) (hb : bit (s.regN (pgTrl port) 0x048) 30 = false) :
    exec (.trlRetrain .keeper port info) s = .next
      ((s.updTP port fun t => { t with tries := s.recentTries port ++ [s.dev.chrono] }).retrainOne port info) := by
  change execTrlRetrain .keeper port info s = _
  rw [execTrlRetrain, onUnit_next (decide_eq_true hp), if_pos rfl, if_pos ⟨hst, htry, hf, by simp [hb]⟩]

theorem exec_clkRefLost {ref : Nat} (hr : ref < 3) (hb : bit s.dev.refs ref = false)
    (hu : u = { s with dev := { s.dev with refs := putBits s.dev.refs ref ref 1 } })
    (hv : v = if u.dev.running then u.report pgClk 0 0x1301 ref 0 0 else u) :
    exec (.clkRefLost ref) s = .next (if ref = 1 then
      ((List.range 16).filter fun p => (v.tport p).st == 2).foldl (fun s p => s.portDown p 2) v else v) := by
  change execClkRefLost ref s = _
  rw [execClkRefLost, onUnit_next (decide_eq_true hr), if_neg (by simp [hb]), hv, hu]

/-- Settles O45: the branches of the port commands, each with its conditions. -/
theorem treathPorts : Obligations.TreathPorts := by
  unfold Obligations.TreathPorts
  exact ⟨fun _ _ _ => exec_trlPortDown, fun _ _ _ _ => exec_trlRetrain_owner, fun _ _ _ => exec_trlRetrain_keeper,
    fun _ _ _ _ => exec_clkRefLost⟩

end

section

variable {s u v : State} {step : Word} {l : Nat}

/-! ### The messages of the slice protocol (R611 to R618) -/

section
variable {n : Nat}

theorem State.onReady_lead {recs : List ResRec} (hu : u = s.hear l) (hl : u.isLead = true) (hn : u.slc.applied < n) :
    s.onReady n l recs = (u.updRound n fun r => { r with ready := (r.ready.filter fun x => x.1 != l) ++ [(l, recs)] }).tryCommit := by
  rw [State.onReady, ← hu]
  exact if_neg (by simp [hl, hn])

theorem State.onNotReady_lead {code : Nat} (hu : u = s.hear l) (hl : u.isLead = true) (hn : u.slc.applied < n) :
    s.onNotReady n l code = u.leadAbort n l code := by
  rw [State.onNotReady, ← hu]
  exact if_pos (by simp [hl, hn])

theorem State.onCommit_follower {body : CommitBody} (hu : u = s.heed l) (hl : u.isLead = false) (hn : u.slc.applied < n)
    (hv : v = u.applyCommit n body) : s.onCommit n l body = ({ v with
      slc := { v.slc with lastWrites := if u.deputy == some u.myLogical then u.writesOf n body else [] }
      mrd := { v.mrd with next := max v.mrd.next (n + 1) } } : State).sendSlice l (.done (w32 n) v.myLogical) := by
  rw [State.onCommit, ← hu]
  dsimp only
  rw [if_neg (by simp [hl]), if_neg (Nat.not_le.2 hn), ← hv]
  rfl

theorem State.onAbort_follower {k : Nat} {rest : List Nat} (hv : v = s.hear l) (hl : v.isLead = false)
    (hu : u = { v with slc := { v.slc with own := [] } }) (hk : (u.mrd.steps.map (·.num)).filter (fun k => decide (n ≤ k)) = k :: rest) :
    s.onAbort n l = u.abandonFrom k 0x0B01 false := by
  have hk' : (v.mrd.steps.map (·.num)).filter (fun k => decide (n ≤ k)) = k :: rest := by
    rw [hu] at hk
    exact hk
  simp only [State.onAbort, ← hv, hl, ← hu, hk', Bool.false_eq_true, if_false]

theorem State.onDone_lead {r : SRound} (hu : u = s.hear l) (hl : u.isLead = true) (hr : u.round? n = some r) (hp : r.phase = 2) :
    s.onDone n l = ((u.updRound n fun x => { x with done := x.done.filter (· != l) ++ [l] }).endRound n).tryCommit := by
  simp only [State.onDone, ← hu, hl, if_true, hr, hp, OfNat.ofNat_ne_zero, OfNat.ofNat_ne_one, if_false, false_and]

theorem State.onStatusR_calm (hu : u = s.hear l) (ht : u.slc.takeover = false) :
    s.onStatusR l n = { u with slc := { u.slc with status := sput u.slc.status l n } } := by
  rw [State.onStatusR, ← hu]
  exact if_neg (by simp [ht])

end

/-- A value other than the default stands in its register, whatever the store. -/
theorem State.reg_setReg_ne {p o n : Nat} (h : w32 n ≠ regDflt (regKey p o)) : (s.setReg p o n).reg p o = w32 n := by
  rw [State.reg, State.setReg, sget, sset, if_neg h, sfind_sput, if_pos rfl]
  rfl

/-- The word of the slice with another lead in it, while the device is in a slice: its own number stays. -/
theorem bits_putBits_lead {r : Nat} (hr : r < 2 ^ 32) (hs : bit r 31 = true) :
    w32 (putBits r 15 8 l) ≠ 0#32 ∧ bits (w32 (putBits r 15 8 l)).toNat 23 16 = bits r 23 16 := by
  have hin : r / 2 ^ 31 % 2 = 1 := by simpa [bit] using hs
  have hval : (w32 (putBits r 15 8 l)).toNat = r / 65536 * 65536 + l % 256 * 256 + r % 256 := by
    simp only [w32, BitVec.toNat_ofNat, putBits]
    omega
  refine ⟨fun h0 => ?_, ?_⟩
  · rw [h0] at hval
    simp only [BitVec.toNat_ofNat] at hval
    omega
  · rw [hval, bits, bits]
    omega

theorem State.regs_hear : (s.hear l).regs = s.regs := rfl

theorem State.myLogical_of_regs (h : u.regs = s.regs) : u.myLogical = s.myLogical := by
  rw [State.myLogical, State.myLogical, State.regN, State.regN, State.reg, State.reg, h]

theorem State.myLogical_setSlc (x : Slice) : ({ s with slc := x } : State).myLogical = s.myLogical := rfl

theorem State.applied_setLost (x : List Nat) :
    ({ s with slc := { s.slc with lost := x } } : State).slc.applied = s.slc.applied := rfl

theorem State.applied_hear : (s.hear l).slc.applied = s.slc.applied := rfl

/-- To take a sender as the lead changes neither a device's own number nor what it applied last. -/
theorem State.heed_keeps (h : s.takesPart = true) :
    (s.heed l).myLogical = s.myLogical ∧ (s.heed l).slc.applied = s.slc.applied := by
  have hs : bit (s.regN pgRte 0x04C) 31 = true := by
    rw [State.takesPart, Bool.and_eq_true] at h
    exact h.1
  have hreg : (s.hear l).regN pgRte 0x04C = s.regN pgRte 0x04C := by rw [State.regN, State.reg, State.regs_hear, State.regN, State.reg]
  obtain ⟨hne, hbits⟩ := bits_putBits_lead (l := l) (s.reg pgRte 0x04C).isLt hs
  have hdflt : regDflt (regKey pgRte 0x04C) = 0#32 := rfl
  have hset : ((s.hear l).setReg pgRte 0x04C (putBits (s.regN pgRte 0x04C) 15 8 l)).myLogical = s.myLogical := by
    rw [State.myLogical, State.regN, State.reg_setReg_ne (hdflt.symm ▸ hne)]
    exact hbits
  rw [State.heed]
  dsimp only
  split
  · exact ⟨State.myLogical_of_regs State.regs_hear, State.applied_hear⟩
  · rw [hreg]
    exact ⟨(State.myLogical_setSlc _).trans hset, (State.applied_setLost _).trans State.applied_hear⟩

/-- A member that takes part does what the condition guards. -/
theorem State.whenB_true {b : Bool} {f : State → State} (h : b = true) : s.whenB b f = f s := if_pos h

theorem exec_readyMsg {recs : List ResRec} (h : s.takesPart = true) :
    exec (.readyMsg step l recs) s = .next (s.onReady step.toNat l recs) := by
  change execReadyMsg step l recs s = _
  rw [execReadyMsg, State.whenB_true h]

theorem exec_notReadyMsg {code : BitVec 16} (h : s.takesPart = true) :
    exec (.notReadyMsg step l code) s = .next (s.onNotReady step.toNat l code.toNat) := by
  change execNotReadyMsg step l code s = _
  rw [execNotReadyMsg, State.whenB_true h]

theorem exec_commitMsg {body : CommitBody} (h : s.takesPart = true) :
    exec (.commitMsg step l body) s = .next (s.onCommit step.toNat l body) := by
  change execCommitMsg step l body s = _
  rw [execCommitMsg, State.whenB_true h]

theorem exec_abortMsg (h : s.takesPart = true) : exec (.abortMsg step l) s = .next (s.onAbort step.toNat l) := by
  change execAbortMsg step l s = _
  rw [execAbortMsg, State.whenB_true h]

theorem exec_doneMsg (h : s.takesPart = true) : exec (.doneMsg step l) s = .next (s.onDone step.toNat l) := by
  change execDoneMsg step l s = _
  rw [execDoneMsg, State.whenB_true h]

theorem exec_statusQ (h : s.takesPart = true) : exec (.statusQ l) s = .next (s.onStatusQ l) := by
  change execStatusQ l s = _
  rw [execStatusQ, State.whenB_true h]

theorem exec_beatMsg (h : s.takesPart = true) : exec (.beatMsg l) s = .next (s.onBeat l) := by
  change execBeatMsg l s = _
  rw [execBeatMsg, State.whenB_true h]

theorem exec_statusR (h : s.takesPart = true) : exec (.statusR l step) s = .next (s.onStatusR l step.toNat) := by
  change execStatusR l step s = _
  rw [execStatusR, State.whenB_true h]

/-- Settles O47: each message through what a member does with it. -/
theorem sliceMessages : Obligations.SliceMessages := by
  unfold Obligations.SliceMessages
  refine ⟨?ready, ?notReady, ?commit, ?abort, ?done, ?asked, ?status⟩
  case ready =>
    intro step l recs s u h hu hl hn
    rw [exec_readyMsg h, State.onReady_lead hu hl hn]
  case notReady =>
    intro step l code s u h hu hl hn
    rw [exec_notReadyMsg h, State.onNotReady_lead hu hl hn]
  case commit =>
    intro step l body s u v h hu hl hn hv
    rw [exec_commitMsg h, State.onCommit_follower hu hl hn hv]
  case abort =>
    intro step l k rest s v u h hv hl hu hk
    rw [exec_abortMsg h, State.onAbort_follower hv hl hu hk]
  case done =>
    intro step l r s u h hu hl hr hp
    rw [exec_doneMsg h, State.onDone_lead hu hl hr hp]
  case asked =>
    intro l s u v h hu hv
    obtain ⟨hme, happ⟩ := State.heed_keeps (l := l) h
    rw [exec_statusQ h, exec_beatMsg h, State.onStatusQ, State.onBeat, hu, hv, hme, happ]
    exact ⟨rfl, rfl⟩
  case status =>
    intro l last s u h hu ht
    rw [exec_statusR h, State.onStatusR_calm hu ht]

/-! ### What a member does of itself (R612, R615 to R618, R799) -/

/-- A share is looked at while its step is not applied and its round not closed. -/
def State.shareOpen (s : State) (n : Nat) : Bool :=
  !(!s.takesPart || decide (n ≤ s.slc.applied) || s.slc.rounds.any fun r => r.step == n && r.phase != 0)

theorem State.shareOpen_of {n : Nat} (h : s.takesPart = true) (hn : s.slc.applied < n)
    (hr : s.slc.rounds.any (fun r => r.step == n && r.phase != 0) = false) : s.shareOpen n = true := by
  rw [State.shareOpen, h, hr]
  simpa using hn

section
variable {x : StepRec} {e : ShareEvent} {past : List Forbid}

theorem exec_share_ready (ho : s.shareOpen step.toNat = true) (hl : s.isLead = false) (hx : s.step? step.toNat = some x)
    (hr : s.stepReady x = true) (he : s.ownEvent = none) :
    exec (.sliceShareReady step none) s = .next (s.sendSlice s.leadId (.ready step s.myLogical x.results)) := by
  rw [State.shareOpen, Bool.not_eq_true'] at ho
  change execSliceShareReady step none s = _
  simp only [execSliceShareReady, ho, hl, hx, he, hr, Option.map_some, Option.getD_some, Option.all_some, Bool.false_eq_true, if_false, if_true]

theorem exec_share_leadReady (ho : s.shareOpen step.toNat = true) (hl : s.isLead = true) (hx : s.step? step.toNat = some x)
    (hr : s.stepReady x = true) : exec (.sliceShareReady step none) s = .next (s.leadReady step.toNat x.results) := by
  rw [State.shareOpen, Bool.not_eq_true'] at ho
  change execSliceShareReady step none s = _
  simp only [execSliceShareReady, ho, hl, hx, hr, Option.map_some, Option.getD_some, Bool.false_eq_true, if_false, if_true]

theorem exec_share_leadBad (ho : s.shareOpen step.toNat = true) (hl : s.isLead = true) (hx : s.step? step.toNat = some x)
    (hw : shareNarrows e x.past.flatten = false) :
    exec (.sliceShareReady step (some e)) s = .next (s.abortFor step.toNat s.myLogical e.code (forbidOf e)) := by
  rw [State.shareOpen, Bool.not_eq_true'] at ho
  change execSliceShareReady step (some e) s = _
  simp only [execSliceShareReady, ho, hl, hx, hw, Bool.false_eq_true, if_false, if_true]

theorem exec_share_bad (ho : s.shareOpen step.toNat = true) (hl : s.isLead = false) :
    exec (.sliceShareReady step (some e)) s = .next (s.shareBad step e (((s.step? step.toNat).map (·.results)).getD [])) := by
  rw [State.shareOpen, Bool.not_eq_true'] at ho
  change execSliceShareReady step (some e) s = _
  simp only [execSliceShareReady, ho, hl, Bool.false_eq_true, if_false]

theorem State.shareBad_alone {own : List ResRec} (hp : past = sget listDflt s.slc.past step.toNat) (hw : shareNarrows e past = true)
    (hu : u = { s with slc := { s.slc with own := [], past := sset listDflt s.slc.past step.toNat (past ++ [forbidOf e]) } }) :
    s.shareBad step e own = u.sendSlice u.leadId
      (.ready step u.myLogical (own ++ e.streams.map fun n => faultRec (n, e.code))) := by
  rw [State.shareBad, ← hp]
  dsimp only
  rw [← hu, if_pos hw]

theorem State.shareBad_new {own : List ResRec} (hp : past = sget listDflt s.slc.past step.toNat) (hw : shareNarrows e past = false)
    (hu : u = { s with slc := { s.slc with own := [], past := sset listDflt s.slc.past step.toNat (past ++ [forbidOf e]) } }) :
    s.shareBad step e own = u.sendSlice u.leadId (.notReady step u.myLogical (BitVec.ofNat 16 e.code)) := by
  rw [State.shareBad, ← hp]
  dsimp only
  rw [← hu, if_neg (by simp [hw])]

end

theorem exec_sliceBeatTimer (h : s.takesPart = true) (hl : s.isLead = true) (hr : s.slc.rounds = []) (ht : s.sliceTime ≠ 0)
    (hb : s.slc.beatAt + s.sliceTime / 2 ≤ s.dev.chrono) : exec .sliceBeatTimer s = .next
      { s.sendAll s.peersUp (.beat s.myLogical) with slc := { s.slc with beatAt := s.dev.chrono } } := by
  change execSliceBeatTimer s = _
  rw [execSliceBeatTimer, State.whenB_true (by simp [h, hl, hr, ht, hb])]

theorem exec_sliceCommitTimeout {r : SRound} (h : s.takesPart = true) (hl : s.isLead = true) (ht : s.sliceTime ≠ 0)
    (hr : s.round? step.toNat = some r) (hm : (s.peersUp.find? fun l => !(r.ready.any fun x => x.1 == l)) = some l)
    (hp : r.phase = 0) (hs : r.body.hasStep = true) (ho : r.own.isSome = true) (hw : r.since + s.sliceTime ≤ s.dev.chrono) :
    exec (.sliceCommitTimeout step) s = .next (s.leadAbort step.toNat l 0) := by
  change execSliceCommitTimeout step s = _
  rw [execSliceCommitTimeout, State.whenB_true (by simp [h, hl, ht]), hr]
  dsimp only
  rw [hm]
  exact congrArg _ (if_pos (by simp [hp, hs, ho, hw]))

theorem exec_sliceMemberLost_lead (h : s.takesPart = true) (hl : s.isLead = true) (hm : s.members.contains l = true)
    (hn : s.slc.lost.contains l = false) (hq : s.silent l = true) : exec (.sliceMemberLost l) s = .next (s.loseMember l) := by
  change execSliceMemberLost l s = _
  rw [execSliceMemberLost, State.whenB_true (by rw [h, hm, hn, hq]; rfl), if_pos hl]

theorem exec_sliceMemberLost_both {d : Nat} (h : s.takesPart = true) (hl : s.isLead = false) (hm : s.members.contains l = true)
    (hn : s.slc.lost.contains l = false) (hq : s.silent l = true) (hd : s.deputy = some d) (hme : d ≠ s.myLogical)
    (hwho : l = d ∨ l = s.leadId) (hqd : s.silent d = true) (hql : s.silent s.leadId = true)
    (hnl : s.slc.lost.contains s.leadId = false) : exec (.sliceMemberLost l) s = .next (s.loseBoth d) := by
  change execSliceMemberLost l s = _
  rw [execSliceMemberLost, State.whenB_true (by rw [h, hm, hn, hq]; rfl), if_neg (by simp [hl]), hd]
  exact congrArg _ (if_pos ⟨hme, hwho, hqd, hql, by simpa using hnl⟩)

/-- The deputy of a silent lead, before and after it has asked the others. -/
theorem exec_sliceLeadChange (h : s.takesPart = true) (hl : s.isLead = false) (hd : s.deputy = some s.myLogical)
    (hq : s.silent s.leadId = true) (hn : s.slc.lost.contains s.leadId = false) :
    (s.slc.takeover = true → ((s.peersUp.filter fun l => l != s.leadId).all fun l => (sfind s.slc.status l).isSome) = true →
      exec .sliceLeadChange s = .next s.takeOver)
    ∧ (s.slc.takeover = false → (s.peersUp.filter fun l => l != s.leadId) ≠ [] → exec .sliceLeadChange s = .next
      (({ s with slc := { s.slc with takeover := true, status := [] } } : State).sendAll
        (s.peersUp.filter fun l => l != s.leadId) (.statusQ s.myLogical))) := by
  change (_ → _ → execSliceLeadChange s = _) ∧ (_ → _ → execSliceLeadChange s = _)
  rw [execSliceLeadChange, State.whenB_true (by rw [h, hl, hd, hq, hn]; simp)]
  refine ⟨fun ht ha => ?_, fun ht hne => ?_⟩
  · rw [if_neg (by simp [ht]), if_pos ha]
  · rw [if_pos (by simp [ht])]
    exact congrArg _ (if_neg (by simpa using hne))

/-- Settles O48: a share by its event and by who looks at it, the timers by their conditions. -/
theorem sliceTimers : Obligations.SliceTimers := by
  unfold Obligations.SliceTimers
  refine ⟨?ready, ?leadReady, ?bad, ?beat, ?timeout, ?lost, ?takeOver, ?ask, ?both, ?alone, ?leadBad⟩
  case ready => exact fun _ _ _ h hn hr => exec_share_ready (State.shareOpen_of h hn hr)
  case leadReady => exact fun _ _ _ h hn hr => exec_share_leadReady (State.shareOpen_of h hn hr)
  case bad =>
    intro step e past s u h hn hr hl hp hw hu
    rw [exec_share_bad (State.shareOpen_of h hn hr) hl, State.shareBad_new hp hw hu]
  case beat => exact fun _ => exec_sliceBeatTimer
  case timeout => exact fun _ _ _ _ => exec_sliceCommitTimeout
  case lost => exact fun _ _ => exec_sliceMemberLost_lead
  case takeOver => exact fun _ h hl hd hq hn => (exec_sliceLeadChange h hl hd hq hn).1
  case ask => exact fun _ h hl hd hq hn => (exec_sliceLeadChange h hl hd hq hn).2
  case both => exact fun _ _ _ => exec_sliceMemberLost_both
  case alone =>
    intro step e x past s u h hn hr hl hp hw hx hu
    rw [exec_share_bad (State.shareOpen_of h hn hr) hl, State.shareBad_alone hp hw hu, hx]
    rfl
  case leadBad => exact fun _ _ _ _ h hn hr => exec_share_leadBad (State.shareOpen_of h hn hr)

end

section

variable {s u : State}

/-! ### The management port (R659 to R669, R898, R899) -/

theorem exec_evtBatch (h : s.dev.keeper = true) : exec .evtBatch s =
    .next (if s.evtOn && (!s.ev.batch.isEmpty || s.ev.overflow != 0) then s.evtBatch else s).bmcDrain := by
  change execEvtBatch s = _
  rw [execEvtBatch, State.whenB_true h]

/-- A management command while the Keeper runs. -/
theorem State.managed_keeper {f : State → State} (h : s.dev.keeper = true) : s.managed f = .next (f s) := by
  rw [State.managed, State.mgmtUp, if_pos h]

theorem exec_bmcPageRead {page off v : Nat} (h : s.dev.keeper = true) (hf : bmcMalformed page off = false)
    (hr : s.read4 .bmc page off = (v, u)) : exec (.bmcPageRead page off) s = .next (u.emit (.bmcResp (bmcBody 1 0 page off v))) := by
  change execBmcPageRead page off s = _
  simp only [execBmcPageRead, State.managed_keeper h, hf, hr, Bool.false_eq_true, if_false]

theorem exec_bmcPageWrite {page off r : Nat} {val : Word} (h : s.dev.keeper = true) (hf : bmcMalformed page off = false)
    (hr : s.write4 .bmc page off val.toNat = (r, u)) :
    exec (.bmcPageWrite page off val) s = .next (u.emit (.bmcResp (bmcBody 2 0 page off r))) := by
  change execBmcPageWrite page off val s = _
  simp only [execBmcPageWrite, State.managed_keeper h, hf, hr, Bool.false_eq_true, if_false]

/-- A device that is not off. -/
theorem State.dev_on (h : s.dev.st ≠ .off) : (s.dev.st != .off) = true := bne_iff_ne.2 h

theorem exec_i3cEntdaa {addr : BitVec 7} (h : s.dev.st ≠ .off) :
    exec (.i3cEntdaa addr) s = .next { s with mgmt := { s.mgmt with i3c := some addr.toNat } } := by
  change execI3cEntdaa addr s = _
  rw [execI3cEntdaa, State.whenB_true (State.dev_on h)]

theorem exec_sensorUpdate {a b : Bool} (h : s.dev.st ≠ .off) (hk : s.dev.keeper = true) : exec (.sensorUpdate a b) s = .next
    { s with mgmt := { s.mgmt with
      sensors := s.sensorNow, sensAlert := pinQuiet s.alertLow a s.mgmt.sensAlert
      sensTrip := pinQuiet s.dev.thermtrip b s.mgmt.sensTrip } } := by
  change execSensorUpdate a b s = _
  rw [execSensorUpdate, State.whenB_true (State.dev_on h)]
  dsimp only
  rw [State.mgmtUp, if_pos hk]

theorem exec_pinShort_thermtrip {level : Bool} (h : s.dev.st ≠ .off) : exec (.pinShort .thermtrip level) s =
    .next { s with mgmt := { s.mgmt with sensTrip := pinState s.dev.thermtrip level s.mgmt.sensTrip } } := by
  change execPinShort .thermtrip level s = _
  rw [execPinShort, State.whenB_true (State.dev_on h)]

theorem exec_pinShort_alert {level : Bool} (h : s.dev.st ≠ .off) : exec (.pinShort .alert level) s =
    .next { s with mgmt := { s.mgmt with sensAlert := pinState s.alertLow level s.mgmt.sensAlert } } := by
  change execPinShort .alert level s = _
  rw [execPinShort, State.whenB_true (State.dev_on h)]

/-- Settles O50: each command of the management port by its condition. -/
theorem management : Obligations.Management := by
  unfold Obligations.Management
  refine ⟨?quiet, ?batch, ?read, ?write, ?addr, ?sensors, ?short⟩
  case quiet =>
    intro s h hq
    rw [exec_evtBatch h, if_neg]
    obtain hoff | ⟨hb, ho⟩ := hq
    · simp [hoff]
    · simp [hb, ho]
  case batch =>
    intro s h hon hb
    rw [exec_evtBatch h, if_pos (by simpa [hon] using hb)]
  case read => exact fun _ _ _ _ _ => exec_bmcPageRead
  case write => exact fun _ _ _ _ _ _ => exec_bmcPageWrite
  case addr => exact fun _ _ h => .of_within (exec_i3cEntdaa h) (Within.refl.set_mgmt (by decide)) rfl
  case sensors =>
    exact fun _ _ _ h hk => .of_within (exec_sensorUpdate h hk) (Within.refl.set_mgmt (by decide)) ⟨rfl, rfl, rfl, rfl⟩
  case short =>
    exact fun _ _ h => ⟨.of_within (exec_pinShort_thermtrip h) (Within.refl.set_mgmt (by decide)) rfl,
      .of_within (exec_pinShort_alert h) (Within.refl.set_mgmt (by decide)) rfl⟩

/-! ### Attestation (R849 to R852) -/

/-- An SPDM request to a device that has its keys. -/
theorem State.spdm_attests {f : State → State} (h : s.dev.keeper = true) (ha : s.nv.attests = true) : s.spdm f = .next (f s) := by
  rw [State.spdm, State.managed_keeper h, if_pos ha]

theorem exec_spdmGetCertificate {ofs len : Nat} {d : List Byte} (h : s.dev.keeper = true) (ha : s.nv.attests = true)
    (hd : d = ((Config.certChain 0).drop ofs).take len) : exec (.spdmGetCertificate 0 ofs len) s = .next
      (s.emit (.spdm 0x02 (leBytes 2 d.length ++ leBytes 2 ((Config.certChain 0).length - (ofs + d.length)) ++ d))) := by
  change execSpdmGetCertificate 0 ofs len s = _
  rw [execSpdmGetCertificate, State.spdm_attests h ha]
  dsimp only
  rw [if_neg (not_not.2 rfl), ← hd]

theorem exec_spdmChallenge {nonce : BitVec 256} {r x : List Byte} (h : s.dev.keeper = true) (ha : s.nv.attests = true)
    (hr : s.respNonce = (r, u)) (hx : x = leBytes 32 nonce.toNat ++ hashBytes (Config.sha384 (Config.certChain 0)) ++ r) :
    exec (.spdmChallenge 0 nonce) s = .next (({ u with mgmt := { u.mgmt with chal := some x } } : State).emit
      (.spdm 0x03 (hashBytes (Config.sha384 (Config.certChain 0)) ++ r ++ Config.rsaSign x))) := by
  change execSpdmChallenge 0 nonce s = _
  rw [execSpdmChallenge, State.spdm_attests h ha]
  dsimp only
  rw [if_neg (not_not.2 rfl), hr, hx]

section
variable {index : Nat} {nonce : BitVec 256}

theorem exec_spdmGetMeasurements (h : s.dev.keeper = true) (ha : s.nv.attests = true) (hi : index ≤ 10) :
    exec (.spdmGetMeasurements index false nonce) s = .next (s.emit (.spdm 0x60 (leBytes 1 10 ++ s.measBlocks index))) := by
  change execSpdmGetMeasurements index false nonce s = _
  rw [execSpdmGetMeasurements, State.spdm_attests h ha]
  dsimp only
  rw [if_neg (by omega), if_pos Bool.not_false]

theorem exec_spdmGetMeasurements_signed {b r x : List Byte} (h : s.dev.keeper = true) (ha : s.nv.attests = true) (hi : index ≤ 10)
    (hb : b = leBytes 1 10 ++ s.measBlocks index) (hr : s.respNonce = (r, u)) (hx : x = leBytes 32 nonce.toNat ++ r ++ b) :
    exec (.spdmGetMeasurements index true nonce) s = .next (({ u with mgmt := { u.mgmt with meas := some x } } : State).emit
      (.spdm 0x60 (b ++ r ++ Config.rsaSign x))) := by
  change execSpdmGetMeasurements index true nonce s = _
  rw [execSpdmGetMeasurements, State.spdm_attests h ha]
  dsimp only
  rw [if_neg (by omega), if_neg (by decide), hr, ← hb, hx]

end

/-- The second signature, over the input that the selector names. -/
theorem exec_slhDsaSignature {b : List Byte} (h : s.dev.keeper = true) (ha : s.nv.attests = true) :
    (s.mgmt.chal = some b → exec (.slhDsaSignature 0) s = .next (s.emit (.spdm 0x7E (Config.slhSign b))))
    ∧ (s.mgmt.meas = some b → exec (.slhDsaSignature 1) s = .next (s.emit (.spdm 0x7E (Config.slhSign b)))) := by
  change (_ → execSlhDsaSignature 0 s = _) ∧ (_ → execSlhDsaSignature 1 s = _)
  rw [execSlhDsaSignature, execSlhDsaSignature, State.spdm_attests h ha, State.spdm_attests h ha]
  refine ⟨fun hb => ?_, fun hb => ?_⟩
  · rw [if_pos rfl, hb]
  · rw [if_neg one_ne_zero, if_pos rfl, hb]

theorem exec_slhDsaCertChain (h : s.dev.keeper = true) (ha : s.nv.attests = true) :
    exec .slhDsaCertChain s = .next (s.emit (.spdm 0x7E (Config.certChain 1))) := by
  change execSlhDsaCertChain s = _
  rw [execSlhDsaCertChain, State.spdm_attests h ha]

/-- Settles O51: each request by what it answers. -/
theorem attestation : Obligations.Attestation := by
  unfold Obligations.Attestation
  refine ⟨?certificate, ?challenge, ?blocks, ?signed, ?second, ?chain⟩
  case certificate => exact fun _ _ _ _ h ha hd => .of_within (exec_spdmGetCertificate h ha hd) Within.refl.emit rfl
  case challenge => exact fun _ _ _ _ _ => exec_spdmChallenge
  case blocks => exact fun _ _ _ h ha hi => .of_within (exec_spdmGetMeasurements h ha hi) Within.refl.emit rfl
  case signed => exact fun _ _ _ _ _ _ _ => exec_spdmGetMeasurements_signed
  case second =>
    intro b s h ha
    obtain ⟨hchal, hmeas⟩ := exec_slhDsaSignature (b := b) h ha
    exact ⟨fun hb => .of_within (hchal hb) Within.refl.emit rfl, fun hb => .of_within (hmeas hb) Within.refl.emit rfl⟩
  case chain => exact fun _ h ha => .of_within (exec_slhDsaCertChain h ha) Within.refl.emit rfl

end

section

variable {s : State}

/-! ### The PLDM firmware device (R839) -/

/-- A command of the update agent in the state that expects it. -/
theorem State.fdWhen_at {st cmd : Nat} {f : State → State} (h : s.dev.keeper = true) (hs : s.mgmt.upd = st) :
    s.fdWhen st cmd f = .next (f s) := by
  rw [State.fdWhen, State.managed_keeper h, if_pos hs]

theorem exec_requestUpdate (h : s.dev.keeper = true) (hn : s.nv.update = none) (hs : s.mgmt.upd = 0) :
    exec .requestUpdate s = .next (({ s with mgmt := { s.mgmt with upd := 1, comps := [], pkg := [] } } : State).pldm 0x10 [0]) := by
  change execRequestUpdate s = _
  rw [execRequestUpdate, State.managed_keeper h, if_neg (by simp [hn]), if_neg (not_not.2 hs)]

theorem exec_passComponentTable {comps : List Nat} (h : s.dev.keeper = true) (hs : s.mgmt.upd = 1) :
    exec (.passComponentTable comps) s = .next (({ s with mgmt := { s.mgmt with
      upd := 2, comps := comps.filter fun c => decide (1 ≤ c) && decide (c ≤ 6) } } : State).pldm 0x13 [0]) := by
  change execPassComponentTable comps s = _
  rw [execPassComponentTable, State.fdWhen_at h hs]

theorem exec_updateComponent {comp size : Nat} (h : s.dev.keeper = true) (hs : s.mgmt.upd = 2) (hc : comp ∈ s.mgmt.comps) :
    exec (.updateComponent comp size) s =
      .next (({ s with mgmt := { s.mgmt with upd := 3, comp, size, pkg := [] } } : State).pldm 0x14 [0]) := by
  change execUpdateComponent comp size s = _
  rw [execUpdateComponent, State.fdWhen_at h hs, if_neg (by simp [hc])]

theorem exec_requestFirmwareData {data : List Byte} (h : s.dev.keeper = true) (hs : s.mgmt.upd = 3)
    (hl : s.mgmt.pkg.length + data.length ≤ s.mgmt.size) :
    exec (.requestFirmwareData s.mgmt.pkg.length data) s = .next
      (({ s with mgmt := { s.mgmt with pkg := s.mgmt.pkg ++ data } } : State).emit
        (.pldm 0x15 (leBytes 4 s.mgmt.pkg.length ++ leBytes 4 data.length))) := by
  change execRequestFirmwareData s.mgmt.pkg.length data s = _
  rw [execRequestFirmwareData, State.managed_keeper h, if_neg (by simpa [hs] using hl)]

theorem exec_transferComplete (h : s.dev.keeper = true) (hs : s.mgmt.upd = 3) (hl : s.mgmt.pkg.length = s.mgmt.size) :
    exec (.transferComplete true) s = .next ((s.fdTo 4).pldm 0x16 [0]) := by
  change execTransferComplete true s = _
  rw [execTransferComplete, State.managed_keeper h, if_neg (not_not.2 hs), if_pos (by simp [hl])]

theorem exec_verifyComplete (h : s.dev.keeper = true) (hs : s.mgmt.upd = 4) (hn : s.nv.update = none)
    (hc : (s.nv.checkPkg s.mgmt.pkg).code = 0) (hk : leAt s.mgmt.pkg 6 1 = s.mgmt.comp) : exec .verifyComplete s =
      .next (((s.fwStart s.mgmt.pkg (s.nv.checkPkg s.mgmt.pkg).obj none).fdTo 5).pldm 0x17 [0]) := by
  change execVerifyComplete s = _
  rw [execVerifyComplete, State.managed_keeper h, if_neg (not_not.2 hs)]
  dsimp only
  rw [if_neg (by simp [hn]), if_pos ⟨hc, hk⟩]

theorem exec_applyComplete (h : s.dev.keeper = true) (hs : s.mgmt.upd = 5) (hn : s.nv.update = none) :
    exec .applyComplete s = .next ((s.fdTo 2).pldm 0x18 [0]) := by
  change execApplyComplete s = _
  rw [execApplyComplete, State.managed_keeper h, if_neg (by simp [hs, hn])]

theorem exec_activateFirmware (h : s.dev.keeper = true) (hs : s.mgmt.upd = 2) :
    exec (.activateFirmware false) s = .next ((s.fdTo 0).pldm 0x1A [0]) := by
  change execActivateFirmware false s = _
  rw [execActivateFirmware, State.fdWhen_at h hs, if_neg Bool.false_ne_true]

theorem exec_getStatus (h : s.dev.keeper = true) : exec .getStatus s = .next (s.pldm 0x1B [0, s.mgmt.upd]) := by
  change execGetStatus s = _
  rw [execGetStatus, State.managed_keeper h]

/-- The update of the firmware device, where one runs that no mailbox began, is given up. -/
def State.dropUpdate (s : State) : State :=
  if s.nv.update.any fun u => u.mailbox.isNone then { s with nv := { s.nv with update := none } } else s

theorem State.within_dropUpdate : Within (mask [.out, .mgmt, .nv]) s s.dropUpdate :=
  .ite (fun _ => Within.refl.set_nv (by decide) ⟨id, id, id, le_rfl, fun _ => le_rfl⟩) fun _ => .refl

theorem State.dropUpdate_update : s.dropUpdate.nv.update = none ∨ ∃ f, s.dropUpdate.nv.update = some f ∧ f.mailbox ≠ none := by
  rw [State.dropUpdate]
  cases hu : s.nv.update with
  | none => exact .inl hu
  | some f =>
    rw [Option.any_some]
    split
    · exact .inl rfl
    next hm => exact .inr ⟨f, hu, by simpa using hm⟩

theorem exec_cancelUpdate (h : s.dev.keeper = true) (hs : s.mgmt.upd ≠ 0) : exec .cancelUpdate s = .next
    (({ s.dropUpdate with mgmt := { s.mgmt with upd := 0, comps := [], pkg := [] } } : State).pldm 0x1D [0]) := by
  change execCancelUpdate s = _
  rw [execCancelUpdate, State.managed_keeper h, if_neg hs, State.dropUpdate]
  dsimp only
  cases hu : s.nv.update with
  | none => rfl
  | some f =>
    cases hm : f.mailbox.isNone with
    | false => simp only [Option.any_some, hm, Bool.false_eq_true, if_false]
    | true => simp only [Option.any_some, hm, if_true]

/-- Settles O52: each command in the state that expects it. -/
theorem firmwareDevice : Obligations.FirmwareDevice := by
  unfold Obligations.FirmwareDevice
  refine ⟨?request, ?table, ?component, ?data, ?transferred, ?verified, ?applied, ?activated, ?status, ?cancelled⟩
  case request =>
    exact fun _ h hn hs => .of_within (exec_requestUpdate h hn hs) (.pldm (Within.refl.set_mgmt (by decide))) ⟨rfl, rfl⟩
  case table => exact fun _ _ h hs => .of_within (exec_passComponentTable h hs) (.pldm (Within.refl.set_mgmt (by decide))) rfl
  case component =>
    exact fun _ _ _ h hs hc => .of_within (exec_updateComponent h hs hc) (.pldm (Within.refl.set_mgmt (by decide))) rfl
  case data =>
    exact fun _ _ h hs hl => .of_within (exec_requestFirmwareData h hs hl) (.emit (Within.refl.set_mgmt (by decide))) rfl
  case transferred => exact fun _ h hs hl => .of_within (exec_transferComplete h hs hl) Within.refl.fdTo.pldm rfl
  case verified =>
    exact fun _ h hs hn hc hk => .of_within (exec_verifyComplete h hs hn hc hk) Within.refl.fwStart.fdTo.pldm ⟨rfl, rfl⟩
  case applied => exact fun _ h hs hn => .of_within (exec_applyComplete h hs hn) Within.refl.fdTo.pldm rfl
  case activated => exact fun _ h hs => .of_within (exec_activateFirmware h hs) Within.refl.fdTo.pldm rfl
  case status => exact fun _ h => .of_within (exec_getStatus h) Within.refl.pldm rfl
  case cancelled =>
    intro s h hs
    exact .of_within (exec_cancelUpdate h hs)
      (.pldm (State.within_dropUpdate.set_mgmt (by decide))) ⟨rfl, State.dropUpdate_update⟩

end

section

variable {s u v : State} {comb code src : Nat} {ch : SyncChange}

/-! ### Changes of the clocks (R287, R698, R706, R707, R711, R735, R736) -/

theorem exec_combTarget (h : s.dev.running = true) (hl : s.live = true) : exec .combTarget s = .next (s.retarget 0 false) := by
  change execCombTarget s = _
  rw [execCombTarget, State.whenB_true (by simp [h, hl])]

theorem exec_localChangeSwitch (hc : comb < 24) (hl : (s.comb comb).localCh = some (code, src))
    (hu : u = s.updComb comb fun x => { x with localCh := none }) :
    exec (.localChangeSwitch comb) s = .next (if (u.breaks [(comb, code, src)] (comb, code, src)).isEmpty
      then (u.doSwitch (comb, code, src)).settleWaiting
      else (u.refuseMove [(comb, code, src)] (comb, code, src)).settleWaiting) := by
  change execLocalChangeSwitch comb s = _
  rw [execLocalChangeSwitch, onUnit_next (decide_eq_true hc), hl]
  dsimp only
  rw [← hu]
  split
  · rfl
  · rfl

theorem exec_syncFallSwitch (hs : s.clk.sync = some ch) (hf : ch.fell = false) (ht : ch.at_ ≤ s.dev.chrono)
    (hu : u = s.makeMoves (s.movesOf ch false))
    (hv : v = u.parkAll (((s.movesOf ch false).filter fun m => (u.comb m.1).parking && (u.comb m.1).nom == m.2.1).map (·.1))) :
    exec .syncFallSwitch s = .next (if (s.movesOf ch true).isEmpty then v.syncDone ch
      else { v with clk := { v.clk with sync := some { ch with fell := true, moves := s.movesOf ch true } } }) := by
  change execSyncFallSwitch s = _
  rw [execSyncFallSwitch, hs]
  dsimp only
  rw [if_neg (by simp [hf, ht]), ← hu, ← hv]
  split
  · rfl
  · rfl

theorem exec_syncRiseSwitch (hs : s.clk.sync = some ch) (hf : ch.fell = true) (ht : ch.at_ + 2048 ≤ s.dev.chrono) :
    exec .syncRiseSwitch s = .next ((s.makeMoves (s.movesOf ch true)).syncDone ch) := by
  change execSyncRiseSwitch s = _
  rw [execSyncRiseSwitch, hs]
  exact if_neg (by simp [hf, ht])

theorem exec_clkLockFail_local (hc : comb < 24) (hl : (s.comb comb).localCh = some (code, src))
    (hu : u = s.updComb comb fun x => { x with localCh := none }) : exec (.clkLockFail comb) s = .next
      (((u.changeResult comb 2).flag (pgCmb comb) 1).report pgClk 1 0x1302 comb (1 - (s.comb comb).adpll) code).settleWaiting := by
  change execClkLockFail comb s = _
  rw [execClkLockFail, onUnit_next (decide_eq_true hc)]
  simp only [hl, hu]

theorem exec_clkLockFail_sync {m : Nat × Nat × Nat} (hc : comb < 24) (hl : (s.comb comb).localCh = none)
    (hs : s.clk.sync = some ch) (hm : (ch.moves.find? fun m => m.1 == comb) = some m) (hf : ch.failed.contains comb = false) :
    exec (.clkLockFail comb) s = .next
      (((({ s with clk := { s.clk with sync := some { ch with failed := ch.failed ++ [comb] } } } : State).changeResult comb 2).flag
        (pgCmb comb) 1).report pgClk 1 0x1302 comb (1 - (s.comb comb).adpll) m.2.1) := by
  change execClkLockFail comb s = _
  rw [execClkLockFail, onUnit_next (decide_eq_true hc)]
  simp only [hl, hs, hm, hf, Bool.false_eq_true, if_false]

theorem exec_pwrBrake (h : s.dev.running = true) :
    exec .pwrBrake s = .next (({ s with dev := { s.dev with brakeIn := true } } : State).brakeOn) := by
  change execPwrBrake s = _
  rw [execPwrBrake, State.whenB_true h]

theorem exec_brakeRelease (hb : s.clk.brake = true) (h : s.dev.keeper = true) : exec .brakeRelease s = .next
    (({ s with dev := { s.dev with brakeIn := false }, clk := { s.clk with brake := false } } : State).retarget 5 true) := by
  change execBrakeRelease s = _
  rw [execBrakeRelease, State.whenB_true (by simp [hb, h])]

/-- Settles O53: each change of the clocks by its conditions. -/
theorem clockChanges : Obligations.ClockChanges := by
  unfold Obligations.ClockChanges
  exact ⟨fun _ => exec_combTarget, fun _ _ _ _ _ => exec_localChangeSwitch, fun _ _ _ _ => exec_syncFallSwitch,
    fun _ _ => exec_syncRiseSwitch, fun _ _ _ _ _ => exec_clkLockFail_local, fun _ _ _ _ => exec_clkLockFail_sync,
    fun _ => exec_pwrBrake, fun _ => exec_brakeRelease⟩

end

section

variable {s u v : State} {comb : Nat} {codes : List Nat}

/-! ### The margins of a comb (R716, R717) -/

theorem exec_stretchStart {x : Nat} (hc : comb < 24) (ho : s.combOff comb = false) (hx : x ∈ codes) (hw : x ≤ s.warn comb) :
    exec
      (.stretchStart comb codes) s = .next ((s.setMargins comb codes).updComb comb fun x => { x with stretching := true }) := by
  have hany : (codes.any fun x => decide (x ≤ s.warn comb)) = true := List.any_eq_true.2 ⟨x, hx, decide_eq_true hw⟩
  change execStretchStart comb codes s = _
  rw [execStretchStart, onUnit_next (decide_eq_true hc), if_pos (by rw [ho, hany]; rfl)]

theorem exec_stretchEnd {skipped : Nat} (hc : comb < 24) (hs : (s.comb comb).stretching = true) (hw : ∀ x ∈ codes, s.warn comb < x)
    (hu : u = (s.setMargins comb codes).updComb comb fun x => { x with stretching := false }) :
    exec (.stretchEnd comb codes skipped) s = .next
      (u.setReg (pgCmb comb) 0x060 (satAdd 0xFFFFFFFF (u.regN (pgCmb comb) 0x060) skipped)) := by
  have hall : (codes.all fun x => decide (s.warn comb < x)) = true := List.all_eq_true.2 fun x hx => decide_eq_true (hw x hx)
  change execStretchEnd comb codes skipped s = _
  rw [execStretchEnd, onUnit_next (decide_eq_true hc), if_pos (by rw [hs, hall]; rfl), hu]

theorem State.combs_setMargins : (s.setMargins comb codes).combs = s.combs :=
  (show Within (mask [.regs]) s (s.setMargins comb codes) from Within.refl.setMargins).same .combs (by decide)

/-- A comb holds what was written to it after its margins were, and the others stay. -/
theorem State.comb_setMargins_updComb (i : s.Inv) (f : Comb → Comb) :
    ((s.setMargins comb codes).updComb comb f).comb comb = f (s.comb comb)
      ∧ ∀ k, k ≠ comb → ((s.setMargins comb codes).updComb comb f).comb k = s.comb k := by
  have hwf : swf combDflt (s.setMargins comb codes).combs = true := by rw [State.combs_setMargins]; exact i.combs
  have hsame : ∀ k, (s.setMargins comb codes).comb k = s.comb k := fun k => by rw [State.comb, State.combs_setMargins, State.comb]
  refine ⟨?_, fun k hk => ?_⟩
  · rw [State.comb_updComb _ hwf, if_pos rfl, hsame]
  · rw [State.comb_updComb _ hwf, if_neg hk, hsame]

/-- The margins are in the registers from 0x070 on. -/
theorem State.reg_setMargins {q o : Nat} (h : o < 0x070) : (s.setMargins comb codes).reg q o = s.reg q o := by
  refine List.foldlRecOn (motive := fun t => State.reg t q o = s.reg q o) _ _ rfl fun t ht m hm => ?_
  have hm4 : m < 4 := List.mem_range.1 hm
  refine (sget_sset_other ?_).trans ht
  simp only [regKey]
  omega

/-! ### The GNOMON loop (R718) -/

/-- The state in which the loop of a comb looks at its reading. -/
def State.gnomonAt (s : State) (comb m : Nat) : State :=
  (s.minderActs (comb / 4)).updComb comb fun x => { x with marginMin := m % 64 }

section
variable {m w : Nat}

theorem exec_gnomonLoop_stretched (hc : comb < 24) (ho : s.combOff comb = false) (hm : s.minded comb = true)
    (hu : u = s.gnomonAt comb m) (hv : v = u.updComb comb fun x => { x with calm := 0 }) :
    exec (.gnomonLoop comb true m w) s = .next ((if (u.comb comb).vtrim < 12 ∧ w < 125 then
      v.updComb comb fun x => { x with vtrim := x.vtrim + 1 }
      else if v.steady = false ∧ 33 < (u.comb comb).gnomN then v.gnomRequest comb ((u.comb comb).nom - 1)
      else v.updComb comb fun x => { x with shortfall := x.shortfall + 10 }).shortfallCheck comb) := by
  change execGnomonLoop comb true m w s = _
  rw [execGnomonLoop, onUnit_next (decide_eq_true hc), if_neg (by simp [ho, hm])]
  dsimp only
  rw [if_pos rfl, ← State.gnomonAt, ← hu, ← hv]
  simp only [Bool.not_eq_true']

theorem exec_gnomonLoop_close (hc : comb < 24) (ho : s.combOff comb = false) (hm : s.minded comb = true)
    (hu : u = s.gnomonAt comb m) (hr : m < u.relax comb) :
    exec (.gnomonLoop comb false m w) s = .next ((u.updComb comb fun x => { x with calm := 0 }).shortfallCheck comb) := by
  change execGnomonLoop comb false m w s = _
  rw [execGnomonLoop, onUnit_next (decide_eq_true hc), if_neg (by simp [ho, hm])]
  dsimp only
  rw [if_neg Bool.false_ne_true, ← State.gnomonAt, ← hu, if_neg (Nat.not_le.2 hr)]

theorem exec_gnomonLoop_calm (hc : comb < 24) (ho : s.combOff comb = false) (hm : s.minded comb = true)
    (hu : u = s.gnomonAt comb m)
    (hr : u.relax comb ≤ m) (hn : (u.comb comb).calm + 1 ≠ 10000) : exec (.gnomonLoop comb false m w) s = .next
      ((u.updComb comb fun x => { x with calm := x.calm + 1, shortfall := 0 }).shortfallCheck comb) := by
  change execGnomonLoop comb false m w s = _
  rw [execGnomonLoop, onUnit_next (decide_eq_true hc), if_neg (by simp [ho, hm])]
  dsimp only
  rw [if_neg Bool.false_ne_true, ← State.gnomonAt, ← hu, if_pos hr, if_neg hn]

theorem exec_gnomonLoop_back (hc : comb < 24) (ho : s.combOff comb = false) (hm : s.minded comb = true)
    (hu : u = s.gnomonAt comb m) (hr : u.relax comb ≤ m) (hn : (u.comb comb).calm + 1 = 10000)
    (hv : v = u.updComb comb fun x => { x with calm := 0, shortfall := 0 }) :
    exec (.gnomonLoop comb false m w) s = .next ((if 0 < (u.comb comb).vtrim then
      v.updComb comb fun x => { x with vtrim := x.vtrim - 1 } else if (u.comb comb).gnomN < 144 then
      v.gnomRequest comb ((u.comb comb).gnomN + 1) else v).shortfallCheck comb) := by
  change execGnomonLoop comb false m w s = _
  rw [execGnomonLoop, onUnit_next (decide_eq_true hc), if_neg (by simp [ho, hm])]
  dsimp only
  rw [if_neg Bool.false_ne_true, ← State.gnomonAt, ← hu, if_pos hr, if_pos hn, ← hv]

end

/-- Settles O54: the stretch by its margins, the loop by what the comb and its reading are. -/
theorem margins : Obligations.Margins := by
  unfold Obligations.Margins
  refine ⟨?start, ?finish, ?frame, ?startNext, ?endNext, ?volt, ?close, ?calm, ?lower, ?back⟩
  case start =>
    intro comb codes s i hc ho ⟨x, hx, hw⟩
    exact .of_within (exec_stretchStart hc ho hx hw) Within.refl.setMargins.updComb (State.comb_setMargins_updComb i _)
  case finish =>
    intro comb skipped codes s i hc hs hw
    obtain ⟨hsame, hother⟩ := State.comb_setMargins_updComb (comb := comb) (codes := codes) i fun x => { x with stretching := false }
    refine .of_within (exec_stretchEnd hc hs hw rfl) Within.refl.setMargins.updComb.setReg
      ⟨(State.comb_setReg_other ..).trans hsame, ?_, fun k hk => (State.comb_setReg_other ..).trans (hother k hk)⟩
    have hwi : Within (mask [.regs, .combs]) s ((s.setMargins comb codes).updComb comb fun x => { x with stretching := false }) :=
      Within.refl.setMargins.updComb
    have hold : ((s.setMargins comb codes).updComb comb fun x => { x with stretching := false }).regN (pgCmb comb) 0x060
        = s.regN (pgCmb comb) 0x060 := by
      rw [State.regN, State.reg_updComb_other, State.reg_setMargins (by decide), State.regN]
    rw [State.regN_setReg (hwi.inv i).regs, if_pos rfl, hold, satAdd]
    split
    · rfl
    · omega
  case frame =>
    intro comb m w stretched s hc ho hm
    obtain ⟨t, ht⟩ : ∃ t, execGnomonLoop comb stretched m w s = .next t := ⟨_, onUnit_next (decide_eq_true hc)⟩
    exact ⟨t, ht, fun f => commandFrames _ s t f ht⟩
  case startNext => exact fun _ _ _ _ => exec_stretchStart
  case endNext => exact fun _ _ _ _ _ => exec_stretchEnd
  case volt =>
    intro comb m w s u hc ho hm hu hv hw
    rw [exec_gnomonLoop_stretched hc ho hm hu rfl, if_pos ⟨hv, hw⟩]
  case close => exact fun _ _ _ _ _ => exec_gnomonLoop_close
  case calm => exact fun _ _ _ _ _ => exec_gnomonLoop_calm
  case lower =>
    intro comb m w s u v hc ho hm hu hfull hv
    rw [exec_gnomonLoop_stretched hc ho hm hu hv, if_neg (by omega)]
  case back => exact fun _ _ _ _ _ _ => exec_gnomonLoop_back

end

section

variable {s u v : State} {comb : Nat}

/-! ### Temperature (R740, R742, R744) -/

/-- Only what a change makes of the comb's own state counts. -/
theorem State.updComb_congr {f g : Comb → Comb} (h : f (s.comb comb) = g (s.comb comb)) :
    s.updComb comb f = s.updComb comb g := by
  rw [State.comb] at h
  rw [State.updComb, State.updComb, supd, supd, h]

theorem exec_tempSample_hot {sensors : List Nat} (hc : comb < 24) (ho : s.combOff comb = false) (hm : s.minded comb = true)
    (hu : u = s.setSensors comb sensors) (ht : 105 ≤ (u.comb comb).temp) (hh : 1 ≤ (u.comb comb).hot) (i : s.Inv)
    (hv : v = u.updComb comb fun x => { x with hot := x.hot + 1, cool := 0 }) (hp : (v.parkComb comb 1).mayUnpark comb = false) :
    exec (.tempSample comb sensors) s = .next (v.parkComb comb 1) := by
  have hw : Within (mask [.regs, .combs]) s u := hu ▸ Within.refl.setSensors
  have htwo : 2 ≤ (v.comb comb).hot := by
    rw [hv, State.comb_updComb _ (hw.inv i).combs, if_pos rfl]
    exact Nat.succ_le_succ hh
  change execTempSample comb sensors s = _
  rw [execTempSample, onUnit_next (decide_eq_true hc), if_neg (by simp [ho, hm])]
  dsimp only
  rw [← hu, State.updComb_congr (s := u) (g := fun x => { x with hot := x.hot + 1, cool := 0 }), ← hv, if_pos htwo,
    if_neg (by simp [hp])]
  have hcool : decide ((u.comb comb).temp ≤ 90) = false := decide_eq_false (by omega)
  simp only [ht, hcool, if_true, Bool.false_and, Bool.false_eq_true, if_false]

theorem exec_thermalLoop {frame : Nat} (hf : frame < 6) (hl : bit s.dev.minderLost frame = false) (hu : u = s.minderActs frame) :
    exec (.thermalLoop frame) s = .next
      (((((List.range 4).map fun i => 4 * frame + i).filter fun c => !u.combOff c && !u.combParked c).foldl
        State.throttleComb u).leaveThrottle.retarget 2 false) := by
  change execThermalLoop frame s = _
  rw [execThermalLoop, onUnit_next (decide_eq_true hf), if_neg (by simp [hl]), hu]

theorem exec_thermalTrip {sensor temp : Nat} (hc : comb < 24) (hs : sensor < 16) (ht : 115 ≤ temp) (hl : s.dev.tripLatched = false)
    (hu : u = { s with dev := { s.dev with thermtrip := true, tripLatched := true, tripNew := true,
                                           tripLast := w32 (2 ^ 31 + comb * 2 ^ 24 + sensor * 2 ^ 20 + temp % 256) } }) :
    exec (.thermalTrip comb sensor temp) s = .next (((List.range 24).foldl State.combLost u).failWith 3) := by
  change execThermalTrip comb sensor temp s = _
  rw [execThermalTrip, onUnit_next (by simp [hc, hs]), if_neg (by simp [ht, hl]), hu]

/-! ### Isolation and sensing (R727 to R729, R792 to R794) -/

theorem exec_combIsolated {undervolt : Bool} {a b c d : State} (hc : comb < 24) (ho : s.combOff comb = false)
    (ha : a = ((s.flag (pgCmb comb) 0).flag pgPwr 2).setReg pgPwr 0x040 (putBits (s.regN pgPwr 0x040) comb comb 1))
    (hb : b = ((a.log (pgCmb comb) 0x0701 comb (b2n undervolt) 0 s.oldest).abandonAll
      { page := pgCmb comb, code := 0x0701, a0 := comb, a1 := b2n undervolt, a2 := 0, det := comb }).combLost comb)
    (hcut : c = (((List.range 64).foldl (fun s n => s.replaceComb comb n) b).distWrite.queueSwitch true).switchWithout)
    (hd : d = (List.range ((logicals .m).filter fun l => s.mInService comb l).length).foldl (fun s _ => s.licenceReturn comb) c) :
    exec (.combIsolated comb undervolt) s = .next
      (d.attachAll (((List.range 120).map (mkSite comb)).filter fun k => !s.die.holes.contains k)).review := by
  change execCombIsolated comb undervolt s = _
  rw [execCombIsolated, onUnit_next (decide_eq_true hc), if_neg (by simp [ho])]
  dsimp only
  rw [← ha, ← hb, ← hcut, ← hd]

theorem exec_senseFallback {opened : Bool} (hc : comb < 24) (ho : s.combOff comb = false) (hs : (s.comb comb).sense = false) :
    exec (.senseFallback comb opened) s = .next
      ((s.updComb comb fun x => { x with sense := true }).report (pgCmb comb) 5 0x0703 comb (b2n opened) 0) := by
  change execSenseFallback comb opened s = _
  rw [execSenseFallback, onUnit_next (decide_eq_true hc), if_neg (by simp [ho, hs])]

theorem State.combs_report (q b code a0 a1 a2 : Nat) : (s.report q b code a0 a1 a2).combs = s.combs :=
  (show Within (mask [.regs, .ev, .out]) s (s.report q b code a0 a1 a2) from Within.refl.report).same .combs (by decide)

/-- A report leaves its fault bit set. -/
theorem State.flagged_report (h : swf regDflt s.regs = true) {q b : Nat} (hb : b < 32) (code a0 a1 a2 : Nat) :
    (s.report q b code a0 a1 a2).flagged q b = true := by
  rw [State.flagged, State.regN, State.reg, State.regs_report]
  exact State.flagged_flag h hb

/-- Settles O55: the readings, the loop, the trip, the isolation and the sense wire, each by its conditions. -/
theorem thermal : Obligations.Thermal := by
  unfold Obligations.Thermal
  refine ⟨?hot, ?loop, ?trip, ?isolated, ?sense⟩
  case hot => exact fun _ _ _ _ _ => exec_tempSample_hot
  case loop => exact fun _ _ _ => exec_thermalLoop
  case trip => exact fun _ _ _ _ _ => exec_thermalTrip
  case isolated => exact fun _ _ _ _ _ _ _ => exec_combIsolated
  case sense =>
    intro comb opened s i hc ho hs
    have hcomb : ∀ k, ((s.updComb comb fun x => { x with sense := true }).report (pgCmb comb) 5 0x0703 comb (b2n opened) 0).comb k
        = (s.updComb comb fun x => { x with sense := true }).comb k := fun k => by
      rw [State.comb, State.combs_report, State.comb]
    refine .of_within (exec_senseFallback hc ho hs) Within.refl.updComb.report ⟨?_, ?_, fun k hk => ?_⟩
    · rw [hcomb, State.comb_updComb _ i.combs, if_pos rfl]
    · exact State.flagged_report (s := s.updComb comb fun x => { x with sense := true }) (q := pgCmb comb) (b := 5) i.regs
        (by decide) 0x0703 comb (b2n opened) 0
    · rw [hcomb, State.comb_updComb _ i.combs, if_neg hk]

/-! ### Power (R730 to R733, R737, R739, R764) -/

theorem exec_ledgerClear {src : Source} (h : s.writeRes src pgLdg = 0) :
    exec (.ledgerClear src) s = .next ((s.clearLedger.order src pgLdg 0x04C 0).goReply src pgLdg 0x04C 0) := by
  change execLedgerClear src s = _
  rw [execLedgerClear, State.goWrite_free h]

/-- Settles O56: an interval in its steps; the Ledger as it is cleared. -/
theorem power : Obligations.Power := by
  unfold Obligations.Power
  refine ⟨?interval, ?clear⟩
  case interval =>
    intro r p s a b c d h ht hp hl ha hb hc hin hd
    change execPowerInterval r s = _
    rw [execPowerInterval, State.whenB_true (by simp [h, ht])]
    simp only [hp, hl, Bool.false_eq_true, if_false, ← ha, ← hb, ← hc, ← hin, ← hd]
  case clear => exact fun _ _ h => ⟨exec_ledgerClear h, rfl, rfl⟩

/-! ### Minders (R767 to R769) -/

section
variable {frame : Nat}

theorem exec_minderRestart (hf : frame < 6) (hl : s.live = true) (hk : s.dev.keeper = true) (hm : bit s.dev.minderLost frame = false)
    (hu : u = ((frameCombs frame).foldl (fun s c => s.updComb c fun x => { x with thermN := s.brakeN }) s).retarget 2 true)
    (hv : v = { u with dev := { u.dev with minderRestarts := (frame, u.dev.chrono) :: u.dev.minderRestarts,
                                           minderDown := putBits u.dev.minderDown frame frame 1 } }) :
    exec (.minderRestart frame) s = .next (if 2 ≤ v.restarts frame then
      (v.log (pgFrm frame) 0x0801 frame (v.restarts frame) 0 0).loseMinder frame
      else v.log (pgFrm frame) 0x0801 frame (v.restarts frame) 0 0) := by
  change execMinderRestart frame s = _
  rw [execMinderRestart, onUnit_next (decide_eq_true hf), State.whenB_true (by simp [hl, hk, hm])]
  dsimp only
  rw [← hu, ← hv]

theorem exec_minderLost (hf : frame < 6) (hl : s.live = true) (hk : s.dev.keeper = true) (hm : bit s.dev.minderLost frame = false)
    (hd : bit s.dev.minderDown frame = true) : exec (.minderLost frame) s = .next (s.loseMinder frame) := by
  change execMinderLost frame s = _
  rw [execMinderLost, onUnit_next (decide_eq_true hf), State.whenB_true (by simp [hl, hk, hm, hd])]

end

theorem exec_keeperWatchdog (h : s.dev.running = true) (hk : s.dev.keeper = true) : exec .keeperWatchdog s = .next
    (({ s with dev := { s.dev with keeper := false, wdog := some s.dev.chrono } } : State).brakeOn.failWith 4) := by
  change execKeeperWatchdog s = _
  rw [execKeeperWatchdog, State.whenB_true (by simp [h, hk])]

/-- Settles O57: the branches of the minders' commands and of the watchdog. -/
theorem minders : Obligations.Minders := by
  unfold Obligations.Minders
  exact ⟨fun _ _ _ _ => exec_minderRestart, fun _ _ => exec_minderLost, fun _ => exec_keeperWatchdog⟩

end

section

variable {s u : State} {site : Nat}

/-! ### The Keeper's care of its units (R782 to R785, R828, R830, R859) -/

theorem isSite_of_lt (h : site < 2880) : isSite site = true := decide_eq_true h

theorem exec_keeperFenceOrder (h : site < 2880) (hl : s.live = true) (hk : s.dev.keeper = true) (hr : s.inRun site = true) :
    exec (.keeperFenceOrder site) s = .next (s.leaveRun site .fenced).review := by
  change execKeeperFenceOrder site s = _
  rw [execKeeperFenceOrder, onUnit_next (isSite_of_lt h), State.whenB_true (by simp [hl, hk, hr])]

/-- A known-answer run of a unit that returns. -/
theorem exec_karComplete {passed : Bool} (h : site < 2880) (hl : s.live = true) (hk : s.dev.keeper = true)
    (hq : (s.tile site).st = .quarantine) (hr : (s.tile site).rotating = false) (hre : s.die.reinst = []) (hsi : s.die.standIns = []) :
    exec (.karComplete site passed) s = .next (if passed then s.returnUnit site else (s.karFailed site).review) := by
  change execKarComplete site passed s = _
  rw [execKarComplete, onUnit_next (isSite_of_lt h), State.whenB_true (by simp [hl, hk, hq, hr, hre]), hsi]
  rfl

theorem exec_reinstateStage {l : Nat} (h : site < 2880) (hf : s.die.reinst.find? (fun x => x.1 == site) = some (site, l))
    (hk : s.dev.keeper = true) (hn : s.die.reinstStaged = []) (hp : (s.page (pgDfm (siteComb site))).pending = false)
    (hb : s.shadowBusy = false) (hsi : s.die.standIns = []) (hu : u = s.stageRemap (siteComb site) l (remapFor site))
    (hq : u.switchQueued = true) :
    exec (.reinstateStage site) s = .next { u with die := { u.die with reinstStaged := u.die.reinstStaged ++ [(site, l)] } } := by
  have hq' : State.switchQueued { u with die := { u.die with reinstStaged := u.die.reinstStaged ++ [(site, l)] } } = true := hq
  change execReinstateStage site s = _
  rw [execReinstateStage, onUnit_next (isSite_of_lt h), hf]
  dsimp only
  rw [if_neg (by simp [hk, hn, hp, hb, hsi]), ← hu, if_pos hq']

theorem exec_routerProbeTimeout (h : site < 2880) (hl : s.live = true) (hk : s.dev.keeper = true) (hh : s.physHole site = false)
    (hr : s.suspectRouter site = true) : exec (.routerProbeTimeout site) s = .next
      (((s.appendDefect (.router site) (unitRef 4 (siteComb site) (siteIdx site)) (pgRouter site)).routerLost site).queueSwitch
        true) := by
  change execRouterProbeTimeout site s = _
  rw [execRouterProbeTimeout, onUnit_next (isSite_of_lt h), State.whenB_true (by simp [hl, hk, hh, hr])]

theorem exec_fieldRotation {sites : List Nat} (h : sites.all fieldKind = true) (hl : s.live = true) (hk : s.dev.keeper = true)
    (ho : s.fieldOn = true) (hr : s.rotating = []) (hn : (sites.map siteComb).Nodup) :
    exec (.fieldRotation sites) s = .next (sites.foldl State.rotateOne s) := by
  change execFieldRotation sites s = _
  rw [execFieldRotation, onUnit_next h, State.whenB_true (by rw [hl, hk, ho, hr, decide_eq_true hn]; rfl)]

theorem exec_fieldTestDone {passed : Bool} (h : fieldKind site = true) (hl : s.live = true) (hk : s.dev.keeper = true)
    (hq : (s.tile site).st = .quarantine) (hr : (s.tile site).rotating = true)
    (hu : u = (s.updTile site fun t => { t with rotating := false }).incReg pgBst 0x054) :
    exec (.fieldTestDone site passed) s = .next (if passed then u.returnUnit site else
      ((((u.flag pgBst 1).setReg pgBst 0x05C (tileRef site)).log (pgKpr 0) 0x1703 (tileRef site) 0 0 0).strikeTile site
        0x1703).review) := by
  change execFieldTestDone site passed s = _
  rw [execFieldTestDone, onUnit_next h, State.whenB_true (by rw [hl, hk, hq, hr]; rfl), hu]

theorem exec_scanEnable {ctl : Word} (hw : s.writeRes .keeper pgBst = 0) (hs : scanSite ctl.toNat = some site)
    (hb : bit ctl.toNat 31 = true) (hst : (s.tile site).st = .benched ∨ (s.tile site).st = .quarantine) :
    exec (.scanEnable .keeper ctl) s = .next
      ((((s.zeroise site).setReg pgBst 0x060 (2 ^ 31 + ctl.toNat % 2 ^ 24)).log site 0x1704 (tileRef site) 1 0 0).order .keeper
        pgBst 0x060 0) := by
  have hreply : ∀ t : State, t.goReply .keeper pgBst 0x060 0 = t := fun t => if_neg fun h => nomatch h.1
  change execScanEnable .keeper ctl s = _
  rw [execScanEnable, State.goWrite_free hw, hreply]
  simp only [hs, hb, hst, true_and, if_true]
  rfl

/-- Settles O58: each command of the Keeper's care by its conditions. -/
theorem tileCare : Obligations.TileCare := by
  unfold Obligations.TileCare
  refine ⟨?fence, ?known, ?reinstate, ?router, ?rotation, ?field, ?scan⟩
  case fence => exact fun _ _ => exec_keeperFenceOrder
  case known =>
    exact fun _ _ h hl hk hq hr hre hsi => ⟨exec_karComplete h hl hk hq hr hre hsi, exec_karComplete h hl hk hq hr hre hsi⟩
  case reinstate => exact fun _ _ _ _ => exec_reinstateStage
  case router => exact fun _ _ => exec_routerProbeTimeout
  case rotation => exact fun _ _ => exec_fieldRotation
  case field => exact fun _ _ _ h hl hk hq hr hu => ⟨exec_fieldTestDone h hl hk hq hr hu, exec_fieldTestDone h hl hk hq hr hu⟩
  case scan => exact fun _ _ _ => exec_scanEnable

end

end Sys2Proof.Machine
